-- ==== Sys2Proof/Word.lean ====
section
/-!
DEFINITION. The words of the engine: bytes, the 64-bit registers of the register map (R567), and the 32-bit codes
that hold one number of any format (R240). Byte order and bit fields are in Machine/Bits.lean.
-/

namespace Sys2Proof

/-- One byte of local memory, package memory, the Kiln image or a management frame. -/
abbrev Byte := BitVec 8

/-- A code of one number: FP32 codes fill it, narrower formats leave the upper bits zero. -/
abbrev Code := BitVec 32

/-- A register of the register map is 64 bits wide (R567). -/
abbrev Reg := BitVec 64

end Sys2Proof
end

