-- ==== Sys2Proof/Types.lean ====
section
/-!
DEFINITION. The types of the operands that commands carry: what a port answers, what arrives with an event.
-/

namespace Sys2Proof

/-- The access a translation answer belongs to (R375): a slice-cache miss, a block of a FETCH or READ stream, or an
access to a context's cask. -/
inductive Access where
  | miss (reg : Nat)
  | block (stream block addr : Nat)
  | cask (ctx addr : Nat)
  deriving DecidableEq, Repr

/-- Answers of the translation unit (R375, R596): TRANSLATED with the page size's code and the physical address bits [47:12]; `reserved` is
code 0b11. -/
inductive Xlate where
  | translated (size : Nat := 0) (page : Nat := 0)
  | needsPage | failed | reserved
  deriving DecidableEq, Repr

/-- A code of 0b11 is taken as FAILED (R596). -/
def Xlate.taken : Xlate → Xlate
  | .translated size page => .translated size page
  | .needsPage => .needsPage
  | .failed => .failed
  | .reserved => .failed

/-- Whether an answer is TRANSLATED. -/
def Xlate.found : Xlate → Bool
  | .translated _ _ => true
  | .needsPage => false
  | .failed => false
  | .reserved => false

/-- Outcomes of the refetch of a hitched address (R493). -/
inductive Refetch where
  | installed | poison | failed
  deriving DecidableEq, Repr

/-- A word of an SRAM that a scrub or a consumer reads (R485, R487, R513): of a slice-cache slot, or of a node-cache row of a lay, by its
number among the 16 of the row; of a granule of the query store, among the granule's 4; in a row of a lay's leaf operand buffer (R294); in a
row of an instance whose loss stops the slice. -/
inductive ScrubRow where
  | sliceLine (set way word : Nat)
  | nodeLine (lay row word : Nat)
  | granule (g word : Nat)
  | operand (lay row : Nat)
  | control (unit row : Nat)
  deriving DecidableEq, Repr

/-- Whether a row stands in a lay, which wakes for its scrub (R616): the scrubber of the others runs during a nap. -/
def ScrubRow.ofLay : ScrubRow → Bool
  | .nodeLine _ _ _ => true
  | .operand _ _ => true
  | .sliceLine _ _ _ => false
  | .granule _ _ => false
  | .control _ _ => false

/-- Outcomes of the word code on a read (R483); `ok` is CLEAN. -/
inductive WordCode where
  | ok | corrected | poisoned | uncorrectable
  deriving DecidableEq, Repr

/-- Whether the data of an outcome is marked poisoned: every consumer treats POISONED and UNCORRECTABLE alike (R483). -/
def WordCode.bad : WordCode → Bool
  | .ok => false
  | .corrected => false
  | .poisoned => true
  | .uncorrectable => true

/-- The words that a command's own reads of SRAMs met and that did not decode CLEAN (R482, R483). -/
abbrev Decodes := List (ScrubRow × WordCode)

/-- What a slice's read of a home map gives (R121, R123): the bytes of the whole lines that hold the map; or the first outcome that is no
data, with the address that met NEEDS_PAGE or a FAILED translation. -/
inductive MapRead where
  | lines (bytes : List Byte)
  | needsPage (addr : Nat)
  | failed (addr : Nat)
  | poison
  deriving DecidableEq, Repr

/-- A slice's read of a context entry (R384, R468, R470): the fixed and the live block as they came, 112 bytes, or none where they came as
they were last written; and whether memory gave poison. -/
structure EntryRead where
  entry : Option (List Byte) := none
  poison : Bool := false
  deriving DecidableEq, Repr

/-- What self-test finds (R453): each defect by slice, kind (R448, R526), unit and index, in the order found; the rows and columns of the
Capstan's SRAMs that its spares replace, by kind and index; the slices whose router logic fails; whether the Capstan pair passes. -/
structure Selftest where
  defects : List (Nat × Nat × Nat × Nat)
  capstan : List (Nat × Nat) := []
  deadRouters : List Nat
  capstanOk : Bool
  deriving DecidableEq, Repr

/-- A journal entry as a proxy reads it (R497, R505): its number, the batch, whose `core` is the CORE field with the die in bits 13 to 9,
and the runs of its ledger, each a first cask unit and a length. -/
structure JournalRead where
  handle : Nat
  ctx : Nat
  batchId : Nat
  core : Nat
  jstate : Nat
  acked : Nat
  runs : List (Nat × Nat)
  deriving DecidableEq, Repr

/-- A flit (R401, R402): the fields of its header, MHDR among them, and the body bytes of the words that carry data; and what its receiver
sees of it: whether every word passes the word code, how many words it corrected, and the two framing bytes. `poison` are the numbers of the
words that the sender stored poisoned (R484). -/
structure Flit where
  vc : Nat
  first : Bool
  last : Bool
  mtype : Nat
  seq : Nat
  ack : Nat
  nak : Bool
  dest : Nat
  src : Nat
  words : Nat
  epoch : Nat
  wordsOk : Bool
  corrected : Nat
  frameSeq : Nat
  frameMark : Nat
  mhdr : Nat := 0
  body : List Byte := []
  poison : List Nat := []
  deriving DecidableEq, Repr

end Sys2Proof
end

