-- ==== Sys2Proof/Syntax.lean ====
section
/-!
DEFINITION. The commands of the block: one constructor per row of spec/opcode_table.json, in the table's order, each with the
ids of the units it names and the data that arrive with it (log entry 5). The table gives no bits.
-/

namespace Sys2Proof

/-- A command: an operation at a port of the block, or an event of the engine's own. -/
inductive Instr where
  /-- NSUB (R137). -/
  | nsub (die : Nat) (core : Nat) (off : Nat)
  /-- NSUB_G (R138). -/
  | nsubG (die : Nat) (core : Nat) (off : Nat) (mask : BitVec 64)
  /-- SUBMISSION_RE_PRESENTED (R505). -/
  | submissionRePresented (die : Nat) (core : Nat) (off : Nat) (isG : Bool) (mask : BitVec 64) (batchId : Nat)
  /-- DESCRIPTOR_READ_DONE (R152). -/
  | descriptorReadDone (slice : Nat) (idx : Nat) (desc : List Byte)
  /-- ACTIVATION_GRANTED (R469); `reads`: each slice's read of the entry, by slice id. -/
  | activationGranted (reads : List EntryRead)
  /-- ACTIVATION_END (R469). -/
  | activationEnd (ctx : Nat)
  /-- INDEX_READ_DONE (R150). -/
  | indexReadDone (slice : Nat) (idx : Nat) (entries : List Nat) (detect : Option Nat)
  /-- CASK_BLOCK_GIVEN (R343). -/
  | caskBlockGiven (slice : Nat) (block : Nat)
  /-- RESERVATIONS_GRANTED (R150). -/
  | reservationsGranted (slice : Nat) (idx : Nat)
  /-- RECORDS_READ_DONE (R71). -/
  | recordsReadDone (slice : Nat) (idx : Nat) (recs : List (List Byte × List Byte)) (detect : Option Nat)
  /-- LEDGER_ACKNOWLEDGED (R150). -/
  | ledgerAcknowledged (slice : Nat) (idx : Nat)
  /-- BIN_FLUSH_AGE (R198). -/
  | binFlushAge (slice : Nat) (bin : Nat)
  /-- OVERFLOW_BIN_MOVE (R423). -/
  | overflowBinMove (slice : Nat) (lay : Nat) (bank : Nat)
  /-- GATHER_AGE (R202). -/
  | gatherAge (slice : Nat) (gather : Nat)
  /-- BIN_RELEASE (R203). -/
  | binRelease (slice : Nat) (lay : Nat) (reads : Decodes := [])
  /-- BOX_NODE_VISIT (R208). -/
  | boxNodeVisit (slice : Nat) (lay : Nat) (walker : Nat) (reads : Decodes := [])
  /-- NODE_CACHE_FILL (R325). -/
  | nodeCacheFill (slice : Nat) (lay : Nat) (reg : Nat) (reads : Decodes := [])
  /-- PRIMITIVE_TEST (R222). -/
  | primitiveTest (slice : Nat) (lay : Nat) (walker : Nat) (reads : Decodes := [])
  /-- TILE_RESERVATION_COMPLETE (R295). -/
  | tileReservationComplete (slice : Nat) (lay : Nat) (job : Nat) (tile : Nat)
  /-- TILE_STEP (R296). -/
  | tileStep (slice : Nat) (lay : Nat) (job : Nat) (tile : Nat) (reads : Decodes)
  /-- TILE_COMPLETE (R298). -/
  | tileComplete (slice : Nat) (lay : Nat) (job : Nat) (tile : Nat) (reads : Decodes)
  /-- GATHER_RUN (R293). -/
  | gatherRun (slice : Nat) (lay : Nat) (reads : Decodes := [])
  /-- POINTER_QUEUE_SEND (R418). -/
  | pointerQueueSend (slice : Nat) (port : Nat) (read : WordCode := .ok)
  /-- MIGRATE (R419). -/
  | migrate (slice : Nat) (idx : Nat) (read : Option (Nat × WordCode) := none)
  /-- MIGRATE_PTR (R419). -/
  | migratePtr (slice : Nat) (idx : Nat) (read : Option (Nat × WordCode) := none)
  /-- RESULT (R420). -/
  | result (slice : Nat) (idx : Nat) (reads : Decodes := [])
  /-- RESULT_WRITE_ACK (R183). -/
  | resultWriteAck (slice : Nat) (id : Nat) (reads : Decodes := [])
  /-- BANK_UNAVAILABLE (R188). -/
  | bankUnavailable (slice : Nat) (id : Nat)
  /-- BANK_RETRY_TIMER (R188). -/
  | bankRetryTimer (slice : Nat) (id : Nat) (refused : Bool)
  /-- JOURNAL_WRITE_SETTLED (R500). -/
  | journalWriteSettled (slice : Nat)
  /-- MAINT_DESC (R326). -/
  | maintDesc (slice : Nat) (idx : Nat)
  /-- MAINT_CONDITIONS_MET (R69). -/
  | maintConditionsMet (slice : Nat)
  /-- MAINT_ACK (R326). -/
  | maintAck (slice : Nat) (idx : Nat)
  /-- FILL_SECTOR_ARRIVAL (R316). -/
  | fillSectorArrival (slice : Nat) (reg : Nat) (sector : Nat) (data : List Byte) (poison : Bool) (port : WordCode := .ok) (reads : Decodes := [])
  /-- EVICTION_WRITE_ACK (R323); `read`: how the words of the entry decoded as they went to memory (R487). -/
  | evictionWriteAck (slice : Nat) (idx : Nat) (read : WordCode := .ok)
  /-- GATE (R331). -/
  | gate (slice : Nat) (way : Nat)
  /-- UNGATE (R332). -/
  | ungate (slice : Nat) (way : Nat)
  /-- WAY_CLEAN_SWEEP (R331). -/
  | wayCleanSweep (slice : Nat) (way : Nat)
  /-- WAY_GATED (R331). -/
  | wayGated (slice : Nat) (way : Nat)
  /-- WAY_AWAKE (R332). -/
  | wayAwake (slice : Nat) (way : Nat)
  /-- STREAM_BLOCK_ISSUE (R367); `mesh`: how the words of a result write decode at the mesh port (R487). -/
  | streamBlockIssue (slice : Nat) (stream : Nat) (reads : Decodes := []) (mesh : WordCode := .ok)
  /-- STREAM_BURST_FETCH (R364). -/
  | streamBurstFetch (slice : Nat) (stream : Nat)
  /-- STREAM_TRANSFER_COMPLETE (R365). -/
  | streamTransferComplete (slice : Nat) (stream : Nat) (block : Nat)
  /-- CREDIT_RETURN (R368). -/
  | creditReturn (slice : Nat) (stream : Nat) (block : Nat) (reads : Decodes := [])
  /-- TRANSLATION_RESPONSE (R375). -/
  | translationResponse (slice : Nat) (access : Access) (answer : Xlate)
  /-- PAGE_RESPONSE (R378). -/
  | pageResponse (asid : Nat) (page : Nat) (ok : Bool)
  /-- PAGE_TIMEOUT (R379). -/
  | pageTimeout (asid : Nat) (page : Nat)
  /-- HITCH_REFETCH_DONE (R493). -/
  | hitchRefetchDone (slice : Nat) (addr : Nat) (outcome : Refetch)
  /-- REPLAY_RELEASE (R494); `reads`: the words that the first reading of the ledger meets in the slice cache (R482). -/
  | replayRelease (slice : Nat) (batch : Nat) (reads : Decodes)
  /-- SCRUB (R485). -/
  | scrub (slice : Nat) (row : ScrubRow) (outcome : WordCode)
  /-- ROTATION_STEP (R517). -/
  | rotationStep (slice : Nat)
  /-- ROTATION_TEST_DONE (R517). -/
  | rotationTestDone (slice : Nat) (lay : Nat) (pass : Bool)
  /-- FRAME_TICK (R382). -/
  | frameTick
  /-- SLICE_PASS_EMPTY (R383). -/
  | slicePassEmpty (slice : Nat) (ctx : Nat)
  /-- PASS_START (R384); `reads`, `maps`: each slice's read of the entry and of the home map, by slice id. -/
  | passStart (ctx : Nat) (reads : List EntryRead) (maps : List MapRead)
  /-- DEADLINE_MISSED (R387). -/
  | deadlineMissed (ctx : Nat)
  /-- VALIDATE (R464). -/
  | validate (ctx : Nat)
  /-- INVALIDATE (R464). -/
  | invalidate (ctx : Nat)
  /-- STAGE (R464). -/
  | stage (ctx : Nat) (withBoundary : Bool)
  /-- BOUNDARY (R464). -/
  | boundary (ctx : Nat)
  /-- CLEAR_FAULT (R464). -/
  | clearFault (ctx : Nat)
  /-- POWER_START (R430). -/
  | powerStart
  /-- NVM_GRANT (R433). -/
  | nvmGrant
  /-- DISCOVERY_DONE (R434); `sfdp`: the bytes of the SFDP space as read, from address 0 (R433). -/
  | discoveryDone (sfdp : List Byte)
  /-- IMAGE_HEADER_ARRIVED (R435). -/
  | imageHeaderArrived (bytes : List Byte)
  /-- HINTS_ARRIVED (R454). -/
  | hintsArrived (bytes : List Byte)
  /-- IMAGE_READ_DONE (R450). -/
  | imageReadDone (bytes : List Byte)
  /-- SELFTEST_DONE (R453). -/
  | selftestDone (found : Selftest)
  /-- ROPE_TRAINING_DONE (R400). -/
  | ropeTrainingDone (up : List (Nat × Nat × Nat))
  /-- ENGINE_TIME_START (R609). -/
  | engineTimeStart (frame : Option (BitVec 128 × Bool × Nat))
  /-- ENGINE_TIME_SYNC (R606). -/
  | engineTimeSync (slice : Nat)
  /-- TIMEBASE_FRAME (R610). -/
  | timebaseFrame (bits : BitVec 128) (decodes : Bool) (sinceMark : Nat)
  /-- TIMEBASE_HOLDOVER (R610). -/
  | timebaseHoldover
  /-- HEARTBEAT (R502). -/
  | heartbeat (slice : Nat)
  /-- HEARTBEAT_CHECK (R502). -/
  | heartbeatCheck
  /-- ROUTER_PROBE_ANSWER (R504). -/
  | routerProbeAnswer (slice : Nat) (clean : Bool)
  /-- FENCES_CONFIRMED (R505). -/
  | fencesConfirmed (die : Nat) (mesh : Bool := true) (mem : Bool := true)
  /-- JOURNAL_READ_DONE (R505). -/
  | journalReadDone (die : Nat) (entries : List (Option JournalRead))
  /-- EPOCH_CHANGE (R415). -/
  | epochChange (slice : Nat)
  /-- EPOCH_DRAIN_REPORT (R415). -/
  | epochDrainReport (slice : Nat)
  /-- HOLD_CLEARED (R506). -/
  | holdCleared (slice : Nat)
  /-- FLIT_RECEIVED (R408). -/
  | flitReceived (slice : Nat) (port : Nat) (module : Nat) (flit : Flit)
  /-- CREDIT (R413). -/
  | credit (slice : Nat) (port : Nat) (mig : Nat) (ret : Nat) (mnt : Nat) (epoch : Nat)
  /-- CREDIT_RETURN_TIMER (R413). -/
  | creditReturnTimer (slice : Nat) (port : Nat)
  /-- RETRAIN_DONE (R410). -/
  | retrainDone (slice : Nat) (port : Nat) (module : Nat) (ok : Bool)
  /-- LOCKSTEP_MISMATCH (R510); `lost`: the register of the Capstan window whose protected word neither half still decodes (R512). -/
  | lockstepMismatch (lost : Option Nat)
  /-- CAPSTAN_RESTART_DONE (R510). -/
  | capstanRestartDone
  /-- LOGLINE_RECORD_ARRIVAL (R535). -/
  | loglineRecordArrival (slice : Nat)
  /-- RATE_LIMITER_TOKEN (R536). -/
  | rateLimiterToken (slice : Nat)
  /-- LOG_RSEL (R541); `decodes`: whether the words of the record that it selects decode. -/
  | logRsel (value : Reg) (decodes : Bool)
  /-- LOG_MARK_WRITE (R543). -/
  | logMarkWrite (thresh : Bool) (value : Reg)
  /-- IRQ_ENABLE_WRITE (R578). -/
  | irqEnableWrite (value : Reg)
  /-- CNT_SEL_WRITE (R588). -/
  | cntSelWrite (slice : Nat) (k : Nat) (value : Reg)
  /-- CNT_CTL_WRITE (R590). -/
  | cntCtlWrite (slice : Nat) (value : Reg)
  /-- CAPTURE_REARM (R585). -/
  | captureRearm (slice : Nat)
  /-- QS_DIAG_SEL (R359). -/
  | qsDiagSel (slice : Nat) (value : Reg)
  /-- CAP_REPAIR_SEL (R526). -/
  | capRepairSel (value : Reg)
  /-- READ_CLEAR (R15). -/
  | readClear (off : Nat)
  /-- REGISTER_WRITE (R15). -/
  | registerWrite (off : Nat) (size : Nat) (value : Reg)
  /-- PWR_REQ_ON (R615). -/
  | pwrReqOn (slice : Nat)
  /-- PWR_REQ_TRIM (R614). -/
  | pwrReqTrim (slice : Nat) (lay : Nat)
  /-- PWR_REQ_NAP (R616). -/
  | pwrReqNap (slice : Nat)
  /-- TRIM_DRAINED (R614). -/
  | trimDrained (slice : Nat)
  /-- LAY_POWERED_ON (R615). -/
  | layPoweredOn (slice : Nat)
  /-- NAP_IDLE_TIMER (R616). -/
  | napIdleTimer (slice : Nat)
  /-- NAP_WAKE (R616). -/
  | napWake (slice : Nat)
  /-- STRETCH_WARN_RISE (R604). -/
  | stretchWarnRise (slice : Nat) (droop : Bool)
  /-- STRETCH_WARN_FALL (R604). -/
  | stretchWarnFall (slice : Nat) (droop : Bool)
  /-- STRETCH_RESTORE (R604). -/
  | stretchRestore (slice : Nat)
  /-- SLICE_POWER_LOSS (R612). -/
  | slicePowerLoss (slice : Nat) (trip : Bool)
  /-- POWER_LOSS (R612). -/
  | powerLoss
  /-- ENGINE_RESET (R612). -/
  | engineReset (svcRail : Bool)
  /-- TEST_RESET (R612). -/
  | testReset (wrapper : Bool)
  /-- GET_STATUS (R550). -/
  | getStatus (tag : Nat) (cnt : Nat) (body : List Byte)
  /-- OPEN_CHALLENGE (R551). -/
  | openChallenge (tag : Nat) (cnt : Nat) (body : List Byte)
  /-- OPEN_RESPONSE (R551). -/
  | openResponse (tag : Nat) (cnt : Nat) (body : List Byte)
  /-- CLOSE (R553). -/
  | close (tag : Nat) (cnt : Nat) (body : List Byte) (mac : List Byte)
  /-- LOG_HEAD (R550). -/
  | logHead (tag : Nat) (cnt : Nat) (body : List Byte) (mac : List Byte)
  /-- LOG_READ (R550); `lost`: the indexes of records whose words do not decode. -/
  | logRead (tag : Nat) (cnt : Nat) (body : List Byte) (mac : List Byte) (lost : List Nat)
  /-- REG_READ (R555). -/
  | regRead (tag : Nat) (cnt : Nat) (body : List Byte) (mac : List Byte)
  /-- REG_WRITE (R555). -/
  | regWrite (tag : Nat) (cnt : Nat) (body : List Byte) (mac : List Byte)
  /-- LOG_CLEAR (R556). -/
  | logClear (tag : Nat) (cnt : Nat) (body : List Byte) (mac : List Byte)
  /-- RESPONSE_READ (R547). -/
  | responseRead
  /-- SESSION_IDLE_TIMEOUT (R553). -/
  | sessionIdleTimeout
  /-- CHALLENGE_EXPIRY (R551). -/
  | challengeExpiry
  /-- LOCKOUT_EXPIRY (R554). -/
  | lockoutExpiry
  /-- ENTDAA (R544). -/
  | entdaa (addr : BitVec 7)
  /-- RSTDAA (R553). -/
  | rstdaa
  /-- GETPID (R545). -/
  | getpid
  /-- GETBCR (R544). -/
  | getbcr
  /-- GETDCR (R544). -/
  | getdcr
  /-- GETSTATUS (R544). -/
  | getstatusCcc
  /-- GETMWL (R544). -/
  | getmwl
  /-- GETMRL (R544). -/
  | getmrl
  /-- ENEC (R544). -/
  | enec (events : Nat)
  /-- DISEC (R544). -/
  | disec (events : Nat)
  /-- CONTEXT_ENTRY_READ (R464). -/
  | contextEntryRead (entry : List Byte) (poison : Bool)
  /-- ENGINE_RESET_RELEASE (R612). -/
  | engineResetRelease
  /-- BAD_FRAME (R549). -/
  | badFrame (frame : List Byte)
  /-- UNSUPPORTED_CCC (R544). -/
  | unsupportedCcc (code : Nat)
  /-- IRQ_MESSAGE_ACCEPTED (R600). -/
  | irqMessageAccepted
  /-- REGISTER_READ_ERROR (R569); `lost`: whether the storage of the slice register that it reads no longer decodes (R568). -/
  | registerReadError (off : Nat) (size : Nat) (lost : Bool)
  deriving DecidableEq, Repr

end Sys2Proof
end

