-- ==== Sys2Proof/Machine/Bits.lean ====
section
/-!
DEFINITION. Bit fields, byte order (little-endian, R9), sign extension and the small list operations the rest of the
model uses: a sort that keeps the order of equals, list update by position, saturating counts.
-/

namespace Sys2Proof.Machine

/-- The bits [hi:lo] of a number, as a number. -/
def field (w hi lo : Nat) : Nat := (w >>> lo) % 2 ^ (hi + 1 - lo)

/-- One bit of a number. -/
def bit (w k : Nat) : Bool := w.testBit k

/-- A number placed at bit `lo` of a field `width` bits wide. -/
def place (v width lo : Nat) : Nat := (v % 2 ^ width) <<< lo

/-- A Bool as the bit of a register. -/
def flag (b : Bool) (k : Nat) : Nat := if b then 2 ^ k else 0

/-- A number of `n` bits read as two's complement. -/
def signed (v n : Nat) : Int := if v < 2 ^ (n - 1) then (v : Int) else (v : Int) - 2 ^ n

/-- The little-endian number that `bs` holds, lowest byte first (R9). -/
def leNat : List Byte → Nat
  | [] => 0
  | b :: bs => b.toNat + 256 * leNat bs

/-- `n` bytes from byte `off` on, little-endian (R9). -/
def le (bs : List Byte) (off n : Nat) : Nat := leNat ((bs.drop off).take n)

/-- One byte of a record, 0 past its end. -/
def byteAt (bs : List Byte) (off : Nat) : Nat := (bs.getD off 0).toNat

/-- The FP32 code at byte `off`. -/
def le32 (bs : List Byte) (off : Nat) : Code := BitVec.ofNat 32 (le bs off 4)

/-- `n` bytes of a number, lowest first (R9). -/
def toLe : (n : Nat) → Nat → List Byte
  | 0, _ => []
  | n + 1, v => BitVec.ofNat 8 v :: toLe n (v / 256)

/-- `n` bytes of a number, highest first. -/
def toBe (n v : Nat) : List Byte := (toLe n v).reverse

/-- Whether `n` bytes from `off` on are all zero. -/
def zeroBytes (bs : List Byte) (off n : Nat) : Bool := ((bs.drop off).take n).all (· == 0)

/-- Insertion into a list sorted by `lt`, behind the entries equal to it. -/
def insertBy {α : Type} (lt : α → α → Bool) (x : α) : List α → List α
  | [] => [x]
  | y :: ys => if lt x y then x :: y :: ys else y :: insertBy lt x ys

/-- The list in ascending order of `lt`, equals in the order they stood. -/
def sortBy {α : Type} (lt : α → α → Bool) (xs : List α) : List α :=
  xs.foldl (fun acc x => insertBy lt x acc) []

/-- The list with entry `i` changed by `f`; unchanged where there is no entry `i`. -/
def updateAt {α : Type} (f : α → α) : Nat → List α → List α
  | _, [] => []
  | 0, x :: xs => f x :: xs
  | i + 1, x :: xs => x :: updateAt f i xs

/-- The entries that satisfy `p` changed by `f`. -/
def updateWhere {α : Type} (p : α → Bool) (f : α → α) (xs : List α) : List α :=
  xs.map (fun x => if p x then f x else x)

/-- A count that stops at its greatest value. -/
def satAdd (limit a b : Nat) : Nat := min limit (a + b)

/-- A count of `n` bits that wraps. -/
def wrapAdd (n a b : Nat) : Nat := (a + b) % 2 ^ n

/-- `a` less `b` in `n` bits, the distance from `b` to `a`. -/
def wrapSub (n a b : Nat) : Nat := (a + 2 ^ n - b % 2 ^ n) % 2 ^ n

/-- The positions 0 to `n - 1` in a mask whose bit is 1, ascending. -/
def maskBits (n mask : Nat) : List Nat := (List.range n).filter (bit mask)

/-- The number of 1 bits among the lowest `n`. -/
def popCount (n mask : Nat) : Nat := (maskBits n mask).length

/-- Pairs of equal position, with their position. -/
def indexed {α : Type} (xs : List α) : List (Nat × α) := (List.range xs.length).zip xs

/-- A list cut into pieces of `k`, the last of which may be shorter; `fuel` bounds the pieces. -/
def chunks {α : Type} (k : Nat) : (fuel : Nat) → List α → List (List α)
  | 0, _ => []
  | fuel + 1, xs => if xs.isEmpty then [] else xs.take k :: chunks k fuel (xs.drop k)

/-- Bytes padded with zeros to `n`. -/
def padTo (n : Nat) (bs : List Byte) : List Byte := (bs ++ List.replicate (n - bs.length) 0).take n

end Sys2Proof.Machine
end

