-- ==== Sys2Proof/Machine/Numbers.lean ====
section
/-!
DEFINITION. The number formats of the engine (R240 to R244, R261 to R263): exact values, decoding of operands, and the
one conversion that rounds an exact value to a code. Also the FP32 operations of the BF16 path (R265) and the exact
FP32 values the geometry works on (R207, R221).
-/

namespace Sys2Proof.Machine

/-- The four number formats (06_scoring_arithmetic.md). -/
inductive Fmt where
  | e4m3 | e5m2 | bf16 | fp32
  deriving DecidableEq, Repr

/-- An exact value: a number, an infinity or NaN. Zero has no sign (R242, R244). -/
inductive Num where
  | nan
  | inf (neg : Bool)
  | fin (x : Rat)
  deriving DecidableEq, Repr

/-- The arithmetic flags (R268). -/
structure Flags where
  inv : Bool := false
  nan : Bool := false
  ovf : Bool := false
  sat : Bool := false
  ftz : Bool := false
  deriving DecidableEq, Repr

/-- Flags are sticky: a union of two sets of flags. -/
def Flags.or (a b : Flags) : Flags :=
  { inv := a.inv || b.inv, nan := a.nan || b.nan, ovf := a.ovf || b.ovf, sat := a.sat || b.sat, ftz := a.ftz || b.ftz }

/-- No flag. -/
def noFlags : Flags := { inv := false }

def flagInv : Flags := { inv := true }
def flagNan : Flags := { nan := true }
def flagOvf : Flags := { ovf := true }
def flagSat : Flags := { sat := true }
def flagFtz : Flags := { ftz := true }

/-- The flags that make a conversion an arithmetic event (R271): INV, NAN or OVF. -/
def Flags.event (f : Flags) : Bool := f.inv || f.nan || f.ovf

/-- The value 2^e. -/
def pow2 (e : Int) : Rat := if 0 ≤ e then (2 ^ e.toNat : Nat) else mkRat 1 (2 ^ (-e).toNat)

/-- Fraction bits p of a format (R261). -/
def Fmt.p : Fmt → Nat
  | .e4m3 => 3 | .e5m2 => 2 | .bf16 => 7 | .fp32 => 23

/-- Exponent bits of a format. -/
def Fmt.ebits : Fmt → Nat
  | .e4m3 => 4 | .e5m2 => 5 | .bf16 => 8 | .fp32 => 8

/-- Exponent bias of a format (R241; IEEE 754 binary32 for BF16 and FP32, R244). -/
def Fmt.bias : Fmt → Nat
  | .e4m3 => 7 | .e5m2 => 15 | .bf16 => 127 | .fp32 => 127

/-- Bits of a code. -/
def Fmt.width (f : Fmt) : Nat := 1 + f.ebits + f.p

/-- Bytes of a code. -/
def Fmt.bytes (f : Fmt) : Nat := f.width / 8

/-- The exponent of the smallest normal value (R261). -/
def Fmt.emin (f : Fmt) : Int := 1 - f.bias

/-- The largest finite magnitude (R261). -/
def Fmt.maxFinite : Fmt → Rat
  | .e4m3 => 448
  | .e5m2 => 57344
  | .bf16 => (2 - pow2 (-7)) * pow2 127
  | .fp32 => (2 - pow2 (-23)) * pow2 127

/-- Sign, exponent field and fraction field of a code. -/
def Fmt.split (f : Fmt) (c : Code) : Bool × Nat × Nat :=
  (c.toNat.testBit (f.width - 1), (c.toNat >>> f.p) % 2 ^ f.ebits, c.toNat % 2 ^ f.p)

/-- A magnitude with a sign. -/
def withSign (neg : Bool) (x : Rat) : Rat := if neg then -x else x

/-- The value of a code by the rules of R241 and IEEE 754, subnormals kept. -/
def Fmt.exact (f : Fmt) (c : Code) : Num :=
  let (s, e, m) := f.split c
  if e = 2 ^ f.ebits - 1 then
    match f with
    | .e4m3 => if m = 7 then .nan else .fin (withSign s ((2 ^ f.p + m : Nat) * pow2 ((e : Int) - f.bias - f.p)))
    | _ => if m = 0 then .inf s else .nan
  else if e = 0 then .fin (withSign s ((m : Nat) * pow2 (f.emin - f.p)))
  else .fin (withSign s ((2 ^ f.p + m : Nat) * pow2 ((e : Int) - f.bias - f.p)))

/-- Whether a code is subnormal. -/
def Fmt.subnormal (f : Fmt) (c : Code) : Bool :=
  let (_, e, m) := f.split c
  e = 0 && m != 0

/-- An operand as the engine reads it (R242, R244): a subnormal is zero and raises FTZ. -/
def Fmt.read (f : Fmt) (c : Code) : Num × Flags :=
  if f.subnormal c then (.fin 0, flagFtz) else (f.exact c, noFlags)

/-- ⌊log2 x⌋ of a positive number. -/
def log2Floor (x : Rat) : Int :=
  let l : Int := (x.num.natAbs.log2 : Int) - x.den.log2
  if pow2 l ≤ x then l else l - 1

/-- A non-negative number rounded to an integer, ties to the even integer. -/
def roundEven (x : Rat) : Int :=
  let f := x.floor
  let r := x - f
  if r < mkRat 1 2 then f else if r = mkRat 1 2 then (if f % 2 = 0 then f else f + 1) else f + 1

/-- The magnitude `m` rounded to nearest at `p` fraction bits, its exponent unbounded (R262). -/
def roundUnbounded (m : Rat) (p : Nat) : Rat :=
  let e := log2Floor m
  (roundEven (m / pow2 (e - p)) : Rat) * pow2 (e - p)

/-- The code of a value that the format holds exactly as a normal value or zero. -/
def Fmt.encode (f : Fmt) (neg : Bool) (r : Rat) : Code :=
  if r = 0 then 0
  else
    let e := log2Floor r
    let m := (r / pow2 (e - f.p)).floor.toNat - 2 ^ f.p
    BitVec.ofNat 32 (flag neg (f.width - 1) + (e + f.bias).toNat * 2 ^ f.p + m)

/-- The canonical NaN of a format (R243, R263). -/
def Fmt.nanCode : Fmt → Code
  | .e4m3 => 0x7F | .e5m2 => 0x7E | .bf16 => 0x7FC0 | .fp32 => 0x7FC00000

/-- The infinity of a format; E4M3 has none and gives ±448 (R263). -/
def Fmt.infCode (f : Fmt) (neg : Bool) : Code :=
  let base : Nat := match f with
    | .e4m3 => 0x7E | .e5m2 => 0x7C | .bf16 => 0x7F80 | .fp32 => 0x7F800000
  BitVec.ofNat 32 (flag neg (f.width - 1) + base)

/-- The conversion of R262 and R263: an exact value to one code, rounded once. -/
def convert (f : Fmt) : Num → Code × Flags
  | .nan => (f.nanCode, noFlags)
  | .inf neg => (f.infCode neg, if f = .e4m3 then flagSat else noFlags)
  | .fin x =>
    if x = 0 then (0, noFlags)
    else
      let neg : Bool := x < 0
      let r := roundUnbounded (withSign neg x) f.p
      if r < pow2 f.emin then (0, flagFtz)
      else if f.maxFinite < r then (f.infCode neg, if f = .e4m3 then flagSat else flagOvf)
      else (f.encode neg r, noFlags)

/-- The value that a conversion's code holds, as a later step reads it. -/
def convertValue (f : Fmt) (x : Num) : Num × Flags :=
  let (c, fl) := convert f x
  (f.exact c, fl)

/-! ### FP32 operations of the BF16 path (R265) -/

/-- The sign of a value that is not NaN and not zero. -/
def Num.neg : Num → Bool
  | .nan => false
  | .inf s => s
  | .fin x => x < 0

/-- Whether a value is zero. -/
def Num.isZero : Num → Bool
  | .fin x => x = 0
  | _ => false

/-- fmul of R265, its operands read under R244. -/
def fmul (a b : Num) : Num × Flags :=
  match a, b with
  | .nan, _ => (.nan, flagNan)
  | _, .nan => (.nan, flagNan)
  | .fin x, .fin y => convertValue .fp32 (.fin (x * y))
  | _, _ => if a.isZero || b.isZero then (.nan, flagInv) else (.inf (a.neg != b.neg), noFlags)

/-- fadd of R265. -/
def fadd (a b : Num) : Num × Flags :=
  match a, b with
  | .nan, _ => (.nan, noFlags)
  | _, .nan => (.nan, noFlags)
  | .inf s, .inf t => if s = t then (.inf s, noFlags) else (.nan, flagInv)
  | .inf s, .fin _ => (.inf s, noFlags)
  | .fin _, .inf t => (.inf t, noFlags)
  | .fin x, .fin y => convertValue .fp32 (.fin (x + y))

/-- product of R283: two values, exact, infinite or NaN. -/
def product (a b : Num) : Num × Flags :=
  match a, b with
  | .nan, _ => (.nan, noFlags)
  | _, .nan => (.nan, noFlags)
  | .fin x, .fin y => (.fin (x * y), noFlags)
  | _, _ => if a.isZero || b.isZero then (.nan, flagInv) else (.inf (a.neg != b.neg), noFlags)

/-! ### Order of values -/

/-- `a ≤ b` among values that are not NaN; false where one is. -/
def Num.le : Num → Num → Bool
  | .nan, _ => false
  | _, .nan => false
  | .inf true, _ => true
  | _, .inf false => true
  | .inf false, _ => false
  | _, .inf true => false
  | .fin x, .fin y => x ≤ y

/-- `a < b` among values that are not NaN. -/
def Num.lt (a b : Num) : Bool := a.le b && !b.le a

def Num.max (a b : Num) : Num := if a.le b then b else a
def Num.min (a b : Num) : Num := if a.le b then a else b

/-- Whether the value is a number. -/
def Num.finite : Num → Bool
  | .fin _ => true
  | _ => false

/-! ### FP32 values of the geometry -/

/-- An FP32 code as the geometry reads it: the exact value with a subnormal read as zero (R53, R89, R108). -/
def geo (c : Code) : Num := (Fmt.read .fp32 c).1

/-- rn of R221: rounded once to FP32, ties to even, subnormals kept; `none` where the result is infinite. -/
def rn (x : Rat) : Option Rat :=
  if x = 0 then some 0
  else
    let neg : Bool := x < 0
    let m := withSign neg x
    let e := log2Floor m
    let u := if e < -126 then -149 else e - 23
    let r := (roundEven (m / pow2 u) : Rat) * pow2 u
    if Fmt.fp32.maxFinite < r then none else some (withSign neg r)

/-- The FP32 code of a value that FP32 holds exactly, subnormals among them. -/
def encode32 : Num → Code
  | .nan => 0x7FC00000
  | .inf neg => Fmt.fp32.infCode neg
  | .fin x =>
    let neg : Bool := x < 0
    let m := withSign neg x
    if m < pow2 (-126) then BitVec.ofNat 32 (flag neg 31 + (m / pow2 (-149)).floor.toNat)
    else Fmt.fp32.encode neg m

/-- A magnitude rounded down or up to a multiple of its unit at `p` fraction bits. -/
def roundDirected (m : Rat) (p : Nat) (up : Bool) (emin : Option Int) : Rat :=
  let e0 := log2Floor m
  let e := match emin with
    | some k => if e0 < k then k else e0
    | none => e0
  let u := pow2 (e - p)
  let q := m / u
  let f := q.floor
  (if up && q ≠ f then f + 1 else f : Int) * u

/-- Rounded once to the slab format (R207), towards +∞ (`up`) or towards −∞. -/
def slabRound (up : Bool) (x : Rat) : Num :=
  if x = 0 then .fin 0
  else
    let neg : Bool := x < 0
    let m := withSign neg x
    let away : Bool := up != neg
    let top : Rat := (2 - pow2 (-15)) * pow2 127
    if m < pow2 (-126) then (if away then .fin (withSign neg (pow2 (-126))) else .fin 0)
    else
      let r := roundDirected m 15 away none
      if top < r then (if away then .inf neg else .fin (withSign neg top)) else .fin (withSign neg r)

/-- Rounded once to FP32 (R90), towards +∞ (`up`) or towards −∞. -/
def fp32Round (up : Bool) (x : Rat) : Num :=
  if x = 0 then .fin 0
  else
    let neg : Bool := x < 0
    let m := withSign neg x
    let away : Bool := up != neg
    let r := roundDirected m 23 away (some (-126))
    if Fmt.fp32.maxFinite < r then (if away then .inf neg else .fin (withSign neg Fmt.fp32.maxFinite))
    else .fin (withSign neg r)

end Sys2Proof.Machine
end

