-- ==== Sys2Proof/Machine/Accum.lean ====
section
/-!
DEFINITION. Accumulator states (R251 to R260), BF16 accumulation (R264 to R266), weight formats and groups (R245 to
R250), activation tables (R287, R288), the output stage (R282 to R286), selection and gates (R99, R289 to R292).
-/

namespace Sys2Proof.Machine

/-- An accumulator state (R251), with the flags its terms raised (R252), which belong to its conversion (R269). -/
structure Acc where
  acc : BitVec 96
  pinf : Bool
  ninf : Bool
  qnan : Bool
  zinf : Bool
  poi : Bool
  kmin : BitVec 17
  flags : Flags
  deriving DecidableEq, Repr

/-- The empty state (R251). -/
def emptyAcc : Acc :=
  { acc := 0, pinf := false, ninf := false, qnan := false, zinf := false, poi := false, kmin := 0x1FFFF, flags := noFlags }

/-- KMIN takes the lower value (R252, R254). -/
def kminMin (a b : BitVec 17) : BitVec 17 := if a ≤ b then a else b

/-- An exact value in units of 2⁻⁴⁰, the weight of ACC's bit 0. -/
def accUnits (x : Rat) : BitVec 96 := BitVec.ofInt 96 (x * pow2 40).floor

/-- The value of ACC (R251). -/
def accValue (a : BitVec 96) : Rat := (a.toInt : Rat) * pow2 (-40)

/-- The term at K position `k` of operands `a` and `w` with group exponent `g`, read with flags `fl` (R252, R256). -/
def addTerm (st : Acc) (k : Nat) (poison : Bool) (a w : Num × Flags) (g : Int) : Acc :=
  if poison then { st with poi := true }
  else
    let fl := (st.flags.or a.2).or w.2
    let km := kminMin st.kmin (BitVec.ofNat 17 k)
    match a.1, w.1 with
    | .nan, _ => { st with qnan := true, kmin := km, flags := fl.or flagNan }
    | _, .nan => { st with qnan := true, kmin := km, flags := fl.or flagNan }
    | .fin x, .fin y => { st with acc := st.acc + accUnits (x * y * pow2 g), flags := fl }
    | _, _ =>
      if a.1.isZero || w.1.isZero then { st with zinf := true, kmin := km, flags := fl.or flagInv }
      else if a.1.neg = w.1.neg then { st with pinf := true, kmin := km, flags := fl }
      else { st with ninf := true, kmin := km, flags := fl }

/-- Two states of disjoint sets of K positions merged (R254). -/
def mergeAcc (a b : Acc) : Acc :=
  { acc := a.acc + b.acc, pinf := a.pinf || b.pinf, ninf := a.ninf || b.ninf, qnan := a.qnan || b.qnan
    zinf := a.zinf || b.zinf, poi := a.poi || b.poi, kmin := kminMin a.kmin b.kmin, flags := a.flags.or b.flags }

/-- A BF16 accumulation (R264): the FP32 accumulator bacc, whether a poisoned operand entered it (R256), its flags. -/
structure Bacc where
  value : Num
  poi : Bool
  flags : Flags
  deriving DecidableEq, Repr

/-- bacc starts at +0 (R264). -/
def emptyBacc : Bacc := { value := .fin 0, poi := false, flags := noFlags }

/-- One level of the pairwise summation of R264. -/
def pairLevel : List (Num × Flags) → List (Num × Flags)
  | a :: b :: rest =>
    let s := fadd a.1 b.1
    (s.1, (a.2.or b.2).or s.2) :: pairLevel rest
  | xs => xs

/-- The sum of a step of 128 values, pairwise in seven levels (R264). -/
def stepSum (v : List (Num × Flags)) : Num × Flags :=
  (pairLevel (pairLevel (pairLevel (pairLevel (pairLevel (pairLevel (pairLevel v))))))).headD (.fin 0, noFlags)

/-- One step of a BF16 accumulation: `v` holds the 128 products, padded positions +0 (R264). -/
def baccStep (b : Bacc) (v : List (Num × Flags)) (poison : Bool) : Bacc :=
  let s := stepSum v
  let r := fadd b.value s.1
  { value := r.1, poi := b.poi || poison, flags := (b.flags.or s.2).or r.2 }

/-- The state of one output while its tile runs: exact for FP8 payloads, bacc for BF16. -/
inductive OutState where
  | exact (a : Acc)
  | bf16 (b : Bacc)
  deriving DecidableEq, Repr

/-- Whether the output is marked POI (R256). -/
def OutState.poi : OutState → Bool
  | .exact a => a.poi
  | .bf16 b => b.poi

/-- The flags raised by the terms. -/
def OutState.flags : OutState → Flags
  | .exact a => a.flags
  | .bf16 b => b.flags

/-- The K index the capture holds (R271): KMIN, all ones where none or in a BF16 accumulation. -/
def OutState.kIndex : OutState → BitVec 17
  | .exact a => a.kmin
  | .bf16 _ => 0x1FFFF

/-- The states of a chain's segments brought together (R254, R299): exact ones are merged; a bacc has been passed on. -/
def OutState.merge : OutState → OutState → OutState
  | .exact a, .exact b => .exact (mergeAcc a b)
  | _, s => s

/-- The state with which a chain's next segment begins: an empty one, or the bacc that is passed on (R299). -/
def OutState.passOn : OutState → OutState
  | .exact _ => .exact emptyAcc
  | .bf16 b => .bf16 b

/-- A state marked POI (R256). -/
def OutState.poisoned : OutState → OutState
  | .exact a => .exact { a with poi := true }
  | .bf16 b => .bf16 { b with poi := true }

/-- Resolution by the table of R259: marks, the finite sum, the layer scale `s` and the bias `b`. -/
def resolve (pinf ninf nanMark : Bool) (sum : Rat) (s b : Num) : Num × Flags :=
  let single := pinf != ninf
  let s0 : Rat := match s with
    | .fin x => x
    | _ => 0
  let sneg : Bool := s0 < 0
  let scaledNeg := ninf != sneg
  if nanMark then (.nan, noFlags)
  else if pinf && ninf then (.nan, flagInv)
  else match b with
    | .nan => (.nan, flagNan)
    | .inf bn =>
      if single then
        if s0 = 0 then (.nan, flagInv)
        else if bn != scaledNeg then (.nan, flagInv) else (.inf scaledNeg, noFlags)
      else (.inf bn, noFlags)
    | .fin y =>
      if single then (if s0 = 0 then (.nan, flagInv) else (.inf scaledNeg, noFlags))
      else (.fin (sum * s0 + y), noFlags)

/-- Resolution of an output state with the codes of SCALE and bias, both read under R244 (R258, R259, R266). The
flags of the terms, of reading s and b and of the row that applies. -/
def resolveState (st : OutState) (scale bias : Code) : Num × Flags :=
  let s := Fmt.read .fp32 scale
  let b := Fmt.read .fp32 bias
  let r := match st with
    | .exact a => resolve a.pinf a.ninf (a.qnan || a.zinf) (accValue a.acc) s.1 b.1
    | .bf16 c => match c.value with
      | .nan => resolve false false true 0 s.1 b.1
      | .inf neg => resolve (!neg) neg false 0 s.1 b.1
      | .fin x => resolve false false false x s.1 b.1
  (r.1, ((st.flags.or s.2).or b.2).or r.2)

/-- A score: the resolved state converted to FP32 (R98). A POI state raises no flag (R256). -/
def scoreOf (st : OutState) (scale bias : Code) : Code × Flags :=
  let r := resolveState st scale bias
  let c := convert .fp32 r.1
  if st.poi then (c.1, noFlags) else (c.1, r.2.or c.2)

/-! ### Weights (R245 to R250) -/

/-- Weight formats of a layer (R245). -/
inductive WFmt where
  | dense (f : Fmt)
  | t4 (f : Fmt)
  | zp4
  | t2 (f : Fmt)
  | zp2
  deriving DecidableEq, Repr

/-- The weight format of a code, `none` where the code is reserved (R245). -/
def wfmtOf (c : Nat) : Option WFmt :=
  if c = 0x01 then some (.dense .e4m3) else if c = 0x02 then some (.dense .e5m2) else if c = 0x03 then some (.dense .bf16)
  else if c = 0x11 then some (.t4 .e4m3) else if c = 0x12 then some (.t4 .e5m2) else if c = 0x13 then some .zp4
  else if c = 0x21 then some (.t2 .e4m3) else if c = 0x22 then some (.t2 .e5m2) else if c = 0x23 then some .zp2 else none

/-- Bits per weight (R245). -/
def WFmt.bits : WFmt → Nat
  | .dense f => f.width
  | .t4 _ => 4
  | .zp4 => 4
  | .t2 _ => 2
  | .zp2 => 2

/-- Whether the format carries a zero point and so always group bytes (R249). -/
def WFmt.zp : WFmt → Bool
  | .zp4 => true
  | .zp2 => true
  | _ => false

/-- The bits of weight `k` in a row's bytes, packed in K order (R246). -/
def weightBits (w : WFmt) (row : List Byte) (k : Nat) : Nat :=
  match w.bits with
  | 16 => le row (2 * k) 2
  | 8 => byteAt row k
  | 4 => (byteAt row (k / 2) >>> (4 * (k % 2))) % 16
  | _ => (byteAt row (k / 4) >>> (2 * (k % 4))) % 4

/-- The expanded weight at K position `k` with the group byte of its group (R245 to R248). -/
def expandWeight (w : WFmt) (table : List Byte) (row : List Byte) (k groupByte : Nat) : Num × Flags :=
  let q := weightBits w row k
  match w with
  | .dense f => f.read (BitVec.ofNat 32 q)
  | .t4 f => f.read (BitVec.ofNat 32 (byteAt table q))
  | .t2 f => f.read (BitVec.ofNat 32 (byteAt table q))
  | .zp4 => (.fin ((q : Int) - (groupByte / 16 : Nat) : Int), noFlags)
  | .zp2 => (.fin ((q : Int) - (groupByte / 16 : Nat) : Int), noFlags)

/-- The group exponent G of a group byte, −8 to 7 (R249). -/
def groupExp (groupByte : Nat) : Int := signed (groupByte % 16) 4

/-! ### Activation tables (R287, R288) -/

/-- The modes of an activation table at the ends of its domain (R288). -/
inductive ActMode where
  | clamp | extend | identity
  deriving DecidableEq, Repr

/-- The mode of a code, `none` where reserved (R288). -/
def actModeOf (c : Nat) : Option ActMode :=
  if c = 0 then some .clamp else if c = 1 then some .extend else if c = 2 then some .identity else none

/-- An activation table (R287): XMIN, W, the modes and the 257 knots, subnormals read as +0. -/
structure ActTable where
  xmin : Rat
  w : Int
  lo : ActMode
  hi : ActMode
  knots : List Rat
  deriving DecidableEq, Repr

/-- A finite FP32 value, subnormals as +0; `none` for NaN and infinities. -/
def finite32 (c : Code) : Option Rat :=
  match geo c with
  | .fin x => some x
  | _ => none

/-- The activation table of its 1,044 bytes; `none` where it fails a check of R287 or holds a reserved byte (R280). -/
def actTableOf (bs : List Byte) : Option ActTable :=
  let w := signed (byteAt bs 4) 8
  let knots := (List.range 257).filterMap (fun i => finite32 (le32 bs (16 + 4 * i)))
  match finite32 (le32 bs 0), actModeOf (byteAt bs 5), actModeOf (byteAt bs 6) with
  | some x, some lo, some hi =>
    if knots.length = 257 ∧ -24 ≤ w ∧ w ≤ 24 ∧ x + 256 * pow2 w ≤ Fmt.fp32.maxFinite ∧ zeroBytes bs 7 9 then
      some { xmin := x, w := w, lo := lo, hi := hi, knots := knots }
    else none
  | _, _, _ => none

/-- act of R288; `none` stands for ACT = 0, where act(x) is x. -/
def act (t : Option ActTable) (x : Num) : Num :=
  match t with
  | none => x
  | some t =>
    let y (i : Nat) : Rat := t.knots.getD i 0
    let w := pow2 t.w
    let beyond (low : Bool) : Num :=
      let mode := if low then t.lo else t.hi
      let a := if low then 0 else 255
      let e := if low then 0 else 256
      match mode with
      | .identity => x
      | .clamp => .fin (y e)
      | .extend =>
        let slope := y (a + 1) - y a
        match x with
        | .fin v => .fin (y a + slope * ((v - t.xmin) / w - a))
        | _ => if slope = 0 then .fin (y e) else .inf ((slope < 0 : Bool) != x.neg)
    match x with
    | .nan => .nan
    | .inf neg => beyond neg
    | .fin v =>
      if v < t.xmin then beyond true
      else if v < t.xmin + 256 * w then
        let s := (v - t.xmin) / w
        let i := s.floor.toNat
        .fin (y i + (y (i + 1) - y i) * (s - i))
      else beyond false

/-! ### The output stage (R282 to R286) -/

/-- One output element with the flags of its conversion, its K index and its POI mark. -/
structure Out where
  code : Code
  flags : Flags
  kIndex : BitVec 17
  poi : Bool
  deriving DecidableEq, Repr

/-- A conversion whose output is marked POI raises no flag anywhere (R256). -/
def outOf (code : Code) (flags : Flags) (k : BitVec 17) (poi : Bool) : Out :=
  { code := code, flags := if poi then noFlags else flags, kIndex := k, poi := poi }

/-- An element of a layer that is neither in a pair nor the last (R282). -/
def plainOut (st : OutState) (scale bias : Code) (t : Option ActTable) (ofmt : Fmt) : Out :=
  let r := resolveState st scale bias
  let c := convert ofmt (act t r.1)
  outOf c.1 (r.2.or c.2) st.kIndex st.poi

/-- An element of a pair (R284, R285). -/
def pairOut (st0 st1 : OutState) (scale0 bias0 scale1 bias1 : Code) (t0 t1 : Option ActTable) (ofmt : Fmt) : Out :=
  let r0 := resolveState st0 scale0 bias0
  let r1 := resolveState st1 scale1 bias1
  let u := convertValue .fp32 (act t0 r0.1)
  let v := convertValue .fp32 (act t1 r1.1)
  let p := product u.1 v.1
  let c := convert ofmt p.1
  outOf c.1 (((((r0.2.or r1.2).or u.2).or v.2).or p.2).or c.2) (kminMin st0.kIndex st1.kIndex) (st0.poi || st1.poi)

/-- An element of the last layer, gated by G (R282). -/
def lastOut (st : OutState) (scale bias : Code) (t : Option ActTable) (gate : Code) : Out :=
  let r := resolveState st scale bias
  let p := product (act t r.1) (Fmt.exact .fp32 gate)
  let c := convert .fp32 p.1
  outOf c.1 ((r.2.or p.2).or c.2) st.kIndex st.poi

/-! ### Selection and gates (R99, R289 to R292) -/

/-- Score order (R99): whether score `a` is better than score `b`; a NaN score has no place. -/
def better (a b : Code) : Bool := Num.lt (Fmt.exact .fp32 b) (Fmt.exact .fp32 a)

/-- The positions of the scores that are not NaN, best first, equals by lower position (R99). -/
def rankScores (scores : List Code) : List (Nat × Code) :=
  sortBy (fun a b => better a.2 b.2) ((indexed scores).filter (fun e => Fmt.exact .fp32 e.2 != .nan))

/-- THRESH as R95 reads it. -/
def readThresh (c : Code) : Num := geo c

/-- The children a node selects, in rank order (R99, R230): child index and score. -/
def selectChildren (topkMin : Bool) (f : Nat) (thresh : Code) (scores : List Code) : List (Nat × Code) :=
  let ranked := rankScores scores
  let kept := if topkMin then ranked.filter (fun e => (readThresh thresh).le (Fmt.exact .fp32 e.2)) else ranked
  kept.take f

/-- The table of R290: 2^(j/64) × 2^30 rounded to the nearest integer, by an integer 64th root. -/
def rootFloor (target : Nat) : (steps : Nat) → Nat → Nat
  | 0, r => r
  | k + 1, r => rootFloor target k (if (r + 2 ^ k) ^ 64 ≤ target then r + 2 ^ k else r)

/-- tb[j] of R290: the nearest integer to 2^(30 + j/64), found as ⌊(⌊2^(31 + j/64)⌋ + 1) / 2⌋. -/
def nexpTable (j : Nat) : Nat := (rootFloor (2 ^ (31 * 64 + j)) 33 0 + 1) / 2

/-- nexp of R290 for an exact d ≤ 0. -/
def nexp (d : Rat) : Rat :=
  match rn (d * (Fmt.exact .fp32 0x3FB8AA3B |> fun v => match v with
    | .fin x => x
    | _ => 0)) with
  | none => 0
  | some t =>
    if t < -126 then 0
    else
      let tf := (t * pow2 24).floor
      let n : Int := ((tf : Rat) * pow2 (-24)).floor
      let rest := (tf - n * 2 ^ 24).toNat
      let j := rest / 2 ^ 18
      let r := rest % 2 ^ 18
      let q1 := r * 744261118 / 2 ^ 24
      let q2 := q1 * q1 / 2 ^ 31
      let q3 := q2 * q1 / (3 * 2 ^ 30)
      let p : Nat := 2 ^ 30 + q1 + q2 + q3
      let m : Nat := nexpTable j * p / 2 ^ 30
      (rn ((m : Rat) * pow2 (n - 30))).getD 0

/-- e_c of R289 for the best score `m` of the normalising set. -/
def gateTerm (m c : Num) : Rat :=
  match m, c with
  | .inf false, .inf false => 1
  | .inf false, _ => 0
  | .inf true, _ => 1
  | .fin _, .inf _ => 0
  | .fin x, .fin y => nexp (y - x)
  | _, _ => 0

/-- The gates of the selected children, in the order selected (R100, R289): FP32 codes with their conversions' flags.
`rule` is the GATE code: 0 NONE, 1 SOFTMAX_SELECTED, 2 SOFTMAX_ALL. -/
def gatesOf (rule : Nat) (scores : List Code) (selected : List (Nat × Code)) : List (Code × Flags) :=
  if rule = 0 then selected.map (fun _ => (0x3F800000, noFlags))
  else
    let set := if rule = 1 then selected else rankScores scores
    let best := match set.head? with
      | some e => Fmt.exact .fp32 e.2
      | none => .nan
    let e (c : Nat × Code) : Rat := gateTerm best (Fmt.exact .fp32 c.2)
    let total := set.foldl (fun acc c => acc + e c) 0
    selected.map (fun c => convert .fp32 (.fin (e c / total)))

/-- The gate of a branch below a node (R292): the product rounded once. -/
def branchGate (rule : Nat) (g node : Code) : Code × Flags :=
  if rule = 0 then (g, noFlags)
  else match Fmt.exact .fp32 g, Fmt.exact .fp32 node with
    | .fin x, .fin y => convert .fp32 (.fin (x * y))
    | _, _ => (0x7FC00000, noFlags)

end Sys2Proof.Machine
end

