-- ==== Sys2Proof/Machine/Geometry.lean ====
section
/-!
DEFINITION. The geometry of the walk: decoding a box (R89, R90), the slab test and the ranking of slots (R206 to R210),
the transform of an instance (R219), and the watertight triangle test (R221 to R225).
-/

namespace Sys2Proof.Machine

/-- A point or direction of finite FP32 values. -/
structure V3 where
  x : Rat
  y : Rat
  z : Rat
  deriving DecidableEq, Repr

/-- Component 0, 1 or 2. -/
def V3.get (v : V3) (i : Nat) : Rat := if i = 0 then v.x else if i = 1 then v.y else v.z

/-- The direction octant (R196): a bit per component, 1 where negative. -/
def octant (d : V3) : Nat := flag (d.x < 0) 0 + flag (d.y < 0) 1 + flag (d.z < 0) 2

/-- A decoded slot box: one pair of planes per axis (R90). -/
structure Box where
  lo : List Num
  hi : List Num
  deriving DecidableEq, Repr

/-- One plane of a slot: ORG + Q × 2^(EXP − 127), exact, rounded once to FP32 (R90). -/
def boxPlane (up : Bool) (org : Rat) (exp q : Nat) : Num :=
  fp32Round up (org + (q : Rat) * pow2 ((exp : Int) - 127))

/-- A plane's parameter along one axis: the exact quotient rounded once to the slab format (R208). -/
def slabQuotient (up : Bool) (plane : Num) (o d : Rat) : Num :=
  match plane with
  | .fin p => slabRound up ((p - o) / d)
  | .inf neg => .inf (neg != (d < 0 : Bool))
  | .nan => .nan

/-- The near and far value on one axis; `none` where the slot is blocked (R208). -/
def slabAxis (lo hi : Num) (o d : Rat) : Option (Num × Num) :=
  if 0 < d then some (slabQuotient false lo o d, slabQuotient true hi o d)
  else if d < 0 then some (slabQuotient false hi o d, slabQuotient true lo o d)
  else if lo.le (.fin o) && (Num.fin o).le hi then some (.inf true, .inf false)
  else none

/-- tnear of a slot, and whether the slot is hit (R209). -/
def slabTest (b : Box) (o d : V3) (tmin tmax : Num) : Num × Bool :=
  let axis (a : Nat) := slabAxis (b.lo.getD a (.fin 0)) (b.hi.getD a (.fin 0)) (o.get a) (d.get a)
  match axis 0, axis 1, axis 2 with
  | some x, some y, some z =>
    let tnear := ((tmin.max x.1).max y.1).max z.1
    let tfar := ((tmax.min x.2).min y.2).min z.2
    (tnear, tnear.le tfar)
  | _, _, _ => (.inf false, false)

/-- The dot product of a transform row with a vector, its translation times `w` added, exact (R103, R219). -/
def rowDot (m : List Rat) (v : V3) (w : Rat) : Rat :=
  m.getD 0 0 * v.x + m.getD 1 0 * v.y + m.getD 2 0 * v.z + m.getD 3 0 * w

/-- A component rounded once, its subnormal replaced by zero (R219, steps 3 and 4); `none` where it is infinite. -/
def frameComponent (x : Rat) : Option Rat :=
  match rn x with
  | none => none
  | some r => some (if withSign (r < 0) r < pow2 (-126) then 0 else r)

/-- The ray's frame below an instance node (R219); `none` where the instance contributes nothing. `xf` holds the
twelve values of XFORM, row by row. -/
def enterFrame (xf : List Rat) (o d : V3) : Option (V3 × V3) :=
  let row (i : Nat) := (xf.drop (4 * i)).take 4
  let po (i : Nat) := frameComponent (rowDot (row i) o 1)
  let pd (i : Nat) := frameComponent (rowDot (row i) d 0)
  match po 0, po 1, po 2, pd 0, pd 1, pd 2 with
  | some ox, some oy, some oz, some dx, some dy, some dz =>
    if dx = 0 ∧ dy = 0 ∧ dz = 0 then none
    else some ({ x := ox, y := oy, z := oz }, { x := dx, y := dy, z := dz })
  | _, _, _, _, _, _ => none

/-- What the primitive test unit computes for a triangle that is met (R222, R224). -/
structure TriHit where
  t : Rat
  u : Rat
  v : Rat
  back : Bool
  deriving DecidableEq, Repr

/-- The magnitude of a number. -/
def mag (x : Rat) : Rat := withSign (x < 0) x

/-- kz of R222: the axis of the largest magnitude, the highest among equals. -/
def majorAxis (d : V3) : Nat :=
  let k := if mag d.x ≤ mag d.y then 1 else 0
  if mag (d.get k) ≤ mag d.z then 2 else k

/-- The shears and the scale of a ray's frame: kx, ky, kz, sx, sy, sz (R222). -/
structure Shear where
  kx : Nat
  ky : Nat
  kz : Nat
  sx : Rat
  sy : Rat
  sz : Rat
  deriving DecidableEq, Repr

/-- The shear of a direction (R222); `none` where a value is infinite (R223). -/
def shearOf (d : V3) : Option Shear :=
  let kz := majorAxis d
  let kx0 := (kz + 1) % 3
  let ky0 := (kx0 + 1) % 3
  let dz := d.get kz
  let (kx, ky) := if dz < 0 then (ky0, kx0) else (kx0, ky0)
  match rn (d.get kx / dz), rn (d.get ky / dz), rn (1 / dz) with
  | some sx, some sy, some sz => some { kx := kx, ky := ky, kz := kz, sx := sx, sy := sy, sz := sz }
  | _, _, _ => none

/-- A vertex in the sheared frame (R222): it depends on the vertex and the ray alone (R223). -/
def shearVertex (s : Shear) (o v : V3) : Option V3 :=
  match rn (v.x - o.x), rn (v.y - o.y), rn (v.z - o.z) with
  | some ex, some ey, some ez =>
    let e : V3 := { x := ex, y := ey, z := ez }
    match rn (e.get s.kx - s.sx * e.get s.kz), rn (e.get s.ky - s.sy * e.get s.kz), rn (s.sz * e.get s.kz) with
    | some px, some py, some pz => some { x := px, y := py, z := pz }
    | _, _, _ => none
  | _, _, _ => none

/-- The exact edge value of two sheared vertices (R222): its sign decides the side. -/
def edge (p q : V3) : Rat := p.x * q.y - p.y * q.x

/-- The edge rule of R222: no two edge values of opposite sign. -/
def insideEdges (ue ve we : Rat) : Bool :=
  !((ue < 0 || ve < 0 || we < 0) && (0 < ue || 0 < ve || 0 < we))

/-- The triangle test of R222 without the interval and cull rules; `none` where the triangle is not hit. -/
def triTest (o d v0 v1 v2 : V3) : Option TriHit :=
  match shearOf d with
  | none => none
  | some s =>
    match shearVertex s o v0, shearVertex s o v1, shearVertex s o v2 with
    | some a, some b, some c =>
      let ue := edge c b
      let ve := edge a c
      let we := edge b a
      if insideEdges ue ve we then
        match rn ue, rn ve, rn we with
        | some u, some v, some w =>
          match rn (u + v + w), rn (u * a.z + v * b.z + w * c.z) with
          | some det, some tt =>
            if det = 0 then none
            else match rn (tt / det), rn (v / det), rn (w / det) with
              | some t, some bu, some bv => some { t := t, u := bu, v := bv, back := det < 0 }
              | _, _, _ => none
          | _, _ => none
        | _, _, _ => none
      else none
    | _, _, _ => none

end Sys2Proof.Machine
end

