-- ==== Sys2Proof/Machine/Tree.lean ====
section
/-!
DEFINITION. Tree objects as the engine reads them (R79 to R126): child pointers, box nodes, score nodes, instance nodes,
triangle, key-block, evaluated and host leaves, layer descriptors (R276 to R281), each with the checks of R126 and the
faulty address of R128.
-/

namespace Sys2Proof.Machine

/-- The three query kinds (R47). -/
inductive QKind where
  | ray | key | token
  deriving DecidableEq, Repr

/-- Tree fault causes (R126), in ascending order of code. -/
inductive TreeFault where
  | badPointer | badKind | wrongQuery | reservedSet | outOfBound | badAlign | badBox | badFormat | badDim | badCount
  | badSelect | badValue | nesting | depth | badLayer
  deriving DecidableEq, Repr

/-- The cause code (R126). -/
def TreeFault.code : TreeFault → Nat
  | .badPointer => 0x01 | .badKind => 0x02 | .wrongQuery => 0x03 | .reservedSet => 0x04 | .outOfBound => 0x05
  | .badAlign => 0x06 | .badBox => 0x07 | .badFormat => 0x08 | .badDim => 0x09 | .badCount => 0x0A | .badSelect => 0x0B
  | .badValue => 0x0C | .nesting => 0x0D | .depth => 0x0E | .badLayer => 0x0F

/-- What a context entry says about its tree (R81, R94, R280): the walk reads nothing else of it. -/
structure TreeCtx where
  kind : QKind
  pfmt : Fmt
  dim : Nat
  dout : Nat
  base : Nat
  bound : Nat
  deriving DecidableEq, Repr

/-- A fault with the address R128 records. -/
structure FaultAt where
  cause : TreeFault
  addr : Nat
  deriving DecidableEq, Repr

/-- Whether `n` bytes from `a` on lie within base and bound (R81). -/
def TreeCtx.holds (c : TreeCtx) (a n : Nat) : Bool := n = 0 || (c.base ≤ a && a + n ≤ c.bound)

/-- A child pointer (R83). -/
structure Ptr where
  ckind : Nat
  place : Nat
  addr : Nat
  home : Nat
  bad : Bool
  deriving DecidableEq, Repr

/-- The fields of a pointer, and whether it breaks R83 to R85 (BAD_POINTER of R126). -/
def ptrOf (w : Nat) : Ptr :=
  let ck := field w 3 0
  let pl := field w 5 4
  let ad := field w 48 8 * 128
  let ho := field w 63 49
  { ckind := ck, place := pl, addr := ad, home := ho
    bad := 8 ≤ ck || pl = 3 || field w 7 6 != 0 || (ho != 0 && pl != 2) || (ck = 0 && w != 0) }

/-- The object kinds a query kind may visit (R80): codes of R84. -/
def allowedKind (k : QKind) (ckind : Nat) : Bool :=
  match k with
  | .ray => ckind = 1 || ckind = 3 || ckind = 4 || ckind = 7
  | .key => ckind = 2 || ckind = 5
  | .token => ckind = 2 || ckind = 6

/-- The size in bytes of an object's first part, by kind (03_tree_formats.md). -/
def headBytes (ckind : Nat) : Nat := if ckind = 4 then 16 else if ckind = 7 then 32 else 128

/-- The first breach in a list in ascending order of code (R126). -/
def firstFault (addr : Nat) (checks : List (Bool × TreeFault)) : Option FaultAt :=
  (checks.find? (·.1)).map (fun c => { cause := c.2, addr := addr })

/-- The checks that every object shares, made on its first byte (R79, R80). -/
def kindChecks (c : TreeCtx) (ckind : Nat) (bs : List Byte) : List (Bool × TreeFault) :=
  [(byteAt bs 0 % 16 != ckind, .badKind), (!allowedKind c.kind ckind, .wrongQuery)]

/-- A fault known before any byte of the object is read: it lies outside the bound (R81), or it is also of a kind the
query may not visit, which is the lower code (R126). -/
def unreadable (c : TreeCtx) (ckind addr n : Nat) : Option FaultAt :=
  if c.holds addr n then none
  else some { cause := if allowedKind c.kind ckind then .outOfBound else .wrongQuery, addr := addr }

/-! ### Box nodes (R88 to R91) -/

/-- One slot of a box node: its child pointer and its box; no box where the slot is EMPTY or removed (R91). -/
structure Slot where
  ptr : Nat
  box : Option Box
  deriving DecidableEq, Repr

/-- The slots of a box node, decoded (R88 to R91). -/
def boxSlots (bs : List Byte) : List Slot :=
  let exp (a : Nat) := byteAt bs (1 + a)
  let org (a : Nat) : Rat := (finite32 (le32 bs (4 + 4 * a))).getD 0
  (List.range 8).map (fun c =>
    let q (i : Nat) := byteAt bs (16 + 6 * c + i)
    let ptr := le bs (64 + 8 * c) 8
    let gone := ptr % 16 = 0 || q 1 < q 0 || q 3 < q 2 || q 5 < q 4
    { ptr := ptr
      box := if gone then none
        else some { lo := (List.range 3).map (fun a => boxPlane false (org a) (exp a) (q (2 * a)))
                    hi := (List.range 3).map (fun a => boxPlane true (org a) (exp a) (q (2 * a + 1))) } })

/-- The check of a box node (R79, R80, R89). -/
def boxFault (c : TreeCtx) (addr : Nat) (bs : List Byte) : Option FaultAt :=
  let expBad (a : Nat) : Bool := byteAt bs (1 + a) = 0 || byteAt bs (1 + a) = 255
  let orgBad (a : Nat) : Bool := (finite32 (le32 bs (4 + 4 * a))).isNone
  firstFault addr (kindChecks c 1 bs ++
    [(byteAt bs 0 / 16 != 0, .reservedSet),
     ((List.range 3).any (fun a => expBad a || orgBad a), .badBox)])

/-! ### Score nodes and key-block leaves (R93 to R101, R111 to R113) -/

/-- What a tile scores against: the rows of a score node or key-block leaf (R96 to R98). -/
structure Rows where
  fmt : Fmt
  n : Nat
  dim : Nat
  scale : Code
  block : Nat
  bias : Nat
  deriving DecidableEq, Repr

/-- The payload and row format of a code (R58). -/
def fmtOf (c : Nat) : Option Fmt :=
  if c = 1 then some .e4m3 else if c = 2 then some .e5m2 else if c = 3 then some .bf16 else none

/-- `x` rounded up to a multiple of `m`. -/
def roundUp (x m : Nat) : Nat := (x + m - 1) / m * m

/-- The row stride S of a vector block (R96). -/
def Rows.stride (r : Rows) : Nat := roundUp (r.dim * r.fmt.bytes) 256

/-- The bytes of the block that the engine reads, from its start (R96): the padding after the last row is not read. -/
def Rows.extent (r : Rows) : Nat := (r.n - 1) * r.stride + r.dim * r.fmt.bytes

/-- Row count within range. -/
def rowCountOk (n limit : Nat) : Bool := 1 ≤ n && n ≤ limit

/-- The part of the bound check that concerns rows and their table (R81, R128): the first structure outside, the block of rows before the
bias and that before the table, where R128 does not order them (log entry 82). -/
def rowsOutside (c : TreeCtx) (ok : Bool) (fmt : Option Fmt) (n dim block bias : Nat) (rest : List (Nat × Nat)) :
    Option Nat :=
  let blockPart := match fmt with
    | some f =>
      let r : Rows := { fmt := f, n := n, dim := dim, scale := 0, block := block, bias := bias }
      if ok && dim != 0 then [(block, r.extent)] else []
    | none => []
  let biasPart := if ok && bias != 0 then [(bias, 4 * n)] else []
  ((blockPart ++ biasPart ++ (if ok then rest else [])).find? (fun p => !c.holds p.1 p.2)).map (·.1)

/-- Whether the block is larger than 8 MiB (R96). -/
def blockTooLarge (fmt : Option Fmt) (n dim : Nat) : Bool :=
  match fmt with
  | some f => 2 ^ 23 < n * roundUp (dim * f.bytes) 256
  | none => false

/-- FMT allowed with the payload format (R94). -/
def pairingOk (c : TreeCtx) (fmt : Option Fmt) : Bool :=
  match fmt with
  | some f => (f = .bf16) = (c.pfmt = .bf16)
  | none => false

/-- Whether an FP32 code is NaN or infinite. -/
def notFinite (c : Code) : Bool := (finite32 c).isNone

/-- The lowest breach, where OUT_OF_BOUND carries the address of the structure outside (R126, R128). -/
def lowestFault (addr : Nat) (below : List (Bool × TreeFault)) (outside : Option Nat)
    (above : List (Bool × TreeFault)) : Option FaultAt :=
  match firstFault addr below, outside with
  | some f, _ => some f
  | none, some a => some { cause := .outOfBound, addr := a }
  | none, none => firstFault addr above

/-- A score node's header (R93). -/
structure ScoreNode where
  rows : Rows
  topkMin : Bool
  f : Nat
  gate : Nat
  children : Nat
  thresh : Code
  deriving DecidableEq, Repr

/-- The header's fields (R93). -/
def scoreNode (bs : List Byte) : ScoreNode :=
  { rows := { fmt := (fmtOf (byteAt bs 1)).getD .e4m3, n := le bs 4 2, dim := le bs 8 4, scale := le32 bs 12
              block := le bs 16 8, bias := le bs 24 8 }
    topkMin := byteAt bs 2 = 2, f := byteAt bs 3, gate := byteAt bs 6, children := le bs 32 8, thresh := le32 bs 40 }

/-- The check of a score node (R79, R80, R93 to R97, R99, R100). -/
def scoreFault (c : TreeCtx) (addr : Nat) (bs : List Byte) : Option FaultAt :=
  let fmt := fmtOf (byteAt bs 1)
  let s := scoreNode bs
  let n := s.rows.n
  let ok := rowCountOk n 1024
  let high (off : Nat) : Bool := le bs (off + 6) 2 != 0
  lowestFault addr
    (kindChecks c 2 bs ++
      [(byteAt bs 0 / 16 != 0 || byteAt bs 7 != 0 || high 16 || high 24 || high 32 || !zeroBytes bs 44 84, .reservedSet)])
    (rowsOutside c ok fmt n s.rows.dim s.rows.block s.rows.bias [(s.children, 8 * n)])
    [(s.rows.block % 256 != 0 || s.rows.bias % 16 != 0 || s.children % 16 != 0, .badAlign),
     (!pairingOk c fmt, .badFormat),
     (s.rows.dim != c.dim, .badDim),
     (!ok || s.f = 0 || 64 < s.f || n < s.f || blockTooLarge fmt n s.rows.dim, .badCount),
     ((byteAt bs 2 != 1 && byteAt bs 2 != 2) || 2 < s.gate || (c.kind = .key && s.gate != 0), .badSelect),
     (notFinite s.rows.scale || Fmt.exact .fp32 s.thresh = .nan, .badValue)]

/-- A key-block leaf's header (R111): its rows and the key index of row 0. -/
def keyRows (bs : List Byte) : Rows × Nat :=
  ({ fmt := (fmtOf (byteAt bs 1)).getD .e4m3, n := le bs 2 2, dim := le bs 4 4, scale := le32 bs 8
     block := le bs 16 8, bias := le bs 24 8 }, le bs 32 8)

/-- The check of a key-block leaf (R79, R80, R111, R112). -/
def keyFault (c : TreeCtx) (addr : Nat) (bs : List Byte) : Option FaultAt :=
  let fmt := fmtOf (byteAt bs 1)
  let (r, kb) := keyRows bs
  let ok := rowCountOk r.n 4096
  let high (off : Nat) : Bool := le bs (off + 6) 2 != 0
  lowestFault addr
    (kindChecks c 5 bs ++
      [(byteAt bs 0 / 16 != 0 || !zeroBytes bs 12 4 || high 16 || high 24 || kb / 2 ^ 43 != 0 || !zeroBytes bs 40 88,
        .reservedSet)])
    (rowsOutside c ok fmt r.n r.dim r.block r.bias [])
    [(r.block % 256 != 0 || r.bias % 16 != 0, .badAlign),
     (!pairingOk c fmt, .badFormat),
     (r.dim != c.dim, .badDim),
     (!ok || blockTooLarge fmt r.n r.dim || 2 ^ 43 < kb + r.n, .badCount),
     (notFinite r.scale, .badValue)]

/-! ### Instance nodes (R102 to R105) -/

/-- An instance node (R102). -/
structure InstNode where
  imask : Nat
  id : Nat
  root : Nat
  xform : List Rat
  deriving DecidableEq, Repr

/-- The exact finite value of a code, subnormals kept. -/
def exactRat (c : Code) : Option Rat :=
  match Fmt.exact .fp32 c with
  | .fin x => some x
  | _ => none

/-- The node's fields (R102). -/
def instNode (bs : List Byte) : InstNode :=
  { imask := byteAt bs 1, id := le bs 4 4, root := le bs 8 8
    xform := (List.range 12).map (fun i => (exactRat (le32 bs (16 + 4 * i))).getD 0) }

/-- The checks made before the mask test (R105). -/
def instKindFault (c : TreeCtx) (addr : Nat) (bs : List Byte) : Option FaultAt := firstFault addr (kindChecks c 3 bs)

/-- The checks made after the mask test (R103 to R105): `level` is the ray's level. The kind of ROOT is a check of the node; the rest of the
pointer is checked when the ray follows it (R87). -/
def instFault (addr level : Nat) (bs : List Byte) : Option FaultAt :=
  let rk := le bs 8 8 % 16
  let rootBad : Bool := !(rk = 0 || rk = 1 || rk = 3 || rk = 4 || rk = 7)
  let xfBad : Bool := (List.range 12).any (fun i => (exactRat (le32 bs (16 + 4 * i))).isNone)
  firstFault addr
    [(rootBad, .wrongQuery), (byteAt bs 0 / 16 != 0 || !zeroBytes bs 2 2 || !zeroBytes bs 64 64, .reservedSet), (xfBad, .badValue),
     (2 ≤ level, .nesting)]

/-! ### Triangle leaves and host leaves (R107, R108, R117) -/

/-- One triangle record (R107): its vertices, none where a coordinate is not finite (R108), and its primitive id. -/
structure Tri where
  verts : Option (V3 × V3 × V3)
  prim : Nat
  deriving DecidableEq, Repr

/-- A vertex of a record (R108). -/
def vertex (bs : List Byte) (off : Nat) : Option V3 :=
  match finite32 (le32 bs off), finite32 (le32 bs (off + 4)), finite32 (le32 bs (off + 8)) with
  | some x, some y, some z => some { x := x, y := y, z := z }
  | _, _, _ => none

/-- The triangle records of a leaf, in record order (R107). -/
def triRecords (bs : List Byte) : List Tri :=
  (List.range (byteAt bs 1)).map (fun i =>
    let off := 16 + 48 * i
    { verts := match vertex bs off, vertex bs (off + 12), vertex bs (off + 24) with
        | some a, some b, some c => some (a, b, c)
        | _, _, _ => none
      prim := le bs (off + 36) 8 })

/-- The check of a triangle leaf (R107); `bs` holds the header and every record. Records that run past the bound are OUT_OF_BOUND, whatever those
inside it hold, which are not looked at (log entry 82). -/
def triFault (c : TreeCtx) (addr : Nat) (bs : List Byte) : Option FaultAt :=
  let n := byteAt bs 1
  let countBad : Bool := n = 0 || 16 < n
  let recBad : Bool := !countBad && c.holds addr (16 + 48 * n) &&
    (List.range n).any (fun i => le bs (16 + 48 * i + 36) 8 / 2 ^ 43 != 0 || !zeroBytes bs (16 + 48 * i + 44) 4)
  firstFault addr (kindChecks c 4 bs ++
    [(byteAt bs 0 / 16 != 0 || !zeroBytes bs 2 14 || recBad, .reservedSet),
     (!countBad && !c.holds addr (16 + 48 * n), .outOfBound),
     (countBad, .badCount)])

/-- The bytes of a triangle leaf that its header calls for (R107). -/
def triBytes (header : List Byte) : Nat :=
  let n := byteAt header 1
  if n = 0 || 16 < n then 16 else 16 + 48 * n

/-- The check of a host leaf (R117). -/
def hostFault (c : TreeCtx) (addr : Nat) (bs : List Byte) : Option FaultAt :=
  firstFault addr (kindChecks c 7 bs ++
    [(byteAt bs 0 / 16 != 0 || !zeroBytes bs 1 3 || le bs 8 8 / 2 ^ 43 != 0 || !zeroBytes bs 16 16, .reservedSet)])

/-! ### Evaluated leaves and their layers (R114, R115, R276 to R281) -/

/-- An evaluated-leaf header (R114). -/
structure EvalLeaf where
  nlayers : Nat
  pair : Bool
  leafId : Nat
  layers : List Nat
  deriving DecidableEq, Repr

def evalLeaf (bs : List Byte) : EvalLeaf :=
  { nlayers := byteAt bs 1, pair := bit (byteAt bs 2) 0, leafId := field (le bs 4 4) 21 0
    layers := (List.range (byteAt bs 1)).map (fun i => le bs (16 + 8 * i) 8) }

/-- The check of an evaluated-leaf header (R114, R115). -/
def evalFault (c : TreeCtx) (addr : Nat) (bs : List Byte) : Option FaultAt :=
  let n := byteAt bs 1
  let la (i : Nat) := le bs (16 + 8 * i) 8
  let used := (List.range 4).filter (· < n)
  let unused := (List.range 4).filter (n ≤ ·)
  firstFault addr (kindChecks c 6 bs ++
    [(byteAt bs 0 / 16 != 0 || byteAt bs 2 / 2 != 0 || byteAt bs 3 != 0 || le bs 4 4 / 2 ^ 22 != 0 || !zeroBytes bs 8 8 ||
        (List.range 4).any (fun i => la i / 2 ^ 48 != 0) || !zeroBytes bs 48 80, .reservedSet),
     (n = 0 || 4 < n || used.any (fun i => la i = 0 || la i % 128 != 0) || unused.any (fun i => la i != 0) ||
        (bit (byteAt bs 2) 0 && n < 3), .badCount)])

/-- A layer descriptor (R276). -/
structure Layer where
  addr : Nat
  wfmt : WFmt
  ofmt : Fmt
  groups : Bool
  k : Nat
  n : Nat
  scale : Code
  weights : Nat
  groupb : Nat
  bias : Nat
  act : Nat
  table : List Byte
  deriving DecidableEq, Repr

/-- The output format of a code (R277). -/
def ofmtOf (c : Nat) : Option Fmt := if c = 4 then some .fp32 else fmtOf c

/-- The weight row stride SW (R278). -/
def Layer.sw (l : Layer) : Nat := roundUp ((l.k * l.wfmt.bits + 7) / 8) 256

/-- The group-byte stride SG (R278). -/
def Layer.sg (l : Layer) : Nat := roundUp ((l.k + 31) / 32) 16

/-- The descriptor's fields (R276); reserved codes are kept out by `layerFault`. -/
def layerOf (addr : Nat) (bs : List Byte) : Layer :=
  { addr := addr, wfmt := (wfmtOf (byteAt bs 0)).getD .zp4, ofmt := (ofmtOf (byteAt bs 1)).getD .fp32
    groups := bit (byteAt bs 2) 0, k := le bs 4 4, n := le bs 8 4, scale := le32 bs 12
    weights := le bs 16 6, groupb := le bs 24 6, bias := le bs 32 6, act := le bs 40 6
    table := (bs.drop 64).take 16 }

/-- Whether the descriptor's own bytes fail a check of R280 (Reserved, Codes, Dimensions, Groups, Scale, Alignment). -/
def layerBytesBad (bs : List Byte) : Bool :=
  let w := wfmtOf (byteAt bs 0)
  let l := layerOf 0 bs
  let tableBad : Bool := match w with
    | some (.t4 _) => false
    | some (.t2 _) => !zeroBytes bs 68 12
    | _ => !zeroBytes bs 64 16
  let groupBad : Bool := match w with
    | some f => (l.groups && f.bits = 16) || (!l.groups && f.zp) || (l.groups && l.groupb = 0) ||
        (!l.groups && l.groupb != 0)
    | none => true
  w.isNone || (ofmtOf (byteAt bs 1)).isNone || byteAt bs 2 / 2 != 0 || byteAt bs 3 != 0 ||
    [16, 24, 32, 40].any (fun o => le bs (o + 6) 2 != 0) || !zeroBytes bs 48 16 || !zeroBytes bs 80 48 || tableBad ||
    l.k = 0 || 16384 < l.k || l.n = 0 || 8192 < l.n || groupBad || notFinite l.scale ||
    l.weights = 0 || l.weights % 256 != 0 || l.groupb % 16 != 0 || l.bias % 16 != 0 || l.act % 16 != 0

/-- The input of layer `i` of a leaf (R279): its dimension and format, from the payload or a producing layer. -/
def layerInput (c : TreeCtx) (pair : Bool) (ls : List Layer) (i : Nat) : Nat × Fmt :=
  if i = 0 || (pair && i = 1) then (c.dim, c.pfmt)
  else match ls[i - 1]? with
    | some l => (l.n, l.ofmt)
    | none => (c.dim, c.pfmt)

/-- Whether layer 1 of a pair differs from layer 0 in N or OFMT (R280): both layers fail their check then, layer 0 first (R281). -/
def pairDiffers (leaf : EvalLeaf) (ls : List Layer) (i : Nat) (l : Layer) : Bool :=
  leaf.pair && i = 1 && (match ls[0]? with
    | some l0 => l0.n != l.n || l0.ofmt != l.ofmt
    | none => false)

/-- Whether layer `i` fails a check of R280 that looks beyond its own bytes; the check of a pair stands in `pairDiffers`. -/
def layerChainBad (c : TreeCtx) (leaf : EvalLeaf) (ls : List Layer) (i : Nat) (l : Layer) : Bool :=
  let inp := layerInput c leaf.pair ls i
  let last : Bool := i + 1 = leaf.nlayers
  l.k != inp.1 || (last && (l.ofmt != .fp32 || l.n != c.dout)) || (!last && l.ofmt = .fp32) ||
    (if l.wfmt.bits = 16 then inp.2 != .bf16 else !(inp.2 = .e4m3 || inp.2 = .e5m2))

/-- The runs of bytes that a layer reads, its weights first, then its group bytes, its bias and its activation table: the first outside the bound
is the one that R128 records, which does not order them (log entry 82). -/
def layerExtents (l : Layer) : List (Nat × Nat) :=
  [(l.weights, (l.n - 1) * l.sw + (l.k * l.wfmt.bits + 7) / 8)] ++
    (if l.groups then [(l.groupb, (l.n - 1) * l.sg + (l.k + 31) / 32)] else []) ++
    (if l.bias = 0 then [] else [(l.bias, 4 * l.n)]) ++ (if l.act = 0 then [] else [(l.act, 1044)])

end Sys2Proof.Machine
end

