-- ==== Sys2Proof/Machine/SliceTypes.lean ====
section
/-!
DEFINITION. The types of the state of one slice: queries and their walk state (R75), bins and gathers, tiles and runs,
batches and their results, cache lines, the query store, streams, the Rope port, counters and power. Plain data.
-/

namespace Sys2Proof.Machine

/-! ### Queries (R75, R215 to R217) -/

/-- Placement of an object (R85, R119). -/
inductive Placement where
  | replicated
  | homed (home : Nat)
  deriving DecidableEq, Repr

/-- One instance level of a path (R219): the node, its INST_ID, the frame below it, and the node count outside it (R125). -/
structure InstFrame where
  addr : Nat
  id : Nat
  o : V3
  d : V3
  outer : Nat
  deriving DecidableEq, Repr

/-- A short stack entry (R215): the child, the object that pushed it with its path depth and node count, the rank, the
slot's tnear or the branch's gate, and the instance levels above it. -/
structure Entry where
  ptr : Nat
  holder : Nat
  placed : Placement
  depth : Nat
  cnt : Nat
  rank : Nat
  tnear : Num
  gate : Code
  insts : List InstFrame
  deriving DecidableEq, Repr

/-- A hit or host-leaf report (R167). -/
structure Hit where
  t : Code
  u : Code
  v : Code
  inst1 : Nat
  inst2 : Nat
  id : Nat
  level : Nat
  host : Bool
  back : Bool
  user : Nat
  deriving DecidableEq, Repr

/-- A query's next object (R212): its address, the kind its pointer names, the object that held the pointer, its
placement and the tnear of the slot it was taken through. -/
structure Next where
  addr : Nat
  ckind : Nat
  holder : Nat
  placed : Placement
  tnear : Num
  deriving DecidableEq, Repr

/-- Why a query is hitched (R77, R376, R377, R493). -/
inductive HitchCause where
  | refetch | page
  deriving DecidableEq, Repr

/-- The items a hitched query adds to its walk state (R77): the cause, the address awaited, and the replay point, a
layer of an evaluated leaf or the start of the visit. `source` is its code in STR_FAULT (R394). -/
structure Hitch where
  cause : HitchCause
  addr : Nat
  layer : Option Nat
  source : Nat
  deriving DecidableEq, Repr

/-- A restart in progress (R218): the trail, the old restart depth, and the path index reached. -/
structure Rewalk where
  trail : List Nat
  dr : Nat
  i : Nat
  deriving DecidableEq, Repr

/-- A query with its entry and its walk state (R75, R335, R336). `tmax0` is the record's TMAX after R53, `slot` the runs of cask units of
its spill slot (R345), `ledger` the pieces of the cask that hold its payload (R347), as addresses and lengths. `poison` are the words of the
message it departs by that are poisoned (R484). -/
structure Query where
  home : Nat
  batch : Nat
  batchId : Nat
  mode : Nat
  qindex : Nat
  ctx : Nat
  kind : QKind
  tag : Nat
  cullBack : Bool
  cullFront : Bool
  skipHost : Bool
  mask : Nat
  org : V3
  dir : V3
  tmin : Num
  tmax : Num
  tmax0 : Num
  k : Nat
  payload : List Code
  next : Next
  pathDepth : Nat
  cnt : Nat
  insts : List InstFrame
  stack : List Entry
  trail : List Nat
  restartDepth : Option Nat
  rewalk : Option Rewalk
  closest : Option Hit
  hits : List Hit
  best : List (Code × Nat)
  gate : Code
  flags : Flags
  layerOuts : Option (Nat × List Out)
  hitch : Option Hitch
  parts : Nat
  spilled : Bool
  guest : Bool
  entry : Nat
  slot : List (Nat × Nat)
  ledger : List (Nat × Nat)
  entered : Nat
  poison : List Nat := []
  deriving DecidableEq, Repr

/-- An entry of the query store (R334, R359): its first granule, its granules as runs of start and length, its owner. -/
structure QEntry where
  first : Nat
  runs : List (Nat × Nat)
  kind : Nat
  home : Nat
  batch : Nat
  qindex : Nat
  hitched : Bool
  spilled : Bool
  guest : Bool
  deriving DecidableEq, Repr

/-! ### Mash, walkers and leaves -/

/-- Why a bin or gather stands in the ready queue (R203). -/
inductive Ready where
  | age | fill
  deriving DecidableEq, Repr

/-- A Mash bin (R196, R197). -/
structure Bin where
  ctx : Nat
  obj : Nat
  octant : Nat
  lay : Nat
  bank : Nat
  ready : Option Ready
  members : List Query
  deriving DecidableEq, Repr

/-- A gather of tokens at one evaluated leaf (R202). -/
structure Gather where
  ctx : Nat
  leaf : Nat
  lay : Nat
  ready : Option Ready
  members : List Query
  deriving DecidableEq, Repr

/-- A packet in a walker (R203); `miss` names the node-cache line a parked packet waits for, `reg` its
miss register (R211, R325), `got` the lines that registers have delivered to it for its visit (R313). -/
structure Packet where
  ctx : Nat
  obj : Nat
  miss : Nat
  reg : Nat
  members : List Query
  got : List (Nat × List Byte) := []
  deriving DecidableEq, Repr

/-- A logical walker: the packet it works on and its four miss slots (R211). -/
structure Walker where
  work : Option Packet
  parked : List Packet
  deriving DecidableEq, Repr

/-- A layer that passed its check, with its activation table (R280, R287). -/
structure LayerRun where
  layer : Layer
  act : Option ActTable
  deriving DecidableEq, Repr

/-- What a job computes: a score node (R229), a key-block leaf (R231), or an evaluated leaf's run (R293). -/
inductive JobKind where
  | score (node : ScoreNode) (children : List Nat)
  | keys (rows : Rows) (base : Nat)
  | eval (leaf : EvalLeaf) (layers : List LayerRun)
  deriving DecidableEq, Repr

/-- A tile's progress (R295, R296): its reservation, its steps, its end. -/
inductive TileState where
  | reserving | reserved | running (step : Nat) | finished
  deriving DecidableEq, Repr

/-- One tile: a layer, an N-block and a row group (R293). `arrs` are the logical arrays that run it, one for each segment of its K positions
that has begun, and `chain` the number of segments (R299); `lines` are the slots reserved for it (R318): address, set and way; `accs` holds
a state per row and column of the segment in work, `merged` those of the segments before it (R254); `bias` the bias values that it read,
`outs` its outputs once it is finished; `poisonAt` the cause and the line of the first poisoned word that it read (R301). -/
structure Tile where
  layer : Nat
  nb : Nat
  st : TileState
  arrs : List Nat
  chain : Nat
  lines : List (Nat × Nat × Nat)
  accs : List (List OutState)
  merged : List (List OutState)
  bias : List Code
  outs : List (List Out)
  poisonAt : Option (HitchCause × Nat)
  deriving DecidableEq, Repr

/-- A row of the leaf operand buffer (R294): its 256 bytes, and whether a word of it is poisoned (R301). -/
structure OpRow where
  data : List Byte
  poison : Bool
  deriving DecidableEq, Repr

/-- The leaf operand buffer of a lay (R294), 32,768 rows in two halves: the job whose row group it holds, the buffer rows of its two halves
for each row of the row group, and whether the halves have exchanged roles, so that the high one holds the input activations. -/
structure OpBuf where
  job : Option Nat := none
  swapped : Bool := false
  low : List (List OpRow) := []
  high : List (List OpRow) := []
  deriving DecidableEq, Repr

/-- Where a row that consumed poison begins again (R302): the layer, and what it awaits. -/
structure ReplayAt where
  layer : Nat
  cause : HitchCause
  addr : Nat
  deriving DecidableEq, Repr

/-- A job of the leaf sequencer: its rows in work, the rows that wait behind the row group (R293), the layer in work, the
layers done with every row's outputs, and the tiles of the layer in work. `replay` says where each row begins again that met poison
(R302). -/
structure Job where
  id : Nat
  ctx : Nat
  walker : Nat
  obj : Nat
  kind : JobKind
  rows : List Query
  waiting : List Query
  layer : Nat
  replay : List (Option ReplayAt)
  hist : List (Nat × List (List Out))
  tiles : List Tile
  deriving DecidableEq, Repr

/-- A run that waits for its leaf header, its layer descriptors or an activation table (R280, R293): its lay, a number of its own, its
members and the sectors that have been delivered to it, by address (R316). -/
structure RunWait where
  lay : Nat
  id : Nat
  gather : Gather
  got : List (Nat × List Byte)
  deriving DecidableEq, Repr

/-! ### Batches (R133, R154, R177, R497) -/

/-- A batch descriptor (R133). -/
structure Desc where
  batchId : Nat
  ctx : Nat
  column : Bool
  accMapped : Bool
  maint : Bool
  count : Nat
  laneq : Nat
  recStride : Nat
  recOff : Nat
  pay : Nat
  payStride : Nat
  res : Nat
  resStride : Nat
  resCap : Nat
  accMap : Nat
  accSlots : Nat
  compl : Nat
  deriving DecidableEq, Repr

/-- What a run of cask units is for (R154, R344): the ledger, the spill slot of a query, the combining area of a slot. -/
inductive CaskUse where
  | ledger | spill (q : Nat) | area (slot : Nat)
  deriving DecidableEq, Repr

/-- An item of a cask reservation (R344): the runs of units it occupies, each a first unit and a length. -/
structure CaskItem where
  use : CaskUse
  runs : List (Nat × Nat)
  deriving DecidableEq, Repr

/-- Stages of a batch in the pending queue (R150): its descriptor is read; it waits for its context's pass and activation; its
index is read; it waits for its reservations; it waits for granules (R338); its records are read; its ledger is written. -/
inductive Stage where
  | descriptor | waiting | index | reserve | granules | records | ledger | journal
  deriving DecidableEq, Repr

/-- A descriptor in the pending queue (R155). `index` holds the result slot of each active query; `items` its granted cask
reservation, `handle` its batch-table entry; `admitted` the queries of its records, `maint` its maintenance descriptors. -/
structure Pend where
  core : Nat
  die : Nat
  off : Nat
  isG : Bool
  mask : Nat
  stage : Stage
  raw : List Byte
  desc : Desc
  index : List (Nat × Nat)
  items : List CaskItem
  handle : Nat
  admitted : List Query
  maint : List (Nat × List Byte)
  deriving DecidableEq, Repr

/-- A combining accumulator (R177): its 320-bit sum, its marks, the flags its contributions raised (R260). -/
structure Comb where
  sum : BitVec 320
  pinf : Bool
  ninf : Bool
  nan : Bool
  flags : Flags
  deriving DecidableEq, Repr

/-- Status of a query at its home (R163). -/
inductive QStat where
  | ok | dataLost
  deriving DecidableEq, Repr

/-- What stands beside the sum of a combining accumulator (R177, R260). -/
structure CombMark where
  pinf : Bool
  ninf : Bool
  nan : Bool
  flags : Flags
  deriving DecidableEq, Repr

/-- A combining area in use (R177, R179): the result slot, the number of contributions met, the marks of each element. The sums stand in
the area's lines of the cask (R348). -/
structure SlotAcc where
  slot : Nat
  count : Nat
  marks : List CombMark
  deriving DecidableEq, Repr

/-- What the home coalescer has to do with a combining area: a contribution joins it; its sums are read for the result of a query, or of a
slot of an EVAL_ACCUM batch whose vector operations are numbered from `seq` on. -/
inductive AreaOp where
  | add (slot : Nat) (vec : List Code)
  | result (q slot : Nat)
  | vector (slot seq : Nat)
  deriving DecidableEq, Repr

/-- What the home coalescer holds of one query (R407): the parts that its end message counts, the parts received, its hits,
its best list, its branches, its flags. `ended` holds the count of parts once the end message is there. `stopped` marks the
end by a tree fault (R127), `placed` that its result was handed on. -/
structure QRes where
  q : Nat
  tag : Nat
  slot : Nat
  k : Nat
  ended : Option Nat
  got : Nat
  stat : QStat
  stopped : Bool
  tmax : Num
  hits : List Hit
  best : List (Code × Nat)
  branches : Nat
  flags : Flags
  placed : Bool
  deriving DecidableEq, Repr

/-- The journal state of a batch (R498). -/
inductive JState where
  | free | ledgered | taken | accum
  deriving DecidableEq, Repr

/-- Operations of the mesh port (R594): ordinary writes, FP32 accumulates, the 32-bit increase. -/
inductive MeshOp where
  | write | accumF32 | addU32
  deriving DecidableEq, Repr

/-- What a mesh write is for: a result slot, a vector operation, or part of the completion block (R148). -/
inductive WriteKind where
  | slot (q : Nat)
  | vector (q seq : Nat)
  | refuse
  | detail
  | bstatus
  | taken
  | done
  deriving DecidableEq, Repr

/-- A write at the mesh port (R183, R188): in flight, or waiting for its retry, which is due at engine time `retryAt`; `retried` that
what is in flight is a retry. `handle` is its batch-table entry, if the
batch has one; `block` names the RESULT stream and block whose credits it holds; `compl` and `amount` are the completion
block's offset and A or A′; `cause` the refusal cause, 0 for none. -/
structure MeshWrite where
  id : Nat
  handle : Option Nat
  core : Nat
  die : Nat
  off : Nat
  op : MeshOp
  tag : BitVec 64
  data : List Byte
  kind : WriteKind
  block : Option (Nat × Nat)
  failures : Nat
  waiting : Bool
  retried : Bool
  retryAt : Nat
  compl : Nat
  amount : Nat
  ctx : Nat
  batchId : Nat
  cause : Nat
  detail : Nat
  deriving DecidableEq, Repr

/-- The progress of a batch at its home (R148, R188, R623). -/
inductive Phase where
  | admitting | walking | completing | finishing | failed | stopped | lostCompl | closed
  deriving DecidableEq, Repr

/-- The reading of a ledger for a replay (R161, R348, R494 step 4): the sectors that the slice cache has given, by address, and the addresses
of those that are poisoned (R484). -/
structure LedgerRead where
  got : List (Nat × List Byte) := []
  poison : List Nat := []
  deriving DecidableEq, Repr

/-- A batch-table entry (R154). `replaying` lists the active queries of the old run that have not ended yet (R494), `reading` is the reading
of its ledger where that is under way; `ops` are the operations on combining areas to be done, in order, and
`opGot` the sectors that the first of them has been given, by address; `toWrite` the result writes not yet on a stream, `built` that the vectors
of an EVAL_ACCUM batch are formed, `failDetail` the DETAIL of a batch that failed (R188). -/
structure Batch where
  handle : Nat
  core : Nat
  die : Nat
  off : Nat
  isG : Bool
  mask : Nat
  desc : Desc
  active : Nat
  phase : Phase
  takenAcked : Bool
  res : List QRes
  slots : List SlotAcc
  ops : List AreaOp
  opGot : List (Nat × List Byte)
  toWrite : List MeshWrite
  built : Bool
  budget : Nat
  failDetail : Option Nat
  acked : Nat
  jstate : JState
  replaying : Option (List Nat)
  items : List CaskItem
  reading : Option LedgerRead := none
  deriving DecidableEq, Repr

/-- A journal line write not yet settled (R500): the line, the batch-table entry whose journal it is (none for a dead slice's entry, or a
refused batch's, that becomes FREE), the state and count it records, the core of the tagged operation whose acknowledgement it records
(R501), if it records one. -/
structure JWrite where
  ctx : Nat
  addr : Nat
  handle : Option Nat
  jstate : JState
  acked : Nat
  settles : Option Nat
  deriving DecidableEq, Repr

/-! ### Messages of the Rope (R404 to R407) -/

/-- The kinds of a RESULT message (R407). -/
inductive RKind where
  | rayEnd | hostReport | bestList | contrib | tokenEnd | keyEnd | lost
  deriving DecidableEq, Repr

/-- A RESULT message (R407). -/
structure ResMsg where
  rkind : RKind
  ctx : Nat
  handle : Nat
  qindex : Nat
  flags : Flags
  tmax : Num
  parts : Nat
  hits : List Hit
  best : List (Code × Nat)
  vec : List Code
  deriving DecidableEq, Repr

/-- A maintenance descriptor on its way (R326, R407); `raw` are its 32 bytes as the home slice read them (R65). -/
structure MaintMsg where
  home : Nat
  handle : Nat
  qindex : Nat
  ctx : Nat
  batchId : Nat
  clean : Bool
  all : Bool
  base : Nat
  length : Nat
  raw : List Byte
  deriving DecidableEq, Repr

/-- The body of a message (R404). A MIGRATE_PTR names a query whose state stands in its spill slot (R406). -/
inductive RopeBody where
  | migrate (q : Query)
  | migratePtr (q : Query)
  | result (r : ResMsg)
  | maintDesc (m : MaintMsg)
  | maintAck (m : MaintMsg) (slice : Nat)
  deriving DecidableEq, Repr

/-- A message with its source, destination and epoch (R402); `via` is the module that it was begun on, while part of it is not sent yet
(R399). -/
structure RopeMsg where
  src : Nat
  dest : Nat
  epoch : Nat
  body : RopeBody
  via : Option Nat := none
  deriving DecidableEq, Repr

/-! ### Caches and stores (R310, R313, R323 to R325, R330) -/

/-- Slice-cache partitions (R308). -/
inductive Part where
  | tree | weight | stream
  deriving DecidableEq, Repr

/-- A slice-cache line (R310), by set and way. `poison` are its sectors that hold a word stored poisoned (R484), `buf` the stream
buffer that holds the line (R366). -/
structure Line where
  set : Nat
  way : Nat
  ctx : Nat
  gen : Nat
  tag : Nat
  dirty : Bool
  lock : Bool
  doomed : Bool
  rsv : Nat
  data : List Byte
  poison : List Nat := []
  buf : Option Nat := none
  deriving DecidableEq, Repr

/-- States of a miss register that is not FREE (R313). -/
inductive MissState where
  | pending | noInstall
  deriving DecidableEq, Repr

/-- Who asks the slice cache for a line: a node-cache register, a tile, a run that waits, a partial write, a whole-line write (`around`:
past the cache where the line is not present, R322; `clean`: cleaned at once, R500), a line that is cleaned, a block of a FETCH or READ
stream, the refetch of a hitched address, a batch's operation on a combining area, the replay of a batch that reads its ledger. -/
inductive Requester where
  | node (lay reg : Nat)
  | tile (lay job nb : Nat)
  | run (lay id : Nat)
  | write (off : Nat) (data : List Byte)
  | whole (data : List Byte) (poison : List Nat) (around clean : Bool)
  | flush
  | stream (stream block : Nat)
  | refetch
  | comb (handle : Nat)
  | ledger (handle : Nat)
  deriving DecidableEq, Repr

/-- A request that found no miss register, slot or buffer entry, and waits (R313, R314); `sector` is the one it needs first (R316). -/
structure Waiting where
  who : Requester
  ctx : Nat
  gen : Nat
  part : Part
  addr : Nat
  sector : Nat := 0
  deriving DecidableEq, Repr

/-- A slice-cache miss register (R313); `got` are the sectors that have arrived, `poisoned` those that came
poisoned, `first` the sector that the first requester needs (R316); `pin` marks a pinned fill (R319), `lost` are sectors with a word that did
not decode at the memory port (R482, R487), `phys` is the package physical address of the line, once it is translated (R375, R595). -/
structure ScMiss where
  reg : Nat
  addr : Nat
  ctx : Nat
  gen : Nat
  part : Part
  st : MissState
  set : Nat
  way : Nat
  lock : Bool
  waiters : List Requester
  got : List (Nat × List Byte)
  poisoned : List Nat
  first : Nat := 0
  pin : Bool := false
  lost : List Nat := []
  phys : Option Nat := none
  deriving DecidableEq, Repr

/-- An eviction-buffer entry (R323): `id` numbers it, `way` is the way it left, where it left one, `poison` the sectors that it
writes with the poison indication (R484), `phys` the package physical address of its line, once it is translated (R375, R595). -/
structure Evict where
  id : Nat
  ctx : Nat
  addr : Nat
  way : Option Nat
  data : List Byte
  poison : List Nat := []
  phys : Option Nat := none
  deriving DecidableEq, Repr

/-- A write sequence (R322): the last line written and the length. -/
structure WSeq where
  src : Nat
  last : Nat
  len : Nat
  deriving DecidableEq, Repr

/-- A node-cache line (R324), in a way of its set. -/
structure NcLine where
  way : Nat
  addr : Nat
  ctx : Nat
  gen : Nat
  data : List Byte
  deriving DecidableEq, Repr

/-- A node-cache miss register that is not FREE (R325). -/
structure NcMiss where
  reg : Nat
  addr : Nat
  ctx : Nat
  gen : Nat
  st : MissState
  ready : Option (List Byte)
  deriving DecidableEq, Repr

/-- States of a way (R331). -/
inductive WayState where
  | active | draining | gated | waking
  deriving DecidableEq, Repr

/-- The cask space a slice holds of one context (R342 to R344): its free units as runs, the owners whose blocks it allocates
from (itself, and slices it is the proxy of) with the number of their blocks taken into the runs so far, the blocks it has
ever given away, which it takes back only as loans. -/
structure Cask where
  ctx : Nat
  free : List (Nat × Nat)
  own : List (Nat × Nat)
  given : List Nat
  deriving DecidableEq, Repr

/-- A maintenance descriptor being applied (R326, R327): the registers and eviction entries it waits for, the dirty lines (context and
address) that wait for a free entry, the locked lines it invalidated and the address of the first (R328). -/
structure MaintIn where
  msg : MaintMsg
  scRegs : List Nat
  ncRegs : List (Nat × Nat)
  evicts : List Nat
  flushes : List (Nat × Nat)
  locked : Nat
  lockFirst : Nat
  deriving DecidableEq, Repr

/-- A maintenance descriptor that awaits its acknowledgements (R326). -/
structure MaintOut where
  msg : MaintMsg
  acks : List Nat
  deriving DecidableEq, Repr

/-! ### Streams (R360 to R374) -/

/-- Block operations (R363). -/
inductive BlockOp where
  | fetch | read | writeMem | writeLm | accLm
  deriving DecidableEq, Repr

/-- What a block moves (R360): lines for a job of the leaf sequencer; a result of a batch; the ledger of a batch; the spill slot of a
query, named by its home, batch and query index; what a query's restore reads; nothing any more. -/
inductive BlockUse where
  | fetch (lay job : Nat)
  | result (w : MeshWrite)
  | ledger (handle : Nat)
  | spill (home batch q : Nat)
  | restore (home batch q : Nat)
  | dropped
  deriving DecidableEq, Repr

/-- A block descriptor in a stream's list (R362), as its 32 bytes say, with what it moves. -/
structure Block where
  raw : List Byte
  use : BlockUse
  deriving DecidableEq, Repr

/-- A transfer outstanding (R365), with the credits it holds: from the reserve, or from the shared part (R367), and the
handles of its stream buffers (R373): of a write stream, as it took them from its splice queue (R374). `got` are the sectors that a READ
block has read, by address, `poisoned` that one of them came poisoned; `started` is false while its write is held before its first mesh
request (R188, R365). -/
structure Transfer where
  index : Nat
  block : Block
  credits : Nat
  reserve : Bool
  handles : List Reg
  done : Bool
  got : List (Nat × List Byte) := []
  poisoned : Bool := false
  started : Bool := true
  deriving DecidableEq, Repr

/-- An access that needs a page (R375, R394): the context, the address, its code in STR_FAULT and its RESUME; `map` marks a read of a home
map, whose failure is no fault of the context (R123). -/
structure PageAccess where
  ctx : Nat
  addr : Nat
  source : Nat
  resume : Nat
  map : Bool := false
  deriving DecidableEq, Repr

/-- A descriptor whose producer waits for room on its stream's ring or for stream buffers (R364, R374), with the data of its buffers. -/
structure Queued where
  stream : Nat
  block : Block
  data : List Byte
  deriving DecidableEq, Repr

/-- One stream (R360, R364, R365, R376, R395): its list, its window, its transfers, the next block index, the next index to deliver,
RESUME while FAULTED and the last RESUME, the address awaited with its address-space id,
the credits it holds of its reserve and of the shared part; `starved` that it waits for credits of its reserve (R367 rule 3). -/
structure Stream where
  ring : List Block
  window : List Block
  transfers : List Transfer
  next : Nat
  delivered : Nat
  resume : Option Nat
  lastResume : Nat
  faultPage : Option (Nat × Nat)
  heldReserve : Nat
  heldShared : Nat
  starved : Bool := false
  deriving DecidableEq, Repr

end Sys2Proof.Machine
end

