-- ==== Sys2Proof/Machine/CapTypes.lean ====
section
/-!
DEFINITION. The types of the state of the Capstan and the link: contexts and their blocks (R458 to R460), Logline records
(R527), interrupts (R449, R578), faults and repair (R522 to R526), the management port (R547 to R554), the link layer of a
Rope port (R408 to R414), and the notices a slice sends the Capstan. Plain data.
-/

namespace Sys2Proof.Machine

/-! ### Logline records (R527 to R531) -/

/-- A Logline record without its SEQ, package and check code, which the Capstan adds (R527, R528). -/
structure LogRec where
  code : Nat
  time : Nat
  slice : Nat
  capstan : Bool
  held : Bool
  data : List Byte
  deriving DecidableEq, Repr

/-- Events that raise an interrupt message (R449, R578). -/
inductive Irq where
  | contextError | deadlineMiss | faultNotice | loglineThreshold
  deriving DecidableEq, Repr

/-- What a slice sends the Capstan across the crossing in order (R535, R579): a record, with the tail of an extended
event, and the interrupt event it raises. `head` is none where a limiter dropped the record (R538). -/
structure OutRec where
  head : Option LogRec
  tail : Option LogRec
  irq : Option Irq
  arith : Option (Nat × Nat)
  deriving DecidableEq, Repr

/-- One record as it stands in the Logline: its 32 bytes and its SEQ; `lost` marks one whose words no longer decode (R530). -/
structure Stored where
  seq : BitVec 32
  bytes : List Byte
  isHead : Bool
  lost : Bool := false
  deriving DecidableEq, Repr

/-! ### Contexts (R458 to R469) -/

/-- CSTATE (R460). -/
inductive CState where
  | invalid | valid | fault
  deriving DecidableEq, Repr

/-- Pass states (R381). -/
inductive PassState where
  | none | running | draining | halted
  deriving DecidableEq, Repr

/-- A home map as a slice reads it at a pass start (R121): the entries, or the case of R123 with its REASON. -/
inductive HomeMap where
  | unread
  | entries (es : List Nat)
  | bound (reason : Nat)
  deriving DecidableEq, Repr

/-- The fixed block of a context entry (R458): its bytes, as read. -/
abbrev Bytes := List Byte

/-- A context (R457 to R469): its fixed block, its live and pending blocks, and its status block with what the
Capstan keeps beside it. `tick` is the frame tick the next pass counts from; `awaitStart` marks a pass that has ended while the
next has not started, `late` a pending block that was written in between (R466). -/
structure Ctx where
  id : Nat
  fixed : Bytes
  live : Bytes
  pend : Option Bytes
  cstate : CState
  pass : PassState
  missedNow : Bool
  missedLast : Bool
  fclass : Nat
  fcause : Nat
  passId : Nat
  fbatch : Nat
  fqindex : Nat
  faddr : Nat
  appliedSeq : Nat
  misses : Nat
  passStart : Nat
  prevGen : Option Nat
  tref : Nat
  deadlineArmed : Bool
  overrunFrom : Option Nat
  tick : Option Nat
  toInvalid : Bool
  emptied : List Nat
  arithDone : List Nat
  faultAddrs : List Nat
  awaitStart : Bool
  late : Bool
  deriving DecidableEq, Repr

/-- A slot of a slice's context cache (R470): the fixed and live blocks of the context in the activation slot. Its CSTATE is the one the
slice keeps of every context. -/
structure CtxSlot where
  slot : Nat
  ctx : Nat
  fixed : Bytes
  live : Bytes
  deriving DecidableEq, Repr

/-- What a slice keeps of the contexts: its context cache, the CSTATE of the contexts that are not INVALID (R470), the home maps that it
read for their passes (R121). -/
structure CtxCache where
  slots : List CtxSlot
  states : List (Nat × CState)
  maps : List (Nat × HomeMap)
  deriving DecidableEq, Repr

/-- The blocks of a context entry that the engine owns, as it last wrote them to the context table (R457). -/
structure TableEntry where
  ctx : Nat
  live : Bytes
  pend : Bytes
  status : Bytes
  deriving DecidableEq, Repr

/-- A loan of cask blocks (R343): who asked, how many are missing, and for which batch, by its core (with the die from bit 9 on) and
BATCH_ID. -/
structure Loan where
  ctx : Nat
  slice : Nat
  missing : Nat
  core : Nat := 0
  batchId : Nat := 0
  deriving DecidableEq, Repr

/-- Context commands (R463). -/
inductive CtxOp where
  | validate | invalidate | stage | boundary | clearFault
  deriving DecidableEq, Repr

/-- A context command in progress (R463): the command waits for the drain or for its entry; `after` marks one that first waits
for a pass start that arose before it. -/
structure CtxCmd where
  op : CtxOp
  ctx : Nat
  withBoundary : Bool
  after : Bool
  deriving DecidableEq, Repr

/-! ### Start, image, faults -/

/-- Power of the engine (R430, R612): off, held in reset, running. -/
inductive Power where
  | off | inReset | running
  deriving DecidableEq, Repr

/-- How the Capstan reads the flash (R434): bytes of an address, the 1-4-4 read instruction with its mode and dummy clocks, the quad-enable
requirement as JESD216 codes it, whether the Capstan has set its bit by a volatile write. -/
structure NvmMode where
  addrBytes : Nat
  instr : Nat
  modeClocks : Nat
  dummy : Nat
  quadEnable : Nat
  quadSet : Bool
  deriving DecidableEq, Repr

/-- CAP_START.STATE (R472). -/
inductive StartState where
  | starting | ready | notReady | failed
  deriving DecidableEq, Repr

/-- State of a slice as CAP_SLICES shows it (R522). -/
inductive SliceState where
  | absent | live | deadPass | deadIsolated
  deriving DecidableEq, Repr

/-- A slice death in progress (R504, R505): whether its router probe has ended, its fences are confirmed, by the mesh interface and by the
memory controllers (R598), its proxy has begun and has read its journal; `since` is the time of its declaration. -/
structure Death where
  slice : Nat
  probeDone : Bool
  fenced : Bool
  begun : Bool
  read : Bool
  since : Nat
  meshAck : Bool := false
  memAck : Bool := false
  deriving DecidableEq, Repr

/-- A repair record (R448, R526). -/
structure Repair where
  slice : Nat
  kind : Nat
  unit : Nat
  index : Nat
  retired : Bool
  inService : Bool
  deriving DecidableEq, Repr

/-- An outstanding page request (R375, R379). -/
structure PageReq where
  asid : Nat
  page : Nat
  since : Nat
  deriving DecidableEq, Repr

/-- A register access that waits while the Capstan restarts (R570): a write or a read, its region offset, size and value. -/
structure HeldAccess where
  write : Bool
  off : Nat
  size : Nat
  value : Reg
  deriving DecidableEq, Repr

/-! ### The management port (R546 to R554) -/

/-- A management session (R552). -/
structure Session where
  key : Nat
  number : Nat
  ks : List Byte
  last : Nat
  lastReq : List Byte
  lastResp : List Byte
  since : Nat
  deriving DecidableEq, Repr

/-- A challenge in progress (R551). -/
structure Challenge where
  key : Nat
  nt : List Byte
  since : Nat
  deriving DecidableEq, Repr

/-! ### The link layer (R408 to R414) -/

/-- State of a module (R410, R425). -/
inductive ModState where
  | unused | up | retraining | down
  deriving DecidableEq, Repr

/-- One module of a port (R408 to R411): `replay` are the sequenced flits that it has sent and that are not acknowledged, `replayEnd` the
end of the replay under way, `turn` the channel that is served next. -/
structure Module where
  st : ModState
  nextSeq : Nat
  replay : List Flit
  replayEnd : Nat := 0
  turn : Nat := 0
  expect : Nat
  lastOk : Nat
  nak : Bool
  rejects : List Nat
  badMarks : Nat
  deriving DecidableEq, Repr

/-- A flit in the receive buffers of a port (R412), with the module it arrived on. -/
structure Arrived where
  module : Nat
  flit : Flit
  deriving DecidableEq, Repr

/-- A message that a router forwards (R399): the port and the module it arrives on, its channel, the port and the module that carry it. -/
structure Through where
  inPort : Nat
  inModule : Nat
  vc : Nat
  outPort : Nat
  outModule : Nat
  deriving DecidableEq, Repr

/-- State of a port (R425). -/
inductive PortState where
  | unused | up | degraded | down
  deriving DecidableEq, Repr

/-- One of the four ports of a slice (R412 to R414, R418). `credits` are those the sender holds per VC; `owed` those the receiver owes,
`creditDue` that a CREDIT flit is ready to return them (R411); `buf` the receive buffers, in the order of arrival; `leaving` the pointers whose
spill slot's write-back is awaited (R418); `stamp` the epoch of credits restored by fiat (R415); `openMsg` the messages that have begun to
arrive and have not ended, by module, VC and epoch; `cut` those of them whose rest is discarded as it arrives (R415 step 4); `outOpen` those
that have begun to leave, by module and VC (R399). -/
structure Port where
  st : PortState
  modules : List Module
  rotate : Nat
  credits : List Nat
  stamp : Option Nat
  owed : List Nat
  owedSince : Option Nat
  leaving : List RopeMsg := []
  ptrq : List RopeMsg
  openMsg : List (Nat × Nat × Nat)
  outOpen : List (Nat × Nat) := []
  cut : List (Nat × Nat) := []
  buf : List Arrived := []
  creditDue : Bool := false
  deriving DecidableEq, Repr

/-! ### Notices of a slice (R384, R469, R488, R503, R535) -/

/-- What a slice tells the Capstan or hands the Rope within a step; delivered before the step ends. A `fault` carries its class,
the SRAM unit and the detail of CAP_FAULT (R524), none where the spec gives no number for it. -/
inductive Notice where
  | send (m : RopeMsg)
  | activate (slice ctx : Nat)
  | ctxFault (ctx fclass fcause batch qindex addr : Nat)
  | loan (slice ctx core batchId missing : Nat)
  | page (asid page : Nat)
  | fault (slice cls unit : Nat) (detail : Option Nat)
  | dropped (count : Nat) (held : Bool)
  | lost (home handle qindex : Nat)
  | ended (home handle qindex : Nat)
  | repair (r : Repair)
  | linkLost (slice port : Nat)
  deriving DecidableEq, Repr

end Sys2Proof.Machine
end

