-- ==== Sys2Proof/Machine/State.lean ====
section
/-!
DEFINITION. The state of the block: the Capstan, the slices, the messages in flight on the Rope, the queue of commands
that wait, and the counter of free values. `State.reset` is the engine before power (R612). INVENTORY.md lists every
field with the rule that names it and its reset value.
-/

namespace Sys2Proof.Machine

/-- A journal batch that has an entry of its proxy's batch table, `handle` (R505 steps 3 and 4): the slice whose journal names it, its entry
there, its cask items; `reading` is the reading of its ledger, none while its own journal lines have still to settle. -/
structure Adopting where
  handle : Nat
  dead : Nat
  entry : JournalRead
  items : List CaskItem
  reading : Option LedgerRead := none
  deriving DecidableEq, Repr

/-- Ingress and home coalescer of a slice (R155, R154, R193, R194, R183, R500). `meshWait` holds tagged operations that wait under R501, and
result writes that are held under R188; `takenOut` the batch-taken reports made, in order (R142): die, core, BATCH_ID; `adopted` the
LEDGERED batches a proxy has reported taken, `fromJournal` the journal batches that wait for a batch-table entry, with the slice whose
journal names them and their cask items, `adopting` those that have an entry (R505). -/
structure Ingress where
  pendq : List Pend
  batches : List Batch
  refuse : Reg
  unreach : Reg
  meshOut : List MeshWrite
  nextId : Nat
  meshWait : List MeshWrite
  takenOut : List (Nat × Nat × Nat)
  adopted : List (Nat × Nat × Nat)
  fromJournal : List (Nat × JournalRead × List CaskItem)
  adopting : List Adopting
  jwrites : List JWrite
  unsettled : List (Nat × Nat)
  maintOut : List MaintOut
  deriving DecidableEq, Repr

/-- A spilled query that is being restored (R339): its owner, its granules, the bytes of the buffers copied so far, and whether one of
them came poisoned (R373). -/
structure Restore where
  home : Nat
  batch : Nat
  qindex : Nat
  runs : List (Nat × Nat)
  bytes : List Byte
  poisoned : Bool
  deriving DecidableEq, Repr

/-- The two Mash partitions (R196 to R205, R423), and the queries that are being restored (R339). -/
structure Mash where
  bins : List Bin
  overflow : List (Nat × Nat × List Query)
  gathers : List Gather
  gatherWait : List Query
  restores : List Restore
  deriving DecidableEq, Repr

/-- Walkers, leaf sequencers and hitched queries of a slice (R21, R203, R293). `walkMap`, `arrMap` list the physical
unit of each logical position; `rotUnit` is the unit of the rotation step in progress, `rotDue` that it still holds its position (R517), and
`rotAt` the time at which the ROTATION timer last fell due (R516);
`opRows` counts the spare rows of the operand buffers in use (R486, R513), `opBuf` are those buffers (R294). -/
structure Work where
  walkers0 : List Walker
  walkers1 : List Walker
  jobs0 : List Job
  jobs1 : List Job
  runs : List RunWait
  nextJob : Nat
  reserving : Option (Nat × Nat × Nat)
  hitched : List Query
  leafPoi : Reg
  walkMap0 : List Nat
  walkMap1 : List Nat
  arrMap0 : List Nat
  arrMap1 : List Nat
  walkRetired : Nat
  arrRetired : Nat
  ptuActive : Nat
  ptuRetired : Nat
  rotStep0 : Nat
  rotStep1 : Nat
  rotUnit0 : Option Nat
  rotUnit1 : Option Nat
  rotAt : Nat
  layOff : Option Nat
  layRetired : List Nat
  opRows0 : Nat
  opRows1 : Nat
  rotDue0 : Bool := false
  rotDue1 : Bool := false
  opBuf0 : OpBuf := {}
  opBuf1 : OpBuf := {}
  deriving DecidableEq, Repr

/-- An owner map that a slice has still to write (R342): the context, the lines written so far, and the blocks of the others that have changed
hands since (R343), with their holders, the newest first. -/
structure OwnerMap where
  ctx : Nat
  next : Nat
  moved : List (Nat × Nat)
  deriving DecidableEq, Repr

/-- Query store and cask of a slice (R334 to R344). `maps` are the owner maps that it has still to write. -/
structure Store where
  free : List (Nat × Nat)
  bad : List Nat
  entries : List QEntry
  spilling : Bool
  diagSel : Nat
  casks : List Cask
  maps : List OwnerMap
  deriving DecidableEq, Repr

/-- Slice cache, node caches, eviction buffer, ways and maintenance of a slice (R307 to R333). `nextEvict` numbers buffer entries. `badRows`
are the rows that read UNCORRECTABLE, by instance, row and time, `badSlots` slots out of use, `badNode` the lay, set and way of node-cache
slots out of use (R486), `lostWays` the ways that self-test found lost (R514). -/
structure Cache where
  lines : List Line
  misses : List ScMiss
  waiting : List Waiting
  evict : List Evict
  nextEvict : Nat
  wseq : List WSeq
  ways : List WayState
  wayStep : List (Nat × Nat)
  result : Reg
  lost : Nat
  overflow : Nat
  node0 : List NcLine
  node1 : List NcLine
  nodeMiss0 : List NcMiss
  nodeMiss1 : List NcMiss
  maintIn : List MaintIn
  badRows : List (Nat × Nat × Nat)
  badSlots : List Nat
  badNode : List (Nat × Nat × Nat)
  lostWays : List Nat
  deriving DecidableEq, Repr

/-- The stream unit of a slice (R360 to R376): its streams; its splice queues (R372); what producers have still to append; the FETCH
stream on which each lay places its next unit of work (R360); the lines of FETCH blocks delivered as poison, by lay and job (R376);
the accesses that wait for a page (R375). -/
structure StreamUnit where
  streams : List Stream
  splice : List (List Reg)
  queued : List Queued
  turn0 : Nat
  turn1 : Nat
  fed : List (Nat × Nat × Nat)
  awaiting : List PageAccess
  fault : Reg
  faultAddr : Reg
  deriving DecidableEq, Repr

/-- The Rope port of a slice (R398 to R428). `sendq` are its messages not sent in full, each with the flits left; `through` the messages
that its router forwards. -/
structure RopePort where
  epoch : Nat
  hold : Bool
  detour : Bool
  passThrough : Bool
  ports : List Port
  routes : List Nat
  sendq : List (RopeMsg × List Flit)
  through : List Through
  linkErr : Reg
  drained : Bool
  deriving DecidableEq, Repr

/-- Counters and captures of a slice (R582 to R591). -/
structure Counters where
  ctl : Reg
  inv : Reg
  nan : Reg
  ovf : Reg
  sat : Reg
  ftz : Reg
  capt0 : Reg
  capt1 : Reg
  capt2 : Reg
  captTime : Reg
  armed : Bool
  offers : List (Nat × Nat)
  sels : List Reg
  vals : List Reg
  deriving DecidableEq, Repr

/-- Power and clocks of a slice (R604, R614 to R621). `state` is STATE of PWR_STATUS, `pendingOp` the transition in progress: 0 ON as
requested, 1 TRIM, 2 ON by itself; `result` holds RESULT and VALID at their bits of PWR_STATUS. The slice stretches for droop while
`droopNow`, and then until the time `droopHold`; likewise for temperature. -/
structure SlicePower where
  state : Nat
  trimLay : Nat
  pendingOp : Option Nat
  napping : Bool
  idleSince : Nat
  autoOn : Bool
  result : Reg
  rail : Bool
  droopNow : Bool
  thermNow : Bool
  tripped : Bool
  droops : Nat
  heats : Nat
  droopHold : Option Nat
  thermHold : Option Nat
  deriving DecidableEq, Repr

/-- One slice (01_engine_at_work.md R21). `mail` carries what the slice tells the Capstan within a step, and is empty between steps. `time`
is its copy of engine time and `timeLow` its part below a half-nanosecond, in 2⁻³² ns; `period` is the SCLK period in that unit, `timeFix`
the half-nanoseconds that the copy is still to gain or to skip, `fixPhase` counts the 64 SCLK cycles between two corrections (R606).
`outbox` holds the records on their way to the Capstan (R535). -/
structure Slice where
  id : Nat
  time : Nat
  timeLow : Nat := 0
  period : Nat := 0
  timeFix : Int := 0
  fixPhase : Nat := 0
  mail : List Notice
  outbox : List OutRec
  tokens : Nat
  tokenAt : Nat
  dropped : Nat
  droppedFirst : Nat
  heldLoss : Nat
  heldFirst : Nat
  stopped : Bool
  beatAt : Nat
  cctx : CtxCache
  ing : Ingress
  mash : Mash
  work : Work
  store : Store
  cache : Cache
  str : StreamUnit
  rope : RopePort
  cnt : Counters
  pwr : SlicePower
  deriving DecidableEq, Repr

/-- Power, pins and start sequence (R430 to R456, R472, R598, R602, R612). `step` is where the start stands: 1 waits for NVM_GRANT, 2
discovery, 3 the image is read, 5 the image has passed its checks, 6 it is loaded, 9 the final state; `testing` marks self-test under way,
`trained` that Rope training has ended, `upTime` the half-nanoseconds since T0, `waitFrom` those at which step 8 began; `nvm` is what
discovery took from the flash (R434), `badRouters` the slices whose router logic failed self-test (R455). -/
structure StartUp where
  power : Power
  pwrGood : Bool
  engResetN : Bool
  svcRail : Bool
  step : Nat
  state : StartState
  testing : Bool
  selftest : Bool
  trained : Bool
  dtr : Bool
  cause : Nat
  section_ : Nat
  startUs : Nat
  upTime : Nat
  density : Nat
  nvm : Option NvmMode
  badRouters : List Nat
  faultLow : Bool
  tapReset : Bool
  wrapReset : Bool
  waitFrom : Nat := 0
  deriving DecidableEq, Repr

/-- The image as it has arrived, and the values it gives (R435 to R450): a pin window as slice, index, LO and LINES (R446), a timer as
its record (R444), an interrupt as ADDR and DATA (R449), a key as ID, RIGHTS and KEY (R447), a hint as SLICE, KIND, UNIT, INDEX (R448). -/
structure Image where
  bytes : List Byte
  headerIn : Bool
  loaded : Bool
  revision : Nat
  length : Nat
  package : Nat
  syncMode : Nat
  tickPeriod : Nat
  ctxBase : Nat
  ctxCount : Nat
  rotate : Bool
  rotPeriod : Nat
  profiles : List (List Byte)
  partMasks : List Nat
  pinWins : List (Nat × Nat × Nat × Nat)
  strCfg : Nat
  ropeCfg : Nat
  timers : List Nat
  irqs : List (Nat × Nat)
  keys : List (Nat × Nat × List Byte)
  hints : List (Nat × Nat × Nat × Nat)
  deriving DecidableEq, Repr

/-- Engine time (R606 to R611). Times are in half-nanoseconds, but `lastTick` in ns. `slew` is the error still to be removed, `phase`
counts the cycles of VCLK between two half-nanoseconds of a slew; `heldTicks` are the frame ticks that came while the Capstan restarts
(R382, R510). -/
structure TimeBase where
  time : Nat
  on : Bool
  state : Nat
  error : BitVec 32
  frames : Nat
  bad : Nat
  slew : Int
  phase : Nat
  lastFrame : Option Nat
  lastEdge : Option Nat
  lastTick : Option Nat
  heldTicks : List Nat
  deriving DecidableEq, Repr

/-- The Logline (R527 to R543, R557 to R563). -/
structure Logline where
  next : BitVec 32
  first : List Stored
  last : List Stored
  clears : Nat
  dropLimited : Nat
  dropHeld : Nat
  mark : BitVec 32
  thresh : Nat
  armed : Bool
  rstat : Nat
  word0 : Reg
  word1 : Reg
  word2 : Reg
  word3 : Reg
  deriving DecidableEq, Repr

/-- Interrupts and the register port (R578, R580, R599, R600). -/
structure Irqs where
  mask : Nat
  pend : Nat
  counts : List Nat
  held : List (Nat × Nat)
  wait : List (Nat × Nat)
  closed : Bool
  regErr : Reg
  respData : Reg
  respError : Bool
  respCode : Nat
  deriving DecidableEq, Repr

/-- The management port (R544 to R556, R564). `resp` is the response that is ready, `out` what the port last gave on the bus: none where it
did not acknowledge. -/
structure Mgmt where
  addr : Option Nat
  session : Option Session
  sessions : Nat
  challenge : Option Challenge
  challenges : Nat
  failRun : Nat
  lockout : Option Nat
  fails : Nat
  resp : Option (List Byte)
  out : Option (List Byte)
  deriving DecidableEq, Repr

/-- Faults, restarts, slice death and repair as the Capstan keeps them (R490, R502 to R526). -/
structure Health where
  slices : List SliceState
  proxies : List (Nat × Nat)
  fault : Reg
  faultTime : Reg
  restartCount : Nat
  lastRestart : Nat
  recent : List Nat
  repairs : List Repair
  repairSel : Nat
  beats : List (Nat × Nat)
  deaths : List Death
  epoch : Nat
  lostLinks : List (Nat × Nat)
  epochBusy : Bool
  epochAgain : Bool
  drained : List Nat
  restarting : Option Nat
  failed : Bool
  /-- The registers whose storage no longer decodes, by region offset (R568): those of slices, and once the restart has failed those of
  the Capstan window (R512, R570). -/
  lost : List Nat
  pages : List PageReq
  waiting : List Notice
  accesses : List HeldAccess
  deriving DecidableEq, Repr

/-- The Capstan (R28) with the contexts as it holds them (R457 to R478), and the blocks that it has written to the context table. `active`
lists the activation slots in use with their contexts (R469), `actWait` the requests as slice and context. -/
structure Capstan where
  n : Nat
  su : StartUp
  img : Image
  tb : TimeBase
  log : Logline
  irq : Irqs
  mgt : Mgmt
  hl : Health
  ctxs : List Ctx
  table : List TableEntry
  ctxResult : Reg
  cmd : Option CtxCmd
  active : List (Nat × Nat)
  actWait : List (Nat × Nat)
  loans : List Loan
  deriving DecidableEq, Repr

/-- The whole block. -/
structure State where
  cap : Capstan
  slices : List Slice
  rope : List RopeMsg
  pending : List Instr
  fresh : Nat
  deriving DecidableEq, Repr

/-- Why a command ends in a fault: none does. The spec gives every command of the table its effect, and one that names a unit which the
engine does not have changes nothing (log entry 5). -/
inductive Fault where
  deriving DecidableEq, Repr

/-- Why a command is refused. -/
inductive Refusal where
  /-- No meaning yet; raised by an arm of Machine/Dispatch.lean alone; safe. -/
  | notModelled (mnemonic : String)
  deriving DecidableEq, Repr

/-! ### Reset (R612): the engine off -/

def emptyWalker : Walker := { work := none, parked := [] }

def emptyStream : Stream :=
  { ring := [], window := [], transfers := [], next := 0, delivered := 0, resume := none, lastResume := 0, faultPage := none
    heldReserve := 0, heldShared := 0 }

def resetModule : Module :=
  { st := .unused, nextSeq := 0, replay := [], expect := 0, lastOk := 255, nak := false, rejects := [], badMarks := 0 }

def resetPort : Port :=
  { st := .unused, modules := List.replicate 4 resetModule, rotate := 0, credits := [0, 0, 0], stamp := none
    owed := [0, 0, 0], owedSince := none, ptrq := [], openMsg := [] }

/-- A slice before power: nothing held, every granule free (R334), the limiter full (R536), CNT_CTL 0xFFFF (R590). -/
def resetSlice (id : Nat) : Slice :=
  { id := id, time := 0, mail := [], outbox := [], tokens := 256, tokenAt := 0, dropped := 0, droppedFirst := 0
    heldLoss := 0, heldFirst := 0, stopped := false, beatAt := 0
    cctx := { slots := [], states := [], maps := [] }
    ing := { pendq := [], batches := [], refuse := 0, unreach := 0, meshOut := [], nextId := 0, meshWait := []
             takenOut := [], adopted := [], fromJournal := [], adopting := [], jwrites := [], unsettled := [], maintOut := [] }
    mash := { bins := [], overflow := [], gathers := [], gatherWait := [], restores := [] }
    work := { walkers0 := List.replicate 8 emptyWalker, walkers1 := List.replicate 8 emptyWalker, jobs0 := []
              jobs1 := [], runs := [], nextJob := 0, reserving := none, hitched := [], leafPoi := 0, walkMap0 := [], walkMap1 := []
              arrMap0 := [], arrMap1 := [], walkRetired := 0, arrRetired := 0, ptuActive := 0, ptuRetired := 0
              rotStep0 := 0, rotStep1 := 0, rotUnit0 := none, rotUnit1 := none, rotAt := 0, layOff := none, layRetired := []
              opRows0 := 0, opRows1 := 0 }
    store := { free := [(0, 393216)], bad := [], entries := [], spilling := false, diagSel := 0, casks := [], maps := [] }
    cache := { lines := [], misses := [], waiting := [], evict := [], nextEvict := 0, wseq := [], ways := List.replicate 16 .active, wayStep := []
               result := 0, lost := 0, overflow := 0, node0 := [], node1 := [], nodeMiss0 := [], nodeMiss1 := []
               maintIn := [], badRows := [], badSlots := [], badNode := [], lostWays := [] }
    str := { streams := List.replicate 16 emptyStream, splice := List.replicate 8 [], queued := [], turn0 := 0, turn1 := 0, fed := [], awaiting := []
             fault := 0, faultAddr := 0 }
    rope := { epoch := 0, hold := false, detour := false, passThrough := false, ports := List.replicate 4 resetPort
              routes := List.replicate 32 0xF, sendq := [], through := [], linkErr := 0, drained := true }
    cnt := { ctl := 0xFFFF, inv := 0, nan := 0, ovf := 0, sat := 0, ftz := 0, capt0 := 0, capt1 := 0, capt2 := 0
             captTime := 0, armed := false, offers := [], sels := List.replicate 16 0, vals := List.replicate 16 0 }
    pwr := { state := 0, trimLay := 0, pendingOp := none, napping := false, idleSince := 0, autoOn := false, result := 0
             rail := false, droopNow := false, thermNow := false, tripped := false, droops := 0, heats := 0
             droopHold := none, thermHold := none } }

/-- The image before one is loaded: every SL field reads zero (R571). -/
def noImage : Image :=
  { bytes := [], headerIn := false, loaded := false, revision := 0, length := 0, package := 0
    syncMode := 0, tickPeriod := 0, ctxBase := 0, ctxCount := 0, rotate := false, rotPeriod := 0, profiles := []
    partMasks := [], pinWins := [], strCfg := 0, ropeCfg := 0, timers := [], irqs := [], keys := []
    hints := [] }

/-- The Capstan before power: `n` slices licensed (R574). -/
def resetCapstan (n : Nat) : Capstan :=
  { n := n
    su := { power := .off, pwrGood := false, engResetN := false, svcRail := false, step := 0, state := .starting, testing := false
            selftest := false, trained := false, dtr := false, cause := 0, section_ := 0xFF, startUs := 0, upTime := 0, density := 0
            nvm := none, badRouters := []
            faultLow := false, tapReset := true, wrapReset := true }
    img := noImage
    tb := { time := 0, on := false, state := 0, error := 0, frames := 0, bad := 0, slew := 0, phase := 0
            lastFrame := none, lastEdge := none, lastTick := none, heldTicks := [] }
    log := { next := 0, first := [], last := [], clears := 0, dropLimited := 0, dropHeld := 0
             mark := 0, thresh := 0, armed := true, rstat := 0, word0 := 0, word1 := 0, word2 := 0, word3 := 0 }
    irq := { mask := 0, pend := 0, counts := [0, 0, 0, 0], held := [], wait := [], closed := false, regErr := 0
             respData := 0, respError := false, respCode := 0 }
    mgt := { addr := none, session := none, sessions := 0, challenge := none, challenges := 0, failRun := 0
             lockout := none, fails := 0, resp := none, out := none }
    hl := { slices := List.replicate n .absent, proxies := [], fault := 0, faultTime := 0, restartCount := 0
            lastRestart := 0, recent := [], repairs := [], repairSel := 0, beats := [], deaths := [], epoch := 0
            lostLinks := [], epochBusy := false, epochAgain := false, drained := [], restarting := none, failed := false, lost := []
            pages := [], waiting := [], accesses := [] }
    ctxs := [], table := [], ctxResult := 0, cmd := none, active := [], actWait := [], loans := [] }

/-- The block right after reset: before PWR_GOOD, with the 16 slices of the reference package, no command waiting. -/
def State.reset : State :=
  { cap := resetCapstan 16, slices := (List.range 16).map resetSlice, rope := [], pending := [], fresh := 0 }

end Sys2Proof.Machine
end

