-- ==== Sys2Proof/Machine/Ops.lean ====
section
/-!
DEFINITION. The operations that meanings share: finding the slice a command names (R2), the fields of a context's blocks
(R458, R459), Logline records of a slice with its rate limiter (R535 to R538), granules of the query store (R334).
-/

namespace Sys2Proof.Machine

/-! ### Time (R603, R606) -/

/-- A half-nanosecond in units of 2⁻³² ns. -/
def halfNs : Nat := 2 ^ 31

/-- The SCLK period that step 8 sets: of the reference package's 2.0 GHz, in units of 2⁻³² ns (log entry 3). -/
def sclkPeriod : Nat := 2 ^ 31

/-- SCLK cycles in a cycle of VCLK at that frequency. -/
def sclkCycles : Nat := 5

/-- The outcome of a command. -/
abbrev Out' := Host.Outcome State Fault Refusal

/-! ### Engine time -/

/-- Engine time in ns of a copy kept in half-nanoseconds (R606). -/
def ns (half : Nat) : Nat := half / 2

/-- A slice's engine time in ns. -/
def Slice.now (sl : Slice) : Nat := ns sl.time

/-- The Capstan's engine time in ns. -/
def Capstan.now (c : Capstan) : Nat := ns c.tb.time

/-! ### Contexts -/

/-- The context of an id, if the table has it. -/
def Capstan.ctx? (c : Capstan) (id : Nat) : Option Ctx := c.ctxs.find? (fun x => x.id = id)

/-- The query kind of a context (R458). -/
def Ctx.qkind (c : Ctx) : Option QKind :=
  let k := byteAt c.fixed 0
  if k = 1 then some .ray else if k = 2 then some .key else if k = 3 then some .token else none

def Ctx.rmode (c : Ctx) : Nat := byteAt c.fixed 1
def Ctx.pfmt (c : Ctx) : Fmt := (fmtOf (byteAt c.fixed 2)).getD .e4m3
def Ctx.ofmt (c : Ctx) : Fmt := (ofmtOf (byteAt c.fixed 3)).getD .fp32
def Ctx.dim (c : Ctx) : Nat := le c.fixed 4 4
def Ctx.dout (c : Ctx) : Nat := le c.fixed 8 4
def Ctx.asid (c : Ctx) : Nat := le c.fixed 12 2
def Ctx.homed (c : Ctx) : Bool := byteAt c.fixed 14 = 1
def Ctx.frame (c : Ctx) : Bool := byteAt c.fixed 15 = 2
def Ctx.caskBase (c : Ctx) : Nat := le c.fixed 16 6
def Ctx.caskSize (c : Ctx) : Nat := le c.fixed 24 8
def Ctx.root (c : Ctx) : Nat := le c.live 0 8
def Ctx.base (c : Ctx) : Nat := le c.live 8 6
def Ctx.bound (c : Ctx) : Nat := le c.live 16 6
def Ctx.hmap (c : Ctx) : Nat := le c.live 24 6
def Ctx.hcount (c : Ctx) : Nat := le c.live 32 2
def Ctx.gen (c : Ctx) : Nat := le c.live 34 2
def Ctx.profile (c : Ctx) : Nat := byteAt c.live 36
def Ctx.prio (c : Ctx) : Nat := byteAt c.live 37
def Ctx.deadline (c : Ctx) : Nat := le c.live 40 4
def Ctx.liveSeq (c : Ctx) : Nat := le c.live 44 4

/-- The result modes of R136. -/
def rmodeMatches (k : Option QKind) (m : Nat) : Bool :=
  match k with
  | some .ray => m = 1 || m = 2 || m = 3
  | some .key => m = 4
  | some .token => m = 5 || m = 6
  | none => false

/-- What the walk reads of a context. -/
def Ctx.tree (c : Ctx) : TreeCtx :=
  { kind := c.qkind.getD .ray, pfmt := c.pfmt, dim := c.dim, dout := c.dout, base := c.base, bound := c.bound }

/-- A field of a context's Mash profile (R200). -/
def profileField (env : Capstan) (c : Ctx) (off n : Nat) : Nat := le (env.img.profiles.getD c.profile []) off n

def fillOf (env : Capstan) (c : Ctx) : Nat := profileField env c 0 1
def keepOf (env : Capstan) (c : Ctx) : Nat := profileField env c 1 1
def flushAgeOf (env : Capstan) (c : Ctx) : Nat := profileField env c 2 2
def gatherOf (env : Capstan) (c : Ctx) : Nat := profileField env c 4 2
def gatherAgeOf (env : Capstan) (c : Ctx) : Nat := profileField env c 8 4

/-- Whether a context is draining towards a boundary (R383). -/
def Ctx.drains (c : Ctx) : Bool := c.pass = .draining

/-- Whether a context admits no further batch (R72, R127, R461). -/
def Ctx.faulted (c : Ctx) : Bool := c.cstate = .fault

/-- Bytes of a payload element of a context (R58). -/
def Ctx.elem (c : Ctx) : Nat := c.pfmt.bytes

/-! ### What a slice sees of the contexts (R470) -/

/-- CSTATE as a slice keeps it. -/
def CtxCache.stateOf (k : CtxCache) (ctx : Nat) : CState := ((k.states.find? (fun p => p.1 = ctx)).map (·.2)).getD .invalid

/-- A context as a slice sees it: the blocks of its slot, where the context has one, and the slice's copy of CSTATE. -/
def CtxCache.see (k : CtxCache) (c : Ctx) : Ctx :=
  let c := { c with cstate := k.stateOf c.id }
  match k.slots.find? (fun x => x.ctx = c.id) with
  | some x => { c with fixed := x.fixed, live := x.live }
  | none => c

/-- The engine as a slice sees it. -/
def Slice.view (env : Capstan) (sl : Slice) : Capstan := { env with ctxs := env.ctxs.map sl.cctx.see }

/-- The home map that a slice read for a context's pass (R121). -/
def CtxCache.mapOf (k : CtxCache) (ctx : Nat) : HomeMap := ((k.maps.find? (fun p => p.1 = ctx)).map (·.2)).getD .unread

/-! ### The slice a command names -/

/-- The operation every command of a slice goes through: the slice is found (R2; where there is none, nothing happens), changed by `f`,
which may read the Capstan as the slice sees it, and its mail is handed on by `post`. -/
def onSlice (post : State → Nat → State) (i : Nat) (s : State) (f : Capstan → Slice → Slice) : Out' :=
  match s.slices[i]? with
  | none => .next s
  | some sl => .next (post { s with slices := s.slices.set i (f (sl.view s.cap) sl) } i)

/-- A slice tells the Capstan. -/
def Slice.tell (sl : Slice) (n : Notice) : Slice := { sl with mail := sl.mail ++ [n] }

/-! ### Logline records of a slice (R535 to R538) -/

/-- Whether a class is limited (R539). -/
def limitedCode (code : Nat) : Bool :=
  let cls := code / 4096
  cls = 2 || cls = 3 || cls = 5 || cls = 6 || cls = 7 || cls = 8

/-- A record of a slice at its engine time. -/
def Slice.rec' (sl : Slice) (held : Bool) (code : Nat) (data : List Byte) : LogRec :=
  { code := code, time := sl.now, slice := sl.id, capstan := false, held := held, data := data }

/-- The DROPPED record of R536. -/
def droppedData (count first loss : Nat) : List Byte := toLe 4 count ++ toLe 2 first ++ toLe 1 loss

/-- What goes out with a record: its tail, its interrupt event, its offer. -/
structure LogExtra where
  tail : Option (List Byte) := none
  irq : Option Irq := none
  arith : Option (Nat × Nat) := none

/-- Records that an entry of the outbox holds for a Capstan that restarts (R537). -/
def heldCount (o : OutRec) : Nat :=
  match o.head with
  | some r => if r.held then (if o.tail.isSome then 2 else 1) else 0
  | none => 0

/-- A record leaves the slice for the Capstan (R535 to R538): through the limiter where its class is limited; held, at most
64 with a DROPPED record that goes before it, while the Capstan restarts; its interrupt event goes with it, or alone where the record is dropped. -/
def Slice.log (env : Capstan) (sl : Slice) (code : Nat) (data : List Byte) (x : LogExtra := {}) : Slice :=
  let held := env.hl.restarting.isSome
  let count := if x.tail.isSome then 2 else 1
  let out : OutRec :=
    { head := some (sl.rec' held code data), tail := x.tail.map (sl.rec' held 0xF000), irq := x.irq, arith := x.arith }
  let bare : List OutRec := if x.irq.isSome then [{ out with head := none, tail := none }] else []
  if limitedCode code && sl.tokens = 0 then
    ({ sl with dropped := sl.dropped + count, droppedFirst := if sl.dropped = 0 then code else sl.droppedFirst
               outbox := sl.outbox ++ bare }).tell (.dropped count false)
  else
    let sl := if limitedCode code then { sl with tokens := sl.tokens - 1 } else sl
    let before := if limitedCode code && sl.dropped != 0 then 1 else 0
    if held && 64 < count + before + (sl.outbox.map heldCount).sum then
      ({ sl with heldLoss := sl.heldLoss + count, heldFirst := if sl.heldLoss = 0 then code else sl.heldFirst
                 outbox := sl.outbox ++ bare }).tell (.dropped count true)
    else if limitedCode code && sl.dropped != 0 then
      let d : OutRec := { head := some (sl.rec' held 0x0004 (droppedData sl.dropped sl.droppedFirst 0)), tail := none
                          irq := none, arith := none }
      { sl with dropped := 0, droppedFirst := 0, outbox := sl.outbox ++ [d, out] }
    else { sl with outbox := sl.outbox ++ [out] }

/-! ### Granules (R334) -/

/-- Runs that hold `n` granules, the lowest free ones, and the free runs left; `none` where fewer are free. -/
def takeRuns : (n : Nat) → List (Nat × Nat) → Option (List (Nat × Nat) × List (Nat × Nat))
  | 0, free => some ([], free)
  | _, [] => none
  | n + 1, (a, l) :: free =>
    if n + 1 < l then some ([(a, n + 1)], (a + (n + 1), l - (n + 1)) :: free)
    else if l = 0 then none
    else match takeRuns (n + 1 - l) free with
      | some (got, rest) => some ((a, l) :: got, rest)
      | none => none

/-- A run returned to the free runs, in order and joined with its neighbours. -/
def addRun (r : Nat × Nat) : List (Nat × Nat) → List (Nat × Nat)
  | [] => [r]
  | (a, l) :: free =>
    if r.1 + r.2 < a then r :: (a, l) :: free
    else if r.1 + r.2 = a then (r.1, r.2 + l) :: free
    else if a + l = r.1 then addRun (a, l + r.2) free
    else (a, l) :: addRun r free

/-- Free granules of the store (R358). -/
def Store.freeCount (st : Store) : Nat := st.free.foldl (fun n r => n + r.2) 0

/-- Granules of an entry (R334): one, and the payload's. -/
def entryGranules (payloadBytes : Nat) : Nat := 1 + (payloadBytes + 63) / 64

/-- Bytes of a query's payload in the store. -/
def Query.payloadBytes (env : Capstan) (q : Query) : Nat :=
  match env.ctx? q.ctx with
  | some c => q.payload.length * c.elem
  | none => 0

/-- The kind code of R47. -/
def kindCode : QKind → Nat
  | .ray => 1 | .key => 2 | .token => 3

/-- The entry of a query, by a granule of the store (R334, R359). -/
def Store.entryOf (st : Store) (first : Nat) : Option QEntry := st.entries.find? (fun e => e.first = first && first < 393216)

/-- Whether entry `e` belongs to a query. -/
def ownerIs (home batch qindex : Nat) (guest : Bool) (e : QEntry) : Bool :=
  e.home = home && e.batch = batch && e.qindex = qindex && e.guest = guest

/-- The number of an entry that no granule bears (R359). -/
def noGranule : Nat := 393216

/-- Granules are used again: a spilled entry loses a number among them (R359). -/
def Store.reuse (st : Store) (runs : List (Nat × Nat)) : Store :=
  let hit (e : QEntry) : Bool := e.spilled && runs.any (fun r => r.1 ≤ e.first && e.first < r.1 + r.2)
  { st with entries := updateWhere hit (fun e => { e with first := noGranule }) st.entries }

/-- A new entry of `n` granules for a query, if that many are free. -/
def Store.place (st : Store) (n kind home batch qindex : Nat) (guest : Bool) : Option (Nat × Store) :=
  match takeRuns n st.free with
  | none => none
  | some (runs, free) =>
    let first := (runs.headD (0, 0)).1
    let st := st.reuse runs
    some (first, { st with free := free
                           entries := st.entries ++
                             [{ first := first, runs := runs, kind := kind, home := home, batch := batch
                                qindex := qindex, hitched := false, spilled := false, guest := guest }] })

/-- Granules out of use stay out of the free runs (R486). -/
def Store.giveBack (st : Store) (runs : List (Nat × Nat)) : Store :=
  let good (r : Nat × Nat) : List (Nat × Nat) :=
    if st.bad.any (fun b => r.1 ≤ b && b < r.1 + r.2)
    then ((List.range r.2).map (· + r.1)).filterMap (fun g => if g ∈ st.bad then none else some (g, 1))
    else [r]
  { st with free := (runs.flatMap good).foldl (fun f r => addRun r f) st.free }

/-- An entry is freed (R337): its granules return to the free list. -/
def Store.drop (st : Store) (p : QEntry → Bool) : Store :=
  let gone := st.entries.filter p
  let st := { st with entries := st.entries.filter (fun e => !p e) }
  st.giveBack (gone.flatMap (fun e => if e.spilled then [] else e.runs))

/-- An entry is marked spilled and its granules are freed (R338). -/
def Store.spill (st : Store) (p : QEntry → Bool) : Store :=
  let gone := st.entries.filter (fun e => p e && !e.spilled)
  let st := { st with entries := updateWhere p (fun e => { e with spilled := true, runs := [] }) st.entries }
  st.giveBack (gone.flatMap (·.runs))

/-- HITCHED of an entry (R359). -/
def Store.markHitched (st : Store) (p : QEntry → Bool) (h : Bool) : Store :=
  { st with entries := updateWhere p (fun e => { e with hitched := h }) st.entries }

/-- Whether a batch at a stage holds its batch-table entry (R154). -/
def Stage.holds (x : Stage) : Bool := decide (x = .granules ∨ x = .records ∨ x = .ledger ∨ x = .journal)

end Sys2Proof.Machine
end

