-- ==== Sys2Proof/Machine/Mesh.lean ====
section
/-!
DEFINITION. The mesh of slices: neighbours (R396, R397), working links, the XY and the detour tables (R398, R416), hop counts and the
choice of a proxy (R508).
-/

namespace Sys2Proof.Machine

/-- The mesh width MW (R426). -/
def Capstan.meshWidth (c : Capstan) : Nat := field c.img.ropeCfg 37 32

/-- The slice at the other end of a port's link (R397). -/
def Capstan.neighbour (c : Capstan) (s p : Nat) : Option Nat :=
  let mw := c.meshWidth
  if mw = 0 || c.n ≤ s then none
  else if p = 0 then (if s % mw + 1 < mw then some (s + 1) else none)
  else if p = 1 then (if s + mw < c.n then some (s + mw) else none)
  else if p = 2 then (if s % mw != 0 then some (s - 1) else none)
  else if p = 3 then (if mw ≤ s then some (s - mw) else none)
  else none

/-- The port that faces back. -/
def facing (p : Nat) : Nat := (p + 2) % 4

/-- Whether a slice's router forwards (R415). -/
def Capstan.forwards (c : Capstan) (s : Nat) : Bool :=
  match c.hl.slices.getD s .absent with
  | .live => true
  | .deadPass => true
  | _ => false

def Capstan.isLive (c : Capstan) (s : Nat) : Bool := c.hl.slices.getD s .absent = .live

/-- Whether a slice takes part in the engine's work: the start has ended, and the slice neither stopped nor is dead (R503). -/
def Slice.works (env : Capstan) (sl : Slice) : Bool :=
  env.su.power = .running && env.su.state != .starting && !sl.stopped && env.isLive sl.id

/-- Whether a slice's router works: the slice does, or it is dead and in pass-through (R415). -/
def Slice.routes (env : Capstan) (sl : Slice) : Bool :=
  sl.works env || (env.su.power = .running && env.su.state != .starting && env.hl.slices.getD sl.id .absent = .deadPass)

/-- The ids of the slices. -/
def Capstan.ids (c : Capstan) : List Nat := List.range c.n

/-- The slice a working link leads to from a port: both routers forward and the link is not lost. -/
def Capstan.linkTo (c : Capstan) (s p : Nat) : Option Nat :=
  match c.neighbour s p with
  | none => none
  | some t =>
    if c.forwards s && c.forwards t && !((s, p) ∈ c.hl.lostLinks) && !((t, facing p) ∈ c.hl.lostLinks) then some t else none

/-- The working hops of a slice, by port. -/
def Capstan.hops (c : Capstan) (s : Nat) : List (Nat × Nat) :=
  (List.range 4).filterMap (fun p => (c.linkTo s p).map (fun t => (p, t)))

/-- A distance beyond every path. -/
def farAway : Nat := 1000000

/-- One round of the search for hop distances from `root`. -/
def Capstan.levelRound (c : Capstan) (root : Nat) (d : List Nat) : List Nat :=
  c.ids.map (fun s => if s = root then 0
    else (c.hops s).foldl (fun m h => min m (d.getD h.2 farAway + 1)) (d.getD s farAway))

/-- Hop distances of all slices from `root` over working links. -/
def Capstan.levels (c : Capstan) (root : Nat) : List Nat :=
  c.ids.foldl (fun d _ => c.levelRound root d) (c.ids.map (fun s => if s = root then 0 else farAway))

/-- The root of a detour table (R416): the live slice of lowest id. -/
def Capstan.detourRoot (c : Capstan) : Option Nat := c.ids.find? c.isLive

/-- Whether a hop is up (R416). -/
def upHop (lv : List Nat) (a b : Nat) : Bool :=
  let la := lv.getD a farAway
  let lb := lv.getD b farAway
  lb < la || (lb = la && b < a)

/-- The distance to a destination by paths without an up hop after a down hop: a pair per slice, for a path that may still
go up, and for one that may not. One round of the search. -/
def Capstan.detourRound (c : Capstan) (lv : List Nat) (dest : Nat) (d : List (Nat × Nat)) : List (Nat × Nat) :=
  let at_ (s : Nat) : Nat × Nat := d.getD s (farAway, farAway)
  c.ids.map (fun s => if s = dest then (0, 0)
    else (c.hops s).foldl (fun m h =>
      if upHop lv s h.2 then (min m.1 ((at_ h.2).1 + 1), m.2)
      else (min m.1 ((at_ h.2).2 + 1), min m.2 ((at_ h.2).2 + 1))) (at_ s))

def Capstan.detourDist (c : Capstan) (lv : List Nat) (dest : Nat) : List (Nat × Nat) :=
  (c.ids ++ c.ids).foldl (fun d _ => c.detourRound lv dest d)
    (c.ids.map (fun s => if s = dest then (0, 0) else (farAway, farAway)))

/-- The first hop of the detour route from `s` (R416): the lowest port on a shortest path. -/
def Capstan.detourPort (c : Capstan) (lv : List Nat) (dist : List (Nat × Nat)) (s : Nat) : Nat :=
  let at_ (t : Nat) : Nat × Nat := dist.getD t (farAway, farAway)
  let after (h : Nat × Nat) : Nat := if upHop lv s h.2 then (at_ h.2).1 + 1 else (at_ h.2).2 + 1
  match (c.hops s).find? (fun h => after h = (at_ s).1 && (at_ s).1 < farAway) with
  | some h => h.1
  | none => 0xF

/-- The first hop of the XY route (R398). -/
def Capstan.xyPort (c : Capstan) (s dest : Nat) : Nat :=
  let mw := c.meshWidth
  if mw = 0 then 0xF
  else if s % mw < dest % mw then 0
  else if dest % mw < s % mw then 2
  else if s / mw < dest / mw then 1
  else 3

/-- Whether a fault keeps the tables from being XY tables (R398): a lost link or an isolated router. -/
def Capstan.detours (c : Capstan) : Bool :=
  !c.hl.lostLinks.isEmpty || c.hl.slices.any (fun x => x = .deadIsolated)

/-- The routing table of a slice, 32 codes of R427. -/
def Capstan.routesOf (c : Capstan) (lv : List Nat) (dists : List (List (Nat × Nat))) (s : Nat) : List Nat :=
  (List.range 32).map (fun d =>
    if d = s then 4
    else if !c.isLive d then 0xF
    else if c.detours then c.detourPort lv (dists.getD d []) s
    else c.xyPort s d)

/-- The routing tables of all slices under the present faults (R398, R416). -/
def Capstan.tables (c : Capstan) : List (List Nat) :=
  if c.detours then
    let lv := c.levels ((c.detourRoot).getD 0)
    let dists := c.ids.map (fun d => c.detourDist lv d)
    c.ids.map (fun s => c.routesOf lv dists s)
  else c.ids.map (fun s => c.routesOf [] [] s)

/-- Live slices that no working path joins to the root (R416). -/
def Capstan.unreachable (c : Capstan) : List Nat :=
  match c.detourRoot with
  | none => []
  | some r => let lv := c.levels r; c.ids.filter (fun s => c.isLive s && farAway ≤ lv.getD s farAway)

/-- The hop count from a dead slice that R508 uses. -/
def Capstan.hopsFrom (c : Capstan) (dead : Nat) : List Nat :=
  if c.forwards dead then c.levels dead
  else
    let near := (List.range 4).filterMap (fun p => c.neighbour dead p)
    let ds := near.map (fun t => c.levels t)
    c.ids.map (fun s => ds.foldl (fun m d => min m (d.getD s farAway + 1)) farAway)

/-- The proxy of a dead slice (R508): the live slice without proxy duty that is fewest hops away, the lowest id among equals. -/
def Capstan.proxyFor (c : Capstan) (dead : Nat) : Option Nat :=
  let ds := c.hopsFrom dead
  let free := c.ids.filter (fun s => c.isLive s && !(c.hl.proxies.any (fun p => p.2 = s)) && ds.getD s farAway < farAway)
  free.foldl (fun best s => match best with
    | some b => if ds.getD s farAway < ds.getD b farAway then some s else some b
    | none => some s) none

end Sys2Proof.Machine
end

