-- ==== Sys2Proof/Config.lean ====
section
/-!
DEFINITION. What the spec leaves free: values nothing in Lean can evaluate. Each is applied to a counter the step reads
and advances (State.fresh), so every use is a value of its own (log entry 2).
-/

namespace Sys2Proof

/-- A free value of the spec's open bits: the random bytes of a challenge (R551), the bits of GETSTATUS (R544). -/
opaque Config.freeBits : Nat → BitVec 192

/-- Bytes 96 to 111 of a spill slot, whose form the spec does not give (R346), by what they hold: the cause of the hitch, the address
awaited, the replay point. -/
opaque Config.hitchBytes : Nat → Nat → Nat → BitVec 128

/-- Bytes 112 to 127 of a spill slot, whose form the spec does not give (R346), by what they hold: the restart depth, the trail length, the
number of stack entries in use. -/
opaque Config.walkBytes : Nat → Nat → Nat → BitVec 128

/-- What bytes 96 to 111, and bytes 112 to 127, of a spill slot say where they are not as the slice wrote them: the three values that each
holds. -/
opaque Config.hitchRead : BitVec 128 → Nat × Nat × Nat
opaque Config.walkRead : BitVec 128 → Nat × Nat × Nat

/-- The bytes of an owner map that name no block of the initial division (R342): those of the map's own blocks, and those beyond the last
block. -/
opaque Config.ownerRest : Nat → BitVec 8

/-- The 16 check bits of a word of 128 data bits under the word code, whose equations the spec gives at no boundary (R481, R482). -/
opaque Config.checkBits : BitVec 128 → BitVec 16

end Sys2Proof
end

