-- ==== Sys2Proof/Machine/Counters.lean ====
section
/-!
DEFINITION. Counters of a slice: the programmable counters (R586 to R591), the arithmetic counters (R270, R582), the
first-occurrence capture (R271, R584, R585) and the offer of an arithmetic event to the Capstan (R273).
-/

namespace Sys2Proof.Machine

/-- A 64-bit count that saturates (R583, R589). -/
def satReg (r : Reg) (n : Nat) : Reg := BitVec.ofNat 64 (min (2 ^ 64 - 1) (r.toNat + n))

/-- Whether counter `k` counts an occurrence (R587). -/
def Counters.counts (c : Counters) (k ev qual : Nat) (ctx : Option Nat) : Bool :=
  let sel := (c.sels.getD k 0).toNat
  let qm := field sel 27 20
  field sel 11 0 = ev && (qual &&& qm) = (field sel 19 12 &&& qm) &&
    (!bit sel 28 || ctx = some (field sel 43 32)) && c.ctl.getLsbD k

/-- `n` occurrences of an event (R587). -/
def Slice.count (sl : Slice) (ev qual : Nat) (ctx : Option Nat) (n : Nat) : Slice :=
  let vals := (indexed sl.cnt.vals).map (fun e => if sl.cnt.counts e.1 ev qual ctx then satReg e.2 n else e.2)
  { sl with cnt := { sl.cnt with vals := vals } }

/-- The qualifier of a walker (R591). -/
def walkerQual (lay w : Nat) : Nat := 8 * (lay % 2) + w % 8

/-- One conversion counted (R270, R582). -/
def Counters.conversion (c : Counters) (f : Flags) : Counters :=
  let up (b : Bool) (r : Reg) : Reg := if b then satReg r 1 else r
  { c with inv := up f.inv c.inv, nan := up f.nan c.nan, ovf := up f.ovf c.ovf, sat := up f.sat c.sat, ftz := up f.ftz c.ftz }

/-- Where a conversion was made and for whom (R271). -/
structure Origin where
  ctx : Nat
  pass : Nat
  batchId : Nat
  home : Nat
  qindex : Nat
  source : Nat

/-- The K index of the capture (R271). -/
def kIndexField (k : BitVec 17) : Nat := if k = 0x1FFFF then 0xFFFFFFFF else k.toNat

/-- The event flags as bits 2 to 0 (R540, R584). -/
def eventBits (f : Flags) : Nat := flag f.inv 0 + flag f.nan 1 + flag f.ovf 2

/-- The capture is filled and disarmed (R271, R584). -/
def Counters.capture (c : Counters) (o : Origin) (k : BitVec 17) (f : Flags) (time : Nat) : Counters :=
  { c with armed := false
           capt0 := BitVec.ofNat 64 (1 + eventBits f * 2 + place o.source 4 4 + place o.ctx 12 8 + place o.home 5 20 +
             place o.pass 32 32)
           capt1 := BitVec.ofNat 64 (place o.batchId 32 0 + place o.qindex 16 32)
           capt2 := BitVec.ofNat 64 (kIndexField k)
           captTime := BitVec.ofNat 64 time }

/-- A conversion made on the slice with the flags it raised: counted, captured if it is the first event while the capture
is armed, and offered to the Capstan if it is the first event of the context's pass here (R269 to R273). -/
def Slice.converted (env : Capstan) (sl : Slice) (o : Origin) (k : BitVec 17) (f : Flags) : Slice :=
  let sl := { sl with cnt := sl.cnt.conversion f }
  if f.event then
    let sl := if sl.cnt.armed then { sl with cnt := sl.cnt.capture o k f sl.now } else sl
    if (o.ctx, o.pass) ∈ sl.cnt.offers then sl
    else
      let offers : List (Nat × Nat) := sl.cnt.offers.filter (fun p => p.1 != o.ctx) ++ [(o.ctx, o.pass)]
      let sl := { sl with cnt := { sl.cnt with offers := offers } }
      sl.log env 0x4001 (toLe 2 o.ctx ++ toLe 4 o.pass ++ toLe 4 o.batchId ++ toLe 1 (eventBits f))
        { tail := some (toLe 1 o.home ++ toLe 4 o.qindex ++ toLe 4 (kIndexField k) ++ toLe 1 o.source)
          arith := some (o.ctx, o.pass) }
  else sl

/-- The pass id of a context (R271). -/
def passOf (env : Capstan) (ctx : Nat) : Nat :=
  match env.ctx? ctx with
  | some c => c.passId
  | none => 0

/-- The origin of a conversion made for a query (R271). -/
def originOf (env : Capstan) (q : Query) (source : Nat) : Origin :=
  { ctx := q.ctx, pass := passOf env q.ctx, batchId := q.batchId, home := q.home, qindex := q.qindex, source := source }

end Sys2Proof.Machine
end

