-- ==== Sys2Proof/Machine/Walk.lean ====
section
/-!
DEFINITION. One query's walk: following pointers (R83 to R87), the short stack and the restart trail (R215 to R218), the
visit of a box node (R206 to R210), an instance node (R219, R220), a triangle leaf (R222 to R227), a host leaf (R228), a
score node's selection (R229, R230) and a key-block leaf (R231). A visit depends on the query and the object alone (R214).
-/

namespace Sys2Proof.Machine

/-- What a step of the walk leads to: a next object, the end of the walk, or a tree fault (R212, R127). -/
inductive Adv where
  | go (q : Query)
  | ended (q : Query)
  | fault (q : Query) (f : FaultAt)

/-- The query an advance is about. -/
def Adv.query : Adv → Query
  | .go q => q
  | .ended q => q
  | .fault q _ => q

/-- The root of a context's tree with the address of the field that holds its pointer (R86, R128). -/
structure RootRef where
  ptr : Nat
  holder : Nat
  deriving DecidableEq, Repr

def rootRef (env : Capstan) (c : Ctx) : RootRef :=
  { ptr := c.root, holder := env.img.ctxBase + 256 * c.id + 64 }

/-- A child as a query ranks it at an object (R210, R230): rank, pointer, slot tnear, branch gate, and whether the query
takes it. -/
structure Child where
  rank : Nat
  ptr : Nat
  tnear : Num
  gate : Code
  taken : Bool
  deriving DecidableEq, Repr

/-- The frame the ray stands in (R219, R220). -/
def Query.frame (q : Query) : V3 × V3 :=
  match q.insts.getLast? with
  | some f => (f.o, f.d)
  | none => (q.org, q.dir)

/-- The direction octant of a query's current level; 0 for KEY and TOKEN (R196). -/
def Query.octant (q : Query) : Nat := if q.kind = .ray then Machine.octant q.frame.2 else 0

/-- The placement that a pointer gives (R85, R119). -/
def placedBy (parent : Placement) (p : Ptr) : Placement :=
  if p.place = 0 then parent else if p.place = 2 then .homed p.home else .replicated

/-- The lowest of two restart depths (R217). -/
def lowerDepth (a : Option Nat) (d : Nat) : Option Nat :=
  match a with
  | none => some d
  | some x => some (min x d)

/-- A push (R215): onto a full stack of 8 the bottom entry, which would be taken last, is discarded and its depth joins
the restart depth (R217). The top entry stands first. -/
def Query.push (q : Query) (e : Entry) : Query :=
  if q.stack.length < 8 then { q with stack := e :: q.stack }
  else match q.stack.getLast? with
    | some bottom => { q with stack := e :: q.stack.dropLast, restartDepth := lowerDepth q.restartDepth bottom.depth }
    | none => { q with stack := [e] }

/-- The trail with the rank taken at a path depth (R216, R217). -/
def trailAt (trail : List Nat) (depth rank : Nat) : List Nat := trail.take depth ++ [rank]

/-- The root becomes the next object, at path depth 0 (R218). No slot points to it: as the T of a host leaf that is the root stands the
ray's TMIN, which the spec leaves open (log entry 68). -/
def Query.atRoot (q : Query) (r : RootRef) : Query :=
  let p := ptrOf r.ptr
  { q with next := { addr := p.addr, ckind := p.ckind, holder := r.holder, placed := placedBy .replicated p, tnear := q.tmin }
           pathDepth := 0, cnt := 0, insts := [], gate := 0x3F800000 }

/-- The walk when the stack is empty (R218): a restart from the root where an entry was discarded, else its end. -/
def Query.stackEmpty (r : RootRef) (q : Query) : Adv :=
  match q.restartDepth with
  | none => .ended q
  | some d =>
    .go { (q.atRoot r) with rewalk := some { trail := q.trail, dr := d, i := 0 }, restartDepth := none, stack := [] }

/-- The next entry is popped (R216): the trail is cut to it, the query returns to its level (R220); an entry beyond TMAX is
dropped, an EMPTY child ends its branch (R87). -/
def popStack (r : RootRef) (q : Query) : List Entry → Adv
  | [] => Query.stackEmpty r { q with stack := [] }
  | e :: rest =>
    let p := ptrOf e.ptr
    let q := { q with stack := rest, trail := trailAt q.trail e.depth e.rank, insts := e.insts, gate := e.gate
                      pathDepth := e.depth + 1, cnt := e.cnt + 1 }
    if q.kind = .ray && q.tmax.lt e.tnear then popStack r q rest
    else if p.bad then .fault q { cause := .badPointer, addr := e.holder }
    else if p.ckind = 0 then popStack r q rest
    else .go { q with next := { addr := p.addr, ckind := p.ckind, holder := e.holder, placed := e.placed, tnear := e.tnear } }

def Query.pop (r : RootRef) (q : Query) : Adv := popStack r q q.stack

/-- A child is taken from the object just visited (R212): it becomes the next object, one path depth down. `cnt` is the node
count the child starts from (R125). A host leaf that an instance's ROOT names is not read by a ray with SKIP_HOST (R118); its pointer
counts as followed all the same, so that a malformed one is BAD_POINTER (log entry 82). BAD_POINTER of a
child in a score node's child table records the score node, where R128 does not say which of the two it means (log entry 69). -/
def Query.follow (r : RootRef) (q : Query) (c : Child) (cnt : Nat) : Adv :=
  let p := ptrOf c.ptr
  let here := q.next
  let q := { q with trail := trailAt q.trail q.pathDepth c.rank }
  if p.bad then .fault q { cause := .badPointer, addr := here.addr }
  else if p.ckind = 0 || (p.ckind = 7 && q.skipHost) then ({ q with rewalk := none }).pop r
  else .go { q with next := { addr := p.addr, ckind := p.ckind, holder := here.addr, placed := placedBy here.placed p
                              tnear := c.tnear }
                    gate := c.gate, pathDepth := q.pathDepth + 1, cnt := cnt }

/-- The entry a child makes on the stack (R215). -/
def Query.entryOf (q : Query) (c : Child) : Entry :=
  { ptr := c.ptr, holder := q.next.addr, placed := placedBy q.next.placed (ptrOf c.ptr), depth := q.pathDepth, cnt := q.cnt
    rank := c.rank, tnear := c.tnear, gate := c.gate, insts := q.insts }

/-- The step down from a box or score node over its ranked children (R212, R215): the first taken child is followed and the
others are pushed in descending rank. In a restart (R218) the trail names the child, and the siblings of higher rank are
pushed again from the restart depth on. -/
def Query.descend (r : RootRef) (q : Query) (cs : List Child) : Adv :=
  match q.rewalk with
  | none =>
    match cs.filter (·.taken) with
    | [] => q.pop r
    | c :: rest => (rest.reverse.foldl (fun q d => q.push (q.entryOf d)) q).follow r c (q.cnt + 1)
  | some w =>
    let rank := w.trail.getD w.i 0
    let again := cs.filter (fun c => c.taken && rank < c.rank)
    let q := if w.dr ≤ w.i then again.reverse.foldl (fun q d => q.push (q.entryOf d)) q else q
    match cs.find? (fun c => c.rank = rank) with
    | some c =>
      if w.i + 1 = w.trail.length || !c.taken then ({ q with rewalk := none, trail := w.trail }).pop r
      else
        match ({ q with rewalk := some { w with i := w.i + 1 } }).follow r c (q.cnt + 1) with
        | .go q' => .go { q' with trail := w.trail }
        | a => a
    | none => ({ q with rewalk := none, trail := w.trail }).pop r

/-- Whether a visit would be of a 65th node on the path of its level (R125). Re-walked objects do not count (R218). -/
def Query.tooDeep (q : Query) : Bool := q.rewalk.isNone && 64 ≤ q.cnt

/-- The depth check, the highest code but one (R126). -/
def withDepth (q : Query) (f : Option FaultAt) : Option FaultAt :=
  match f with
  | some x => some x
  | none => if q.tooDeep then some { cause := .depth, addr := q.next.addr } else none

/-! ### Box nodes -/

/-- The ranked children of a query at a box node (R206 to R210): valid slots by tnear, then slot index. A host-leaf slot
is not taken by a ray with SKIP_HOST (R228). -/
def boxChildren (slots : List Slot) (o d : V3) (tmin tmax : Num) (skipHost : Bool) (gate : Code) : List Child :=
  let tested := slots.filterMap (fun s => s.box.map (fun b => (s.ptr, slabTest b o d tmin tmax)))
  let ranked := sortBy (fun a b => Num.lt a.2.1 b.2.1) tested
  (indexed ranked).map (fun e =>
    { rank := e.1, ptr := e.2.1, tnear := e.2.2.1, gate := gate
      taken := e.2.2.2 && !(skipHost && e.2.1 % 16 = 7) })

/-- The visit of a box node (R206 to R212). -/
def visitBox (c : TreeCtx) (r : RootRef) (bs : List Byte) (q : Query) : Adv :=
  match withDepth q (boxFault c q.next.addr bs) with
  | some f => .fault q f
  | none => q.descend r (boxChildren (boxSlots bs) q.frame.1 q.frame.2 q.tmin q.tmax q.skipHost q.gate)

/-! ### Instance nodes -/

/-- The visit of an instance node (R102 to R106, R219). As the T of a host leaf that is the ROOT stands the tnear of the slot that led to the
instance, which the spec leaves open (log entry 68). -/
def visitInstance (c : TreeCtx) (r : RootRef) (bs : List Byte) (q : Query) : Adv :=
  match instKindFault c q.next.addr bs with
  | some f => .fault q f
  | none =>
    let n := instNode bs
    if q.mask &&& n.imask = 0 then q.pop r
    else match withDepth q (instFault q.next.addr q.insts.length bs) with
      | some f => .fault q f
      | none =>
        match enterFrame n.xform q.frame.1 q.frame.2 with
        | none => q.pop r
        | some (o, d) =>
          let root : Child := { rank := 0, ptr := n.root, tnear := q.next.tnear, gate := q.gate, taken := true }
          let fr : InstFrame := { addr := q.next.addr, id := n.id, o := o, d := d, outer := q.cnt + 1 }
          let inner := { q with insts := q.insts ++ [fr] }
          match q.rewalk with
          | none => inner.follow r root 0
          | some w =>
            if w.i + 1 = w.trail.length then ({ q with rewalk := none, trail := w.trail }).pop r
            else match ({ inner with rewalk := some { w with i := w.i + 1 } }).follow r root 0 with
              | .go q' => .go { q' with trail := w.trail }
              | a => a

/-! ### Triangle leaves -/

/-- Keys 3 to 8 of R169, compared in turn. -/
def lexLt : List (Num × Num) → Bool
  | [] => false
  | (a, b) :: rest => if a.lt b then true else if b.lt a then false else lexLt rest

/-- The order of R169. -/
def Hit.before (a b : Hit) : Bool :=
  let v (c : Code) : Num := Fmt.exact .fp32 c
  let n (x : Nat) : Num := .fin (x : Nat)
  let host (h : Hit) : Nat := if h.host then 1 else 0
  lexLt [(v a.t, v b.t), (n (host a), n (host b)), (n a.id, n b.id), (n a.level, n b.level), (n a.inst1, n b.inst1),
    (n a.inst2, n b.inst2), (v a.u, v b.u), (v a.v, v b.v)]

/-- INST_ID at an instance level, 0 above the path's end (R167). -/
def instIdAt (q : Query) (i : Nat) : Nat :=
  match q.insts[i]? with
  | some f => f.id
  | none => 0

/-- The hit entry of a triangle hit (R167, R225). -/
def triHitEntry (q : Query) (prim : Nat) (h : TriHit) : Hit :=
  { t := encode32 (.fin h.t), u := encode32 (.fin h.u), v := encode32 (.fin h.v), inst1 := instIdAt q 0
    inst2 := instIdAt q 1, id := prim, level := q.insts.length, host := false, back := h.back, user := 0 }

/-- Whether the ray accepts a hit (R224, R225). -/
def accepts (q : Query) (h : TriHit) : Bool :=
  !(h.back && q.cullBack) && !(!h.back && q.cullFront) && q.tmin.le (.fin h.t) && (Num.fin h.t).le q.tmax

/-- What the ray does with an accepted hit, by its result mode (R226). -/
def takeHit (q : Query) (h : Hit) : Query :=
  if q.mode = 1 then
    let better : Bool := match q.closest with
      | some c => h.before c
      | none => true
    if better then { q with closest := some h, tmax := Fmt.exact .fp32 h.t } else q
  else { q with hits := q.hits ++ [h] }

/-- One ray against the records of a leaf, in record order (R227); in ANY mode the walk ends with the first hit (R226). -/
def testTriangles : List Tri → Query → Query × Bool × Nat
  | [], q => (q, false, 0)
  | t :: rest, q =>
    match t.verts with
    | none => testTriangles rest q
    | some (a, b, c) =>
      match triTest q.frame.1 q.frame.2 a b c with
      | none => testTriangles rest q
      | some h =>
        if accepts q h then
          let q := takeHit q (triHitEntry q t.prim h)
          if q.mode = 2 then (q, true, 1)
          else
            let r := testTriangles rest q
            (r.1, r.2.1, r.2.2 + 1)
        else testTriangles rest q

/-- The visit of a triangle leaf (R222 to R227) with the number of hits accepted. -/
def visitTriangles (c : TreeCtx) (r : RootRef) (bs : List Byte) (q : Query) : Adv × Nat :=
  match triFault c q.next.addr bs with
  | some f => (.fault q f, 0)
  | none =>
    let (q, done, n) := testTriangles (triRecords bs) q
    if done then (.ended q, n) else (q.pop r, n)

/-! ### Host leaves -/

/-- The report of a host leaf (R167, R168, R228). -/
def hostReport (q : Query) (bs : List Byte) : Hit :=
  { t := encode32 q.next.tnear, u := 0, v := 0, inst1 := instIdAt q 0, inst2 := instIdAt q 1, id := le bs 8 8
    level := q.insts.length, host := true, back := false, user := le bs 4 4 }

/-- The visit of a host leaf (R118, R228): a report where T does not exceed TMAX, which ends an ANY walk. -/
def visitHost (c : TreeCtx) (r : RootRef) (bs : List Byte) (q : Query) : Adv × Option Hit :=
  match hostFault c q.next.addr bs with
  | some f => (.fault q f, none)
  | none =>
    if q.next.tnear.le q.tmax then
      let h := hostReport q bs
      if q.mode = 2 then (.ended { q with hits := [h] }, none)
      else (({ q with parts := q.parts + 1 }).pop r, some h)
    else (q.pop r, none)

/-! ### Score nodes and key-block leaves -/

/-- The ranked children of a query at a score node (R99, R230): the selected ones, each with the gate of its branch. Also
the flags of every gate conversion made (R269, R291, R292). -/
def scoreChildren (n : ScoreNode) (children : List Nat) (kind : QKind) (gate : Code) (scores : List Code) :
    List Child × List Flags :=
  let sel := selectChildren n.topkMin n.f n.thresh scores
  let rule := if kind = .token then n.gate else 0
  let gs := gatesOf rule scores sel
  let bs := gs.map (fun g => branchGate rule gate g.1)
  let cs := (indexed (sel.zip bs)).map (fun e =>
    { rank := e.1, ptr := children.getD e.2.1.1 0, tnear := .fin 0, gate := e.2.2.1, taken := true : Child })
  (cs, if rule = 0 then [] else gs.map (·.2) ++ bs.map (·.2))

/-- A score offered to a best list of at most `k` (R113): best first, equals by lower key index; NaN never. -/
def offerKey (k : Nat) (best : List (Code × Nat)) (e : Code × Nat) : List (Code × Nat) :=
  if Fmt.exact .fp32 e.1 = .nan then best
  else (insertBy (fun a b => better a.1 b.1 || (!better b.1 a.1 && a.2 < b.2)) e best).take k

/-- A best list fed every score of a key-block leaf (R231). -/
def offerScores (k base : Nat) (best : List (Code × Nat)) (scores : List Code) : List (Code × Nat) :=
  (indexed scores).foldl (fun b e => offerKey k b (e.2, base + e.1)) best

/-- Two best lists merged (R175). -/
def mergeBest (k : Nat) (a b : List (Code × Nat)) : List (Code × Nat) := b.foldl (offerKey k) a

/-- Restarts among the advances (R218): queries that begin to walk their path again. -/
def restarts (as : List Adv) : Nat :=
  as.countP (fun a => match a with
    | .go q => (match q.rewalk with
      | some r => r.i = 0 && q.pathDepth = 0
      | none => false)
    | _ => false)

/-- Entries discarded by pushes onto a full stack when a query steps down over its children (R215). -/
def discards (cs : List Child) (q : Query) : Nat :=
  let pushes := match q.rewalk with
    | none => (cs.filter (·.taken)).length - 1
    | some r => if r.dr ≤ r.i then (cs.filter (fun c => c.taken && r.trail.getD r.i 0 < c.rank)).length else 0
  q.stack.length + pushes - 8

end Sys2Proof.Machine
end

