-- ==== Sys2Proof/Machine/QueryBytes.lean ====
section
/-!
DEFINITION. A query as bytes: the image of its entry's first granule (R335, R336) and its spill slot (R346), with the hit and
top-k entries of a result (R167, R174); a query as its bytes give it back (R339).
-/

namespace Sys2Proof.Machine

/-! ### Entries of a result (R167, R174) -/

/-- A hit entry (R167). -/
def hitBytes (h : Hit) : List Byte :=
  toLe 4 h.t.toNat ++ toLe 4 h.u.toNat ++ toLe 4 h.v.toNat ++ toLe 4 h.inst1 ++ toLe 4 h.inst2 ++
    toLe 8 (h.id % 2 ^ 43 + place h.level 2 43 + flag h.host 45 + flag h.back 46) ++ toLe 4 h.user

/-- A top-k entry (R174). -/
def topBytes (e : Code × Nat) : List Byte := toLe 4 e.1.toNat ++ toLe 4 0 ++ toLe 8 (e.2 % 2 ^ 43)

/-! ### The image of a query (R335, R336, R346) -/

/-- The FP32 code of a value the engine holds; a current TMAX may be subnormal (R78, R221, R226). -/
def codeBytes (x : Num) : List Byte := toLe 4 (encode32 x).toNat

def vecBytes (v : V3) : List Byte := codeBytes (.fin v.x) ++ codeBytes (.fin v.y) ++ codeBytes (.fin v.z)

/-- A child pointer with its placement resolved (R83 to R85): INHERIT stands as the placement it stands for, which R335 leaves open (log
entry 61). -/
def pointerOf (addr ckind : Nat) (p : Placement) : Nat :=
  let pl := match p with
    | .replicated => 1 <<< 4
    | .homed h => (2 <<< 4) + place h 15 49
  place ckind 4 0 + pl + place (addr / 128) 41 8

def Next.pointer (x : Next) : Nat := pointerOf x.addr x.ckind x.placed

/-- The kind code of QFLAGS with its marks (R335). -/
def Query.qflags (q : Query) (spilled : Bool) : Nat :=
  kindCode q.kind + flag q.hitch.isSome 4 + flag spilled 5 + flag q.guest 6

/-- ORIGIN (R335). -/
def Query.origin (q : Query) : Nat := place q.batch 10 0 + place q.home 5 10

/-- The gathered flags (R336). -/
def flagBits (f : Flags) : Nat := flag f.inv 0 + flag f.nan 1 + flag f.ovf 2 + flag f.sat 3 + flag f.ftz 4

/-- SLOT: the first cask unit of the spill slot. -/
def Query.slotUnit (q : Query) : Nat := (q.slot.headD (0, 0)).1

/-- The image of the first granule (R335, R336). -/
def Query.granule (q : Query) (c : Ctx) (spilled : Bool) : List Byte :=
  match q.kind with
  | .ray =>
    vecBytes q.org ++ vecBytes q.dir ++ codeBytes q.tmin ++ codeBytes q.tmax0 ++ toLe 4 q.tag ++ toLe 1 (q.qflags spilled) ++
      toLe 1 (flag q.cullBack 0 + flag q.cullFront 1 + flag q.skipHost 2) ++ toLe 1 q.mask ++
      toLe 1 (q.insts.length % 4 + place q.octant 3 2) ++ toLe 2 q.qindex ++ toLe 2 q.origin ++ codeBytes q.tmax ++
      toLe 8 q.next.pointer ++ toLe 1 q.cnt ++ toLe 3 0 ++ toLe 4 q.slotUnit
  | k =>
    toLe 1 (kindCode k + 16) ++ toLe 3 0 ++ toLe 4 q.tag ++ toLe 1 (if k = .key then q.k else 0) ++ [BitVec.ofNat 8 (byteAt c.fixed 2)] ++
      toLe 2 0 ++ toLe 4 c.dim ++ toLe 16 0 ++ toLe 2 q.qindex ++ toLe 2 q.origin ++ toLe 1 (q.qflags spilled) ++
      toLe 1 (flagBits q.flags) ++ toLe 1 q.cnt ++ toLe 1 0 ++ toLe 8 q.next.pointer ++ toLe 4 q.slotUnit ++ toLe 12 0

/-- A stack entry in its slot (R346): pointer, path depth, rank, tnear or gate, the instance nodes of levels 1 and 2. -/
def Entry.bytes (k : QKind) (e : Entry) : List Byte :=
  let inst (i : Nat) : Nat := ((e.insts[i]?).map (fun (f : InstFrame) => f.addr / 128)).getD 0
  toLe 8 e.ptr ++ toLe 1 e.depth ++ toLe 1 e.rank ++ (if k = .ray then codeBytes e.tnear else toLe 4 e.gate.toNat) ++
    toLe 6 (inst 0) ++ toLe 6 (inst 1) ++ toLe 6 0

/-- A number packed of 6-bit ranks, the first lowest. -/
def packRanks : List Nat → Nat
  | [] => 0
  | r :: rs => r % 64 + 64 * packRanks rs

/-- The extension of a slot (R346): the hits of a RAY query in ALL mode, the best list of a KEY query, the outputs of a TOKEN query's
last finished layer, two bytes each (16,384 bytes for at most 8,192 outputs, log entry 16). -/
def Query.extension (q : Query) : List Byte :=
  match q.kind with
  | .ray => if q.mode = 3 then q.hits.flatMap hitBytes else []
  | .key => q.best.flatMap topBytes
  | .token => match q.layerOuts with
    | some (_, outs) => outs.flatMap (fun o => toLe 2 o.code.toNat)
    | none => []

/-- The hitched state of a query as three numbers (R77): the cause, the address awaited, the replay point. -/
def Query.hitchState (q : Query) : Nat × Nat × Nat :=
  match q.hitch with
  | some h => (if h.cause = .refetch then 1 else 2, h.addr, (h.layer.map (· + 1)).getD 0)
  | none => (0, 0, 0)

/-- The restart depth, the trail length and the stack entries in use, as three numbers (R346). -/
def Query.walkCounts (q : Query) : Nat × Nat × Nat := ((q.restartDepth.map (· + 1)).getD 0, q.trail.length, q.stack.length)

/-- Bytes 96 to 111 of a spill slot, and bytes 112 to 127 (R346): free values of what they hold. -/
def Query.hitchField (q : Query) : BitVec 128 := Config.hitchBytes q.hitchState.1 q.hitchState.2.1 q.hitchState.2.2
def Query.walkField (q : Query) : BitVec 128 := Config.walkBytes q.walkCounts.1 q.walkCounts.2.1 q.walkCounts.2.2

/-- A spill slot with a query's walk state (R346). Bytes 64 to 95 of a RAY query that has no hit so far are zero, and so are the reserved
ones (log entry 81). -/
def Query.slotImage (q : Query) (c : Ctx) (spilled : Bool) : List Byte :=
  let hit := match q.kind, q.closest with
    | .ray, some h => hitBytes h
    | _, _ => List.replicate 32 0
  q.granule c spilled ++ padTo 32 hit ++ toLe 16 q.hitchField.toNat ++ toLe 16 q.walkField.toNat ++
    padTo 256 (q.stack.reverse.flatMap (Entry.bytes q.kind)) ++
    toLe 144 (packRanks q.trail) ++ List.replicate 240 0 ++ q.extension

/-! ### A query as its bytes give it back (R335, R336, R339, R346) -/

/-- The FP32 value in bytes. -/
def numAt (bs : List Byte) (i : Nat) : Num := Fmt.exact .fp32 (le32 bs i)

def ratAt (bs : List Byte) (i : Nat) : Rat :=
  match numAt bs i with
  | .fin v => v
  | _ => 0

def vecAt (bs : List Byte) (i : Nat) : V3 := ⟨ratAt bs i, ratAt bs (i + 4), ratAt bs (i + 8)⟩

/-- The placement of a resolved child pointer (R85). -/
def placementOf (p : Nat) : Placement := if field p 5 4 = 2 then .homed (field p 63 49) else .replicated

/-- The next object that NEXT names. -/
def Next.fromPointer (x : Next) (p : Nat) : Next :=
  { x with addr := 128 * field p 48 8, ckind := field p 3 0, placed := placementOf p }

/-- A hit entry read back (R167). -/
def hitOf (bs : List Byte) : Hit :=
  let w := le bs 20 8
  { t := le32 bs 0, u := le32 bs 4, v := le32 bs 8, inst1 := le bs 12 4, inst2 := le bs 16 4, id := field w 42 0
    level := field w 44 43, host := bit w 45, back := bit w 46, user := le bs 28 4 }

/-- A stack entry read back (R346): what its 32 bytes hold is theirs, the rest as the slice keeps it. -/
def Entry.fromBytes (k : QKind) (e : Entry) (bs : List Byte) : Entry :=
  { e with ptr := le bs 0 8, depth := byteAt bs 8, rank := byteAt bs 9
           tnear := if k = .ray then numAt bs 10 else e.tnear, gate := if k = .ray then e.gate else le32 bs 10 }

/-- The gathered flags in AFLAGS (R336). -/
def flagsAt (bs : List Byte) (i : Nat) : Flags :=
  let b := byteAt bs i
  { inv := bit b 0, nan := bit b 1, ovf := bit b 2, sat := bit b 3, ftz := bit b 4 }

/-- Ranks unpacked (R346). -/
def unpackRanks (n w : Nat) : List Nat := (List.range n).map (fun i => w / 64 ^ i % 64)

/-- The hitched state in bytes 96 to 111 of a slot: the slice's own where they are as it wrote them. -/
def Query.hitchOf (q : Query) (bs : List Byte) : Option Hitch :=
  let x : BitVec 128 := BitVec.ofNat 128 (le bs 96 16)
  if x = q.hitchField then q.hitch
  else
    let r := Config.hitchRead x
    if r.1 % 4 = 1 || r.1 % 4 = 2 then
      some { cause := if r.1 % 4 = 1 then .refetch else .page, addr := r.2.1 % 2 ^ 48, layer := if r.2.2 = 0 then none else some (r.2.2 - 1)
             source := (q.hitch.map (fun (h : Hitch) => h.source)).getD 17 }
    else none

/-- The restart depth, the trail length and the stack entries in use from bytes 112 to 127 of a slot: the slice's own where they are as it
wrote them. -/
def Query.countsOf (q : Query) (bs : List Byte) : Nat × Nat × Nat :=
  let x : BitVec 128 := BitVec.ofNat 128 (le bs 112 16)
  if x = q.walkField then q.walkCounts
  else
    let r := Config.walkRead x
    (r.1 % 194, r.2.1 % 193, r.2.2 % 9)

/-- A stack entry without values of its own. -/
def blankEntry (q : Query) : Entry :=
  { ptr := 0, holder := 0, placed := .replicated, depth := 0, cnt := 0, rank := 0, tnear := q.tmin, gate := 0x3F800000, insts := [] }

/-- A restored query (R339): the fields that its spill slot and its payload hold are as the bytes read, the others as the slice keeps
them (log entry 16). -/
def Query.ofSlot (q : Query) (c : Ctx) (bs payload : List Byte) : Query :=
  let n := q.countsOf bs
  let kept := q.stack.reverse
  let stack := (List.range n.2.2).map (fun i =>
    Entry.fromBytes q.kind (kept.getD i (blankEntry q)) ((bs.drop (128 + 32 * i)).take 32))
  let q := { q with stack := stack.reverse, trail := unpackRanks n.2.1 (le bs 384 144), hitch := q.hitchOf bs
                    restartDepth := if n.1 = 0 then none else some (n.1 - 1) }
  match q.kind with
  | .ray =>
    { q with org := vecAt bs 0, dir := vecAt bs 12, tmin := numAt bs 24, tmax0 := numAt bs 28, tag := le bs 32 4
             cullBack := bit (byteAt bs 37) 0, cullFront := bit (byteAt bs 37) 1, skipHost := bit (byteAt bs 37) 2
             mask := byteAt bs 38, qindex := le bs 40 2, tmax := numAt bs 44, next := q.next.fromPointer (le bs 48 8)
             cnt := byteAt bs 56
             closest := q.closest.map (fun _ => hitOf ((bs.drop 64).take 32))
             hits := if q.mode = 3 then (indexed q.hits).map (fun e => hitOf ((bs.drop (768 + 32 * e.1)).take 32)) else q.hits }
  | .key =>
    { q with tag := le bs 4 4, qindex := le bs 32 2, flags := flagsAt bs 37, cnt := byteAt bs 38, next := q.next.fromPointer (le bs 40 8)
             payload := (List.range c.dim).map (fun i => BitVec.ofNat 32 (le payload (i * c.elem) c.elem))
             best := (indexed q.best).map (fun e => (le32 bs (768 + 16 * e.1), field (le bs (776 + 16 * e.1) 8) 42 0)) }
  | .token =>
    { q with tag := le bs 4 4, qindex := le bs 32 2, flags := flagsAt bs 37, cnt := byteAt bs 38, next := q.next.fromPointer (le bs 40 8)
             payload := (List.range c.dim).map (fun i => BitVec.ofNat 32 (le payload (i * c.elem) c.elem))
             layerOuts := q.layerOuts.map (fun x => (x.1, (indexed x.2).map (fun e =>
               { e.2 with code := BitVec.ofNat 32 (le bs (768 + 2 * e.1) 2) }))) }

end Sys2Proof.Machine
end

