-- ==== Sys2Proof/Machine/Rope.lean ====
section
/-!
DEFINITION. Messages and flits of the Rope (R399, R401 to R407): their bytes; the link layer's sending side (R408, R411, R412): replay
buffers, credits, the channels in rotation; routers that forward (R399, R413).
-/

namespace Sys2Proof.Machine

/-! ### Bodies of messages (R404 to R407) -/

/-- Virtual channel of a message (R403): 0 migrate, 1 return, 3 maintenance. -/
def RopeMsg.vc (m : RopeMsg) : Nat :=
  match m.body with
  | .migrate _ => 0
  | .migratePtr _ => 0
  | .result _ => 1
  | .maintDesc _ => 3
  | .maintAck _ _ => 3

/-- MTYPE (R404). -/
def RopeMsg.mtype (m : RopeMsg) : Nat :=
  match m.body with
  | .migrate _ => 1
  | .migratePtr _ => 2
  | .result _ => 3
  | .maintDesc _ => 4
  | .maintAck _ _ => 5

/-- The context of a message (R405). -/
def RopeMsg.ctx (m : RopeMsg) : Nat :=
  match m.body with
  | .migrate q => q.ctx
  | .migratePtr q => q.ctx
  | .result r => r.ctx
  | .maintDesc d => d.ctx
  | .maintAck d _ => d.ctx

/-- RKIND (R407). -/
def RKind.code : RKind → Nat
  | .rayEnd => 1
  | .hostReport => 2
  | .bestList => 3
  | .contrib => 4
  | .tokenEnd => 5
  | .keyEnd => 6
  | .lost => 7

/-- Bytes up to a bound of 16 (R406). -/
def part16 (bs : List Byte) : List Byte := padTo (roundUp bs.length 16) bs

/-- The parts of a MIGRATE body (R406): the entry image, bytes 64 to 127 of the spill slot, the stack, the trail, a ray's hits in ALL mode,
the payload. -/
def migrateBody (env : Capstan) (q : Query) : List Byte :=
  match env.ctx? q.ctx with
  | none => []
  | some c =>
    let slot := q.slotImage c q.spilled
    slot.take 128 ++ q.stack.reverse.flatMap (Entry.bytes q.kind) ++ part16 (toLe ((6 * q.trail.length + 7) / 8) (packRanks q.trail)) ++
      part16 (if q.kind = .ray && q.mode = 3 then q.hits.flatMap hitBytes else []) ++
      part16 (if q.kind = .ray then [] else q.payload.flatMap (fun x => toLe c.elem x.toNat))

/-- ORIGIN (R406): the batch handle and the home slice. -/
def originBytes (home handle : Nat) : List Byte := toLe 2 (place handle 10 0 + place home 5 10)

/-- The body of a RESULT message to `home` (R407). -/
def ResMsg.bytes (home : Nat) (r : ResMsg) : List Byte :=
  toLe 2 r.qindex ++ originBytes home r.handle ++ toLe 1 (flagBits r.flags) ++ toLe 1 (if r.rkind = .lost then 2 else 1) ++
    toLe 2 (r.hits.length + r.best.length + r.vec.length) ++ (if r.rkind = .rayEnd then codeBytes r.tmax else toLe 4 0) ++
    toLe 4 r.parts ++ r.hits.flatMap hitBytes ++ r.best.flatMap topBytes ++ r.vec.flatMap (fun x => toLe 4 x.toNat)

/-- The head of a maintenance message (R407); byte 6 is the acknowledging slice's id. -/
def MaintMsg.head (d : MaintMsg) (slice : Nat) : List Byte :=
  toLe 2 d.qindex ++ originBytes d.home d.handle ++ toLe 2 d.ctx ++ toLe 1 slice ++ toLe 9 0

/-- The body of a message (R406, R407). -/
def bodyOf (env : Capstan) (m : RopeMsg) : List Byte :=
  match m.body with
  | .migrate q => migrateBody env q
  | .migratePtr q => toLe 8 q.next.pointer ++ toLe 4 q.slotUnit ++ toLe 2 q.qindex ++ originBytes q.home q.batch
  | .result r => r.bytes m.dest
  | .maintDesc d => d.head 0 ++ padTo 32 d.raw
  | .maintAck d slice => d.head slice

/-- MHDR of a message whose body has `len` bytes (R405). -/
def RopeMsg.mhdr (m : RopeMsg) (len : Nat) : Nat :=
  let own := match m.body with
    | .migratePtr q => place q.octant 3 32
    | .result r => place r.rkind.code 4 32
    | _ => 0
  place m.ctx 12 0 + place len 20 12 + own

/-! ### Flits (R401, R402) -/

/-- The data of a flit's header word (R402). -/
def flitHeader (f : Flit) : Nat :=
  place f.vc 2 0 + flag f.first 2 + flag f.last 3 + place f.mtype 4 4 + place f.seq 8 8 + place f.ack 8 16 + flag f.nak 24 +
    place f.dest 5 26 + place f.src 5 31 + place f.words 3 36 + place f.epoch 16 40 + place f.mhdr 64 64

/-- The data of word `w` of a flit: the header, or 16 bytes of body; words beyond WORDS are zero (R402). -/
def flitWord (f : Flit) (w : Nat) : Nat := if w = 0 then flitHeader f else le f.body (16 * (w - 1)) 16

/-- The check bits of word `w` of a flit (R482): inverted where it is poisoned (R484). -/
def flitCheck (f : Flit) (w : Nat) : BitVec 16 :=
  let c := Config.checkBits (BitVec.ofNat 128 (flitWord f w))
  if w ∈ f.poison then ~~~c else c

/-- A flit as its 1,024 bits (R401): words 0 to 6 under the word code, FRAME_SEQ, FRAME_MARK. -/
def flitBits (f : Flit) : Nat :=
  ((List.range 7).map (fun w => place (flitWord f w) 128 (144 * w) + place (flitCheck f w).toNat 16 (144 * w + 128))).sum +
    place f.frameSeq 8 1008 + place f.frameMark 8 1016

/-- FRAME_MARK (R401). -/
def frameMark : Nat := 0xB4

/-- The words of a message's body that are poisoned, by their place in it (R484). -/
def RopeMsg.poisonedWords (m : RopeMsg) : List Nat :=
  match m.body with
  | .migrate q => q.poison
  | .migratePtr q => q.poison
  | _ => []

/-- The words of flit `i` that carry them: six words of body stand after the header (R402). -/
def RopeMsg.flitPoison (m : RopeMsg) (i : Nat) : List Nat :=
  (m.poisonedWords.filter (fun w => w / 6 = i)).map (fun w => w % 6 + 1)

/-- Flit `i` of the `n` of a message whose body is `body` (R402): 96 B of body, MHDR in the first; the module that sends it numbers it. -/
def RopeMsg.flit (m : RopeMsg) (body : List Byte) (n i : Nat) : Flit :=
  let part := (body.drop (96 * i)).take 96
  { vc := m.vc, first := i = 0, last := i + 1 = n, mtype := m.mtype, seq := 0, ack := 0, nak := false, dest := m.dest, src := m.src
    words := (part.length + 15) / 16, epoch := m.epoch, wordsOk := true, corrected := 0, frameSeq := 0, frameMark := frameMark
    mhdr := if i = 0 then m.mhdr body.length else 0, body := part, poison := m.flitPoison i }

/-- The flits of a message (R402): at least one. -/
def RopeMsg.flits (env : Capstan) (m : RopeMsg) : List Flit :=
  let body := bodyOf env m
  let n := max 1 ((body.length + 95) / 96)
  (List.range n).map (m.flit body n)

/-- A CREDIT flit (R405): the credits returned, for the three channels; DEST is the slice at the other end of the link (log entry 57). -/
def creditFlit (src dest epoch : Nat) (owed : List Nat) : Flit :=
  { vc := 2, first := true, last := true, mtype := 6, seq := 0, ack := 0, nak := false, dest := dest, src := src, words := 0, epoch := epoch
    wordsOk := true, corrected := 0, frameSeq := 0, frameMark := frameMark
    mhdr := place (owed.getD 0 0) 12 0 + place (owed.getD 1 0) 12 12 + place (owed.getD 2 0) 12 24 }

/-! ### Modules and ports (R399, R408, R410) -/

/-- The position of a channel's credits (R412). -/
def vcIndex (vc : Nat) : Nat := if vc = 3 then 2 else vc

/-- Whether a port has a working module (R410). -/
def Port.works (p : Port) : Bool := p.modules.any (fun m => m.st = .up)

/-- The next working module by rotation (R399). -/
def nextModule (p : Port) : Option Nat :=
  ((List.range 4).map (fun k => (p.rotate + k) % 4)).find? (fun m => match p.modules[m]? with
    | some x => x.st = .up
    | none => false)

/-- The port's lowest-numbered working module. -/
def Port.lowest (p : Port) : Option Nat := nextModule { p with rotate := 0 }

/-- A flit as a module sends it (R402, R408): SEQ and its copy, ACK, NAK. -/
def Module.stamp (m : Module) (seq : Nat) (f : Flit) : Flit :=
  { f with seq := seq, frameSeq := seq, ack := m.lastOk, nak := m.nak, frameMark := frameMark }

/-- A sequenced flit leaves on a module (R408): it takes the next SEQ and stands in the replay buffer. -/
def Module.push (m : Module) (f : Flit) : Module :=
  { m with nextSeq := (m.nextSeq + 1) % 256, replay := m.replay ++ [m.stamp m.nextSeq f] }

/-- What a module sends in a cycle in which it has nothing else (R404, R411): an IDLE flit, whose SEQ repeats the last assigned one. -/
def Module.idle (m : Module) (src dest epoch : Nat) : Flit :=
  { m.stamp ((m.nextSeq + 255) % 256) (creditFlit src dest epoch []) with mtype := 0 }

/-- The unacknowledged flits as a replay sends them (R409), with ACK and NAK as they stand. -/
def Module.resend (m : Module) : Module := { m with replay := m.replay.map (fun f => m.stamp f.seq f) }

/-- Whether a module can take one more flit into its replay buffer (R408). -/
def Module.room (m : Module) : Bool := decide (m.replay.length < 128)

/-- Whether flits of a channel that a module now DOWN had sent still wait to be sent again, ahead of any newer one (R410). -/
def Port.resends (p : Port) (vc : Nat) : Bool := p.modules.any (fun m => m.st = .down && m.replay.any (fun k => k.vc = vc))

/-- The module that carries a new message of a channel (R399): the next by rotation, for maintenance the lowest-numbered working one. -/
def Port.carrier (p : Port) (vc : Nat) : Option Nat := if vc = 3 then p.lowest else nextModule p

/-- Whether a flit of a channel may leave on a module now (R408, R410, R412); `paid` where its message holds its credits already (R418). -/
def Port.maySend (p : Port) (mi vc : Nat) (paid : Bool) : Bool :=
  !p.resends vc && (paid || 0 < p.credits.getD (vcIndex vc) 0) && (p.modules[mi]?).any (fun m => m.st = .up && m.room)

/-- A flit leaves on module `mi` (R399, R408, R412): its credit is used, the message is open on the module until its last flit. -/
def Port.put (p : Port) (mi : Nat) (f : Flit) (paid : Bool) : Port :=
  let key := (mi, f.vc)
  { p with credits := if paid then p.credits else updateAt (· - 1) (vcIndex f.vc) p.credits
           modules := updateAt (fun m => m.push f) mi p.modules
           rotate := if f.first && f.vc != 3 then (mi + 1) % 4 else p.rotate
           outOpen := if f.last then p.outOpen.filter (· != key) else if f.first then p.outOpen ++ [key] else p.outOpen }

/-- A message of one flit is sent at once, if it can be (R399, R418). -/
def Port.sendOne (p : Port) (f : Flit) : Option Port :=
  (p.carrier f.vc).bind (fun mi =>
    if p.maySend mi f.vc false && !decide ((mi, f.vc) ∈ p.outOpen) then some (p.put mi f false) else none)

/-- Credits are owed on a channel of a port (R413). -/
def Port.owe (now vc : Nat) (p : Port) : Port :=
  { p with owed := updateAt (· + 1) (vcIndex vc) p.owed, owedSince := some (p.owedSince.getD now) }

/-- A CREDIT flit that is due returns everything owed (R411, R413), once a working module has room in its replay buffer. -/
def Port.sendCredit (p : Port) (src dest epoch : Nat) : Nat × Port :=
  match p.lowest with
  | none => (0, p)
  | some m =>
    if p.creditDue && p.owedSince.isSome && (p.modules[m]?).any Module.room then
      (1, { p with modules := updateAt (fun x => x.push (creditFlit src dest epoch p.owed)) m p.modules
                   owed := [0, 0, 0], owedSince := none, creditDue := false })
    else (0, p)

def Slice.onPort (sl : Slice) (p : Nat) (f : Port → Port) : Slice :=
  { sl with rope := { sl.rope with ports := updateAt f p sl.rope.ports } }

/-- A port that owes 32 credits or more on a channel has a CREDIT flit ready (R413). -/
def Port.credits32 (p : Port) : Port := if p.owed.any (32 ≤ ·) then { p with creditDue := true } else p

/-- The CREDIT flits that are ready leave (R411). -/
def Slice.pumpCredits (env : Capstan) (sl : Slice) : Slice :=
  (List.range 4).foldl (fun sl i =>
    match sl.rope.ports[i]? with
    | none => sl
    | some p =>
      let r := p.credits32.sendCredit sl.id ((env.neighbour sl.id i).getD sl.id) sl.rope.epoch
      if r.1 = 0 && r.2 = p then sl
      else (sl.onPort i (fun _ => r.2)).count 0x501 (i + 4 * 2) none r.1) sl

/-! ### The receive buffers (R412, R413) -/

/-- The flits of a port's buffers that satisfy `p` leave them: their credits are owed (R413). -/
def Port.release (now : Nat) (p : Flit → Bool) (x : Port) : Port :=
  (x.buf.filter (fun a => p a.flit)).foldl (fun (x : Port) a => x.owe now a.flit.vc)
    { x with buf := x.buf.filter (fun a => !p a.flit) }

/-- Whether a flit leaves the buffers without being forwarded: it is delivered here, or its next hop is DOWN or unknown (R415 step 7). -/
def Slice.ends (sl : Slice) (f : Flit) : Bool :=
  f.dest = sl.id || (match sl.rope.ports[sl.rope.routes.getD f.dest 0xF]? with
    | some p => p.st = .down || p.st = .unused
    | none => true)

/-- Flits that are delivered or discarded leave the buffers (R413, R415). -/
def Slice.emptyBufs (sl : Slice) : Slice :=
  if sl.rope.ports.all (fun p => !p.buf.any (fun a => sl.ends a.flit)) then sl
  else { sl with rope := { sl.rope with ports := sl.rope.ports.map (Port.release sl.time sl.ends) } }

/-! ### What a module sends next (R399, R411) -/

/-- Where the next flit of a channel comes from: the receive buffers of a port, or a message of the slice. -/
inductive FlitFrom where
  | transit (inPort idx : Nat)
  | own (idx : Nat)

/-- The first of the flits that arrived on a module in a channel, as a place in the port's buffers. -/
def Port.headOf (p : Port) (m vc : Nat) : Option (Nat × Flit) :=
  ((indexed p.buf).find? (fun e => e.2.module = m && e.2.flit.vc = vc)).map (fun e => (e.1, e.2.flit))

/-- The next flit of a message that a module has begun (R399). -/
def Slice.goesOn (sl : Slice) (pi mi vc : Nat) : Option FlitFrom :=
  match sl.rope.through.find? (fun t => t.outPort = pi && t.outModule = mi && t.vc = vc) with
  | some t => ((sl.rope.ports[t.inPort]?).bind (fun p => p.headOf t.inModule vc)).map (fun e => .transit t.inPort e.1)
  | none => ((indexed sl.rope.sendq).find? (fun e => e.2.1.via = some mi && e.2.1.vc = vc &&
      sl.rope.routes.getD e.2.1.dest 0xF = pi)).map (fun e => .own e.1)

/-- The first flit of a message that may begin on a port (R399): one to be forwarded, or one of the slice's, but not under HOLD (R415). -/
def Slice.begins (sl : Slice) (pi vc : Nat) : Option FlitFrom :=
  let arrived := (List.range 4).findSome? (fun ip => (sl.rope.ports[ip]?).bind (fun p => (List.range 4).findSome? (fun m =>
    (p.headOf m vc).bind (fun e => if e.2.first && sl.rope.routes.getD e.2.dest 0xF = pi then some (FlitFrom.transit ip e.1) else none))))
  match arrived with
  | some x => some x
  | none =>
    if sl.rope.hold then none
    else ((indexed sl.rope.sendq).find? (fun e => e.2.1.via.isNone && e.2.1.vc = vc &&
      sl.rope.routes.getD e.2.1.dest 0xF = pi)).map (fun e => .own e.1)

/-- The flit that a module may send next on a channel, if there is one and a credit for it (R399, R411, R412). -/
def Slice.nextFlit (sl : Slice) (pi mi vc : Nat) (p : Port) : Option FlitFrom :=
  let c := if (mi, vc) ∈ p.outOpen then sl.goesOn pi mi vc
    else if p.carrier vc = some mi then sl.begins pi vc else none
  c.bind (fun x =>
    let paid : Bool := match x with
      | .own _ => vc = 0
      | .transit _ _ => false
    if p.maySend mi vc paid then some x else none)

/-- A flit of a receive buffer goes on (R399): it leaves its buffer, and its credit is owed (R413). -/
def Slice.forward (sl : Slice) (pi mi ip idx : Nat) (a : Arrived) : Slice :=
  let f := a.flit
  let through := if f.last then sl.rope.through.filter (fun t => !(t.inPort = ip && t.inModule = a.module && t.vc = f.vc))
    else if f.first then sl.rope.through ++ [{ inPort := ip, inModule := a.module, vc := f.vc, outPort := pi, outModule := mi }]
    else sl.rope.through
  let sl := { sl with rope := { sl.rope with through := through } }
  let sl := sl.onPort ip (fun p => ({ p with buf := p.buf.eraseIdx idx }).owe sl.time f.vc)
  sl.onPort pi (fun p => p.put mi f false)

/-- The next flit of a message of the slice leaves (R399); the message is on its way once its last flit has left. -/
def Slice.sendOwn (sl : Slice) (pi mi idx : Nat) (m : RopeMsg) (f : Flit) (rest : List Flit) : Slice :=
  let m := if f.first then { m with epoch := sl.rope.epoch } else m
  let f := { f with epoch := m.epoch }
  let q := if rest.isEmpty then sl.rope.sendq.eraseIdx idx else sl.rope.sendq.set idx ({ m with via := some mi }, rest)
  let sl := ({ sl with rope := { sl.rope with sendq := q } }).onPort pi (fun p => p.put mi f (m.vc = 0))
  if rest.isEmpty then sl.tell (.send { m with via := none }) else sl

/-- A module sends one flit, of the first channel in rotation that has one (R411); nothing where none has. -/
def Slice.sendNext (sl : Slice) (pi mi : Nat) : Option Slice :=
  match sl.rope.ports[pi]? with
  | none => none
  | some p =>
    let turn := ((p.modules[mi]?).map (fun x => x.turn)).getD 0
    let vcs := (List.range 3).map (fun k => [0, 1, 3].getD ((turn + k) % 3) 0)
    match vcs.findSome? (fun vc => (sl.nextFlit pi mi vc p).map (fun x => (vc, x))) with
    | none => none
    | some (vc, x) =>
      let sl := sl.onPort pi (fun p => { p with modules := updateAt (fun m => { m with turn := (vcIndex vc + 1) % 3 }) mi p.modules })
      let sl := sl.count 0x501 (pi + 4 * vc) none 1
      match x with
      | .transit ip idx => ((sl.rope.ports[ip]?).bind (fun q => q.buf[idx]?)).map (fun a => sl.forward pi mi ip idx a)
      | .own idx => match sl.rope.sendq[idx]? with
        | some (m, f :: rest) => some (sl.sendOwn pi mi idx m f rest)
        | _ => none

/-- One cycle: each module sends one flit if it has one (R411). The first part tells whether any did. -/
def Slice.sendRound (sl : Slice) : Bool × Slice :=
  ((List.range 4).flatMap (fun pi => (List.range 4).map (fun mi => (pi, mi)))).foldl (fun acc e =>
    match acc.2.sendNext e.1 e.2 with
    | some sl => (true, sl)
    | none => acc) (false, sl)

def Slice.sendRounds : (fuel : Nat) → Slice → Slice
  | 0, sl => sl
  | fuel + 1, sl => match sl.sendRound with
    | (true, sl) => sl.sendRounds fuel
    | (false, _) => sl

/-- The flits that wait to leave. -/
def Slice.flitsWaiting (sl : Slice) : Nat :=
  (sl.rope.sendq.map (fun e => e.2.length)).sum + (sl.rope.ports.map (fun p => p.buf.length)).sum

/-- Whatever waits is sent as far as credits and replay buffers allow (R411): CREDIT flits first. -/
def Slice.pump (env : Capstan) (sl : Slice) : Slice :=
  let sl := (sl.emptyBufs).pumpCredits env
  if sl.flitsWaiting = 0 then sl else (sl.sendRounds sl.flitsWaiting).pumpCredits env

/-- A message of a return or maintenance channel: to the slice itself at once, to another slice by the Rope. -/
def Slice.send (env : Capstan) (sl : Slice) (dest : Nat) (b : RopeBody) : Slice :=
  let m : RopeMsg := { src := sl.id, dest := dest, epoch := sl.rope.epoch, body := b }
  if dest = sl.id then sl.tell (.send m)
  else ({ sl with rope := { sl.rope with sendq := sl.rope.sendq ++ [(m, m.flits env)] } }).pump env

end Sys2Proof.Machine
end

