-- ==== Sys2Proof/Machine/StreamOps.lean ====
section
/-!
DEFINITION. The stream unit (R360 to R369): the fields of a block descriptor and its check (R362, R363), credits (R366, R367), issue and
delivery in block-index order (R365, R369).
-/

namespace Sys2Proof.Machine

/-! ### Block descriptors (R362, R363) -/

def Block.addr (b : Block) : Nat := le b.raw 0 6
def Block.ctx (b : Block) : Nat := field (le b.raw 0 8) 59 48
def Block.len (b : Block) : Nat := le b.raw 8 4
def Block.rows (b : Block) : Nat := le b.raw 12 2
def Block.planes (b : Block) : Nat := le b.raw 14 2
def Block.rowStride (b : Block) : Nat := le b.raw 16 4
def Block.planeStride (b : Block) : Nat := le b.raw 20 4
def Block.op (b : Block) : Nat := byteAt b.raw 28

/-- Bytes of a block. -/
def Block.bytes (b : Block) : Nat := b.len * b.rows * b.planes

/-- Whether a block is the last of its unit of work. -/
def Block.isEnd (b : Block) : Bool := bit (byteAt b.raw 29) 1

/-- Whether the unit raises an engine fault for a descriptor (R363): a reserved code, a reserved bit, a size or alignment
outside R362. -/
def Block.bad (b : Block) : Bool :=
  let local_ : Bool := b.op = 4 || b.op = 5
  let word := le b.raw 0 8
  b.op = 0 || 5 < b.op || (if local_ then field word 31 28 != 0 else field word 63 60 != 0) ||
    (if b.op = 5 then byteAt b.raw 27 != 0 else le b.raw 24 4 != 0) || byteAt b.raw 29 / 4 != 0 || !zeroBytes b.raw 30 2 ||
    b.len % 16 != 0 || b.len < 16 || 65536 < b.len || b.rows = 0 || 4096 < b.rows || b.planes = 0 || 4096 < b.planes ||
    b.rowStride % 16 != 0 || b.planeStride % 16 != 0 || 65536 < b.bytes || (local_ && (b.rows != 1 || b.planes != 1))

/-! ### Credits (R366, R367, R392) -/

/-- Whether a stream is a FETCH stream (R360). -/
def isFetch (i : Nat) : Bool := i < 8

/-- Size of a stream's pool, and the reserve of each stream in it. -/
def poolOf (env : Capstan) (i : Nat) : Nat × Nat :=
  if isFetch i then (field env.img.strCfg 12 0, field env.img.strCfg 39 32) else (field env.img.strCfg 25 13, field env.img.strCfg 47 40)

/-- The splice queue between a stream and its producer, or its consumer (R372). -/
def spliceOf (i : Nat) : Nat := if i = 14 then 6 else if i = 15 then 7 else i - 8

/-- Whether the handles of a transfer stand for buffers: those of a block that was delivered as poison without being issued do not (R376). -/
def Transfer.buffered (t : Transfer) : Bool := t.credits != 0

/-- Buffers that a stream of the buffer pool holds (R366): those its producer has filled for it, and those of its transfers. -/
def StreamUnit.buffersOf (u : StreamUnit) (i : Nat) : Nat :=
  (if i = 15 then 0 else (u.splice.getD (spliceOf i) []).length) +
    (match u.streams[i]? with
     | some s => ((s.transfers.filter Transfer.buffered).map (fun t => t.handles.length)).sum
     | none => 0)

/-- What stream `j` takes of the shared part of its pool (R366): the credits that came from there, or the buffers it holds beyond its
reserve, where those are more. -/
def StreamUnit.sharedOf (env : Capstan) (u : StreamUnit) (j : Nat) (s : Stream) : Nat :=
  if isFetch j then s.heldShared else max s.heldShared (u.buffersOf j - (poolOf env j).2)

/-- What the other streams of a stream's pool take of its shared part. -/
def StreamUnit.sharedByOthers (env : Capstan) (u : StreamUnit) (i : Nat) : Nat :=
  (((indexed u.streams).filter (fun e => isFetch e.1 = isFetch i && e.1 != i)).map (fun e => u.sharedOf env e.1 e.2)).sum

/-- Where a block's credits come from (R367): its own reserve, the shared part, or nowhere now. -/
def StreamUnit.grant (env : Capstan) (u : StreamUnit) (i need : Nat) (s : Stream) : Option Bool :=
  let (size, reserve) := poolOf env i
  if s.heldReserve + need ≤ reserve then some true
  else if u.sharedByOthers env i + s.heldShared + need + 8 * reserve ≤ size then some false
  else none

/-- Whether `n` more buffers may be allocated for a stream (R366): of its reserve, and of the shared part, not of another's reserve. -/
def StreamUnit.bufferRoom (env : Capstan) (u : StreamUnit) (i n : Nat) : Bool :=
  let (size, reserve) := poolOf env i
  decide (u.sharedByOthers env i + (u.buffersOf i + n - reserve) + 8 * reserve ≤ size)

/-- Transfers outstanding (R365). -/
def Stream.outstanding (s : Stream) : Nat := s.transfers.countP (fun t => t.started && !t.done)

/-- Credits a block needs (R367). -/
def Block.need (b : Block) : Nat := (b.bytes + 4095) / 4096

/-- BUF, BYTES and POISON of a handle (R373). -/
def handleBuf (h : Reg) : Nat := field h.toNat 11 0
def handleStream (h : Reg) : Nat := field h.toNat 28 25
def handleBlock (h : Reg) : Nat := field h.toNat 63 32
def handleBytes (h : Reg) : Nat := field h.toNat 24 12
def handlePoison (h : Reg) : Bool := bit h.toNat 29

/-- The handles of a block's buffers (R373), in order, the last marked LAST. -/
def makeHandles (i index bytes : Nat) (bufs : List Nat) (poison : Bool) : List Reg :=
  (indexed bufs).map (fun e => BitVec.ofNat 64 (place e.2 12 0 + place (min 4096 (bytes - 4096 * e.1)) 13 12 + place i 4 25 +
    flag poison 29 + flag (e.1 + 1 = bufs.length) 30 + place index 32 32))

/-- The handles in a splice queue. -/
def StreamUnit.queue (u : StreamUnit) (k : Nat) : List Reg := u.splice.getD k []

def StreamUnit.setQueue (u : StreamUnit) (k : Nat) (hs : List Reg) : StreamUnit := { u with splice := u.splice.set k hs }

/-- Handles are pushed onto a queue's end (R372). -/
def StreamUnit.push (u : StreamUnit) (k : Nat) (hs : List Reg) : StreamUnit := u.setQueue k (u.queue k ++ hs)

/-- The block index that the next descriptor appended to a stream will have (R364). -/
def Stream.indexAtEnd (s : Stream) : Nat := (s.next + s.window.length + s.ring.length) % 2 ^ 32

/-- Whether a stream's ring has room for a descriptor (R364). -/
def Stream.hasRoom (s : Stream) : Bool := decide (s.ring.length < 256)

/-- Whether a stream holds a descriptor or an outstanding transfer (R390). -/
def Stream.busy (s : Stream) : Bool := !s.ring.isEmpty || !s.window.isEmpty || s.transfers.any (fun t => !t.done)

/-- A block of the window is issued with its credits (R369). -/
def Stream.issue (s : Stream) (b : Block) (need : Nat) (reserve : Bool) (handles : List Reg) : Stream :=
  let t : Transfer := { index := s.next, block := b, credits := need, reserve := reserve, handles := handles, done := false }
  { s with window := s.window.erase b, starved := false, transfers := s.transfers ++ [t], next := (s.next + 1) % 2 ^ 32
           heldReserve := s.heldReserve + (if reserve then need else 0)
           heldShared := s.heldShared + (if reserve then 0 else need) }

/-- A block's credits return to the part they came from (R367, R368); a stream that waits for its reserve looks again (rule 3). -/
def Stream.repay (s : Stream) (index : Nat) : Stream :=
  match s.transfers.find? (fun t => t.index = index) with
  | none => s
  | some t =>
    { s with transfers := updateWhere (fun x => x.index = index) (fun x => { x with credits := 0, handles := [] }) s.transfers
             starved := s.starved && !(t.reserve && t.credits != 0)
             heldReserve := s.heldReserve - (if t.reserve then t.credits else 0)
             heldShared := s.heldShared - (if t.reserve then 0 else t.credits) }

/-- A block's transfer is complete (R365). -/
def Stream.complete (s : Stream) (index : Nat) : Stream :=
  { s with transfers := updateWhere (fun t => t.index = index) (fun t => { t with done := true }) s.transfers }

/-- Whether a block of the stream has been delivered. -/
def Stream.isDelivered (s : Stream) (index : Nat) : Bool := decide (wrapSub 32 s.delivered index - 1 < 2 ^ 31) && index != s.delivered

/-- Completed blocks are delivered in block-index order (R365); `fuel` bounds them. The count of deliveries is the first part. -/
def Stream.deliver : (fuel : Nat) → Stream → Nat × Stream
  | 0, s => (0, s)
  | fuel + 1, s =>
    if s.transfers.any (fun t => t.index = s.delivered && t.done) then
      let r := Stream.deliver fuel { s with delivered := (s.delivered + 1) % 2 ^ 32 }
      (r.1 + 1, r.2)
    else (0, s)

/-- Blocks delivered whose credits have returned are forgotten, with their handles taken. -/
def Stream.forget (s : Stream) : Stream :=
  { s with transfers := s.transfers.filter (fun t => !(s.isDelivered t.index && t.credits = 0 && t.handles.isEmpty)) }

/-- Stream `i` of a slice changed by `f`; credits in use are counted again. -/
def Slice.onStream (sl : Slice) (i : Nat) (f : Stream → Stream) : Slice :=
  { sl with str := { sl.str with streams := updateAt f i sl.str.streams } }

/-- The number of the RESTORE stream, which alone has READ blocks (R360, R363). -/
def restoreStream : Nat := 15

/-- Whether a block that waits for sectors still needs the one at an address. -/
def Transfer.needs (t : Transfer) (a : Nat) : Bool :=
  decide (t.block.addr < a + 32) && decide (a < t.block.addr + t.block.bytes) && !t.got.any (fun g => g.1 = a)

/-- Sectors that a READ block waits for are there (R316, R363), be it wanted still or not (R365), with the addresses of those that are
poisoned. -/
def Slice.giveStream (sl : Slice) (i index : Nat) (sectors : List (Nat × List Byte)) (poison : List Nat) : Slice :=
  let take (t : Transfer) : Transfer :=
    if i = restoreStream then
      { t with got := t.got ++ sectors.filter (fun g => !(t.got.any (fun x => x.1 = g.1))), poisoned := t.poisoned || poison.any t.needs }
    else t
  sl.onStream i (fun s => { s with transfers := updateWhere (fun t => t.index = index) take s.transfers })

/-- A completed block of a stream and what it lets be delivered (R365), counted (R591). -/
def Slice.completeBlock (sl : Slice) (i index : Nat) : Slice :=
  match sl.str.streams[i]? with
  | none => sl
  | some s =>
    let (n, s) := (s.complete index).deliver (s.transfers.length + 1)
    (sl.onStream i (fun _ => s.forget)).count 0x401 i none n

end Sys2Proof.Machine
end

