-- ==== Sys2Proof/Machine/SliceCache.lean ====
section
/-!
DEFINITION. The slice cache (R307 to R323): lookups, misses and target slots, pinned fills, whole-line and partial writes,
the eviction buffer; the node caches (R324, R325). Lines stand in the order of their last use.
-/

namespace Sys2Proof.Machine

/-- The line address of a byte (R307). -/
def lineAddr (a : Nat) : Nat := a / 256 * 256

/-- The set of a line (R307). -/
def setOf (a : Nat) : Nat := (a / 256) % 20480

/-- The way mask of a partition (R308, R352). -/
def partMask (env : Capstan) : Part → Nat
  | .tree => env.img.partMasks.getD 0 0
  | .weight => env.img.partMasks.getD 1 0
  | .stream => env.img.partMasks.getD 2 0

/-- The LOCK mask (R309). -/
def lockMask (env : Capstan) : Nat := env.img.partMasks.getD 3 0

/-- The current generation of a context (R129). -/
def genOf (env : Capstan) (ctx : Nat) : Nat :=
  match env.ctx? ctx with
  | some c => c.gen
  | none => 0

/-- Whether a line hits for a context and address, in a way of the partition (R311). Lines of a stream buffer are reached by their handle
only (R366). A line that holds data of two partitions has a copy, and a miss register, in each of them (log entry 61). -/
def Line.hits (env : Capstan) (l : Line) (part : Part) (ctx addr : Nat) : Bool :=
  l.tag = addr && l.ctx = ctx && !l.doomed && l.buf.isNone && bit (partMask env part) l.way &&
    (part = .stream || l.gen = genOf env ctx)

/-- The line a lookup hits (R311). -/
def Cache.find (env : Capstan) (c : Cache) (part : Part) (ctx addr : Nat) : Option Line :=
  c.lines.find? (fun l => l.hits env part ctx addr)

/-- A lookup made to reserve passes over lines in a draining way (R318). -/
def Cache.findReserve (env : Capstan) (c : Cache) (part : Part) (ctx addr : Nat) : Option Line :=
  c.lines.find? (fun l => l.hits env part ctx addr && c.ways.getD l.way .active != .draining)

/-- Whether a line is stale (R311): its generation is not its context's current one. -/
def Line.stale (env : Capstan) (l : Line) : Bool :=
  !bit (partMask env .stream) l.way && l.gen != genOf env l.ctx

/-- Whether a line is held: by the tiles that reserved it (R318), or by a stream buffer (R366). -/
def Line.held (l : Line) : Bool := l.rsv != 0 || l.buf.isSome

/-- Whether a slot is the target of a miss in progress (R313). -/
def Cache.targeted (c : Cache) (set way : Nat) : Bool :=
  c.misses.any (fun m => m.st = .pending && m.set = set && m.way = way)

/-- Whether a slot's row is out of use (R486). -/
def Cache.outOfUse (c : Cache) (set way : Nat) : Bool := decide ((set * 16 + way) ∈ c.badSlots)

/-- The first way of a list whose slot holds nothing and is not targeted. -/
def Cache.invalidWay (c : Cache) (set : Nat) (ways : List Nat) : Option Nat :=
  ways.find? (fun w => !c.targeted set w && !(c.lines.any (fun l => l.set = set && l.way = w)) && !c.outOfUse set w)

/-- The target slot of a miss (R314): an invalid slot, a stale one, or the one used least recently that is neither
reserved nor locked. A slot out of use takes no fill (R486). -/
def Cache.slotFor (env : Capstan) (c : Cache) (part : Part) (set : Nat) : Option Nat :=
  let ways := (maskBits 16 (partMask env part)).filter (fun w => c.ways.getD w .gated = .active && !bit (lockMask env) w)
  match c.invalidWay set ways with
  | some w => some w
  | none =>
    let here := c.lines.filter (fun l => l.set = set && decide (l.way ∈ ways) && !l.held && !c.targeted set l.way && !c.outOfUse set l.way)
    match here.find? (fun l => l.stale env && !l.lock) with
    | some l => some l.way
    | none => (here.find? (fun l => !l.lock)).map (·.way)

/-- Whether a pin window of slice `id` covers a line of a context (R319, R357). -/
def pinned (env : Capstan) (id ctx addr : Nat) : Bool :=
  env.img.pinWins.any (fun w => match w with
    | (sl, _, lo, lines) => sl = id && bit lo 63 && field lo 59 48 = ctx && field lo 47 0 ≤ addr && addr < field lo 47 0 + 256 * lines)

/-- The target slot of a pinned miss (R319): an invalid or stale slot of a locked way of the partition. -/
def Cache.pinSlot (env : Capstan) (c : Cache) (part : Part) (set : Nat) : Option Nat :=
  let ways := (maskBits 16 (partMask env part)).filter (fun w => c.ways.getD w .gated = .active && bit (lockMask env) w)
  match c.invalidWay set ways with
  | some w => some w
  | none =>
    (c.lines.find? (fun l => l.set = set && decide (l.way ∈ ways) && l.stale env && !l.held &&
      !c.targeted set l.way && !c.outOfUse set l.way)).map (·.way)

/-! ### The eviction buffer (R323) -/

/-- Whether the buffer has a free entry (R314, R323). -/
def Cache.bufferRoom (c : Cache) : Bool := decide (c.evict.length < 64)

/-- A line enters the eviction buffer (R323). -/
def Cache.enterBuffer (c : Cache) (ctx addr : Nat) (way : Option Nat) (data : List Byte) (poison : List Nat) : Cache :=
  { c with evict := c.evict ++ [{ id := c.nextEvict, ctx := ctx, addr := addr, way := way, data := data, poison := poison }]
           nextEvict := c.nextEvict + 1 }

/-- A line leaves its slot: dirty data enters the eviction buffer (R312, R314). -/
def Cache.vacate (c : Cache) (set way : Nat) : Cache :=
  let gone := c.lines.filter (fun l => l.set = set && l.way = way)
  let c : Cache := { c with lines := c.lines.filter (fun l => !(l.set = set && l.way = way)) }
  (gone.filter (·.dirty)).foldl (fun (c : Cache) l => c.enterBuffer l.ctx l.tag (some way) l.data l.poison) c

/-- Whether a slot can be vacated now: a dirty victim needs a free entry of the buffer (R314). -/
def Cache.canVacate (c : Cache) (set way : Nat) : Bool :=
  !(c.lines.any (fun l => l.set = set && l.way = way && l.dirty)) || c.bufferRoom

/-- The newest entry of a line in the eviction buffer (R317, R323). -/
def Cache.entryFor (c : Cache) (ctx addr : Nat) : Option Evict := c.evict.reverse.find? (fun e => e.ctx = ctx && e.addr = addr)

/-- A line put into a slot. -/
def Cache.install (c : Cache) (l : Line) : Cache := { c with lines := c.lines ++ [l] }

/-- A line used last stands last (R314). -/
def Cache.touch (c : Cache) (set way : Nat) : Cache :=
  { c with lines := c.lines.filter (fun l => !(l.set = set && l.way = way)) ++
      c.lines.filter (fun l => l.set = set && l.way = way) }

/-- The lowest number below `n` that is not in use. -/
def freeNumber (n : Nat) (used : List Nat) : Option Nat := (List.range n).find? (fun i => !(i ∈ used))

/-! ### Misses (R313 to R319) -/

/-- Whether a request changes its line. -/
def Requester.writes : Requester → Bool
  | .write _ _ => true
  | .whole _ _ _ _ => true
  | .flush => true
  | _ => false

/-- Whether a change to a cask line waits for a slot or a buffer entry: what comes later for the line waits behind it. -/
def Cache.behindWrite (c : Cache) (ctx addr : Nat) : Bool :=
  c.waiting.any (fun w => w.part = .stream && w.ctx = ctx && w.addr = addr && w.who.writes)

/-- Whether a request of the same requester for the line is on a register's list, or waits. -/
def Cache.asked (c : Cache) (w : Waiting) : Bool :=
  c.misses.any (fun m => m.addr = w.addr && m.ctx = w.ctx && m.part = w.part && decide (w.who ∈ m.waiters)) ||
    c.waiting.any (fun x => x.addr = w.addr && x.ctx = w.ctx && x.part = w.part && x.who = w.who)

/-- The PENDING register of a line (R313). -/
def Cache.pendingFor (c : Cache) (part : Part) (ctx addr : Nat) : Option ScMiss :=
  c.misses.find? (fun m => m.st = .pending && m.addr = addr && m.ctx = ctx && m.part = part)

/-- A request waits (R313, R314). -/
def Cache.wait (c : Cache) (w : Waiting) : Cache := { c with waiting := c.waiting ++ [w] }

/-- A requester joins the list of a PENDING register, if it has room (R313). -/
def Cache.merge (c : Cache) (m : ScMiss) (w : Waiting) : Cache :=
  if m.waiters.length < 32 then
    { c with misses := updateWhere (fun x => x.reg = m.reg) (fun x => { x with waiters := x.waiters ++ [w.who] }) c.misses }
  else c.wait w

/-- A miss is made (R313 to R319): merged into the PENDING register of its line, given a register and a target slot, or
left waiting, on slice `id`. -/
def Cache.miss (env : Capstan) (id : Nat) (c : Cache) (w : Waiting) : Cache :=
  match c.pendingFor w.part w.ctx w.addr with
  | some m => c.merge m w
  | none =>
    let set := setOf w.addr
    let pin := pinned env id w.ctx w.addr
    let locked := if pin then c.pinSlot env w.part set else none
    let choice := match locked with
      | some x => some x
      | none => c.slotFor env w.part set
    match freeNumber 256 (c.misses.map (·.reg)), choice with
    | some reg, some way =>
      if c.canVacate set way then
        let c := c.vacate set way
        { c with misses := c.misses ++ [{ reg := reg, addr := w.addr, ctx := w.ctx, gen := w.gen, part := w.part
                                          st := .pending, set := set, way := way, lock := locked.isSome
                                          waiters := [w.who], got := [], poisoned := [], first := w.sector, pin := pin }] }
      else c.wait w
    | _, _ => c.wait w

/-- The code of a partition in a counter's qualifier (R591). -/
def Part.code : Part → Nat
  | .tree => 0 | .weight => 1 | .stream => 2

/-- A slice whose cache was `before`: the lines that have left it as victims for the sake of a line are counted (R314, R591). -/
def Slice.countVictims (sl : Slice) (before : Cache) (part : Part) (ctx addr : Nat) : Slice :=
  let stays (l : Line) : Bool := l.ctx = ctx && l.tag = addr ||
    sl.cache.lines.any (fun x => x.set = l.set && x.way = l.way && x.ctx = l.ctx && x.tag = l.tag)
  sl.count 0x306 part.code none (before.lines.countP (fun l => !stays l))

/-- A request joins the list of a PENDING register, counted (R591), or waits where the list is full (R313). -/
def Slice.mergeMiss (sl : Slice) (m : ScMiss) (w : Waiting) : Slice :=
  ({ sl with cache := sl.cache.merge m w }).count 0x305 w.part.code (some w.ctx) (if m.waiters.length < 32 then 1 else 0)

/-- A miss of the slice cache, counted (R591): a requester merged, or a register allocated with its victim. -/
def Slice.missFor (env : Capstan) (sl : Slice) (w : Waiting) : Slice :=
  match sl.cache.pendingFor w.part w.ctx w.addr with
  | some m => sl.mergeMiss m w
  | none =>
    let c := sl.cache.miss env sl.id w
    (({ sl with cache := c }).count 0x304 w.part.code (some w.ctx) (c.misses.length - sl.cache.misses.length)).countVictims sl.cache
      w.part w.ctx w.addr

/-! ### Writes (R321, R322) -/

/-- The bytes `data` laid over a line from `off` on. -/
def overlay (line : List Byte) (off : Nat) (data : List Byte) : List Byte :=
  line.take off ++ data ++ line.drop (off + data.length)

/-- The sectors that a write of `n` bytes from `off` on covers whole: their poison is cleared (R484). -/
def coveredSectors (off n : Nat) : List Nat := (List.range 8).filter (fun k => off ≤ 32 * k && 32 * k + 32 ≤ off + n)

/-- The length of a source's write sequence after it writes a whole line (R322). -/
def Cache.sequence (c : Cache) (src addr : Nat) : Nat × Cache :=
  let len := match c.wseq.find? (fun w => w.src = src) with
    | some w => if w.last + 256 = addr then w.len + 1 else 1
    | none => 1
  (len, { c with wseq := c.wseq.filter (fun w => w.src != src) ++ [{ src := src, last := addr, len := len }] })

/-- A line is changed in place, dirty and used last (R312, R314, R321). -/
def Cache.writeAt (c : Cache) (l : Line) (off : Nat) (data : List Byte) (poison : List Nat) : Cache :=
  let put (x : Line) : Line :=
    { x with data := overlay x.data off data, dirty := true
             poison := x.poison.filter (fun k => !(k ∈ coveredSectors off data.length)) ++ poison }
  ({ c with lines := updateWhere (fun x => x.set = l.set && x.way = l.way) put c.lines }).touch l.set l.way

/-- A whole-line write (R321, R322): in place; past the cache to the eviction buffer; or into a slot, without a fill. None where it
finds neither slot nor buffer entry. -/
def Cache.putWhole (env : Capstan) (c : Cache) (ctx addr : Nat) (data : List Byte) (poison : List Nat) (around : Bool) : Option Cache :=
  match c.find env .stream ctx addr with
  | some l => some (c.writeAt l 0 data poison)
  | none =>
    if around then (if c.bufferRoom then some (c.enterBuffer ctx addr none data poison) else none)
    else match c.slotFor env .stream (setOf addr) with
      | some way =>
        if c.canVacate (setOf addr) way then
          some ((c.vacate (setOf addr) way).install
            { set := setOf addr, way := way, ctx := ctx, gen := 0, tag := addr, dirty := true, lock := false
              doomed := false, rsv := 0, data := data, poison := poison })
        else none
      | none => none

/-- A line present leaves the cache, dirty data by the eviction buffer (R312, R341); descriptors that waited for its entry know it (R327).
None where no entry is free. -/
def Cache.tryFlush (env : Capstan) (c : Cache) (ctx addr : Nat) : Option Cache :=
  match c.find env .stream ctx addr with
  | none => some c
  | some l =>
    if c.canVacate l.set l.way then
      let note (m : MaintIn) : MaintIn :=
        if (ctx, addr) ∈ m.flushes then { m with flushes := m.flushes.erase (ctx, addr), evicts := m.evicts ++ [c.nextEvict] } else m
      let k := c.vacate l.set l.way
      some (if l.dirty then { k with maintIn := k.maintIn.map note } else k)
    else none

/-- A whole-line write, and the cleaning that follows it at once where it is asked for (R500). -/
def Cache.tryWhole (env : Capstan) (c : Cache) (ctx addr : Nat) (data : List Byte) (poison : List Nat) (around clean : Bool) :
    Option Cache :=
  match c.putWhole env ctx addr data poison around with
  | none => none
  | some k => if clean then k.tryFlush env ctx addr else some k

/-- A change to a cask line is carried out (R321): none where it must wait, or where its line is not there and it needs a fill. -/
def Cache.tryWrite (env : Capstan) (c : Cache) (w : Waiting) : Option Cache :=
  if c.behindWrite w.ctx w.addr || (c.pendingFor .stream w.ctx w.addr).isSome then none
  else match w.who with
  | .whole data poison around clean => c.tryWhole env w.ctx w.addr data poison around clean
  | .flush => c.tryFlush env w.ctx w.addr
  | .write off data =>
    match c.find env .stream w.ctx w.addr with
    | some l => some (c.writeAt l off data [])
    | none =>
      match c.entryFor w.ctx w.addr with
      | some e =>
        c.putWhole env w.ctx w.addr (overlay e.data off data) (e.poison.filter (fun k => !(k ∈ coveredSectors off data.length))) false
      | none => none
  | _ => none

/-- A change that could not be carried out (R313, R314): it joins the PENDING register of its line; a partial write whose line is nowhere
is a miss; else it waits. -/
def Slice.writeLater (env : Capstan) (sl : Slice) (w : Waiting) : Slice :=
  let c := sl.cache
  if c.behindWrite w.ctx w.addr then { sl with cache := c.wait w }
  else match c.pendingFor .stream w.ctx w.addr with
  | some m => sl.mergeMiss m w
  | none =>
    match w.who with
    | .write _ _ => if (c.entryFor w.ctx w.addr).isSome then { sl with cache := c.wait w } else sl.missFor env w
    | _ => { sl with cache := c.wait w }

/-- A change to a cask line (R321). -/
def Slice.change (env : Capstan) (sl : Slice) (w : Waiting) : Slice :=
  match sl.cache.tryWrite env w with
  | some c => ({ sl with cache := c }).countVictims sl.cache .stream w.ctx w.addr
  | none => sl.writeLater env w

/-- A request of the engine for a cask line. -/
def caskRequest (who : Requester) (ctx addr : Nat) : Waiting := { who := who, ctx := ctx, gen := 0, part := .stream, addr := addr }

/-- A whole-line write of a source (R321, R322), counted (R591); `clean` has it cleaned at once (R500). -/
def Slice.writeLine (env : Capstan) (sl : Slice) (src ctx addr : Nat) (data : List Byte) (clean : Bool := false)
    (poison : List Nat := []) : Slice :=
  let (len, c) := sl.cache.sequence src addr
  let around : Bool := decide (33 ≤ len)
  let past := if around && (c.find env .stream ctx addr).isNone then 1 else 0
  ((({ sl with cache := c }).change env (caskRequest (.whole data poison around clean) ctx addr)).count 0x303 2 (some ctx) 1).count
    0x309 0 none past

/-- A partial-line write of a source (R321): in place where the line is present; else a fill is asked for and then merged. -/
def Slice.writePart (env : Capstan) (sl : Slice) (src ctx addr : Nat) (data : List Byte) : Slice :=
  let la := lineAddr addr
  let c : Cache := { sl.cache with wseq := sl.cache.wseq.filter (fun w => w.src != src) ++ [{ src := src, last := la, len := 1 }] }
  (({ sl with cache := c }).count 0x303 2 (some ctx) 1).change env
    { caskRequest (.write (addr - la) data) ctx la with sector := (addr - la) / 32 }

/-- A line of the cask is cleaned and leaves the cache (R341). -/
def Slice.flushLine (env : Capstan) (sl : Slice) (ctx addr : Nat) : Slice := sl.change env (caskRequest .flush ctx addr)

/-! ### Reads (R311, R316, R323) -/

/-- A line as a lookup finds it, with its poisoned sectors (R484): in the cache, or in the eviction buffer (R323). -/
def Cache.seen (env : Capstan) (c : Cache) (part : Part) (ctx addr : Nat) : Option (List Byte × List Nat) :=
  if part = .stream && c.behindWrite ctx addr then none
  else match c.find env part ctx addr with
  | some l => some (l.data, l.poison)
  | none => if part = .stream then (c.entryFor ctx addr).map (fun e => (e.data, e.poison)) else none

/-- A lookup's hit makes the line the one used last (R314). -/
def Cache.used (env : Capstan) (c : Cache) (part : Part) (ctx addr : Nat) : Cache :=
  match c.find env part ctx addr with
  | some l => c.touch l.set l.way
  | none => c

/-- A read of a line (R311, R323): its data where it is present or held in the buffer; else a miss is made, once for a requester. -/
def Slice.readLine (env : Capstan) (sl : Slice) (who : Requester) (part : Part) (ctx addr sector : Nat) :
    Option (List Byte × List Nat) × Slice :=
  let sl := sl.count 0x303 part.code (some ctx) 1
  match sl.cache.seen env part ctx addr with
  | some d => (some d, { sl with cache := sl.cache.used env part ctx addr })
  | none =>
    let w : Waiting := { who := who, ctx := ctx, gen := genOf env ctx, part := part, addr := addr, sector := sector }
    if sl.cache.asked w then (none, sl)
    else if part = .stream && sl.cache.behindWrite ctx addr then (none, { sl with cache := sl.cache.wait w })
    else (none, sl.missFor env w)

/-- The lines that `n` bytes from `a` on touch. -/
def linesOf (a n : Nat) : List Nat :=
  if n = 0 then [] else (List.range ((a + n - 1) / 256 + 1 - a / 256)).map (fun i => lineAddr a + 256 * i)

/-- The sectors of a line that `n` bytes from `a` on touch. -/
def sectorsOf (line a n : Nat) : List Nat := (List.range 8).filter (fun k => a < line + 32 * k + 32 && line + 32 * k < a + n)

/-- A line put together of the sectors that have been delivered (R316); none where one of those needed is missing. -/
def fromSectors (got : List (Nat × List Byte)) (line : Nat) (need : List Nat) : Option (List Byte) :=
  if need.all (fun k => got.any (fun g => g.1 = line + 32 * k)) then
    some ((List.range 8).flatMap (fun k => ((got.find? (fun g => g.1 = line + 32 * k)).map (·.2)).getD (List.replicate 32 0)))
  else none

/-- The sectors that a register has received in good order, by address (R316). -/
def ScMiss.sectors (m : ScMiss) : List (Nat × List Byte) :=
  (m.got.filter (fun g => !(g.1 ∈ m.poisoned ++ m.lost))).map (fun g => (m.addr + 32 * g.1, g.2))

/-- The requesters on a register's list that read the line as it is filled: those before the first that changes it. -/
def ScMiss.readers (m : ScMiss) : List Requester := m.waiters.takeWhile (fun r => !r.writes)

/-- The sectors of a line that its PENDING register has received: a requester that merges now has them at once (R316), unless a change to
the line stands before it. -/
def Cache.arrived (c : Cache) (part : Part) (ctx addr : Nat) : List (Nat × List Byte) :=
  match c.pendingFor part ctx addr with
  | some m => if m.waiters.any Requester.writes then [] else m.sectors
  | none => []

/-- The bytes of a range for a requester, of the sectors delivered to it, of those of its lines that have arrived and of lines present; none
where one is missing, and then every missing line is asked for, the first sector needed first (R316). -/
def Slice.readBytes (env : Capstan) (sl : Slice) (who : Requester) (got : List (Nat × List Byte)) (part : Part) (ctx a n : Nat) :
    Option (List Byte) × Slice :=
  let r := (linesOf a n).foldl (fun (acc : Option (List Byte) × Slice) la =>
    let need := sectorsOf la a n
    let (d, sl) := match fromSectors (got ++ acc.2.cache.arrived part ctx la) la need with
      | some bs => (some bs, acc.2)
      | none =>
        let (x, sl) := acc.2.readLine env who part ctx la (need.headD 0)
        (x.map (·.1), sl)
    match acc.1, d with
    | some bs, some x => (some (bs ++ x), sl)
    | _, _ => (none, sl)) (some [], sl)
  (r.1.map (fun bs => (bs.drop (a % 256)).take n), r.2)

/-! ### Delivery (R313, R316) -/

/-- The sectors of a line, by address. -/
def lineSectors (addr : Nat) (data : List Byte) : List (Nat × List Byte) :=
  (List.range 8).map (fun k => (addr + 32 * k, (data.drop (32 * k)).take 32))

/-- Sectors that a reader does not have yet join those that it has. -/
def addSectors (got new : List (Nat × List Byte)) : List (Nat × List Byte) :=
  got ++ new.filter (fun g => !(got.any (fun x => x.1 = g.1)))

/-- The addresses of sectors of a line. -/
def sectorAddrs (addr : Nat) (ks : List Nat) : List Nat := ks.map (fun k => addr + 32 * k)

/-- Sectors are delivered to a run that waits (R316). -/
def Slice.giveRun (sl : Slice) (id : Nat) (sectors : List (Nat × List Byte)) : Slice :=
  let f (r : RunWait) : RunWait := { r with got := addSectors r.got sectors }
  { sl with work := { sl.work with runs := updateWhere (fun r => r.id = id) f sl.work.runs } }

/-- Sectors of a combining area are there for a batch's operation (R316). -/
def Slice.giveComb (sl : Slice) (h : Nat) (sectors : List (Nat × List Byte)) : Slice :=
  let f (b : Batch) : Batch := { b with opGot := addSectors b.opGot sectors }
  { sl with ing := { sl.ing with batches := updateWhere (fun b => b.handle = h) f sl.ing.batches } }

/-- Sectors join what a reading of a ledger has, with the addresses of those that are poisoned. -/
def LedgerRead.take (sectors : List (Nat × List Byte)) (poison : List Nat) (r : LedgerRead) : LedgerRead :=
  let new := poison.filter (fun a => !(r.got.any (fun x => x.1 = a)))
  { r with got := addSectors r.got sectors, poison := r.poison ++ new }

/-- Sectors of a ledger are there for the batch that reads it (R316, R348). -/
def Slice.giveLedger (sl : Slice) (h : Nat) (sectors : List (Nat × List Byte)) (poison : List Nat) : Slice :=
  let own (b : Batch) : Batch := { b with reading := b.reading.map (LedgerRead.take sectors poison) }
  let adopt (a : Adopting) : Adopting := { a with reading := a.reading.map (LedgerRead.take sectors poison) }
  { sl with ing := { sl.ing with batches := updateWhere (fun b => b.handle = h) own sl.ing.batches
                                 adopting := updateWhere (fun a => a.handle = h) adopt sl.ing.adopting } }

/-- Whether a node-cache register awaits a line. -/
def NcMiss.awaits (ctx addr reg : Nat) (x : NcMiss) : Bool := x.reg = reg && lineAddr x.addr = addr && x.ctx = ctx

/-- The node-cache miss registers of a lay. -/
def Cache.nodeMiss (c : Cache) (lay : Nat) : List NcMiss := if lay = 0 then c.nodeMiss0 else c.nodeMiss1

def Cache.setNodeMiss (c : Cache) (lay : Nat) (ms : List NcMiss) : Cache :=
  if lay = 0 then { c with nodeMiss0 := ms } else { c with nodeMiss1 := ms }

/-- A node-cache register has its half of a line. -/
def Cache.giveNode (c : Cache) (lay reg ctx addr : Nat) (data : List Byte) : Cache :=
  let give (x : NcMiss) : NcMiss := { x with ready := some ((data.drop (x.addr % 256)).take 128) }
  c.setNodeMiss lay (updateWhere (NcMiss.awaits ctx addr reg) give (c.nodeMiss lay))

/-- A request that waited tries again (R313, R314): a change is carried out; a line that is there now, in the cache or in the buffer, is
given to its reader; else the miss is made. Tiles, FETCH blocks and refetches find the line when they look again. -/
def Slice.retry (env : Capstan) (sl : Slice) (w : Waiting) : Slice :=
  if w.who.writes then sl.change env w
  else match sl.cache.seen env w.part w.ctx w.addr with
  | some (data, poison) =>
    match w.who with
    | .node lay reg => { sl with cache := sl.cache.giveNode lay reg w.ctx w.addr data }
    | .run _ id => sl.giveRun id (lineSectors w.addr data)
    | .stream i j => sl.giveStream i j (lineSectors w.addr data) (sectorAddrs w.addr poison)
    | .comb h => if poison.isEmpty then sl.giveComb h (lineSectors w.addr data) else sl
    | .ledger h => sl.giveLedger h (lineSectors w.addr data) (sectorAddrs w.addr poison)
    | _ => sl
  | none => if w.part = .stream && sl.cache.behindWrite w.ctx w.addr then { sl with cache := sl.cache.wait w } else sl.missFor env w

/-- Requests that waited try again, in the order in which they came (R313). -/
def Slice.retryWaiting (env : Capstan) (sl : Slice) : Slice :=
  sl.cache.waiting.foldl (fun sl w => sl.retry env w) { sl with cache := { sl.cache with waiting := [] } }

/-! ### Reservations (R318) -/

/-- A reservation is dropped (R318): RSV falls; a doomed line whose last reservation ends becomes invalid (R312). -/
def Cache.unreserve (c : Cache) (slots : List (Nat × Nat)) : Cache :=
  let keep (l : Line) : Option Line :=
    let l' := { l with rsv := l.rsv - (slots.filter (fun p => p = (l.set, l.way))).length }
    if l'.doomed && l'.rsv = 0 then none else some l'
  { c with lines := c.lines.filterMap keep }

/-- A reservation is raised on a slot (R318). -/
def Cache.reserve (c : Cache) (set way : Nat) : Cache :=
  { c with lines := updateWhere (fun l => l.set = set && l.way = way) (fun l => { l with rsv := l.rsv + 1 }) c.lines }

/-- Whether a slot's words are stored poisoned (R484). -/
def Cache.slotPoison (c : Cache) (set way : Nat) : Bool := c.lines.any (fun l => l.set = set && l.way = way && !l.poison.isEmpty)

/-- The sector that holds a word of a slot is stored poisoned (R484, R485). -/
def Cache.poisonWord (c : Cache) (set way word : Nat) : Cache :=
  let mark (l : Line) : Line := if word / 2 ∈ l.poison then l else { l with poison := l.poison ++ [word / 2] }
  { c with lines := updateWhere (fun l => l.set = set && l.way = way) mark c.lines }

/-- Every word of a slot's row is stored poisoned (R301, R485). -/
def Cache.poisonSlot (c : Cache) (set way : Nat) : Cache :=
  { c with lines := updateWhere (fun l => l.set = set && l.way = way) (fun l => { l with poison := List.range 8 }) c.lines }

/-- The data of a reserved slot. -/
def Cache.slotData (c : Cache) (set way : Nat) : List Byte :=
  match c.lines.find? (fun l => l.set = set && l.way = way) with
  | some l => l.data
  | none => []

/-- A line is dropped without write-back (R327, R487): a reserved line is doomed instead (R312). -/
def Cache.dropLines (p : Line → Bool) (c : Cache) : Cache :=
  let keep (l : Line) : Option Line :=
    if p l then (if l.rsv = 0 then none else some { l with doomed := true }) else some l
  { c with lines := c.lines.filterMap keep }

/-! ### Node caches (R324, R325) -/

/-- The node-cache lines of a lay. -/
def Cache.node (c : Cache) (lay : Nat) : List NcLine := if lay = 0 then c.node0 else c.node1

def Cache.setNode (c : Cache) (lay : Nat) (ls : List NcLine) : Cache :=
  if lay = 0 then { c with node0 := ls } else { c with node1 := ls }

/-- A miss register is FREE again (R313); descriptors no longer wait for it (R327). -/
def Cache.freeReg (c : Cache) (reg : Nat) : Cache :=
  let cut (m : MaintIn) : MaintIn := { m with scRegs := m.scRegs.filter (· != reg) }
  { c with misses := c.misses.filter (fun m => m.reg != reg), maintIn := c.maintIn.map cut }

/-- A node-cache miss register is FREE again (R325, R327). -/
def Cache.freeNodeReg (c : Cache) (lay reg : Nat) : Cache :=
  let cut (m : MaintIn) : MaintIn := { m with ncRegs := m.ncRegs.filter (· != (lay, reg)) }
  { c.setNodeMiss lay ((c.nodeMiss lay).filter (fun x => x.reg != reg)) with maintIn := c.maintIn.map cut }

/-- A node-cache lookup (R324). -/
def Cache.nodeFind (env : Capstan) (c : Cache) (lay ctx addr : Nat) : Option (List Byte) :=
  ((c.node lay).find? (fun l => l.addr = addr && l.ctx = ctx && l.gen = genOf env ctx)).map (·.data)

/-- A node-cache line that is used stands last in the order of its lay (R324, log entry 62). -/
def Cache.nodeTouch (env : Capstan) (c : Cache) (lay ctx addr : Nat) : Cache :=
  let here (l : NcLine) : Bool := l.addr = addr && l.ctx = ctx && l.gen = genOf env ctx
  c.setNode lay ((c.node lay).filter (fun l => !here l) ++ (c.node lay).filter here)

/-- The set of a node-cache line (R324). -/
def nodeSet (addr : Nat) : Nat := (addr / 128) % 2048

/-- A node-cache line is installed in its set of 8 ways (R324): in a free one, else in place of the line used least recently. Slots out of
use take no fill (R486). -/
def Cache.nodeInstall (c : Cache) (lay : Nat) (l : NcLine) : Cache :=
  let set := nodeSet l.addr
  let ls := (c.node lay).filter (fun x => !(x.addr = l.addr && x.ctx = l.ctx && x.gen = l.gen))
  let ways := (List.range 8).filter (fun w => !((lay, set, w) ∈ c.badNode))
  let at_ (w : Nat) (x : NcLine) : Bool := nodeSet x.addr = set && x.way = w
  match ways.find? (fun w => !ls.any (at_ w)) with
  | some w => c.setNode lay (ls ++ [{ l with way := w }])
  | none => match ls.find? (fun x => nodeSet x.addr = set && x.way ∈ ways) with
    | some v => c.setNode lay (ls.filter (fun x => !at_ v.way x) ++ [{ l with way := v.way }])
    | none => c

/-- The half of a line that holds a node-cache line, once its four sectors have arrived without poison (R316). -/
def ScMiss.half (m : ScMiss) (addr : Nat) : Option (List Byte) :=
  let first := addr % 256 / 32
  let parts := (List.range 4).map (fun i =>
    if (first + i) ∈ m.poisoned ++ m.lost then none else (m.got.find? (fun g => g.1 = first + i)).map (·.2))
  if parts.all Option.isSome then some (parts.flatMap (·.getD [])) else none

/-- The node-cache registers on a miss's list whose sectors are there have them, and leave the list (R316). -/
def Cache.giveHalves (c : Cache) (m : ScMiss) : Cache × ScMiss :=
  let half (r : Requester) : Option (List Byte) := match r with
    | .node lay reg => ((c.nodeMiss lay).find? (NcMiss.awaits m.ctx m.addr reg)).bind (fun x => m.half x.addr)
    | _ => none
  let put (c : Cache) (r : Requester) : Cache := match r with
    | .node lay reg => c.setNodeMiss lay (updateWhere (NcMiss.awaits m.ctx m.addr reg) (fun x => { x with ready := half r }) (c.nodeMiss lay))
    | _ => c
  ((m.waiters.filter (fun r => (half r).isSome)).foldl put c, { m with waiters := m.waiters.filter (fun r => (half r).isNone) })

/-- A node-cache miss (R325): merged into the PENDING register of the line, or given a register, whose fill is asked of
the slice cache. A line the slice cache holds is ready at once, and so are sectors that have arrived already (R316). -/
def Slice.nodeAsk (env : Capstan) (sl : Slice) (lay ctx addr : Nat) : Slice :=
  let ms := sl.cache.nodeMiss lay
  if ms.any (fun m => m.addr = addr && m.ctx = ctx && m.st = .pending) then sl
  else match freeNumber 32 (ms.map (·.reg)) with
    | none => sl
    | some reg =>
      let (d, sl) := sl.readLine env (.node lay reg) .tree ctx (lineAddr addr) (addr % 256 / 32)
      let m : NcMiss := { reg := reg, addr := addr, ctx := ctx, gen := genOf env ctx, st := .pending
                          ready := d.map (fun x => (x.1.drop (addr % 256)).take 128) }
      let c := sl.cache.setNodeMiss lay (ms ++ [m])
      match c.pendingFor .tree ctx (lineAddr addr) with
      | none => { sl with cache := c }
      | some x =>
        let (c, y) := c.giveHalves x
        { sl with cache := { c with misses := updateWhere (fun z => z.reg = x.reg) (fun _ => y) c.misses } }

/-- The PENDING register of a line (R325). -/
def Cache.nodeReg (c : Cache) (lay ctx addr : Nat) : Nat :=
  match (c.nodeMiss lay).find? (fun m => m.addr = addr && m.ctx = ctx && m.st = .pending) with
  | some m => m.reg
  | none => 32

/-- The lines of 128 bytes that `n` bytes from `a` on touch (R324). -/
def nodeLines (a n : Nat) : List Nat := (List.range ((a + n - 1) / 128 + 1 - a / 128)).map (fun i => a / 128 * 128 + 128 * i)

/-- A line for a packet: as its register delivered it (R313), or from the node cache of its lay. -/
def Slice.nodeLine (env : Capstan) (sl : Slice) (lay ctx : Nat) (got : List (Nat × List Byte)) (l : Nat) : Option (List Byte) :=
  match got.find? (fun g => g.1 = l) with
  | some g => some g.2
  | none => sl.cache.nodeFind env lay ctx l

/-- The bytes of an object as a packet's walker reads it: `n` bytes from `a` on; or the first line that is missing. -/
def Slice.nodeBytes (env : Capstan) (sl : Slice) (lay : Nat) (p : Packet) (a n : Nat) : Except Nat (List Byte) :=
  let lines := nodeLines a n
  match lines.find? (fun l => (sl.nodeLine env lay p.ctx p.got l).isNone) with
  | some l => .error l
  | none => .ok (((lines.flatMap (fun l => (sl.nodeLine env lay p.ctx p.got l).getD [])).drop (a % 128)).take n)

/-- The lines of an object that a visit reads are used (R324). -/
def Slice.nodeUsed (env : Capstan) (sl : Slice) (lay ctx a n : Nat) : Slice :=
  { sl with cache := (nodeLines a n).foldl (fun (c : Cache) l => c.nodeTouch env lay ctx l) sl.cache }

end Sys2Proof.Machine
end

