-- ==== Sys2Proof/Machine/Cask.lean ====
section
/-!
DEFINITION. The cask of a context (R342 to R347): its blocks and their owners, the journal blocks (R496), the sizes of its
items (R154, R345), allocation of units and their release, loans, and the bytes of a journal line (R497).
-/

namespace Sys2Proof.Machine

/-- Blocks of a context's cask (R342). -/
def Ctx.caskBlocks (c : Ctx) : Nat := c.caskSize / 65536

/-- Blocks of the owner map (R342): one byte per block, whole blocks. -/
def Ctx.mapBlocks (c : Ctx) : Nat := (c.caskBlocks + 65535) / 65536

/-- The k-th block, counted from 0, that slice `id` holds under the initial owner map (R342). -/
def ownBlock (n id : Nat) (c : Ctx) (k : Nat) : Nat :=
  c.mapBlocks + (id + n - c.mapBlocks % n) % n + n * k

/-- How many blocks slice `id` holds under the initial owner map. -/
def ownCount (n id : Nat) (c : Ctx) : Nat :=
  let first := ownBlock n id c 0
  if c.caskBlocks ≤ first then 0 else (c.caskBlocks - first + n - 1) / n

/-- The journal blocks of a slice: its 16 lowest-numbered blocks (R496). -/
def journalBlocks : Nat := 16

/-- The address of journal line `line` of entry `i` (R496, R497). -/
def journalAddr (n id : Nat) (c : Ctx) (i line : Nat) : Nat :=
  c.caskBase + 65536 * ownBlock n id c (i / 64) + 1024 * (i % 64) + 256 * line

/-- The allocatable cask in bytes (R152): without the owner map and every slice's journal blocks. -/
def Ctx.allocatable (n : Nat) (c : Ctx) : Nat :=
  c.caskSize - 65536 * c.mapBlocks - 65536 * journalBlocks * n

/-- The spill-slot bytes of a query (R345). -/
def spillBytes (k : QKind) (mode resCap : Nat) : Nat :=
  roundUp (match k with
    | .ray => if mode = 3 then 768 + 32 * resCap else 768
    | .key => 768 + 16 * resCap
    | .token => 768 + 16384) 256

/-- Cask units of so many bytes (R344). -/
def caskUnits (bytes : Nat) : Nat := (bytes + 255) / 256

/-! ### Units of a slice -/

/-- The cask a slice holds of a context, none taken yet. -/
def emptyCask (id ctx : Nat) : Cask := { ctx := ctx, free := [], own := [(id, journalBlocks)], given := [] }

def Slice.cask (sl : Slice) (ctx : Nat) : Cask := (sl.store.casks.find? (fun k => k.ctx = ctx)).getD (emptyCask sl.id ctx)

def Slice.setCask (sl : Slice) (k : Cask) : Slice :=
  { sl with store := { sl.store with casks := sl.store.casks.filter (fun x => x.ctx != k.ctx) ++ [k] } }

/-- Units free in a cask's runs. -/
def Cask.runUnits (k : Cask) : Nat := k.free.foldl (fun n r => n + r.2) 0

/-- Blocks of the slice and those it stands for that no allocation has touched yet and that it has not given. -/
def Cask.untouched (n : Nat) (c : Ctx) (k : Cask) : Nat :=
  (k.own.foldl (fun m o => m + (ownCount n o.1 c - o.2)) 0) - (k.given.filter (fun b => k.own.any (fun o =>
    b % n = o.1 % n && ownBlock n o.1 c o.2 ≤ b))).length

/-- Units the slice can allocate. -/
def Cask.units (n : Nat) (c : Ctx) (k : Cask) : Nat := k.runUnits + 256 * k.untouched n c

/-- The next untouched block joins the free runs; `fuel` bounds the blocks. -/
def Cask.grow (n : Nat) (c : Ctx) : (fuel : Nat) → Nat → Cask → Cask
  | 0, _, k => k
  | fuel + 1, want, k =>
    if want ≤ k.runUnits then k
    else match k.own.find? (fun o => o.2 < ownCount n o.1 c) with
      | none => k
      | some o =>
        let b := ownBlock n o.1 c o.2
        let own := updateWhere (fun x => x.1 = o.1) (fun x => (x.1, x.2 + 1)) k.own
        let free := if b ∈ k.given then k.free else addRun (256 * b, 256) k.free
        Cask.grow n c fuel want { k with own := own, free := free }

/-- The blocks a run of units touches: the number of journal runs it takes (R497). -/
def runBlocks (r : Nat × Nat) : Nat := if r.2 = 0 then 0 else (r.1 + r.2 - 1) / 256 + 1 - r.1 / 256

/-- A run of units cut at block bounds. -/
def cutRun (r : Nat × Nat) : List (Nat × Nat) :=
  (List.range (runBlocks r)).map (fun i =>
    let b := r.1 / 256 + i
    (max r.1 (256 * b), min (r.1 + r.2) (256 * b + 256) - max r.1 (256 * b)))

/-- Free runs without some of their units. -/
def cutOut (r : Nat × Nat) (free : List (Nat × Nat)) : List (Nat × Nat) :=
  free.flatMap (fun f =>
    if f.1 ≤ r.1 && r.1 + r.2 ≤ f.1 + f.2 then
      [(f.1, r.1 - f.1), (r.1 + r.2, f.1 + f.2 - (r.1 + r.2))].filter (fun x => x.2 != 0)
    else [f])

/-- Runs that hold a ledger's `n` units: the lowest free ones, or, where those are more than the 160 runs that a journal entry holds, the
longest within one block (R497, R499); none where neither suffices. -/
def takeLedger (n : Nat) (free : List (Nat × Nat)) : Option (List (Nat × Nat) × List (Nat × Nat)) :=
  match takeRuns n free with
  | none => none
  | some (runs, rest) =>
    if (runs.map runBlocks).sum ≤ 160 then some (runs, rest)
    else
      let longest := (sortBy (fun (a b : Nat × Nat) => decide (b.2 < a.2)) (free.flatMap cutRun)).take 160
      (takeRuns n longest).map (fun r => (r.1, r.1.foldl (fun f x => cutOut x f) free))

/-- Items taken one after the other; none where the units, or the runs of the ledger (R499), do not suffice. -/
def takeItems : List (CaskUse × Nat) → List (Nat × Nat) → Option (List CaskItem × List (Nat × Nat))
  | [], free => some ([], free)
  | (u, n) :: rest, free =>
    match if u = .ledger then takeLedger n free else takeRuns n free with
    | none => none
    | some (runs, free) => (takeItems rest free).map (fun r => ({ use := u, runs := runs } :: r.1, r.2))

/-- Units of the ledger among items. -/
def ledgerWant (items : List (CaskUse × Nat)) : Nat := ((items.filter (fun i => i.1 = .ledger)).map (·.2)).sum

/-- How many whole blocks more it takes for a ledger of `want` units to be placed in at most 160 runs (R499): each block is one run. -/
def Cask.shapeShort (n : Nat) (c : Ctx) (k : Cask) (want : Nat) : Nat :=
  let lens := List.replicate (min 160 (k.untouched n c)) 256 ++ (k.free.flatMap cutRun).map (·.2)
  let longest := (sortBy (fun (a b : Nat) => decide (b < a)) lens).take 160
  ((List.range 161).find? (fun m => want ≤ 256 * m + (longest.take (160 - m)).sum)).getD 160

/-- The cask with so many more units of blocks not touched yet among its free runs. -/
def Cask.grown (n : Nat) (c : Ctx) (want : Nat) (k : Cask) : Cask := k.grow n c (want / 256 + 2 + k.given.length) want

/-- The reservation of a batch taken from the slice's cask (R154, R344): where its free runs do not give the ledger's shape, from more of its
blocks (R499). -/
def Slice.reserveCask (sl : Slice) (n : Nat) (c : Ctx) (items : List (CaskUse × Nat)) : Option (List CaskItem × Slice) :=
  let want := (items.map (·.2)).sum
  let from_ (k : Cask) : Option (List CaskItem × Slice) := (takeItems items k.free).map (fun r => (r.1, sl.setCask { k with free := r.2 }))
  let k := (sl.cask c.id).grown n c want
  match from_ k with
  | some r => some r
  | none => from_ (k.grown n c (k.runUnits + 256 * 160))

/-- Items are released (R344). -/
def Slice.releaseItems (sl : Slice) (ctx : Nat) (items : List CaskItem) : Slice :=
  let k := sl.cask ctx
  sl.setCask { k with free := (items.flatMap (·.runs)).foldl (fun f r => addRun r f) k.free }

/-- The items of a batch that are of a use, released; the others are left. -/
def Slice.releaseUse (sl : Slice) (ctx : Nat) (p : CaskUse → Bool) (items : List CaskItem) : List CaskItem × Slice :=
  (items.filter (fun i => !p i.use), sl.releaseItems ctx (items.filter (fun i => p i.use)))

/-! ### The owner map (R342, R343) -/

/-- The slice that holds the blocks of slice `i` (R342, R505): a dead one's are its proxy's. -/
def Capstan.holderOf (c : Capstan) (i : Nat) : Nat := ((c.hl.proxies.find? (fun p => p.1 = i)).map (·.2)).getD i

/-- A byte of the owner map as it is first written (R342): block `b` goes to slice `b` mod n, or to the slice that it has passed to since.
What stands for the map's own blocks, and beyond the last block, is not stated (log entry 66). -/
def ownerByte (env : Capstan) (c : Ctx) (moved : List (Nat × Nat)) (b : Nat) : Byte :=
  if c.mapBlocks ≤ b && b < c.caskBlocks then
    BitVec.ofNat 8 (((moved.find? (fun m => m.1 = b)).map (·.2)).getD (env.holderOf (b % env.n)))
  else Config.ownerRest b

/-- A line of the owner map. -/
def ownerLine (env : Capstan) (c : Ctx) (moved : List (Nat × Nat)) (k : Nat) : List Byte :=
  (List.range 256).map (fun i => ownerByte env c moved (256 * k + i))

/-- The lines of an owner map from line `k` on are written, as far as the eviction buffer has room for what they displace; the number of the
next is the first part. `fuel` bounds them. -/
def writeMapLines (env : Capstan) (c : Ctx) (moved : List (Nat × Nat)) : (fuel : Nat) → Nat → Slice → Nat × Slice
  | 0, k, sl => (k, sl)
  | fuel + 1, k, sl =>
    if c.caskBlocks ≤ 256 * k || !sl.cache.bufferRoom then (k, sl)
    else writeMapLines env c moved fuel (k + 1) (sl.writeLine env 18 c.id (c.caskBase + 256 * k) (ownerLine env c moved k))

/-- The owner maps that the slice is to write go on (R342). -/
def Slice.writeMaps (env : Capstan) (sl : Slice) : Slice :=
  sl.store.maps.foldl (fun (sl : Slice) (m : OwnerMap) =>
    let others := sl.store.maps.filter (fun x => x.ctx != m.ctx)
    match env.ctx? m.ctx with
    | none => { sl with store := { sl.store with maps := others } }
    | some c =>
      let (k, sl) := writeMapLines env c m.moved ((c.caskBlocks + 255) / 256) m.next sl
      { sl with store := { sl.store with maps := if c.caskBlocks ≤ 256 * k then others else others ++ [{ m with next := k }] } }) sl

/-- The owner map of a context that is made valid is to be written by the slice (log entry 16). -/
def Slice.startMap (env : Capstan) (sl : Slice) (ctx : Nat) : Slice :=
  let m : OwnerMap := { ctx := ctx, next := 0, moved := [] }
  ({ sl with store := { sl.store with maps := sl.store.maps.filter (fun (x : OwnerMap) => x.ctx != ctx) ++ [m] } }).writeMaps env

/-- A slice rewrites the byte of a block in the owner map (R321, R343). -/
def Slice.writeOwner (env : Capstan) (sl : Slice) (c : Ctx) (block holder : Nat) : Slice :=
  sl.writePart env 18 c.id (c.caskBase + block) [BitVec.ofNat 8 holder]

/-! ### Journal lines (R497) -/

/-- The journal runs of a ledger: runs of units cut at block bounds. -/
def journalRuns (runs : List (Nat × Nat)) : List (Nat × Nat × Nat) :=
  runs.flatMap (fun r => (List.range (runBlocks r)).map (fun i =>
    let b := r.1 / 256 + i
    let lo := max r.1 (256 * b)
    let hi := min (r.1 + r.2) (256 * b + 256)
    (b, lo - 256 * b, hi - lo)))

def runBytes (r : Nat × Nat × Nat) : List Byte := toLe 4 r.1 ++ toLe 1 r.2.1 ++ toLe 1 (r.2.2 - 1)

/-- JSTATE's code (R498). -/
def JState.code : JState → Nat
  | .free => 0 | .ledgered => 1 | .taken => 2 | .accum => 3

/-- Line 0 of a journal entry (R497). -/
def journalLine0 (batchId core die ctx acked : Nat) (js : JState) (runs : List (Nat × Nat × Nat)) (units : Nat) : List Byte :=
  padTo 256 (toLe 4 batchId ++ toLe 2 (core % 512 + 512 * (die % 32)) ++ toLe 1 js.code ++ toLe 1 runs.length ++
    toLe 4 (acked % 2 ^ 24) ++ toLe 2 ctx ++ toLe 2 0 ++ toLe 4 units ++ List.replicate 12 0 ++
    (runs.take 37).flatMap runBytes)

/-- Lines 1 to 3 of a journal entry: 41 runs each. -/
def journalLine (i : Nat) (runs : List (Nat × Nat × Nat)) : List Byte :=
  padTo 256 (((runs.drop (37 + 41 * (i - 1))).take 41).flatMap runBytes)

/-! ### Loans (R343) -/

/-- Whether two loans are the same request. -/
def Loan.same (a b : Loan) : Bool := a.slice = b.slice && a.ctx = b.ctx && a.core = b.core && a.batchId = b.batchId

/-- The blocks that a slice holds, but for the journal blocks (R342, R343, R505): those of the initial division that it has not given, and
those of its free runs and of its items. -/
def Cask.held (n : Nat) (c : Ctx) (k : Cask) (items : List CaskItem) : List Nat :=
  let initial := k.own.flatMap (fun o => ((List.range (ownCount n o.1 c - journalBlocks)).map (fun i => ownBlock n o.1 c (journalBlocks + i))))
  let touched := (k.free ++ items.flatMap (·.runs)).flatMap (fun r => (List.range (runBlocks r)).map (· + r.1 / 256))
  (initial.filter (fun b => !(b ∈ k.given)) ++ touched).eraseDups

/-- The blocks a slice can give now: whole free runs of its own blocks, and blocks not yet touched; never journal blocks. -/
def Cask.givable (n : Nat) (c : Ctx) (k : Cask) (want : Nat) : List Nat :=
  let whole := k.free.flatMap (fun r =>
    let first := (r.1 + 255) / 256
    (List.range ((r.1 + r.2) / 256 - first)).map (· + first))
  let fresh := k.own.flatMap (fun o => (List.range (min (want + k.given.length) (ownCount n o.1 c - o.2))).map
    (fun i => ownBlock n o.1 c (o.2 + i)))
  ((whole ++ fresh.filter (fun b => !(b ∈ k.given))).take want)

/-- A block leaves the free runs of its holder. -/
def Cask.give (k : Cask) (b : Nat) : Cask :=
  let cut (r : Nat × Nat) : List (Nat × Nat) :=
    if r.1 ≤ 256 * b && 256 * b + 256 ≤ r.1 + r.2 then
      [(r.1, 256 * b - r.1), (256 * b + 256, r.1 + r.2 - (256 * b + 256))].filter (fun x => x.2 != 0)
    else [r]
  { k with free := k.free.flatMap cut, given := if b ∈ k.given then k.given else k.given ++ [b] }

/-- A block joins the free runs of its new holder. -/
def Cask.receive (k : Cask) (b : Nat) : Cask :=
  { k with free := addRun (256 * b, 256) k.free }

end Sys2Proof.Machine
end

