-- ==== Sys2Proof/Machine/Buffers.lean ====
section
/-!
DEFINITION. Stream buffers (R366), the producers of streams and the splice queues (R364, R372 to R374): a buffer is 16 slice-cache lines,
reached by its handle; a producer fills buffers, appends its descriptor and pushes the handles.
-/

namespace Sys2Proof.Machine

/-! ### Buffers (R366) -/

/-- Lines of stream buffers carry a context id that no context has (context ids have 12 bits). -/
def bufferCtx : Nat := 4096

/-- One line of a buffer takes a slot of the STREAM partition; buffer `b` lies in the sets 16b to 16b + 15 modulo 20,480 (log entry 63). -/
def Cache.takeBufferLine (env : Capstan) (c : Cache) (b i : Nat) : Option Cache :=
  let set := (16 * b + i) % 20480
  match c.slotFor env .stream set with
  | none => none
  | some way =>
    if c.canVacate set way then
      some ((c.vacate set way).install
        { set := set, way := way, ctx := bufferCtx, gen := 0, tag := 4096 * b + 256 * i, dirty := false, lock := false, doomed := false
          rsv := 0, data := List.replicate 256 0, buf := some b })
    else none

/-- A buffer is allocated: its 16 lines, or none. -/
def Cache.takeBuffer (env : Capstan) (c : Cache) (b : Nat) : Option Cache :=
  (List.range 16).foldl (fun acc i => acc.bind (fun c => c.takeBufferLine env b i)) (some c)

/-- The numbers of the buffers held. -/
def Cache.buffersHeld (c : Cache) : List Nat := (c.lines.filterMap (·.buf)).eraseDups

/-- `n` buffers of a stream's pool are allocated, the lowest numbers first; none where the pool or the STREAM ways have too few. -/
def Cache.takeBuffers (env : Capstan) (c : Cache) (i n : Nat) : Option (List Nat × Cache) :=
  let used := c.buffersHeld
  let bs := ((List.range (min (poolOf env i).1 (used.length + n))).filter (fun b => !(b ∈ used))).take n
  if bs.length < n then none
  else (bs.foldl (fun (acc : Option Cache) b => acc.bind (fun c => c.takeBuffer env b)) (some c)).map (fun c => (bs, c))

/-- Buffers are freed: their lines become invalid without write-back. -/
def Cache.freeBuffers (c : Cache) (bs : List Nat) : Cache :=
  { c with lines := c.lines.filter (fun l => match l.buf with
      | some b => !(b ∈ bs)
      | none => true) }

/-- Data is written into a buffer; a buffer of poisoned data has its lines poisoned (R484). -/
def Cache.fillBuffer (c : Cache) (b : Nat) (data : List Byte) (poison : Bool) : Cache :=
  let put (l : Line) : Line :=
    if l.buf = some b then
      { l with data := padTo 256 ((data.drop (l.tag - 4096 * b)).take 256), poison := if poison then List.range 8 else [] }
    else l
  { c with lines := c.lines.map put }

/-- The bytes of a buffer. -/
def Cache.bufferData (c : Cache) (b : Nat) : List Byte :=
  (sortBy (fun (x y : Line) => decide (x.tag < y.tag)) (c.lines.filter (fun l => l.buf = some b))).flatMap (·.data)

/-- The valid bytes behind handles, in order (R373). -/
def Cache.handleData (c : Cache) (hs : List Reg) : List Byte :=
  hs.flatMap (fun h => (c.bufferData (handleBuf h)).take (handleBytes h))

/-- Whether a buffer behind the handles holds a poisoned word. -/
def Cache.handlesPoisoned (c : Cache) (hs : List Reg) : Bool :=
  hs.any (fun h => handlePoison h || c.lines.any (fun l => l.buf = some (handleBuf h) && !l.poison.isEmpty))

/-! ### Producers (R364, R372, R374) -/

/-- Buffers filled one after the other with the data of a block. -/
def Cache.fillBuffers (c : Cache) (bufs : List Nat) (data : List Byte) (poison : Bool) : Cache :=
  (indexed bufs).foldl (fun (c : Cache) e => c.fillBuffer e.2 ((data.drop (4096 * e.1)).take 4096) poison) c

/-- A descriptor is appended to its stream's ring. -/
def Slice.appendBlock (sl : Slice) (i : Nat) (b : Block) : Slice := sl.onStream i (fun s => { s with ring := s.ring ++ [b] })

/-- A producer places a block (R374): of a write stream it fills the buffers, appends the descriptor and pushes the handles in order. None
while the ring is full (R364) or no buffer is free. -/
def Slice.tryAppend (env : Capstan) (sl : Slice) (q : Queued) : Option Slice :=
  match sl.str.streams[q.stream]? with
  | none => some sl
  | some s =>
    if !s.hasRoom then none
    else if isFetch q.stream || q.stream = 15 then some (sl.appendBlock q.stream q.block)
    else if !sl.str.bufferRoom env q.stream ((q.data.length + 4095) / 4096) then none
    else match sl.cache.takeBuffers env q.stream ((q.data.length + 4095) / 4096) with
      | none => none
      | some (bufs, c) =>
        let sl := ({ sl with cache := c }).countVictims sl.cache .stream bufferCtx 0
        let sl := { sl with cache := c.fillBuffers bufs q.data false
                            str := sl.str.push (spliceOf q.stream) (makeHandles q.stream s.indexAtEnd q.data.length bufs false) }
        some (sl.appendBlock q.stream q.block)

/-- What producers have queued is placed, in order of each stream. -/
def placeQueued (env : Capstan) : List Queued → List Queued → Slice → Slice
  | [], late, sl => { sl with str := { sl.str with queued := late } }
  | q :: rest, late, sl =>
    if late.any (fun x => x.stream = q.stream) then placeQueued env rest (late ++ [q]) sl
    else match sl.tryAppend env q with
      | some sl => placeQueued env rest late sl
      | none => placeQueued env rest (late ++ [q]) sl

def Slice.placeWaiting (env : Capstan) (sl : Slice) : Slice := placeQueued env sl.str.queued [] sl

/-- Blocks join what their producers have to place. -/
def Slice.produce (env : Capstan) (sl : Slice) (qs : List Queued) : Slice :=
  ({ sl with str := { sl.str with queued := sl.str.queued ++ qs } }).placeWaiting env

/-! ### Blocks of contiguous bytes (R362) -/

/-- A descriptor of one row (R362): the context, a virtual address, the bytes, the operation, END. -/
def rowBlock (ctx addr len op : Nat) (last : Bool) (use : BlockUse) : Block :=
  { raw := toLe 8 (addr % 2 ^ 48 + place ctx 12 48) ++ toLe 4 (roundUp len 16) ++ toLe 2 1 ++ toLe 2 1 ++ toLe 4 0 ++
      toLe 4 0 ++ toLe 4 0 ++ [BitVec.ofNat 8 op, BitVec.ofNat 8 (flag last 1)] ++ toLe 2 0
    use := use }

/-- Pieces of memory, as addresses and lengths, cut so that none exceeds a block (R362). -/
def cutPieces (ps : List (Nat × Nat)) : List (Nat × Nat) :=
  ps.flatMap (fun p => (List.range ((p.2 + 65535) / 65536)).map (fun i => (p.1 + 65536 * i, min 65536 (p.2 - 65536 * i))))

/-- The first `n` bytes of pieces. -/
def takePieces : Nat → List (Nat × Nat) → List (Nat × Nat)
  | _, [] => []
  | n, p :: rest => if n = 0 then [] else if n ≤ p.2 then [(p.1, n)] else p :: takePieces (n - p.2) rest

/-- The pieces of `n` bytes from byte `k` of pieces on. -/
def dropPieces : Nat → List (Nat × Nat) → List (Nat × Nat)
  | _, [] => []
  | k, p :: rest => if p.2 ≤ k then dropPieces (k - p.2) rest else (p.1 + k, p.2 - k) :: rest

/-- Blocks of a unit of work over pieces, the last with END (R362), with the data of the write blocks. -/
def pieceBlocks (stream ctx op : Nat) (use : BlockUse) (ps : List (Nat × Nat)) (data : List Byte) : List Queued :=
  let cut := cutPieces ps
  ((indexed cut).foldl (fun (acc : List Queued × List Byte) e =>
    (acc.1 ++ [{ stream := stream, block := rowBlock ctx e.2.1 e.2.2 op (e.1 + 1 = cut.length) use, data := acc.2.take e.2.2 }],
     acc.2.drop e.2.2)) ([], data)).1

/-- Blocks of a unit of work that are still on their way: queued, on a ring, in a window, or not complete. -/
def StreamUnit.underway (u : StreamUnit) (i : Nat) (p : Block → Bool) : Bool :=
  u.queued.any (fun q => q.stream = i && p q.block) ||
    (match u.streams[i]? with
     | some s => (s.ring ++ s.window).any p || s.transfers.any (fun t => !t.done && p t.block)
     | none => false)

end Sys2Proof.Machine
end

