-- ==== Sys2Proof/Machine/QueryImage.lean ====
section
/-!
DEFINITION. The spill slot of a query in the cask (R338, R340, R341): what spills and hand-offs write to it, drop and clean.
-/

namespace Sys2Proof.Machine

/-! ### Spills and hand-offs (R338, R340, R341) -/

/-- The number of the Mash among the write sources (R322): streams 0 to 15, ingress 16, the home coalescer 18. -/
def mashSource : Nat := 17

/-- The pieces of a query's spill slot, as addresses and lengths. -/
def slotPieces (c : Ctx) (q : Query) : List (Nat × Nat) := q.slot.map (fun r => (c.caskBase + 256 * r.1, 256 * r.2))

/-- The line addresses of a query's spill slot. -/
def slotLines (c : Ctx) (q : Query) : List Nat :=
  q.slot.flatMap (fun r => (List.range r.2).map (fun i => c.caskBase + 256 * (r.1 + i)))

/-- Whether a block is the spill, or part of the restore, of a query. -/
def Block.spills (q : Query) (b : Block) : Bool := b.use = .spill q.home q.batch q.qindex
def Block.restores (q : Query) (b : Block) : Bool := b.use = .restore q.home q.batch q.qindex

/-- A spilled query's state goes into its spill slot by the SPILL stream (R338, R360): whole lines. -/
def Slice.spillState (env : Capstan) (sl : Slice) (q : Query) : Slice :=
  match env.ctx? q.ctx with
  | none => sl
  | some c =>
    let bs := q.slotImage c true
    let bs := padTo (roundUp bs.length 256) bs
    sl.produce env (pieceBlocks 14 c.id 3 (.spill q.home q.batch q.qindex) (takePieces bs.length (slotPieces c q)) bs)

/-- The state that arrived is installed in the spill slot as whole-line writes (R340, R341). -/
def Slice.writeSlot (env : Capstan) (sl : Slice) (q : Query) (spilled : Bool) : Slice :=
  match env.ctx? q.ctx with
  | none => sl
  | some c =>
    let bs := q.slotImage c spilled
    ((slotLines c q).zip (chunks 256 bs.length bs)).foldl (fun sl u => sl.writeLine env mashSource c.id u.1 (padTo 256 u.2)) sl

/-- Whether a line is a STREAM line of a query's spill slot. -/
def Line.ofSlot (env : Capstan) (ls : List Nat) (ctx : Nat) (l : Line) : Bool :=
  l.ctx = ctx && bit (partMask env .stream) l.way && decide (l.tag ∈ ls)

/-- The slice drops its copies of the slot of a query that leaves with its state, without write-back (R341): lines, and what was to be
written to them. -/
def Slice.dropSlot (env : Capstan) (sl : Slice) (q : Query) : Slice :=
  match env.ctx? q.ctx with
  | none => sl
  | some c =>
    let ls := slotLines c q
    let mine (ctx addr : Nat) (p : Part) : Bool := ctx = c.id && p = .stream && decide (addr ∈ ls)
    let k := sl.cache.dropLines (Line.ofSlot env ls c.id)
    let stop (m : ScMiss) : ScMiss := if mine m.ctx m.addr m.part then { m with st := .noInstall, waiters := [] } else m
    { sl with cache := { k with misses := k.misses.map stop, waiting := k.waiting.filter (fun w => !mine w.ctx w.addr w.part) }
              str := { sl.str with queued := sl.str.queued.filter (fun x => !x.block.spills q) } }

/-- Whether the state of a query is still on its way into its spill slot. -/
def Slice.slotPending (env : Capstan) (sl : Slice) (q : Query) : Bool :=
  match env.ctx? q.ctx with
  | none => false
  | some c =>
    let ls := slotLines c q
    let writes (rs : List Requester) : Bool := rs.any Requester.writes
    sl.str.underway 14 (Block.spills q) || sl.cache.waiting.any (fun w => w.ctx = c.id && decide (w.addr ∈ ls) && w.who.writes) ||
      sl.cache.misses.any (fun m => m.ctx = c.id && decide (m.addr ∈ ls) && writes m.waiters)

/-- The slice writes back its dirty lines of a slot whose query leaves by pointer (R341); they leave the cache. -/
def Slice.flushSlot (env : Capstan) (sl : Slice) (q : Query) : Slice :=
  match env.ctx? q.ctx with
  | none => sl
  | some c =>
    if sl.slotPending env q then sl
    else (sl.cache.lines.filter (Line.ofSlot env (slotLines c q) c.id)).foldl (fun (sl : Slice) l => sl.flushLine env c.id l.tag) sl

/-- Whether the slot still has a copy here, or a write-back that is not acknowledged (R341). -/
def Slice.slotUnwritten (env : Capstan) (sl : Slice) (q : Query) : Bool :=
  match env.ctx? q.ctx with
  | none => false
  | some c =>
    let ls := slotLines c q
    sl.slotPending env q || sl.cache.lines.any (Line.ofSlot env ls c.id) ||
      sl.cache.evict.any (fun e => e.ctx = c.id && decide (e.addr ∈ ls))

end Sys2Proof.Machine
end

