-- ==== Sys2Proof/Machine/Mash.lean ====
section
/-!
DEFINITION. Where a query goes after a step (R212, R213): bins and gathers (R196 to R205, R423), spill and restore (R337 to
R340), the departure stage (R33, R122, R418), the end of a walk (R232, R407), tree faults (R127, R128), hitching (R77, R493).
-/

namespace Sys2Proof.Machine

/-! ### Lays and banks (R197, R205) -/

/-- Whether a lay runs: not trimmed off, not retired (R25, R26). -/
def Slice.layRuns (sl : Slice) (lay : Nat) : Bool := sl.work.layOff != some lay && !(lay ∈ sl.work.layRetired)

/-- The lay of an object's bin or gather (R197): by parity of address bits [47:7], the other where that lay does not run; while a retired lay
waits for the trimmed one to be powered (R615), the trimmed one. -/
def Slice.layOf (sl : Slice) (addr : Nat) : Nat :=
  let lay := popCount 41 (addr / 128 % 2 ^ 41) % 2
  if sl.layRuns lay then lay else if sl.layRuns (1 - lay) then 1 - lay else if lay ∈ sl.work.layRetired then 1 - lay else lay

/-- The Mash bank of an object (R197): address bits [8:7]. -/
def bankOf (addr : Nat) : Nat := field addr 8 7

/-- Members stand by entry time, then home slice, then query index (R198). -/
def entersBefore (a b : Query) : Bool :=
  a.entered < b.entered || (a.entered = b.entered && (a.home < b.home || (a.home = b.home && a.qindex < b.qindex)))

/-- A member joins in order of entry. Two members that R198 does not order, of one home slice with one query index in two batches of the
context, keep the order in which they joined (log entry 83). -/
def enter (q : Query) (ms : List Query) : List Query := insertBy entersBefore q ms

/-- The entry time of the oldest member. -/
def oldest (ms : List Query) : Nat :=
  match ms.head? with
  | some q => q.entered
  | none => 0

/-- What makes a bin or gather ready as a member joins: its fill, or a drain of its context (R198, R202). -/
def readyNow (old : Option Ready) (drains : Bool) (count target : Nat) : Option Ready :=
  if old = some .age || drains then some .age else if target ≤ count then some .fill else old

/-! ### Bins (R196 to R204, R423) -/

/-- Whether a bin is that of a query. -/
def Bin.isFor (b : Bin) (lay : Nat) (q : Query) : Bool :=
  b.lay = lay && b.ctx = q.ctx && b.obj = q.next.addr && b.octant = q.octant

/-- Whether a bin is another by its key. -/
def Bin.same (b x : Bin) : Bool := b.lay = x.lay && b.ctx = x.ctx && b.obj = x.obj && b.octant = x.octant

/-- The oldest of a bank's bins is made ready by age (R204), the first in the list among equals (log entry 64); one that was not ready is
counted (R591). -/
def Slice.forceOldest (sl : Slice) (lay bank : Nat) : Slice :=
  let here := sl.mash.bins.filter (fun b => b.lay = lay && b.bank = bank)
  match (sortBy (fun a b => oldest a.members < oldest b.members) here).head? with
  | none => sl
  | some v =>
    let bins := updateWhere v.same (fun b => { b with ready := some .age }) sl.mash.bins
    ({ sl with mash := { sl.mash with bins := bins } }).count 0x106 lay (some v.ctx) (if v.ready.isNone then 1 else 0)

/-- Queries join the overflow bin of a bank (R423). -/
def Mash.addOverflow (m : Mash) (lay bank : Nat) (qs : List Query) : Mash :=
  let here (o : Nat × Nat × List Query) : Bool := o.1 = lay && o.2.1 = bank
  { m with overflow := if m.overflow.any here then updateWhere here (fun o => (o.1, o.2.1, o.2.2 ++ qs)) m.overflow
      else m.overflow ++ [(lay, bank, qs)] }

/-- Whether a bank has a free bin descriptor (R197). -/
def Mash.bankFree (m : Mash) (lay bank : Nat) : Bool :=
  decide ((m.bins.filter (fun b => b.lay = lay && b.bank = bank)).length < 2048)

/-- A query joins the bin of its next object (R196), or the overflow bin of its bank (R204, R423). -/
def Slice.binQuery (env : Capstan) (sl : Slice) (q : Query) : Slice :=
  let lay := sl.layOf q.next.addr
  let bank := bankOf q.next.addr
  let (fill, drains) := match env.ctx? q.ctx with
    | some c => (fillOf env c, c.drains)
    | none => (64, false)
  if sl.mash.bins.any (·.isFor lay q) then
    let add (b : Bin) : Bin :=
      { b with members := enter q b.members, ready := readyNow b.ready drains (b.members.length + 1) fill }
    { sl with mash := { sl.mash with bins := updateWhere (·.isFor lay q) add sl.mash.bins } }
  else if sl.mash.bankFree lay bank then
    let b : Bin := { ctx := q.ctx, obj := q.next.addr, octant := q.octant, lay := lay, bank := bank
                     ready := readyNow none drains 1 fill, members := [q] }
    { sl with mash := { sl.mash with bins := sl.mash.bins ++ [b] } }
  else ({ sl with mash := sl.mash.addOverflow lay bank [q] }).forceOldest lay bank

/-- A query enters its bin now (R196, R198). -/
def Slice.toBin (env : Capstan) (sl : Slice) (q : Query) : Slice := sl.binQuery env { q with entered := sl.time }

/-! ### Gathers (R202, R204) -/

/-- A token joins the gather of its leaf, or waits for a descriptor while the oldest gather, the first in the list among equals (log entry
64), runs at once (R204). -/
def Slice.gatherQuery (env : Capstan) (sl : Slice) (q : Query) : Slice :=
  let (target, drains) := match env.ctx? q.ctx with
    | some c => (gatherOf env c, c.drains)
    | none => (256, false)
  let here (g : Gather) : Bool := g.ctx = q.ctx && g.leaf = q.next.addr
  if sl.mash.gathers.any here then
    let add (g : Gather) : Gather :=
      { g with members := enter q g.members, ready := readyNow g.ready drains (g.members.length + 1) target }
    { sl with mash := { sl.mash with gathers := updateWhere here add sl.mash.gathers } }
  else if sl.mash.gathers.length < 1024 then
    let g : Gather := { ctx := q.ctx, leaf := q.next.addr, lay := sl.layOf q.next.addr
                        ready := readyNow none drains 1 target, members := [q] }
    { sl with mash := { sl.mash with gathers := sl.mash.gathers ++ [g] } }
  else
    let sl := { sl with mash := { sl.mash with gatherWait := sl.mash.gatherWait ++ [q] } }
    match (sortBy (fun a b => oldest a.members < oldest b.members) sl.mash.gathers).head? with
    | none => sl
    | some g =>
      let gs := updateWhere (fun x => x.ctx = g.ctx && x.leaf = g.leaf) (fun x => { x with ready := some .age }) sl.mash.gathers
      ({ sl with mash := { sl.mash with gathers := gs } }).count 0x106 g.lay (some g.ctx) (if g.ready.isNone then 1 else 0)

/-- Tokens that waited for a gather descriptor join again (R204). -/
def Slice.gatherAgain (env : Capstan) (sl : Slice) : Slice :=
  sl.mash.gatherWait.foldl (fun sl q => sl.gatherQuery env q) { sl with mash := { sl.mash with gatherWait := [] } }

/-! ### The query store (R337, R338) -/

/-- The entry of a query on this slice. -/
def Query.owns (q : Query) (e : QEntry) : Bool := ownerIs q.home q.batch q.qindex q.guest e

/-- A waiting query is spilled (R338): its entry's image and walk state go into its spill slot, its granules are freed and it keeps its
place. -/
def Slice.spillOut (env : Capstan) (sl : Slice) (q : Query) : Slice :=
  (({ sl with store := sl.store.spill q.owns }).spillState env q).count 0x30A 0 (some q.ctx) 1

/-- The waiting queries in the order they are spilled (R338): hitched ones, then members of bins and gathers that are not
ready, the last entered first. -/
def Slice.victims (sl : Slice) : List Query :=
  let late (qs : List Query) : List Query := sortBy (fun a b => entersBefore b a) (qs.filter (fun q => !q.spilled))
  let waiting := (sl.mash.bins.filter (·.ready.isNone)).flatMap (·.members) ++ sl.mash.overflow.flatMap (·.2.2) ++
    (sl.mash.gathers.filter (·.ready.isNone)).flatMap (·.members)
  late sl.work.hitched ++ late waiting

/-- The victims spilled until 49,152 granules are free (R338). -/
def spillUntil (env : Capstan) : List Query → Slice → Slice
  | [], sl => sl
  | q :: rest, sl => if 49152 ≤ sl.store.freeCount then sl else spillUntil env rest (sl.spillOut env q)

/-- Queries that wait in the Mash, or are hitched, changed where they stand. -/
def Slice.mapWaiting (sl : Slice) (f : Query → Query) : Slice :=
  { sl with mash := { sl.mash with bins := sl.mash.bins.map (fun b => { b with members := b.members.map f })
                                   overflow := sl.mash.overflow.map (fun o => (o.1, o.2.1, o.2.2.map f))
                                   gathers := sl.mash.gathers.map (fun g => { g with members := g.members.map f })
                                   gatherWait := sl.mash.gatherWait.map f }
            work := { sl.work with hitched := sl.work.hitched.map f } }

/-- The members whose entries are spilled are marked so where they stand. -/
def Slice.markSpilled (sl : Slice) : Slice :=
  sl.mapWaiting (fun q => { q with spilled := match sl.store.entries.find? q.owns with
    | some e => e.spilled
    | none => q.spilled })

/-- The Mash spills when fewer than 24,576 granules are free, and goes on until 49,152 are (R338). -/
def Slice.spillLow (env : Capstan) (sl : Slice) : Slice :=
  if sl.store.freeCount < 24576 || (sl.store.spilling && sl.store.freeCount < 49152) then
    let sl := (spillUntil env sl.victims sl).markSpilled
    { sl with store := { sl.store with spilling := decide (sl.store.freeCount < 49152) } }
  else { sl with store := { sl.store with spilling := false } }

/-- A spilled query takes granules again (R339); none where too few are free. -/
def Slice.takeGranules (env : Capstan) (sl : Slice) (q : Query) : Option (Query × Slice) :=
  if !q.spilled then some (q, sl)
  else match takeRuns (entryGranules (q.payloadBytes env)) sl.store.free with
    | none => none
    | some (runs, free) =>
      let first := (runs.headD (0, 0)).1
      let back (e : QEntry) : QEntry := { e with first := first, runs := runs, spilled := false }
      let st := sl.store.reuse runs
      let sl := { sl with store := { st with free := free, entries := updateWhere q.owns back st.entries } }
      some ({ q with spilled := false, entry := first }, sl)

/-- Whether a spilled query is being restored: by blocks of the RESTORE stream, or in the Mash. -/
def Slice.restoring (sl : Slice) (q : Query) : Bool :=
  sl.str.queued.any (fun x => x.block.restores q) ||
    (match sl.str.streams[15]? with
     | some s => (s.ring ++ s.window).any (Block.restores q) || s.transfers.any (fun t => t.block.restores q)
     | none => false) ||
    sl.mash.restores.any (fun r => r.home = q.home && r.batch = q.batch && r.qindex = q.qindex)

/-- Bytes of its spill slot that a restore reads (R346), in whole units of a block (R362). -/
def Query.slotBytesRead (q : Query) : Nat := roundUp (768 + q.extension.length) 16

/-- The restore of a spilled query begins (R339): the RESTORE stream reads its spill slot and its payload in the ledger, once what was
to be written to the slot is there. -/
def Slice.beginRestore (env : Capstan) (sl : Slice) (q : Query) : Slice :=
  match env.ctx? q.ctx with
  | none => sl
  | some c =>
    if sl.restoring q || sl.slotPending env q then sl
    else sl.produce env (pieceBlocks 15 c.id 2 (.restore q.home q.batch q.qindex)
      (takePieces q.slotBytesRead (slotPieces c q) ++ q.ledger.map (fun p => (p.1, roundUp p.2 16))) [])

/-- A spilled entry for a query that found no granule, or that came as a pointer (R340, R419). -/
def Store.addSpilled (st : Store) (q : Query) : Store :=
  if st.entries.any q.owns then st.spill q.owns
  else { st with entries := st.entries ++ [{ first := noGranule, runs := [], kind := kindCode q.kind, home := q.home
                                             batch := q.batch, qindex := q.qindex, hitched := false, spilled := true
                                             guest := q.guest }] }

/-! ### The end of a walk (R232, R407) -/

/-- A RESULT message of a query (R407): TMAX is that of a ray's end, else zero; an end message counts the parts before it. -/
def resMsg (q : Query) (k : RKind) : ResMsg :=
  { rkind := k, ctx := q.ctx, handle := q.batch, qindex := q.qindex, flags := q.flags, tmax := if k = .rayEnd then q.tmax else .fin 0
    parts := if k = .rayEnd || k = .keyEnd || k = .tokenEnd || k = .lost then q.parts else 0, hits := []
    best := [], vec := [] }

/-- The end message of a walk (R232, R407): the closest hit, all hits or the single ANY entry; the final best list; none. -/
def endMsg (q : Query) : ResMsg :=
  match q.kind with
  | .ray =>
    { resMsg q .rayEnd with hits := if q.mode = 1 then q.closest.toList else q.hits }
  | .key => { resMsg q .keyEnd with best := q.best }
  | .token => resMsg q .tokenEnd

/-- A guest leaves the slice: its entry is freed (R337). -/
def Slice.leave (sl : Slice) (q : Query) : Slice :=
  if q.guest then { sl with store := sl.store.drop q.owns } else sl

/-- A walk has ended: its result goes to the home coalescer (R213, R232). -/
def Slice.finish (env : Capstan) (sl : Slice) (q : Query) : Slice :=
  (sl.leave q).send env q.home (.result (endMsg q))

/-- A query completes DATA_LOST (R491, R492): it ends where it stands and sends no further part. -/
def Slice.loseData (env : Capstan) (sl : Slice) (q : Query) : Slice :=
  (sl.leave q).send env q.home (.result (resMsg q .lost))

/-! ### Tree faults (R127, R128) -/

/-- The faulty addresses of a context's pass that have their record (R128), those of this step among them. -/
def knownFaults (env : Capstan) (sl : Slice) (ctx : Nat) : List Nat :=
  (match env.ctx? ctx with
   | some c => c.faultAddrs
   | none => []) ++
  (sl.mail ++ env.hl.waiting).filterMap (fun n => match n with
    | .ctxFault c 2 _ _ _ a => if c = ctx then some a else none
    | _ => none)

/-- Whether a fault now would make the context enter CONTEXT_FAULT, the event of R577. -/
def entersFault (env : Capstan) (sl : Slice) (ctx : Nat) : Bool :=
  (match env.ctx? ctx with
   | some c => c.cstate != .fault
   | none => false) &&
  !((sl.mail ++ env.hl.waiting).any (fun n => match n with
    | .ctxFault c _ _ _ _ _ => c = ctx
    | _ => false))

/-- A query raises a tree fault (R127, R128): its walk ends without result, the context enters CONTEXT_FAULT, and a record
is written for each distinct faulty address of the pass, at most 64. -/
def Slice.treeFault (env : Capstan) (sl : Slice) (q : Query) (f : FaultAt) : Slice :=
  let known := knownFaults env sl q.ctx
  let irq := if entersFault env sl q.ctx then some Irq.contextError else none
  let sl := (sl.leave q).tell (.ended q.home q.batch q.qindex)
  let sl := sl.tell (.ctxFault q.ctx 2 f.cause.code q.batchId q.qindex f.addr)
  if f.addr ∈ known || 64 ≤ known.eraseDups.length then sl
  else sl.log env 0x2002 (toLe 2 q.ctx ++ toLe 1 f.cause.code ++ toLe 4 q.batchId ++ toLe 4 q.qindex)
    { tail := some (toLe 8 f.addr), irq := irq }

/-! ### Batch replay (R494) -/

/-- Whether a query's batch is being replayed at this home slice (R494): what it holds of it is dropped. -/
def Slice.replaying (sl : Slice) (q : Query) : Bool :=
  q.home = sl.id && sl.ing.batches.any (fun b => b.handle = q.batch && b.replaying.isSome)

/-- A query of the old run has ended or was dropped (R494). -/
def Slice.endOld (sl : Slice) (handle qindex : Nat) : Slice :=
  let f (b : Batch) : Batch := { b with replaying := b.replaying.map (fun l => l.filter (· != qindex)) }
  { sl with ing := { sl.ing with batches := updateWhere (fun b => b.handle = handle) f sl.ing.batches } }

/-! ### The departure stage (R33, R122, R418) -/

/-- The effective home slice of a homed subtree (R122) under a home map, none where it is treated as replicated. -/
def effectiveHome (env : Capstan) (c : Ctx) (m : HomeMap) (placed : Placement) : Option Nat :=
  match placed with
  | .replicated => none
  | .homed h =>
    if !c.homed then none
    else match m with
      | .entries es =>
        let e := es.getD h 0
        if es.length ≤ h || !bit e 15 then none
        else
          let s := field e 4 0
          let s := if s < env.n then s else s % env.n
          match env.hl.slices.getD s .absent with
          | .live => some s
          | _ => (env.hl.proxies.find? (fun p => p.1 = s)).map (·.2)
      | _ => none

/-- The slice a query must migrate to for its next object, if another than this one (R33, R213), by the home map that this slice read. -/
def Slice.migratesTo (env : Capstan) (sl : Slice) (q : Query) : Option Nat :=
  match env.ctx? q.ctx with
  | none => none
  | some c =>
    match effectiveHome env c (sl.cctx.mapOf c.id) q.next.placed with
    | some s => if s = sl.id then none else some s
    | none => none

/-- The migrate credits of a port. -/
def Port.migCredits (p : Port) : Nat := p.credits.getD 0 0

/-- A guest slice's view of a query that leaves its home, or the home's of one that arrives there (R337). -/
def Query.arriveAt (q : Query) (slice : Nat) : Query := { q with guest := slice != q.home }

/-- The class of a loss of query state in CAP_FAULT (R489). -/
def classQueryLost : Nat := 0x03

/-- A query whose state is lost on its way (R488): its home is told through the Capstan, and the loss is recorded. -/
def Slice.loseQuery (sl : Slice) (q : Query) (unit : Nat) : Slice :=
  ((sl.leave q).tell (.lost q.home q.batch q.qindex)).tell (.fault sl.id classQueryLost unit none)

/-- The departure stage (R418): a MIGRATE message when the port's credits cover it; else a spill and a cask pointer; else
the bin, as a spilled member. A KEY query first sends its best list home (R231). A query with a poisoned word cannot be spilled: it is lost
(R488, log entry 88). -/
def Slice.depart (env : Capstan) (sl : Slice) (dest : Nat) (q : Query) : Slice :=
  let (sl, q) := if q.kind = .key && !q.best.isEmpty then
      (sl.send env q.home (.result { resMsg q .bestList with best := q.best, parts := 0 }),
       { q with best := [], parts := q.parts + 1 })
    else (sl, q)
  let pi := sl.rope.routes.getD dest 0xF
  match sl.rope.ports[pi]? with
  | none => (if q.spilled then sl else sl.spillOut env q).binQuery env { q with entered := sl.time, spilled := true }
  | some p =>
    let body := RopeBody.migrate (q.arriveAt dest)
    let m : RopeMsg := { src := sl.id, dest := dest, epoch := sl.rope.epoch, body := body }
    let fs := m.flits env
    let need := fs.length
    if !sl.rope.hold && need ≤ p.migCredits && need ≤ field env.img.ropeCfg 10 0 && !q.spilled then
      let p := { p with credits := updateAt (· - need) 0 p.credits }
      let sl := { sl with rope := { sl.rope with ports := sl.rope.ports.set pi p, sendq := sl.rope.sendq ++ [(m, fs)] } }
      (((sl.leave q).dropSlot env q).count 0x506 pi (some q.ctx) 1).pump env
    else if !q.poison.isEmpty then sl.loseQuery q 0x13
    else
      let sl := if q.spilled then sl else sl.spillOut env q
      let q := { q with spilled := true }
      if p.ptrq.length + p.leaving.length < 2048 then
        let m : RopeMsg := { src := sl.id, dest := dest, epoch := sl.rope.epoch, body := .migratePtr (q.arriveAt dest) }
        ({ sl with rope := { sl.rope with ports := sl.rope.ports.set pi { p with leaving := p.leaving ++ [m] } } }).flushSlot env q
      else sl.binQuery env { q with entered := sl.time }

/-- A pointer whose spill slot is written back and acknowledged enters its port's queue (R341, R418); the slots of the others are
cleaned as far as they can be. -/
def Slice.queuePointer (env : Capstan) (sl : Slice) (pi : Nat) (m : RopeMsg) : Slice :=
  match m.body with
  | .migratePtr q =>
    let sl := sl.flushSlot env q
    if sl.slotUnwritten env q then sl
    else
      let move (p : Port) : Port := { p with leaving := p.leaving.erase m, ptrq := p.ptrq ++ [m] }
      { sl with rope := { sl.rope with ports := updateAt move pi sl.rope.ports } }
  | _ => sl

def Slice.queuePointers (env : Capstan) (sl : Slice) : Slice :=
  (indexed sl.rope.ports).foldl (fun sl e => e.2.leaving.foldl (fun (sl : Slice) m => sl.queuePointer env e.1 m) sl) sl

/-! ### Where a query goes (R213) -/

/-- A query with a next object goes to its bin, its gather, or the departure stage (R213). -/
def Slice.route (env : Capstan) (sl : Slice) (q : Query) : Slice :=
  match sl.migratesTo env q with
  | some dest => sl.depart env dest q
  | none => if q.next.ckind = 6 then sl.gatherQuery env { q with entered := sl.time } else sl.toBin env q

/-- What a step leads to is carried out (R213, R127, R232); a query of the old run of a replay is dropped (R494). -/
def Slice.settle (env : Capstan) (sl : Slice) (a : Adv) : Slice :=
  if sl.replaying a.query then sl.endOld a.query.batch a.query.qindex
  else match a with
  | .go q => sl.route env q
  | .ended q => sl.finish env q
  | .fault q f => sl.treeFault env q f

/-! ### Hitching (R77, R493) -/

/-- One refetch is issued for an address that hitched queries await (R493); a copy that the slice cache still holds serves it. -/
def Slice.refetch (env : Capstan) (sl : Slice) (ctx : Nat) (part : Part) (addr : Nat) : Slice :=
  let there (q : Query) : Bool := match q.hitch with
    | some h => q.ctx = ctx && h.cause = .refetch && h.addr = addr
    | none => false
  if sl.work.hitched.any there then sl
  else (sl.readLine env .refetch part ctx (lineAddr addr) (addr % 256 / 32)).2

/-- A query is hitched (R77): its state is frozen with the cause, the address awaited and the replay point. -/
def Slice.hitchQuery (env : Capstan) (sl : Slice) (q : Query) (h : Hitch) (part : Part) : Slice :=
  let q := { q with hitch := some h, entered := sl.time }
  if sl.replaying q then sl.endOld q.batch q.qindex
  else
    let sl := if h.cause = .refetch then sl.refetch env q.ctx part h.addr else sl
    let sl := { sl with work := { sl.work with hitched := sl.work.hitched ++ [q] } }
    ({ sl with store := sl.store.markHitched q.owns true }).count 0x704 0 (some q.ctx) 1

/-- A hitched query is replayed (R493): it enters the bin or gather of its replay point's object. -/
def Slice.replayQuery (env : Capstan) (sl : Slice) (q : Query) : Slice :=
  let sl := { sl with store := sl.store.markHitched q.owns false }
  let q := { q with hitch := none, entered := sl.time }
  let sl := if q.next.ckind = 6 then (sl.gatherQuery env q).count 0x206 (sl.layOf q.next.addr) (some q.ctx) 1 else sl.binQuery env q
  sl.count 0x705 0 (some q.ctx) 1

end Sys2Proof.Machine
end

