-- ==== Sys2Proof/Machine/Leaf.lean ====
section
/-!
DEFINITION. The leaf sequencer (R229, R293 to R302): jobs and their tiles, the lines a tile reads and their reservation, the
steps, the outputs of a layer, the end of a row group, poison in a tile.
-/

namespace Sys2Proof.Machine

def Slice.jobs (sl : Slice) (lay : Nat) : List Job := if lay = 0 then sl.work.jobs0 else sl.work.jobs1

def Slice.setJobs (sl : Slice) (lay : Nat) (js : List Job) : Slice :=
  { sl with work := if lay = 0 then { sl.work with jobs0 := js } else { sl.work with jobs1 := js } }

def Slice.setJob (sl : Slice) (lay : Nat) (j : Job) : Slice :=
  sl.setJobs lay (updateWhere (fun x => x.id = j.id) (fun _ => j) (sl.jobs lay))

def Slice.job? (sl : Slice) (lay id : Nat) : Option Job := (sl.jobs lay).find? (fun j => j.id = id)

/-- The leaf operand buffer of a lay (R294). -/
def Slice.opBuf (sl : Slice) (lay : Nat) : OpBuf := if lay = 0 then sl.work.opBuf0 else sl.work.opBuf1

def Slice.setOpBuf (sl : Slice) (lay : Nat) (b : OpBuf) : Slice :=
  { sl with work := if lay = 0 then { sl.work with opBuf0 := b } else { sl.work with opBuf1 := b } }

/-- Active arrays of a lay (R21, R299). -/
def Slice.arrays (sl : Slice) (lay : Nat) : Nat := (if lay = 0 then sl.work.arrMap0 else sl.work.arrMap1).length

/-- The layers that a job runs together from layer `l` on: the pair, or one (R279, R293). -/
def Job.group (j : Job) : List Nat :=
  match j.kind with
  | .eval leaf _ => if leaf.pair && j.layer = 0 then [0, 1] else [j.layer]
  | _ => [0]

/-- A layer of a job. -/
def Job.layer? (j : Job) (l : Nat) : Option LayerRun :=
  match j.kind with
  | .eval _ ls => ls[l]?
  | _ => none

/-- Outputs of a layer: the rows scored against, or N (R293, R298). -/
def Job.outputs (j : Job) (l : Nat) : Nat :=
  match j.kind with
  | .score n _ => n.rows.n
  | .keys r _ => r.n
  | .eval _ ls => match ls[l]? with
    | some x => x.layer.n
    | none => 0

/-- The input dimension K of a layer. -/
def Job.kdim (j : Job) (l : Nat) : Nat :=
  match j.kind with
  | .score n _ => n.rows.dim
  | .keys r _ => r.dim
  | .eval _ ls => match ls[l]? with
    | some x => x.layer.k
    | none => 0

/-- The layer scale and the bias table of a layer (R98, R258, R278). -/
def Job.scale (j : Job) (l : Nat) : Code :=
  match j.kind with
  | .score n _ => n.rows.scale
  | .keys r _ => r.scale
  | .eval _ ls => match ls[l]? with
    | some x => x.layer.scale
    | none => 0

def Job.biasAddr (j : Job) (l : Nat) : Nat :=
  match j.kind with
  | .score n _ => n.rows.bias
  | .keys r _ => r.bias
  | .eval _ ls => match ls[l]? with
    | some x => x.layer.bias
    | none => 0

/-- The bytes of the weight row, or vector-block row, of output `n`: where it starts and its length (R96, R278). -/
def Job.rowSpan (j : Job) (l n : Nat) : Nat × Nat :=
  match j.kind with
  | .score s _ => (s.rows.block + n * s.rows.stride, s.rows.dim * s.rows.fmt.bytes)
  | .keys r _ => (r.block + n * r.stride, r.dim * r.fmt.bytes)
  | .eval _ ls => match ls[l]? with
    | some x => (x.layer.weights + n * x.layer.sw, (x.layer.k * x.layer.wfmt.bits + 7) / 8)
    | none => (0, 0)

/-- The group bytes of output `n` (R278), none where the layer carries none. -/
def Job.groupSpan (j : Job) (l n : Nat) : Option (Nat × Nat) :=
  match j.layer? l with
  | some x => if x.layer.groups then some (x.layer.groupb + n * x.layer.sg, (x.layer.k + 31) / 32) else none
  | none => none

/-- The outputs of an N-block (R293). -/
def blockOutputs (n nb : Nat) : List Nat := (List.range 128).filterMap (fun i => if 128 * nb + i < n then some (128 * nb + i) else none)

/-- The columns of a tile. -/
def Job.columns (j : Job) (t : Tile) : List Nat := blockOutputs (j.outputs t.layer) t.nb

/-- The lines a tile reads (R295): its rows, group bytes, bias values and activation table. -/
def Job.tileLines (j : Job) (t : Tile) : List Nat :=
  let cols := j.columns t
  let rows := cols.flatMap (fun n => linesOf (j.rowSpan t.layer n).1 (j.rowSpan t.layer n).2)
  let groups := cols.flatMap (fun n => match j.groupSpan t.layer n with
    | some (a, k) => linesOf a k
    | none => [])
  let bias := if j.biasAddr t.layer = 0 then [] else linesOf (j.biasAddr t.layer + 512 * t.nb) (4 * cols.length)
  let act := match j.layer? t.layer with
    | some x => if x.layer.act = 0 then [] else linesOf x.layer.act 1044
    | none => []
  (rows ++ groups ++ bias ++ act).eraseDups

def newTile (layer nb : Nat) : Tile :=
  { layer := layer, nb := nb, st := .reserving, arrs := [], chain := 1, lines := [], accs := [], merged := [], bias := [], outs := []
    poisonAt := none }

/-! ### Prefetch blocks (R360, R362) -/

/-- A FETCH block (R362): rows of a stride, from a 16-byte bound on, for the WEIGHT partition. -/
def fetchBlock (ctx addr len rows stride : Nat) (use : BlockUse) : Block :=
  let first := addr / 16 * 16
  { raw := toLe 8 (first % 2 ^ 48 + place ctx 12 48) ++ toLe 4 (roundUp (addr - first + len) 16) ++ toLe 2 rows ++ toLe 2 1 ++
      toLe 4 (if rows = 1 then 0 else stride) ++ toLe 4 0 ++ toLe 4 0 ++ [1, 1] ++ toLe 2 0
    use := use }

/-- FETCH blocks of `n` rows of `len` bytes: as many rows as a block may hold, or one where the stride is no multiple of 16. -/
def fetchRows (ctx addr len n stride : Nat) (use : BlockUse) : List Block :=
  let row := roundUp (addr % 16 + len) 16
  let per := if stride % 16 = 0 then max 1 (min 4096 (65536 / max row 1)) else 1
  (List.range ((n + per - 1) / per)).map (fun i => fetchBlock ctx (addr + per * i * stride) len (min per (n - per * i)) stride use)

/-- The stride of a layer's weight rows, or of a vector block's (R96, R278), and that of its group bytes. -/
def Job.stride (j : Job) (l : Nat) : Nat :=
  match j.kind with
  | .score s _ => s.rows.stride
  | .keys r _ => r.stride
  | .eval _ ls => match ls[l]? with
    | some x => x.layer.sw
    | none => 0

def Job.groupStride (j : Job) (l : Nat) : Nat := ((j.layer? l).map (fun x => x.layer.sg)).getD 0

/-- The blocks of a tile (R360): its rows, its group bytes, its bias values. -/
def Job.tileBlocks (j : Job) (lay : Nat) (t : Tile) : List Block :=
  let cols := j.columns t
  let use := BlockUse.fetch lay j.id
  match cols.head? with
  | none => []
  | some n =>
    let rows := fetchRows j.ctx (j.rowSpan t.layer n).1 (j.rowSpan t.layer n).2 cols.length (j.stride t.layer) use
    let groups := match j.groupSpan t.layer n with
      | some (a, k) => fetchRows j.ctx a k cols.length (j.groupStride t.layer) use
      | none => []
    let bias := if j.biasAddr t.layer = 0 then []
      else [fetchBlock j.ctx (j.biasAddr t.layer + 512 * t.nb) (4 * cols.length) 1 0 use]
    rows ++ groups ++ bias

/-- The layers of a job from `l` on, in the groups that run together (R279, R293). -/
def Job.groupsFrom (j : Job) (l : Nat) : List (List Nat) :=
  match j.kind with
  | .eval leaf _ =>
    if leaf.pair && l = 0 then [0, 1] :: ((List.range (leaf.nlayers - 2)).map (fun i => [i + 2]))
    else (List.range (leaf.nlayers - l)).map (fun i => [i + l])
  | _ => [[0]]

/-- The tiles of layers that run together, N-block by N-block, a pair interleaved (R293, R299). -/
def Job.groupTiles (j : Job) (g : List Nat) : List Tile :=
  let blocks := (j.outputs (g.headD 0) + 127) / 128
  (List.range blocks).flatMap (fun nb => g.map (fun l => newTile l nb))

/-- The blocks of a run from the layer it starts at (R360): its activation tables, then the blocks of its tiles in order. -/
def Job.runBlocks (j : Job) (lay : Nat) : List Block :=
  let gs := j.groupsFrom j.layer
  let tables := (gs.flatMap (fun g => g.filterMap (fun l => (j.layer? l).bind (fun x => if x.layer.act = 0 then none else some x.layer.act)))).eraseDups
  tables.map (fun a => fetchBlock j.ctx a 1044 1 0 (.fetch lay j.id)) ++
    gs.flatMap (fun g => (j.groupTiles g).flatMap (fun t => j.tileBlocks lay t))

/-- Blocks with END on the last (R362). -/
def withEnd (bs : List Block) : List Block :=
  (indexed bs).map (fun e => if e.1 + 1 = bs.length then { e.2 with raw := e.2.raw.set 29 3 } else e.2)

/-- The FETCH stream on which a lay places its next unit of work (R360): the streams in turn, but those that are faulted. -/
def Slice.fetchStream (sl : Slice) (lay : Nat) : Nat :=
  let turn := if lay = 0 then sl.str.turn0 else sl.str.turn1
  let order := (List.range 4).map (fun i => 4 * lay + (turn + i) % 4)
  (order.find? (fun i => (sl.str.streams[i]?).any (fun s => s.resume.isNone))).getD (4 * lay + turn % 4)

/-- The blocks of a unit of work are placed on a FETCH stream (R360, R364). -/
def Slice.prefetch (env : Capstan) (sl : Slice) (lay : Nat) (bs : List Block) : Slice :=
  let i := sl.fetchStream lay
  let turn := (i + 1) % 4
  let str := if lay = 0 then { sl.str with turn0 := turn } else { sl.str with turn1 := turn }
  ({ sl with str := str }).produce env ((withEnd bs).map (fun b => { stream := i, block := b, data := [] }))

/-- The blocks of a job: those of a run together, those of each tile of a score node or key-block leaf (R360). -/
def Slice.prefetchJob (env : Capstan) (sl : Slice) (lay : Nat) (j : Job) : Slice :=
  match j.kind with
  | .eval _ _ => sl.prefetch env lay (j.runBlocks lay)
  | _ => j.tiles.foldl (fun sl t => sl.prefetch env lay (j.tileBlocks lay t)) sl

/-- The tiles of the layers in work. -/
def Job.freshTiles (j : Job) : List Tile := j.groupTiles j.group

/-! ### Row groups and the leaf operand buffer (R293, R294) -/

/-- The format of the payload of a job's context. -/
def pfmtOf (env : Capstan) (ctx : Nat) : Fmt :=
  match env.ctx? ctx with
  | some c => c.pfmt
  | none => .e4m3

/-- A row's activations in rows of the operand buffer, 256 bytes each (R294). A buffer row holds activations of one row of the row group
only, of which the spec says nothing (log entry 71). -/
def opRows (f : Fmt) (codes : List Code) : List OpRow :=
  let bytes := codes.flatMap (fun c => toLe f.bytes c.toNat)
  (List.range ((bytes.length + 255) / 256)).map (fun i => { data := (bytes.drop (256 * i)).take 256, poison := false })

/-- The half of a buffer that holds the input activations, and the other, which takes the outputs of the layer in work (R294). -/
def OpBuf.input (b : OpBuf) : List (List OpRow) := if b.swapped then b.high else b.low
def OpBuf.output (b : OpBuf) : List (List OpRow) := if b.swapped then b.low else b.high
def OpBuf.setInput (b : OpBuf) (rs : List (List OpRow)) : OpBuf := if b.swapped then { b with high := rs } else { b with low := rs }
def OpBuf.setOutput (b : OpBuf) (rs : List (List OpRow)) : OpBuf := if b.swapped then { b with low := rs } else { b with high := rs }

/-- An output at its place in the buffer rows of its row (R294); one marked POI is stored poisoned (R286). -/
def putOutput (f : Fmt) (rs : List OpRow) (n : Nat) (o : Out) : List OpRow :=
  let place := n * f.bytes
  let put (r : OpRow) : OpRow :=
    { data := overlay r.data (place % 256) (toLe f.bytes o.code.toNat), poison := r.poison || o.poi }
  updateAt put (place / 256) rs

/-- The outputs of an N-block are written to the buffer. -/
def OpBuf.putOuts (b : OpBuf) (f : Fmt) (nb : Nat) (outs : List (List Out)) : OpBuf :=
  b.setOutput ((b.output.zip outs).map (fun e => (indexed e.2).foldl (fun rs o => putOutput f rs (128 * nb + o.1) o.2) e.1))

/-- Where a row of a buffer stands, the rows of its high half counted from 16,384 on: in the input half or the other, the row of the row
group, its place among the buffer rows of that one; none where it holds nothing. -/
def OpBuf.place? (b : OpBuf) (row : Nat) : Option (Bool × Nat × Nat) :=
  let high : Bool := decide (16384 ≤ row)
  let half := if high then b.high else b.low
  let per := max 1 (half.headD []).length
  let r := if high then row - 16384 else row
  if r / per < half.length then some (decide (high = b.swapped), r / per, r % per) else none

/-- A buffer row is poisoned (R301). -/
def OpBuf.poisonAt (b : OpBuf) (input : Bool) (ri i : Nat) : OpBuf :=
  let mark (rs : List (List OpRow)) : List (List OpRow) :=
    updateAt (fun r => updateAt (fun (x : OpRow) => { x with poison := true }) i r) ri rs
  if input then b.setInput (mark b.input) else b.setOutput (mark b.output)

/-- The rows that begin the next row group (R293, R302): rows of one replay point, up to 256, in run order. -/
def nextGroup (waiting : List Query) : List Query × List Query :=
  match waiting.head? with
  | none => ([], [])
  | some q =>
    let p (x : Query) : Bool := x.layerOuts.map (·.1) = q.layerOuts.map (·.1)
    let rows := (waiting.filter p).take 256
    (rows, waiting.filter (fun x => !p x) ++ (waiting.filter p).drop 256)

/-- The layer a row group starts from (R302). -/
def startLayer (rows : List Query) : Nat :=
  match rows.head? with
  | some q => (q.layerOuts.map (·.1)).getD 0
  | none => 0

/-- A job at the start of a layer or a row group: its tiles are to begin. -/
def Job.fresh (j : Job) : Job := { j with tiles := j.freshTiles }

/-- The job of the next row group, if rows wait (R293). -/
def Job.nextRows (j : Job) : Option Job :=
  let (rows, waiting) := nextGroup j.waiting
  if rows.isEmpty then none
  else some ({ j with rows := rows, waiting := waiting, layer := startLayer rows, replay := rows.map (fun _ => none), hist := [] } : Job).fresh

/-- A row's input as it is copied into the operand buffer (R294): its payload, or the outputs kept by a replay (R302). -/
def Job.inputRow (j : Job) (pfmt : Fmt) (q : Query) : List OpRow :=
  match q.layerOuts, j.layer? (j.layer - 1) with
  | some (_, outs), some x => if j.layer = 0 then opRows pfmt q.payload else opRows x.layer.ofmt (outs.map (·.code))
  | _, _ => opRows pfmt q.payload

/-- The format in which the outputs of the layers in work stand in the operand buffer: those of the last layer, and scores, do not (R279,
R298). -/
def Job.storedFmt (j : Job) : Option Fmt :=
  match j.kind with
  | .eval leaf ls =>
    let l := j.group.getLastD 0
    if l + 1 < leaf.nlayers then (ls[l]?).map (fun x => x.layer.ofmt) else none
  | _ => none

/-- The buffer rows that the outputs of the layers in work will take. -/
def Job.emptyOutput (j : Job) : List (List OpRow) :=
  match j.storedFmt with
  | some f => j.rows.map (fun _ => List.replicate ((j.outputs (j.group.headD 0) * f.bytes + 255) / 256)
      { data := List.replicate 256 0, poison := false })
  | none => []

/-- A row group takes the buffer (R294). -/
def OpBuf.load (b : OpBuf) (j : Job) (pfmt : Fmt) : OpBuf :=
  (({ b with job := some j.id }).setInput (j.rows.map (j.inputRow pfmt))).setOutput j.emptyOutput

/-- The halves exchange roles for the next layer (R294). -/
def OpBuf.exchange (b : OpBuf) (j : Job) : OpBuf := ({ b with swapped := !b.swapped }).setOutput j.emptyOutput

/-- A lay's operand buffer takes the row group of the first job that waits for it, if it holds none (log entry 84). -/
def Slice.takeOpBuf (env : Capstan) (sl : Slice) (lay : Nat) : Slice :=
  let b := sl.opBuf lay
  match b.job, sl.jobs lay with
  | none, j :: _ => sl.setOpBuf lay (b.load j (pfmtOf env j.ctx))
  | _, _ => sl

/-- The job whose row group the buffer holds. -/
def Slice.bufferJob (sl : Slice) (lay : Nat) : Option Job := (sl.opBuf lay).job.bind (sl.job? lay)

/-! ### Reservations (R295, R318) -/

/-- The lines of a tile that are fed as poison (R376). -/
def Slice.fedLines (sl : Slice) (lay job : Nat) : List Nat :=
  sl.str.fed.filterMap (fun f => if f.1 = lay && f.2.1 = job then some f.2.2 else none)

/-- The lines that a tile has to reserve: those it reads, but those fed as poison (R376). -/
def Slice.linesAsked (sl : Slice) (lay : Nat) (j : Job) (t : Tile) : List Nat :=
  let fed := sl.fedLines lay j.id
  (j.tileLines t).filter (fun a => !decide (a ∈ fed))

/-- The lines of a tile are reserved as far as they are resident, and the missing ones are asked for. -/
def Slice.reserveLines (env : Capstan) (sl : Slice) (lay : Nat) (j : Job) (ti : Nat) : Slice :=
  match j.tiles[ti]? with
  | none => sl
  | some t =>
    let r := (sl.linesAsked lay j t).foldl (fun (acc : List (Nat × Nat × Nat) × Slice) a =>
      if acc.1.any (fun p => p.1 = a) then acc
      else
      let acc := (acc.1, acc.2.count 0x303 1 (some j.ctx) 1)
      match acc.2.cache.findReserve env .weight j.ctx a with
        | some l => (acc.1 ++ [(a, l.set, l.way)], { acc.2 with cache := (acc.2.cache.reserve l.set l.way).touch l.set l.way })
        | none =>
          let w : Waiting := { who := .tile lay j.id ti, ctx := j.ctx, gen := genOf env j.ctx, part := .weight, addr := a, sector := 0 }
          if acc.2.cache.misses.any (fun m => m.st = .pending && m.addr = a && m.ctx = j.ctx && decide (w.who ∈ m.waiters)) ||
             acc.2.cache.waiting.any (fun x => x.addr = a && decide (x.who = w.who)) then acc
          else (acc.1, acc.2.missFor env w)) (t.lines, sl)
    r.2.setJob lay { j with tiles := updateAt (fun t => { t with lines := r.1 }) ti j.tiles }

/-- Tiles reserved or running in a lay (R304). -/
def Slice.tilesHeld (sl : Slice) (lay : Nat) : Nat :=
  ((sl.jobs lay).flatMap (·.tiles)).countP (fun t => match t.st with
    | .reserved => true
    | .running _ => true
    | _ => false)

/-- The next tile of a lay that must reserve, if the lay may hold one more (R295: two ahead of each array's): of the row group in the operand
buffer (log entry 84). -/
def Slice.nextReserving (sl : Slice) (lay : Nat) : Option (Job × Nat) :=
  if 3 * sl.arrays lay ≤ sl.tilesHeld lay then none
  else (sl.bufferJob lay).bind (fun j => ((indexed j.tiles).find? (fun e => e.2.st = .reserving)).map (fun e => (j, e.1)))

/-- The right to hold an incomplete reservation passes to a tile that waits, the lays in turn (R318). -/
def Slice.grantReserving (env : Capstan) (sl : Slice) (after : Nat) : Slice :=
  match sl.work.reserving with
  | some _ => sl
  | none =>
    let pick := match sl.nextReserving (1 - after) with
      | some x => some (1 - after, x)
      | none => (sl.nextReserving after).map (fun x => (after, x))
    match pick with
    | none => sl
    | some (lay, j, ti) =>
      ({ sl with work := { sl.work with reserving := some (lay, j.id, ti) } }).reserveLines env lay j ti

/-- A new job with its first tiles, whose blocks are placed on the lay's FETCH streams (R229, R293, R360). -/
def Slice.startJob (env : Capstan) (sl : Slice) (lay : Nat) (j : Job) : Slice :=
  let j := ({ j with id := sl.work.nextJob, replay := j.rows.map (fun _ => none) }).fresh
  let sl := { sl with work := { sl.work with nextJob := sl.work.nextJob + 1 } }
  let sl := sl.setJobs lay (sl.jobs lay ++ [j])
  ((sl.prefetchJob env lay j).takeOpBuf env lay).grantReserving env lay

/-! ### Steps (R264, R296) -/

/-- The slot of a line that a tile has reserved. -/
def Tile.slot? (t : Tile) (line : Nat) : Option (Nat × Nat) := (t.lines.find? (fun p => p.1 = line)).map (·.2)

/-- The bytes of a range in a tile's reserved lines. -/
def tileBytes (c : Cache) (t : Tile) (a n : Nat) : List Byte :=
  (((linesOf a n).flatMap (fun la => match t.slot? la with
    | some p => c.slotData p.1 p.2
    | none => List.replicate 256 0)).drop (a % 256)).take n

/-- The lines of a tile whose words are poisoned (R301): those of its slots that are stored so, and those fed as poison (R376). -/
def Slice.badLines (sl : Slice) (lay : Nat) (j : Job) (t : Tile) : List Nat :=
  t.lines.filterMap (fun p => if sl.cache.slotPoison p.2.1 p.2.2 then some p.1 else none) ++
    (sl.fedLines lay j.id).filter (fun a => (t.slot? a).isNone)

/-- Whether the byte at an address stands in a poisoned line. -/
def poisonedAt (bad : List Nat) (a : Nat) : Bool := decide (lineAddr a ∈ bad)

/-- A weight as a term takes it: expanded, with its group exponent, and whether a word of it is poisoned. -/
structure Weight where
  value : Num × Flags
  exp : Int
  poison : Bool

/-- The expanded weights of output `n` for the K positions `ks`, each with its group exponent (R245 to R250). -/
def Job.weights (j : Job) (c : Cache) (bad : List Nat) (t : Tile) (n : Nat) (ks : List Nat) : List Weight :=
  let span := j.rowSpan t.layer n
  let row := tileBytes c t span.1 span.2
  let gspan := j.groupSpan t.layer n
  let gb := match gspan with
    | some (a, k) => tileBytes c t a k
    | none => []
  let elem (f : Fmt) (k : Nat) : Weight :=
    { value := f.read (BitVec.ofNat 32 (le row (k * f.bytes) f.bytes)), exp := 0, poison := poisonedAt bad (span.1 + k * f.bytes) }
  ks.map (fun k =>
    match j.kind with
    | .score s _ => elem s.rows.fmt k
    | .keys r _ => elem r.fmt k
    | .eval _ ls => match ls[t.layer]? with
      | some x =>
        let g := byteAt gb (k / 32)
        { value := expandWeight x.layer.wfmt x.layer.table row k g, exp := if x.layer.groups then groupExp g else 0
          poison := poisonedAt bad (span.1 + k * x.layer.wfmt.bits / 8) || gspan.any (fun s => poisonedAt bad (s.1 + k / 32)) }
      | none => { value := (.fin 0, noFlags), exp := 0, poison := false })

/-- Whether a layer reads the token's payload (R279). -/
def Job.readsPayload (j : Job) (l : Nat) : Bool :=
  match j.kind with
  | .eval leaf _ => l = 0 || (leaf.pair && l = 1)
  | _ => true

/-- The format of a layer's input (R280). -/
def Job.inputFmt (j : Job) (pfmt : Fmt) (l : Nat) : Fmt :=
  if j.readsPayload l then pfmt
  else match j.layer? (l - 1) with
    | some x => x.layer.ofmt
    | none => pfmt

/-- One output's state after a step: a term per K position (R252), or the step sum of R264; a term with a poisoned operand sets POI and
changes nothing else (R256). -/
def stepOutput (st : OutState) (ks : List Nat) (inp : List (Num × Flags)) (lost : Bool) (ws : List Weight) : OutState :=
  match st with
  | .exact a =>
    .exact ((ks.zip (inp.zip ws)).foldl (fun a e => addTerm a e.1 (lost || e.2.2.poison) e.2.1 e.2.2.value e.2.2.exp) a)
  | .bf16 b =>
    let prods := (inp.zip ws).map (fun e =>
      let p := fmul e.1.1 e.2.value.1
      if lost || e.2.poison then ((.fin 0 : Num), noFlags) else (p.1, (e.1.2.or e.2.value.2).or p.2))
    let pad := List.replicate (128 - prods.length) ((.fin 0 : Num), noFlags)
    .bf16 (baccStep b (prods ++ pad) (lost || ws.any (·.poison)))

/-- The empty states of a tile. -/
def Job.emptyAccs (j : Job) (fmt : Fmt) (t : Tile) : List (List OutState) :=
  let e : OutState := if fmt = .bf16 then .bf16 emptyBacc else .exact emptyAcc
  List.replicate j.rows.length (List.replicate (j.columns t).length e)

/-- The K positions of step `k` of a layer (R296); padded positions form no term (R255). -/
def Job.stepPositions (j : Job) (l k : Nat) : List Nat :=
  (List.range 128).filterMap (fun i => if 128 * k + i < j.kdim l then some (128 * k + i) else none)

/-- An input activation in the rows of the operand buffer that hold a row's input (R294). -/
def opElem (rows : List OpRow) (f : Fmt) (k : Nat) : Code :=
  match rows[k * f.bytes / 256]? with
  | some r => BitVec.ofNat 32 (le r.data (k * f.bytes % 256) f.bytes)
  | none => 0

/-- Step `k` of a tile (R296): every row against every column over K positions 128k to 128k + 127. A row with a poisoned word among its
activations `input` is lost whole (R301). -/
def Job.runStep (j : Job) (input : List (List OpRow)) (c : Cache) (bad : List Nat) (pfmt : Fmt) (t : Tile) (k : Nat) : Tile :=
  let fmt := j.inputFmt pfmt t.layer
  let ks := j.stepPositions t.layer k
  let ws := (j.columns t).map (fun n => j.weights c bad t n ks)
  let accs := (t.accs.zip input).map (fun e =>
    let inp := ks.map (fun k => fmt.read (opElem e.2 fmt k))
    (e.1.zip ws).map (fun p => stepOutput p.1 ks inp (e.2.any (·.poison)) p.2))
  { t with accs := accs, st := .running (k + 1) }

/-- Steps of a layer (R296). -/
def Job.steps (j : Job) (l : Nat) : Nat := (j.kdim l + 127) / 128

/-! ### Segments of a chain (R299) -/

/-- The segment of step `k` where `steps` steps are divided among `m` arrays: contiguous, as equal as possible, the earlier segments taking
any extra step (R299). -/
def segmentOf (steps m k : Nat) : Nat :=
  let base := steps / m
  let extra := steps % m
  if k < extra * (base + 1) then k / (base + 1) else extra + (k - extra * (base + 1)) / max base 1

/-- The arrays that each N-block of a job's layer is chained over (R299): a pair counts as one layer of twice the blocks; tiles of score
nodes and key-block leaves are no layers. -/
def Job.chainOver (j : Job) (arrays : Nat) : Nat :=
  match j.kind with
  | .eval _ _ =>
    let blocks := j.group.length * ((j.outputs j.layer + 127) / 128)
    if blocks = 0 || arrays ≤ blocks then 1 else arrays / blocks
  | _ => 1

/-- States brought together with those of the segments before (R254). -/
def mergeStates (before now : List (List OutState)) : List (List OutState) :=
  if before.isEmpty then now else (before.zip now).map (fun r => (r.1.zip r.2).map (fun e => e.1.merge e.2))

/-- A tile passes to its next segment, on array `a` (R299). -/
def Tile.nextSegment (t : Tile) (a : Nat) : Tile :=
  { t with arrs := t.arrs ++ [a], merged := mergeStates t.merged t.accs, accs := t.accs.map (fun r => r.map OutState.passOn) }

/-- The logical array that a tile is on, or was on last. -/
def Tile.arr (t : Tile) : Nat := t.arrs.getLastD 0

/-! ### What a poisoned line means to a tile (R301) -/

/-- Whether a span of bytes touches one of the lines. -/
def spanTouches (span : Nat × Nat) (lines : List Nat) : Bool := (linesOf span.1 span.2).any (fun a => decide (a ∈ lines))

/-- The lines that step `k` of a tile reads: those of its columns' weights and group bytes (R295, R296). -/
def Job.stepLines (j : Job) (t : Tile) (k : Nat) : List Nat :=
  let first := 128 * k
  let count := (j.stepPositions t.layer k).length
  let bits := match j.kind with
    | .score s _ => 8 * s.rows.fmt.bytes
    | .keys r _ => 8 * r.fmt.bytes
    | .eval _ ls => ((ls[t.layer]?).map (fun x => x.layer.wfmt.bits)).getD 8
  (j.columns t).flatMap (fun n => linesOf ((j.rowSpan t.layer n).1 + first * bits / 8) ((count * bits + 7) / 8) ++
    match j.groupSpan t.layer n with
    | some (a, _) => linesOf (a + first / 32) ((count + 31) / 32)
    | none => [])

/-- The lines that the end of a tile reads: its bias values and its activation table (R295). -/
def Job.endLines (j : Job) (t : Tile) : List Nat :=
  (if j.biasAddr t.layer = 0 then [] else linesOf (j.biasAddr t.layer + 512 * t.nb) (4 * (j.columns t).length)) ++
    match j.layer? t.layer with
    | some x => if x.layer.act = 0 then [] else linesOf x.layer.act 1044
    | none => []

/-- The states of the columns named are marked POI in every row (R301). -/
def markColumns (accs : List (List OutState)) (cols : List Bool) : List (List OutState) :=
  accs.map (fun row => (row.zip cols).map (fun e => if e.2 then e.1.poisoned else e.1))

/-- The states of one row are marked POI (R301). -/
def markRow (accs : List (List OutState)) (r : Nat) : List (List OutState) :=
  updateAt (fun row => row.map (·.poisoned)) r accs

/-- The knots of an activation table that act reads at x (R288). -/
def knotsUsed (t : ActTable) (x : Num) : List Nat :=
  match x with
  | .nan => []
  | .inf neg => if neg then [0, 1] else [255, 256]
  | .fin v =>
    if v < t.xmin then [0, 1]
    else if v < t.xmin + 256 * pow2 t.w then
      let i := ((v - t.xmin) / pow2 t.w).floor.toNat
      [i, i + 1]
    else [255, 256]

/-- Whether output `n` of a layer has its bias value in a poisoned line. -/
def Job.biasBad (j : Job) (bad : List Nat) (l n : Nat) : Bool := j.biasAddr l != 0 && poisonedAt bad (j.biasAddr l + 4 * n)

/-- The columns of a tile for which act reads a poisoned knot in some row (R288, R301), by the tile's final states. -/
def Job.knotColumns (j : Job) (bad : List Nat) (t : Tile) (bias : List Code) (accs : List (List OutState)) : List Bool :=
  match j.layer? t.layer with
  | some { layer := lay, act := some tab } =>
    let hit (e : OutState × Code) : Bool := poisonedAt bad lay.act ||
      (knotsUsed tab (resolveState e.1 lay.scale e.2).1).any (fun i => poisonedAt bad (lay.act + 16 + 4 * i))
    (List.range (j.columns t).length).map (fun c => spanTouches (lay.act, 1044) bad && accs.any (fun row => ((row.zip bias)[c]?).any hit))
  | _ => (j.columns t).map (fun _ => false)

/-- The outputs whose bias value, or whose knots, lie in a poisoned line are marked POI in every row (R301). -/
def Job.markEnd (j : Job) (bad : List Nat) (t : Tile) (bias : List Code) (accs : List (List OutState)) : List (List OutState) :=
  let biased := (j.columns t).map (j.biasBad bad t.layer)
  markColumns accs ((biased.zip (j.knotColumns bad t bias accs)).map (fun e => e.1 || e.2))

/-- ARR_LEAF_POI and its record (R305, R306). -/
def Slice.leafPoison (env : Capstan) (sl : Slice) (lay : Nat) (j : Job) (t : Tile) (source rows : Nat) : Slice :=
  let (leafId, l) := match j.kind with
    | .eval leaf _ => (leaf.leafId, t.layer)
    | _ => (0, 0)
  let r : Reg := BitVec.ofNat 64 (1 + place source 2 1 + place lay 1 3 + place t.arr 2 4 + place l 2 6 + place rows 9 8 +
    place leafId 22 32)
  ({ sl with work := { sl.work with leafPoi := r } }).log env 0x6002 (toLe 8 r.toNat)

/-- The class REFETCH of a poisoned word that has a clean copy (R489). -/
def classRefetch : Nat := 0x01

/-- The earlier of two replay points (R302). -/
def ReplayAt.first (a : Option ReplayAt) (b : ReplayAt) : Option ReplayAt :=
  match a with
  | some x => if b.layer < x.layer then some b else some x
  | none => some b

/-- The layer that a poisoned activation counts for (R302): the one that reads the payload, or outputs kept from a visit before; else
the one that wrote it. -/
def Job.activationLayer (j : Job) : Nat := (j.hist.getLast?.map (·.1)).getD j.layer

/-- The outputs of a tile that `sel` names, by row and output, are marked POI. -/
def Tile.markOuts (t : Tile) (sel : Nat → Nat → Bool) : Tile :=
  { t with outs := (indexed t.outs).map (fun r => (indexed r.2).map (fun o =>
      if sel r.1 (128 * t.nb + o.1) then { o.2 with poi := true } else o.2)) }

/-- A row begins again at a layer (R302), for what it awaits at the line of the object. -/
def Job.again (j : Job) (ri layer : Nat) : Job :=
  { j with replay := updateAt (fun r => ReplayAt.first r { layer := layer, cause := .refetch, addr := lineAddr j.obj }) ri j.replay }

/-- A word of a row's input activations is poisoned (R301): every output of the row is, also of tiles that are finished, and the row begins
again (R302). -/
def Job.loseRow (j : Job) (ri : Nat) : Job :=
  let j := j.again ri j.activationLayer
  { j with tiles := j.tiles.map (fun t => ({ t with accs := markRow t.accs ri }).markOuts (fun r _ => r = ri)) }

/-- A word of the outputs of the layer in work is poisoned in the operand buffer: it counts as poison consumed by that layer (R302). -/
def Job.loseOutputs (j : Job) (ri i : Nat) : Job :=
  match j.storedFmt with
  | none => j
  | some f =>
    let lost (r n : Nat) : Bool := r = ri && n * f.bytes / 256 = i
    let tiles := j.tiles.map (fun t => t.markOuts lost)
    if tiles = j.tiles then j else { j.again ri j.layer with tiles := tiles }

/-- The columns of a tile whose weights, group bytes or bias value lie in a line (R301). -/
def Job.lineColumns (j : Job) (t : Tile) (line : Nat) : List Bool :=
  (j.columns t).map (fun n => spanTouches (j.rowSpan t.layer n) [line] || (j.groupSpan t.layer n).any (fun s => spanTouches s [line]) ||
    j.biasBad [line] t.layer n)

/-- The columns of a tile on which a line, found poisoned, bears so far (R301): none of a tile that has not begun. -/
def Job.struck (j : Job) (line : Nat) (t : Tile) : List Bool :=
  match t.st with
  | .running _ => j.lineColumns t line
  | .finished => ((j.lineColumns t line).zip (j.knotColumns [line] t t.bias t.accs)).map (fun e => e.1 || e.2)
  | _ => []

/-- A line is found poisoned (R301): the outputs whose weights, group bytes, bias values or knots it holds are marked POI for every row of the
row group, those formed before among them, and the rows that hold such an output begin again (R302). -/
def Job.loseLine (j : Job) (line : Nat) : Job :=
  let hit (t : Tile) (c : Nat) : Bool := (j.struck line t).getD c false
  let note (t : Tile) : Tile :=
    if (j.struck line t).contains true then
      { t with accs := markColumns t.accs (j.struck line t), poisonAt := t.poisonAt.or (some (.refetch, line)) }
    else t
  let sel (nb _r n : Nat) : Bool := j.tiles.any (fun u => u.nb = nb && hit u (n - 128 * nb))
  let tiles := j.tiles.map (fun t => (note t).markOuts (sel t.nb))
  let formed : Bool := j.tiles.any (fun t => !t.outs.isEmpty && (List.range 128).any (fun c => sel t.nb 0 (128 * t.nb + c)))
  let at_ (r : Option ReplayAt) : Option ReplayAt := ReplayAt.first r { layer := j.layer, cause := .refetch, addr := line }
  { j with tiles := tiles, replay := if formed then j.replay.map at_ else j.replay }

/-- The outputs of tiles as they stand are written to the operand buffer, where the layer's outputs stand there (R294). -/
def Slice.storeOuts (sl : Slice) (lay : Nat) (j : Job) (ts : List Tile) : Slice :=
  match j.storedFmt with
  | none => sl
  | some f => sl.setOpBuf lay (ts.foldl (fun (b : OpBuf) t => if t.outs.isEmpty then b else b.putOuts f t.nb t.outs) (sl.opBuf lay))

/-- What a tile awaits for a poisoned line that it read (R302, R376): the line itself, or the page that the stream which fed it waits for. -/
def Slice.tileAwaits (env : Capstan) (sl : Slice) (lay : Nat) (j : Job) (t : Tile) (line : Nat) : HitchCause × Nat :=
  let asid := ((env.ctx? j.ctx).map (·.asid)).getD 0
  let faulted := ((sl.str.streams.drop (4 * lay)).take 4).findSome? (fun s => s.faultPage.bind (fun p => if p.1 = asid then some p.2 else none))
  match t.slot? line, faulted with
  | none, some a => (.page, a)
  | _, _ => (.refetch, line)

/-- A tile reads lines: the first poisoned one is noted (R302). -/
def Slice.noteLines (env : Capstan) (sl : Slice) (lay : Nat) (j : Job) (t : Tile) (bad lines : List Nat) : Tile :=
  match t.poisonAt, lines.find? (fun a => decide (a ∈ bad)) with
  | none, some a => { t with poisonAt := some (sl.tileAwaits env lay j t a) }
  | _, _ => t

/-! ### The end of a tile and of a layer (R282 to R286, R298, R302) -/

/-- The tile of a layer and N-block. -/
def Job.tile? (j : Job) (l nb : Nat) : Option Tile := j.tiles.find? (fun t => t.layer = l && t.nb = nb)

/-- The source code of a job's conversions (R272, R285). -/
def Job.source (j : Job) : Nat :=
  match j.kind with
  | .score _ _ => 0x8
  | .keys _ _ => 0x9
  | .eval leaf _ => if leaf.pair && j.layer = 0 then 1 else j.layer

/-- A tile's output as its final state and bias give it (R98, R282): a score, an element of the layer, a gated contribution. -/
def Job.outOf (j : Job) (t : Tile) (q : Query) (st : OutState) (bias : Code) : Out :=
  match j.kind with
  | .eval leaf ls => match ls[t.layer]? with
    | some x =>
      if t.layer + 1 = leaf.nlayers then lastOut st x.layer.scale bias x.act q.gate
      else plainOut st x.layer.scale bias x.act x.layer.ofmt
    | none => { code := 0, flags := noFlags, kIndex := 0, poi := false }
  | _ =>
    let s := scoreOf st (j.scale 0) bias
    { code := s.1, flags := s.2, kIndex := st.kIndex, poi := st.poi }

/-- The outputs of a finished tile outside a pair, row by row. -/
def Job.tileOuts (j : Job) (t : Tile) (bias : List Code) : List (List Out) :=
  (j.rows.zip t.accs).map (fun r => (r.2.zip bias).map (fun e => j.outOf t r.1 e.1 e.2))

/-- The bias values of a tile's columns (R97, R258): +0 without a bias table. -/
def Job.readBias (j : Job) (c : Cache) (t : Tile) : List Code :=
  let a := j.biasAddr t.layer
  (j.columns t).map (fun n => if a = 0 then 0 else le32 (tileBytes c t (a + 4 * n) 4) 0)

/-- The pair outputs of two finished tiles, row by row (R284). -/
def Job.pairOuts (j : Job) (t0 t1 : Tile) (bias0 bias1 : List Code) : List (List Out) :=
  match j.layer? 0, j.layer? 1 with
  | some x, some y =>
    (t0.accs.zip t1.accs).map (fun r => ((r.1.zip bias0).zip (r.2.zip bias1)).map (fun e =>
      pairOut e.1.1 e.2.1 x.layer.scale e.1.2 y.layer.scale e.2.2 x.act y.act y.layer.ofmt))
  | _, _ => []

/-- The conversions of a row are counted, captured and offered (R269 to R273). -/
def Slice.noteRow (env : Capstan) (sl : Slice) (q : Query) (source : Nat) (outs : List Out) : Slice :=
  outs.foldl (fun sl o => if o.poi then sl else sl.converted env (originOf env q source) o.kIndex o.flags) sl

def joinFlags (f : Flags) (outs : List Out) : Flags := outs.foldl (fun f o => f.or o.flags) f

/-- Outputs are formed by a tile (R269 to R273, R302): the conversions are noted row by row, their flags join their queries, and the rows
that hold POI begin again; those of a pair at layer 0, also where only its layer 1 consumed the poison (log entry 85). -/
def Slice.formed (env : Capstan) (sl : Slice) (j : Job) (outs : List (List Out)) (poison : Option (HitchCause × Nat)) : Slice × Job :=
  let sl := (j.rows.zip outs).foldl (fun sl e => sl.noteRow env e.1 j.source e.2) sl
  let again (e : Option ReplayAt × List Out) : Option ReplayAt :=
    match poison with
    | some p => if e.2.any (·.poi) then ReplayAt.first e.1 { layer := j.layer, cause := p.1, addr := p.2 } else e.1
    | none => e.1
  (sl, { j with rows := (j.rows.zip outs).map (fun e => { e.1 with flags := joinFlags e.1.flags e.2 })
                replay := (j.replay.zip outs).map again })

/-- The outputs of the layers in work for each row, over all N-blocks: those of the first tile of each (R282, R284). -/
def Job.layerOuts (j : Job) : List (List Out) :=
  let l := j.group.headD 0
  (List.range j.rows.length).map (fun ri =>
    (List.range ((j.outputs l + 127) / 128)).flatMap (fun nb => ((j.tile? l nb).map (fun t => t.outs.getD ri [])).getD []))

/-- The part of the slice cache that a hitched row awaits (R308): a lost row of the operand buffer is awaited at the object's line. -/
def Job.awaitedPart (j : Job) (addr : Nat) : Part := if addr = lineAddr j.obj then .tree else .weight

/-- A row is hitched at its replay point (R18, R302, R493). -/
def Slice.hitchRow (env : Capstan) (sl : Slice) (j : Job) (q : Query) (p : ReplayAt) (layer : Option Nat) : Slice :=
  sl.hitchQuery env q { cause := p.cause, addr := p.addr, layer := layer, source := 17 } (j.awaitedPart p.addr)

/-- A row of a score node or key-block leaf goes on with its scores (R230, R231); poisoned, it is hitched (R18, R493). -/
def Slice.scoredRow (env : Capstan) (sl : Slice) (lay : Nat) (j : Job) (ri : Nat) (q : Query) (outs : List Out) : Slice × Option Adv :=
  match (j.replay.getD ri none) with
  | some p => (sl.hitchRow env j q p none, none)
  | none =>
    match env.ctx? q.ctx with
    | none => (sl, some (.ended q))
    | some c =>
      let r := rootRef env c
      match j.kind with
      | .score n children =>
        let (cs, fls) := scoreChildren n children q.kind q.gate (outs.map (fun (o : Out) => o.code))
        let sl := fls.foldl (fun sl f => sl.converted env (originOf env q 0xA) 0x1FFFF f) sl
        let q := { q with flags := fls.foldl Flags.or q.flags }
        (sl.count 0x10A (walkerQual lay j.walker) (some q.ctx) (discards cs q), some (q.descend r cs))
      | .keys _ base =>
        let q := { q with best := offerScores q.k base q.best (outs.map (fun (o : Out) => o.code)) }
        (sl, some (q.pop r))
      | .eval _ _ => (sl, some (.ended q))

/-- A row with the outputs that it keeps when it begins again at layer `l` (R302): those of the layer before, or none at layer 0. -/
def Job.kept (j : Job) (ri l : Nat) (q : Query) : Query :=
  let outs := match (j.hist.filter (fun x => x.1 < l)).getLast? with
    | some h => some (l, h.2.getD ri [])
    | none => match q.layerOuts with
      | some (k, o) => if k = l then some (k, o) else some (l, [])
      | none => some (l, [])
  { q with layerOuts := outs }

/-- A row of an evaluated leaf at the end of its row group (R302): its contribution goes home (R233, R407) and it pops its
next entry; a row with POI is hitched at its replay point. -/
def Slice.evaluatedRow (env : Capstan) (sl : Slice) (lay : Nat) (j : Job) (ri : Nat) (q : Query) : Slice × Option Adv :=
  match (j.replay.getD ri none) with
  | some p => ((sl.hitchRow env j (j.kept ri p.layer q) p (some p.layer)).count 0x205 lay (some q.ctx) 1, none)
  | none =>
    let vec := match j.hist.getLast? with
      | some h => (h.2.getD ri []).map (fun (o : Out) => o.code)
      | none => []
    let sl := sl.send env q.home (.result { resMsg q .contrib with vec := vec, parts := 0 })
    let q := { q with parts := q.parts + 1, layerOuts := none }
    match env.ctx? q.ctx with
    | some c => (sl, some (q.pop (rootRef env c)))
    | none => (sl, some (.ended q))

/-- Whether every tile of the layers in work is complete. -/
def Job.layerDone (j : Job) : Bool := j.tiles.all (fun t => t.st = .finished)

/-- A job is over: what was fed to it as poison is forgotten (R376), and the operand buffer takes the next row group. -/
def Slice.endJob (env : Capstan) (sl : Slice) (lay : Nat) (j : Job) : Slice :=
  let sl := sl.setJobs lay ((sl.jobs lay).filter (fun x => x.id != j.id))
  let sl := if (sl.opBuf lay).job = some j.id then sl.setOpBuf lay { job := none, swapped := (sl.opBuf lay).swapped } else sl
  (({ sl with str := { sl.str with fed := sl.str.fed.filter (fun f => !(f.1 = lay && f.2.1 = j.id)) } }).takeOpBuf env lay).grantReserving env lay

/-- A job goes on when its layer is complete: the next layer, whose input are the outputs of this one (R279, R294), the end of the row
group, the next row group, or its end. The advances are those of rows that leave. -/
def Slice.advanceJob (env : Capstan) (sl : Slice) (lay : Nat) (j : Job) : Slice × List Adv :=
  let outs := j.layerOuts
  match j.kind with
  | .eval leaf _ =>
    let j := { j with hist := j.hist ++ [(j.layer, outs)] }
    let last := (j.group.getLastD 0) + 1
    if last < leaf.nlayers then
      let j := ({ j with layer := last } : Job).fresh
      (((sl.setOpBuf lay ((sl.opBuf lay).exchange j)).setJob lay j).grantReserving env lay, [])
    else
      let r := (indexed j.rows).foldl (fun (acc : Slice × List Adv) e =>
        let (sl, a) := acc.1.evaluatedRow env lay j e.1 e.2
        (sl, acc.2 ++ a.toList)) (sl, [])
      match j.nextRows with
      | none => (r.1.endJob env lay j, r.2)
      | some j => (((r.1.setOpBuf lay ((r.1.opBuf lay).load j (pfmtOf env j.ctx))).setJob lay j).grantReserving env lay, r.2)
  | _ =>
    let r := ((indexed j.rows).zip outs).foldl (fun (acc : Slice × List Adv) e =>
      let (sl, a) := acc.1.scoredRow env lay j e.1.1 e.1.2 e.2
      (sl, acc.2 ++ a.toList)) (sl, [])
    (r.1.endJob env lay j, r.2)

/-- A job ends without result: its reservations are dropped, and the right to reserve passes on (R318). -/
def Slice.dropJob (env : Capstan) (sl : Slice) (lay : Nat) (j : Job) : Slice :=
  let slots := j.tiles.flatMap (fun t => t.lines.map (·.2))
  let held := match sl.work.reserving with
    | some (l, id, _) => l = lay && id = j.id
    | none => false
  let sl := { sl with cache := sl.cache.unreserve slots }
  let sl := if held then { sl with work := { sl.work with reserving := none } } else sl
  sl.endJob env lay j

end Sys2Proof.Machine
end

