-- ==== Sys2Proof/Machine/Units.lean ====
section
/-!
DEFINITION. The physical units of a lay (R21 to R26): maps, retired units, spares, and the hand-over of a position in a rotation step
(R517).
-/

namespace Sys2Proof.Machine

/-- Physical units of a kind in a lay: 9 walkers, 5 arrays. -/
def unitCount (walkers : Bool) : Nat := if walkers then 9 else 5

def Work.map (w : Work) (lay : Nat) (walkers : Bool) : List Nat :=
  if walkers then (if lay = 0 then w.walkMap0 else w.walkMap1) else (if lay = 0 then w.arrMap0 else w.arrMap1)

def Work.setMap (w : Work) (lay : Nat) (walkers : Bool) (m : List Nat) : Work :=
  if walkers then (if lay = 0 then { w with walkMap0 := m } else { w with walkMap1 := m })
  else (if lay = 0 then { w with arrMap0 := m } else { w with arrMap1 := m })

/-- Whether a physical unit is retired: bit `9 lay + k` of the walkers' mask, `5 lay + k` of the arrays'. -/
def Work.retired (w : Work) (lay : Nat) (walkers : Bool) (k : Nat) : Bool :=
  if walkers then bit w.walkRetired (9 * lay + k) else bit w.arrRetired (5 * lay + k)

def Work.retire (w : Work) (lay : Nat) (walkers : Bool) (k : Nat) : Work :=
  if walkers then { w with walkRetired := w.walkRetired ||| 2 ^ (9 * lay + k) } else { w with arrRetired := w.arrRetired ||| 2 ^ (5 * lay + k) }

/-- The unit of a lay's rotation step: 0 to 8 a walker, 9 to 13 an array; and whether it still holds its position. -/
def Work.rotUnit (w : Work) (lay : Nat) : Option Nat := if lay = 0 then w.rotUnit0 else w.rotUnit1
def Work.setRotUnit (w : Work) (lay : Nat) (u : Option Nat) : Work := if lay = 0 then { w with rotUnit0 := u } else { w with rotUnit1 := u }
def Work.rotDue (w : Work) (lay : Nat) : Bool := if lay = 0 then w.rotDue0 else w.rotDue1
def Work.setRotDue (w : Work) (lay : Nat) (d : Bool) : Work := if lay = 0 then { w with rotDue0 := d } else { w with rotDue1 := d }
def Work.rotStep (w : Work) (lay : Nat) : Nat := if lay = 0 then w.rotStep0 else w.rotStep1
def Work.setRotStep (w : Work) (lay n : Nat) : Work := if lay = 0 then { w with rotStep0 := n } else { w with rotStep1 := n }

/-- The number of a unit among those of its kind. -/
def unitIndex (u : Nat) : Nat := if u < 9 then u else u - 9

/-- The spare of a kind in a lay (R21): a unit that holds no position, is not retired and is not under test. -/
def Work.spare (w : Work) (lay : Nat) (walkers : Bool) : Option Nat :=
  let off := if walkers then 0 else 9
  ((List.range (unitCount walkers)).filter (fun k => !(k ∈ w.map lay walkers) && !w.retired lay walkers k &&
    w.rotUnit lay != some (off + k))).getLast?

/-- The walkers of a lay. -/
def Slice.walkers (sl : Slice) (lay : Nat) : List Walker := if lay = 0 then sl.work.walkers0 else sl.work.walkers1

/-- The arrays of a lay that run a tile's segment. -/
def Slice.busyArrays (sl : Slice) (lay : Nat) : List Nat :=
  (sl.jobs lay).flatMap (fun x => x.tiles.filterMap (fun t => match t.st with
    | .running _ => some t.arr
    | _ => none))

/-- Whether a logical position stands at a packet bound, or at a tile bound (R517): its walker works on no packet, its array runs no segment
of a tile. Packets parked for a line pass on with the position (log entry 87). -/
def Slice.atBound (sl : Slice) (lay : Nat) (walkers : Bool) (position : Nat) : Bool :=
  if walkers then ((sl.walkers lay)[position]?).all (fun w => w.work.isNone) else !(position ∈ sl.busyArrays lay)

/-- The spare takes the position of the unit of a rotation step, once that stands at a bound (R517 step 2). -/
def Slice.handOver (sl : Slice) (lay : Nat) : Slice :=
  let w := sl.work
  match w.rotUnit lay with
  | none => sl
  | some u =>
    if !w.rotDue lay then sl
    else
      let m := w.map lay (u < 9)
      match m.findIdx? (· = unitIndex u), w.spare lay (u < 9) with
      | some p, some x =>
        if sl.atBound lay (u < 9) p then { sl with work := (w.setMap lay (u < 9) (m.set p x)).setRotDue lay false } else sl
      | _, _ => { sl with work := w.setRotDue lay false }

end Sys2Proof.Machine
end

