-- ==== Sys2Proof/Machine/Walkers.lean ====
section
/-!
DEFINITION. The walkers of a slice (R203 to R213): packets taken, parked on node-cache misses and resumed, the tiles a
walker issues (R229), the split after a node (R212), and the runs of evaluated leaves with the layer check (R280, R281,
R293).
-/

namespace Sys2Proof.Machine

def Slice.setWalker (sl : Slice) (lay i : Nat) (f : Walker → Walker) : Slice :=
  { sl with work := if lay = 0 then { sl.work with walkers0 := updateAt f i sl.work.walkers0 }
                    else { sl.work with walkers1 := updateAt f i sl.work.walkers1 } }

/-- The physical walkers of a lay's logical positions (R21). -/
def Slice.walkMap (sl : Slice) (lay : Nat) : List Nat := if lay = 0 then sl.work.walkMap0 else sl.work.walkMap1

/-- The lowest-numbered free logical walker of a lay (R203, R211). -/
def Slice.freeWalker (sl : Slice) (lay : Nat) : Option Nat :=
  ((indexed ((sl.walkers lay).take (sl.walkMap lay).length)).find? (fun e => e.2.work.isNone && decide (e.2.parked.length < 4))).map
    (·.1)

/-! ### Ages (R198, R202) -/

/-- Whether a bin or gather has reached its flush age less 8 ns. -/
def Slice.aged (sl : Slice) (age : Nat) (ms : List Query) : Bool := age ≤ (sl.time - oldest ms) / 2 + 8

/-- A bin as its members leave it: ready again at once where it still satisfies a condition (R198). -/
def Slice.binAfter (env : Capstan) (sl : Slice) (b : Bin) (ms : List Query) : Bin :=
  let (fill, age, drains) := match env.ctx? b.ctx with
    | some c => (fillOf env c, flushAgeOf env c, c.drains)
    | none => (64, 0, false)
  { b with members := ms
           ready := if drains || sl.aged age ms then some .age else if fill ≤ ms.length then some .fill else none }

def Slice.gatherAfter (env : Capstan) (sl : Slice) (g : Gather) (ms : List Query) : Gather :=
  let (target, age, drains) := match env.ctx? g.ctx with
    | some c => (gatherOf env c, gatherAgeOf env c, c.drains)
    | none => (1, 0, false)
  { g with members := ms
           ready := if drains || sl.aged age ms then some .age else if target ≤ ms.length then some .fill else none }

/-- The priority of a context (R203). -/
def prioOf (env : Capstan) (ctx : Nat) : Nat :=
  match env.ctx? ctx with
  | some c => c.prio
  | none => 0

/-- The order of a ready queue (R203): by age or drain first, oldest member first; then by fill, by priority, then oldest. -/
def readyBefore (env : Capstan) (r₁ r₂ : Option Ready) (c₁ c₂ t₁ t₂ : Nat) : Bool :=
  match r₁, r₂ with
  | some .age, some .age => t₁ < t₂
  | some .age, _ => true
  | _, some .age => false
  | _, _ => prioOf env c₂ < prioOf env c₁ || (prioOf env c₁ = prioOf env c₂ && t₁ < t₂)

/-- The members that a bin releases as a packet at a time (R198): those that entered before it; one that reaches the bin in the cycle of its
release stays (R199). -/
def Bin.packet (b : Bin) (now : Nat) : List Query := (b.members.filter (fun q => decide (q.entered < now))).take 64

/-- The members that a gather gives to a run (R202). -/
def Gather.runMembers (env : Capstan) (g : Gather) : List Query :=
  g.members.take (match env.ctx? g.ctx with
    | some c => gatherOf env c
    | none => 1)

/-- What stands in a lay's ready queue (R203). -/
inductive ReadyItem where
  | bin (b : Bin)
  | gather (g : Gather)

/-- The class, the context and the oldest entry time by which a lay's ready queue orders it (R203). -/
def ReadyItem.order : ReadyItem → Option Ready × Nat × Nat
  | .bin b => (b.ready, b.ctx, oldest b.members)
  | .gather g => (g.ready, g.ctx, oldest g.members)

/-- The members that leave when it is served. -/
def ReadyItem.leaving (env : Capstan) (now : Nat) : ReadyItem → List Query
  | .bin b => b.packet now
  | .gather g => g.runMembers env

/-- A lay's ready queue, bins and gathers in one order (R203). Of two that R203 does not order, the one that stands first in its list goes
first, a bin before a gather (log entry 64). -/
def Slice.readyQueue (env : Capstan) (sl : Slice) (lay : Nat) : List ReadyItem :=
  let bins := (sl.mash.bins.filter (fun b => b.lay = lay && b.ready.isSome)).map ReadyItem.bin
  let gathers := (sl.mash.gathers.filter (fun g => g.lay = lay && g.ready.isSome)).map ReadyItem.gather
  sortBy (fun a b => readyBefore env a.order.1 b.order.1 a.order.2.1 b.order.2.1 a.order.2.2 b.order.2.2)
    ((bins ++ gathers).filter (fun x => !(x.leaving env sl.time).isEmpty))

/-- Whether members can be released: none is spilled (R339). -/
def released (ms : List Query) : Bool := ms.all (fun q => !q.spilled)

/-- What leaves a lay's ready queue next: the first whose members are all restored; and the spilled members before it (R339, log entry 64). -/
def Slice.headReady (env : Capstan) (sl : Slice) (lay : Nat) : Option ReadyItem × List Query :=
  let xs := sl.readyQueue env lay
  let out (x : ReadyItem) : List Query := x.leaving env sl.time
  (xs.find? (fun x => released (out x)), ((xs.takeWhile (fun x => !released (out x))).flatMap out).filter (·.spilled))

/-- The bin at the head of a lay's ready queue, if a bin stands there. -/
def Slice.headBin (env : Capstan) (sl : Slice) (lay : Nat) : Option Bin × List Query :=
  match sl.headReady env lay with
  | (some (.bin b), ms) => (some b, ms)
  | (_, ms) => (none, ms)

/-- The gather at the head of a lay's ready queue, if a gather stands there. -/
def Slice.headGather (env : Capstan) (sl : Slice) (lay : Nat) : Option Gather × List Query :=
  match sl.headReady env lay with
  | (some (.gather g), ms) => (some g, ms)
  | (_, ms) => (none, ms)

/-- The restore of the spilled members that are to be released begins (R339). -/
def Slice.restoreAll (env : Capstan) (sl : Slice) (ms : List Query) : Slice :=
  ms.foldl (fun sl q => sl.beginRestore env q) sl

/-! ### Packets (R203, R211, R229) -/

/-- A walker's packet; at its end the walker may hand over (R517). -/
def Slice.setWork (sl : Slice) (lay w : Nat) (p : Option Packet) : Slice :=
  let sl := sl.setWalker lay w (fun x => { x with work := p })
  if p.isNone then sl.handOver lay else sl

/-- A packet that misses in the node cache is parked, and the line is asked for (R211, R325). -/
def Slice.park (env : Capstan) (sl : Slice) (lay w : Nat) (p : Packet) (line : Nat) : Slice :=
  let sl := sl.nodeAsk env lay p.ctx line
  let p : Packet := { p with miss := line, reg := sl.cache.nodeReg lay p.ctx line }
  (sl.setWalker lay w (fun x => { work := none, parked := x.parked ++ [p] })).count 0x302 lay (some p.ctx) 1

/-- A tile descriptor goes to the leaf sequencer and the walker is free for other packets (R229). -/
def Slice.issueJob (env : Capstan) (sl : Slice) (lay w : Nat) (p : Packet) (kind : JobKind) : Slice :=
  ((sl.setWork lay w none).startJob env lay
    { id := 0, ctx := p.ctx, walker := w, obj := p.obj, kind := kind, rows := p.members, waiting := [], layer := 0
      replay := [], hist := [], tiles := [] }).count 0x108 (walkerQual lay w) (some p.ctx) p.members.length

/-- The members that raise a fault do so (R127); the others are left. -/
def Slice.judge (env : Capstan) (sl : Slice) (ms : List Query) (f : Query → Option FaultAt) : Slice × List Query :=
  ms.foldl (fun acc q => match f q with
    | some x => (acc.1.treeFault env q x, acc.2)
    | none => (acc.1, acc.2 ++ [q])) (sl, [])

/-- The bytes of an object as a packet's walker looks them up, each line counted (R591): those that a register delivered to the packet are no
lookups of the node cache. -/
def Slice.lookUp (env : Capstan) (sl : Slice) (lay : Nat) (p : Packet) (a n : Nat) : Except Nat (List Byte) × Slice :=
  let asked := (nodeLines a n).filter (fun l => !p.got.any (fun g => g.1 = l))
  let r := sl.nodeBytes env lay p a n
  let made := match r with
    | .error l => (asked.takeWhile (fun x => x != l)).length + 1
    | .ok _ => asked.length
  (r, sl.count 0x301 lay (some p.ctx) made)

/-- A packet at a score node (R93 to R101, R229): the header is checked, the child table read, the tile issued. -/
def Slice.beginScore (env : Capstan) (sl : Slice) (lay w : Nat) (p : Packet) (t : TreeCtx) (bs : List Byte) : Slice :=
  let n := scoreNode bs
  let (sl, ms) := sl.judge env p.members (fun q => withDepth q (scoreFault t p.obj bs))
  let p := { p with members := ms }
  if ms.isEmpty then sl.setWork lay w none
  else match sl.lookUp env lay p n.children (8 * n.rows.n) with
    | (.error l, sl) => sl.park env lay w p l
    | (.ok tb, sl) => sl.issueJob env lay w p (.score n ((List.range n.rows.n).map (fun i => le tb (8 * i) 8)))

/-- A packet at a key-block leaf (R111, R231). -/
def Slice.beginKeys (env : Capstan) (sl : Slice) (lay w : Nat) (p : Packet) (t : TreeCtx) (bs : List Byte) : Slice :=
  let (sl, ms) := sl.judge env p.members (fun _ => keyFault t p.obj bs)
  let p := { p with members := ms }
  if ms.isEmpty then sl.setWork lay w none
  else sl.issueJob env lay w p (.keys (keyRows bs).1 (keyRows bs).2)

/-- The bytes of an object that a visit reads (03_tree_formats.md), its header known. -/
def objectBytes (t : TreeCtx) (ckind obj : Nat) (head : List Byte) : Nat :=
  if ckind = 4 then (if t.holds obj (triBytes head) then triBytes head else 16) else headBytes ckind

/-- What comes of a query at a root, before anything is read: it ends where it was settled without a hit (R54), at an EMPTY root (R86),
or with SKIP_HOST at a host leaf (R118); it faults at a root pointer that breaks R83 to R85. -/
def Query.first (r : RootRef) (q : Query) : Option Adv :=
  if q.kind = .ray && q.tmax = .nan then some (.ended q)
  else if q.next.holder = r.holder && (ptrOf r.ptr).bad then some (.fault q { cause := .badPointer, addr := r.holder })
  else if q.next.ckind = 0 || (q.next.ckind = 7 && q.skipHost) then some (.ended q)
  else none

/-- The members of a packet that end or fault at their root do so (R30, R127); the others are left. -/
def Slice.firstSteps (env : Capstan) (sl : Slice) (r : RootRef) (ms : List Query) : Slice × List Query :=
  ms.foldl (fun acc q => match q.first r with
    | some a => (acc.1.settle env a, acc.2)
    | none => (acc.1, acc.2 ++ [q])) (sl, [])

/-- A packet goes on at its object: members with a migration due depart (R418), unreadable objects and wrong kinds fault
(R79, R81), score work is issued (R229); box, instance, host and triangle packets stay for their visit. -/
def Slice.startPacket (env : Capstan) (sl : Slice) (lay w : Nat) (p : Packet) : Slice :=
  match env.ctx? p.ctx with
  | none => sl.setWork lay w none
  | some c =>
    let t := c.tree
    let (sl, ms) := sl.firstSteps env (rootRef env c) p.members
    let due := ms.filter (fun q => (sl.migratesTo env q).isSome)
    let here := ms.filter (fun q => (sl.migratesTo env q).isNone)
    let sl := due.foldl (fun sl q => sl.route env q) sl
    let (sl, ms) := sl.judge env here (fun q => unreadable t q.next.ckind p.obj (headBytes q.next.ckind))
    let p := { p with members := ms }
    if ms.isEmpty then sl.setWork lay w none
    else
      match sl.lookUp env lay p p.obj 128 with
      | (.error l, sl) => sl.park env lay w p l
      | (.ok bs, sl) =>
        let kind := byteAt bs 0 % 16
        let wrong (q : Query) : Option FaultAt :=
          if q.next.ckind = kind then none else some { cause := .badKind, addr := p.obj }
        let (sl, ms) := sl.judge env p.members wrong
        let p := { p with members := ms }
        if ms.isEmpty then sl.setWork lay w none
        else if kind = 2 then sl.beginScore env lay w p t bs
        else if kind = 5 then sl.beginKeys env lay w p t bs
        else match sl.lookUp env lay p (p.obj + 128) (objectBytes t kind p.obj bs - 128) with
          | (.error l, sl) => sl.park env lay w p l
          | (.ok _, sl) => sl.setWork lay w (some p)

/-- Parked packets of a walker go on, while it is free, where their line has been delivered to them (R211). -/
def Slice.resumeWalker (env : Capstan) (sl : Slice) (lay w : Nat) : Slice :=
  match (sl.walkers lay)[w]? with
  | none => sl
  | some x =>
    (x.parked.filter (fun p => p.got.any (fun g => g.1 = p.miss))).foldl (fun sl p =>
      match (sl.walkers lay)[w]? with
      | none => sl
      | some y =>
        if y.work.isSome then sl
        else (sl.setWalker lay w (fun z => { z with parked := z.parked.erase p })).startPacket env lay w p) sl

/-- All walkers of a lay. -/
def Slice.resumeLay (env : Capstan) (sl : Slice) (lay : Nat) : Slice :=
  (List.range 8).foldl (fun sl w => sl.resumeWalker env lay w) sl

/-- The packets parked on a node-cache register have its line (R313, R325). -/
def Slice.giveParked (sl : Slice) (lay reg addr : Nat) (data : List Byte) : Slice :=
  let give (p : Packet) : Packet := if p.miss = addr && p.reg = reg then { p with got := p.got ++ [(addr, data)] } else p
  (List.range 8).foldl (fun (sl : Slice) w => sl.setWalker lay w (fun x => { x with parked := x.parked.map give })) sl

/-- Packets parked while every miss register was taken ask again (R325); where their line is there by now they have it. -/
def Slice.askAgain (env : Capstan) (sl : Slice) (lay : Nat) : Slice :=
  let look (sl : Slice) (w : Nat) (p : Packet) : Slice :=
    let sl := sl.nodeAsk env lay p.ctx p.miss
    let q := { p with reg := sl.cache.nodeReg lay p.ctx p.miss
                      got := p.got ++ ((sl.cache.nodeFind env lay p.ctx p.miss).map (fun d => (p.miss, d))).toList }
    sl.setWalker lay w (fun x => { x with parked := updateWhere (fun y => y = p) (fun _ => q) x.parked })
  (List.range 8).foldl (fun sl w =>
    ((((sl.walkers lay)[w]?.map (·.parked)).getD []).filter (fun p => p.reg = 32)).foldl (fun sl p => look sl w p) sl) sl

/-- The object of a walker's packet as a visit reads it, its lines used (R324); where a line has left the node cache the packet is parked
again. -/
def Slice.visitBytes (env : Capstan) (sl : Slice) (lay w : Nat) (p : Packet) (t : TreeCtx) (ckind : Nat) :
    Option (List Byte) × Slice :=
  match sl.nodeBytes env lay p p.obj 128 with
  | .error l => (none, sl.park env lay w p l)
  | .ok head =>
    match sl.lookUp env lay p p.obj (objectBytes t ckind p.obj head) with
    | (.error l, sl) => (none, sl.park env lay w p l)
    | (.ok bs, sl) => (some bs, sl.nodeUsed env lay p.ctx p.obj (objectBytes t ckind p.obj head))

/-! ### The split (R212, R213) -/

/-- The queries of the advances that have a next object. -/
def goers (as : List Adv) : List Query := as.filterMap (fun a => match a with
  | .go q => some q
  | _ => none)

/-- The group that a walker keeps (R212): the largest, the lowest address among equals, where it has at least KEEP queries, at a box or
instance node, and no migration is due for it. It keeps one after a visit to a host leaf too, of which R212 and R228 say nothing (log
entry 70). -/
def Slice.keptGroup (env : Capstan) (sl : Slice) (c : Ctx) (as : List Adv) : Option (List Query) :=
  let qs := goers as
  let addrs := sortBy (fun a b => decide (a < b)) ((qs.map (fun q => q.next.addr)).eraseDups)
  let groups := addrs.map (fun a => qs.filter (fun q => q.next.addr = a))
  let ok (g : List Query) : Bool := keepOf env c ≤ g.length &&
    g.all (fun q => (q.next.ckind = 1 || q.next.ckind = 3) && (sl.migratesTo env q).isNone)
  let largest := groups.foldl (fun (best : List Query) g => if best.length < g.length then g else best) []
  if ok largest then some largest else none

/-- The packet splits (R212): what is not kept is settled (R213), the kept group goes on in the walker. -/
def Slice.split (env : Capstan) (sl : Slice) (lay w : Nat) (c : Ctx) (as : List Adv) : Slice :=
  match sl.keptGroup env c as with
  | none => ((as.foldl (fun sl a => sl.settle env a) sl).setWork lay w none).resumeWalker env lay w
  | some g =>
    let a0 := (g.head?.map (fun q => q.next.addr)).getD 0
    let stays (a : Adv) : Bool := match a with
      | .go q => q.next.addr = a0
      | _ => false
    let sl := (as.filter (fun a => !stays a)).foldl (fun sl a => sl.settle env a) sl
    (sl.count 0x107 (walkerQual lay w) (some c.id) 1).startPacket env lay w { ctx := c.id, obj := a0, miss := 0, reg := 0, members := g }

/-! ### Runs of evaluated leaves (R280, R281, R293) -/

/-- A layer's check (R280, R281, R128): the fault it raises, or the layer with its activation table; `none` while a line
is awaited. -/
def Slice.checkLayer (env : Capstan) (sl : Slice) (r : RunWait) (t : TreeCtx) (ctx : Nat) (leaf : EvalLeaf)
    (before : List LayerRun) (i a : Nat) : Option (Except FaultAt LayerRun) × Slice :=
  if !t.holds a 128 then (some (.error { cause := .outOfBound, addr := a }), sl)
  else match sl.readBytes env (.run r.lay r.id) r.got .tree ctx a 128 with
    | (none, sl) => (none, sl)
    | (some bs, sl) =>
      let l := layerOf a bs
      let own := layerBytesBad bs || layerChainBad t leaf (before.map (·.layer)) i l
      let sized : Bool := (wfmtOf (byteAt bs 0)).isSome && 1 ≤ l.k && l.k ≤ 16384 && 1 ≤ l.n && l.n ≤ 8192
      let groups := l.groups && l.groupb != 0
      let ext := if sized then layerExtents { l with groups := groups } else if l.act = 0 then [] else [(l.act, 1044)]
      if pairDiffers leaf (before.map (·.layer)) i l then (some (.error { cause := .badLayer, addr := leaf.layers.headD a }), sl)
      else match ext.find? (fun e => !t.holds e.1 e.2) with
      | some e => (some (.error { cause := .outOfBound, addr := e.1 }), sl)
      | none =>
        let bad : Except FaultAt LayerRun := .error { cause := .badLayer, addr := a }
        if l.act = 0 then (some (if own then bad else .ok { layer := l, act := none }), sl)
        else if l.act % 16 != 0 then (some bad, sl)
        else match sl.readBytes env (.run r.lay r.id) r.got .weight ctx l.act 1044 with
          | (none, sl) => (none, sl)
          | (some tb, sl) =>
            match actTableOf tb with
            | none => (some bad, sl)
            | some at_ => (some (if own then bad else .ok { layer := l, act := some at_ }), sl)

/-- The layers of a leaf checked in layer order (R280). -/
def checkLayers (env : Capstan) (r : RunWait) (t : TreeCtx) (ctx : Nat) (leaf : EvalLeaf) :
    List Nat → Nat → List LayerRun → Slice → Option (Except FaultAt (List LayerRun)) × Slice
  | [], _, done, sl => (some (.ok done), sl)
  | a :: rest, i, done, sl =>
    match sl.checkLayer env r t ctx leaf done i a with
    | (none, sl) => (none, sl)
    | (some (.error f), sl) => (some (.error f), sl)
    | (some (.ok l), sl) => checkLayers env r t ctx leaf rest (i + 1) (done ++ [l]) sl

/-- Every token of a run raises the fault (R281). -/
def Slice.faultRun (env : Capstan) (sl : Slice) (g : Gather) (f : FaultAt) : Slice :=
  g.members.foldl (fun sl q => sl.treeFault env q f) sl

/-- A run goes on (R280, R293): the header and the layers are read and checked; then its first row group starts; a run whose
bytes are missing waits for their fill. -/
def Slice.tryRun (env : Capstan) (sl : Slice) (r : RunWait) : Slice :=
  let g := r.gather
  let waits (sl : Slice) : Slice := { sl with work := { sl.work with runs := sl.work.runs ++ [r] } }
  match env.ctx? g.ctx with
  | none => sl
  | some c =>
    let t := c.tree
    match unreadable t 6 g.leaf 128 with
    | some f => sl.faultRun env g f
    | none =>
      match sl.readBytes env (.run r.lay r.id) r.got .tree g.ctx g.leaf 128 with
      | (none, sl) => waits sl
      | (some bs, sl) =>
        match evalFault t g.leaf bs with
        | some f => sl.faultRun env g f
        | none =>
          let leaf := evalLeaf bs
          match checkLayers env r t g.ctx leaf leaf.layers 0 [] sl with
          | (none, sl) => waits sl
          | (some (.error f), sl) => sl.faultRun env g f
          | (some (.ok ls), sl) =>
            let (rows, waiting) := nextGroup g.members
            sl.startJob env r.lay { id := 0, ctx := g.ctx, walker := 0, obj := g.leaf, kind := .eval leaf ls, rows := rows
                                    waiting := waiting, layer := startLayer rows, replay := [], hist := [], tiles := [] }

/-- A gather's run begins, under a number of its own, with the members that end or migrate at their root (R33) left out. -/
def Slice.beginRun (env : Capstan) (sl : Slice) (lay : Nat) (g : Gather) : Slice :=
  match env.ctx? g.ctx with
  | none => sl
  | some c =>
    let (sl, ms) := sl.firstSteps env (rootRef env c) g.members
    let due := ms.filter (fun q => (sl.migratesTo env q).isSome)
    let ms := ms.filter (fun q => (sl.migratesTo env q).isNone)
    let sl := due.foldl (fun sl q => sl.route env q) sl
    if ms.isEmpty then sl
    else ({ sl with work := { sl.work with nextJob := sl.work.nextJob + 1 } }).tryRun env
      { lay := lay, id := sl.work.nextJob, gather := { g with members := ms }, got := [] }

/-- The runs that wait try again. -/
def Slice.retryRuns (env : Capstan) (sl : Slice) : Slice :=
  sl.work.runs.foldl (fun sl r => sl.tryRun env r) { sl with work := { sl.work with runs := [] } }

/-- What waits for the slice cache tries again: requests (R313), then runs, and pointers whose slots are written back (R418). -/
def Slice.retryAll (env : Capstan) (sl : Slice) : Slice := ((sl.retryWaiting env).retryRuns env).queuePointers env

end Sys2Proof.Machine
end

