-- ==== Sys2Proof/Machine/Home.lean ====
section
/-!
DEFINITION. The home coalescer (R162 to R185, R188 to R190, R407, R492, R494, R500, R501, R623): results taken and placed,
combination, writes at the mesh port with their retries, the completion block, the journal, batch replay.
-/

namespace Sys2Proof.Machine

/-! ### Batches -/

def Slice.batch? (sl : Slice) (h : Nat) : Option Batch := sl.ing.batches.find? (fun b => b.handle = h)

def Slice.setBatch (sl : Slice) (b : Batch) : Slice :=
  { sl with ing := { sl.ing with batches := updateWhere (fun x => x.handle = b.handle) (fun _ => b) sl.ing.batches } }

/-- The result mode of a batch (R135, R136): 0 for a MAINT batch. -/
def Batch.mode (b : Batch) (c : Ctx) : Nat := if b.desc.maint then 0 else c.rmode

/-- Whether a query's results are complete at the home (R407): the end message with the parts it counts. -/
def QRes.complete (r : QRes) : Bool :=
  match r.ended with
  | some p => p ≤ r.got
  | none => false

def Batch.allEnded (b : Batch) : Bool := b.res.all QRes.complete

/-! ### Combination (R176, R177, R179, R260) -/

def emptyComb : Comb := { sum := 0, pinf := false, ninf := false, nan := false, flags := noFlags }

/-- One FP32 contribution joins a combining accumulator (R260): units of 2^-149. -/
def addContrib (b : Comb) (c : Code) : Comb :=
  let (x, f) := Fmt.read .fp32 c
  let b := { b with flags := b.flags.or f }
  match x with
  | .nan => { b with nan := true, flags := b.flags.or flagNan }
  | .inf neg => { b with pinf := b.pinf || !neg, ninf := b.ninf || neg }
  | .fin v => { b with sum := b.sum + BitVec.ofInt 320 (v * pow2 149).floor }

/-- The combined value of an element in a format (R177, R260, R262, R263): more than 2^38 contributions give NaN with INV. -/
def combOut (fmt : Fmt) (count : Nat) (b : Comb) : Code × Flags :=
  if 2 ^ 38 < count then (fmt.nanCode, b.flags.or flagInv)
  else
    let r := resolve b.pinf b.ninf b.nan ((b.sum.toInt : Rat) * pow2 (-149)) (.fin 1) (.fin 0)
    let c := convert fmt r.1
    (c.1, (b.flags.or r.2).or c.2)

/-- A contribution vector joins the accumulators of an area (R177, R179). -/
def combine (cs : List Comb) (vec : List Code) : List Comb := (cs.zip vec).map (fun e => addContrib e.1 e.2)

def Comb.mark (b : Comb) : CombMark := { pinf := b.pinf, ninf := b.ninf, nan := b.nan, flags := b.flags }

/-- The accumulators of an area, from the bytes of its lines and its marks: 40 bytes of sum each (R154). -/
def SlotAcc.combs (a : SlotAcc) (bs : List Byte) : List Comb :=
  (indexed a.marks).map (fun e => { sum := BitVec.ofNat 320 (le bs (40 * e.1) 40), pinf := e.2.pinf, ninf := e.2.ninf, nan := e.2.nan
                                    flags := e.2.flags })

/-- The bytes of an area's sums. -/
def areaImage (cs : List Comb) : List Byte := cs.flatMap (fun b => toLe 40 b.sum.toNat)

def Batch.area? (b : Batch) (slot : Nat) : Option SlotAcc := b.slots.find? (fun a => a.slot = slot)

/-- The elements of a slot, given its area's accumulators (R116, R176): +0 where no branch came. -/
def slotOut (fmt : Fmt) (dout : Nat) (area : Option (Nat × List Comb)) : List (Code × Flags) :=
  match area with
  | some (n, cs) => cs.map (combOut fmt n)
  | none => List.replicate dout (0, noFlags)

/-! ### Result records (R162 to R175) -/

/-- The status byte (R163). -/
def statusByte (lost : Bool) (f : Flags) : Nat :=
  (if lost then 6 else 1) + flag f.inv 3 + flag f.nan 4 + flag f.ovf 5 + flag f.sat 6 + flag f.ftz 7

/-- The result header (R162). -/
def headerBytes (tag : Nat) (lost trunc : Bool) (f : Flags) (qindex count : Nat) : List Byte :=
  toLe 4 tag ++ toLe 1 (statusByte lost f) ++ toLe 1 (flag trunc 0) ++ [0, 0] ++ toLe 4 qindex ++ toLe 4 count

/-- The list of hits a mode returns (R170 to R172), in the order of R169. -/
def hitList (mode : Nat) (tmax : Num) (hits : List Hit) : List Hit :=
  let kept := if mode = 1 then hits.filter (fun h => !h.host || (Fmt.exact .fp32 h.t).le tmax) else hits
  sortBy Hit.before kept

/-- The bytes of a query's result slot in every mode but EVAL_ACCUM (R165, R170 to R176, R178), with the combination's
elements. -/
def slotBytes (b : Batch) (c : Ctx) (r : QRes) (area : Option (Nat × List Comb)) : List Byte × List (Code × Flags) :=
  let mode := b.mode c
  let head (f : Flags) (trunc : Bool) (n : Nat) := headerBytes r.tag false trunc f r.q n
  if r.stat = .dataLost then (headerBytes r.tag true false r.flags r.q 0, [])
  else if mode = 1 || mode = 2 || mode = 3 then
    let hs := hitList mode r.tmax r.hits
    let cap := if mode = 2 then 1 else b.desc.resCap
    let out := hs.take cap
    (head r.flags (decide (cap < hs.length)) out.length ++ out.flatMap hitBytes, [])
  else if mode = 4 then
    let out := r.best.take r.k
    (head r.flags false out.length ++ out.flatMap topBytes, [])
  else if mode = 5 then
    let es := slotOut c.ofmt c.dout area
    let f := es.foldl (fun f e => f.or e.2) r.flags
    (head f false r.branches ++ es.flatMap (fun e => toLe c.ofmt.bytes e.1.toNat), es)
  else (head noFlags false 0, [])

/-- A write of a batch at the mesh port. -/
def Batch.write (b : Batch) (off : Nat) (op : MeshOp) (tag : Nat) (data : List Byte) (kind : WriteKind) : MeshWrite :=
  { id := 0, handle := some b.handle, core := b.core, die := b.die, off := off, op := op, tag := BitVec.ofNat 64 tag, data := data
    kind := kind, block := none, failures := 0, waiting := false, retried := false, retryAt := 0, compl := b.desc.compl, amount := b.active, ctx := b.desc.ctx
    batchId := b.desc.batchId, cause := 0, detail := 0 }

/-- The tag of a tagged operation (R182). -/
def tagOf (batchId seq : Nat) : Nat := batchId % 2 ^ 32 + place seq 24 32

def seqTaken : Nat := 0xFFFFFE
def seqDone : Nat := 0xFFFFFF

/-- Conversions of the home coalescer for a query (R270, R271). -/
def Slice.homeConversions (env : Capstan) (sl : Slice) (b : Batch) (qindex : Nat) (es : List (Code × Flags)) : Slice :=
  let o : Origin := { ctx := b.desc.ctx, pass := passOf env b.desc.ctx, batchId := b.desc.batchId, home := sl.id
                      qindex := qindex, source := 0xB }
  es.foldl (fun sl e => sl.converted env o 0x1FFFF e.2) sl

/-- The writes of a result slot: of no more than a block's 65,536 bytes each (R362). -/
def Batch.slotWrites (b : Batch) (q slot : Nat) (bs : List Byte) : List MeshWrite :=
  (indexed (chunks 65536 bs.length bs)).map (fun e => b.write (b.desc.res + slot * b.desc.resStride + 65536 * e.1) .write 0 e.2 (.slot q))

/-- A query's result is handed on to its RESULT stream (R162, R165). -/
def Slice.formResult (env : Capstan) (sl : Slice) (b : Batch) (c : Ctx) (r : QRes) (area : Option (Nat × List Comb)) : Slice × Batch :=
  let (bs, es) := slotBytes b c r area
  (sl.homeConversions env b r.q es, { b with toWrite := b.toWrite ++ b.slotWrites r.q r.slot bs })

/-- A completed query's result is formed; that of an evaluated query once its combining area is read. -/
def Slice.placeResult (env : Capstan) (sl : Slice) (b : Batch) (c : Ctx) (r : QRes) : Slice × Batch :=
  let b := { b with res := updateWhere (fun x => x.q = r.q) (fun x => { x with placed := true }) b.res }
  if b.mode c = 5 && r.stat != .dataLost then (sl, { b with ops := b.ops ++ [.result r.q r.slot] })
  else sl.formResult env b c r none

/-- The vector operations of one slot (R181): at most 64 elements each, numbered on from `seq`. -/
def vectorWrites (b : Batch) (slot lead seq : Nat) (codes : List Code) : List MeshWrite :=
  let base := b.desc.res + slot * b.desc.resStride + 16
  (indexed (chunks 64 codes.length codes)).map (fun e =>
    b.write (base + 256 * e.1) .accumF32 (tagOf b.desc.batchId (seq + e.1)) (e.2.flatMap (fun c => toLe 4 c.toNat))
      (.vector lead (seq + e.1)))

/-- The query whose index a slot's header carries (R180): the lowest that names it. -/
def Batch.leadOf (b : Batch) (slot : Nat) : Option QRes :=
  (b.res.filter (fun r => r.slot = slot)).foldl (fun m r => match m with
    | some (x : QRes) => if r.q < x.q then some r else m
    | none => some r) none

/-- The results of a slot of an EVAL_ACCUM batch (R179 to R181): one vector and one header. Operations below the acknowledged count are
not issued again (R494). -/
def Slice.formVector (env : Capstan) (sl : Slice) (b : Batch) (c : Ctx) (slot seq : Nat) (area : Option (Nat × List Comb)) : Slice × Batch :=
  match b.leadOf slot with
  | none => (sl, b)
  | some l =>
    let named := b.res.filter (fun r => r.slot = slot)
    let es := slotOut .fp32 c.dout area
    let live := named.filter (fun r => r.stat != .dataLost)
    let f := es.foldl (fun f e => f.or e.2) (live.foldl (fun f r => f.or r.flags) noFlags)
    let lost := named.any (fun r => r.stat = .dataLost)
    let ops := (vectorWrites b slot l.q seq (es.map (·.1))).filter (fun w => match w.kind with
      | .vector _ s => b.acked ≤ s
      | _ => true)
    let head := b.write (b.desc.res + slot * b.desc.resStride) .write 0 (headerBytes l.tag lost false f l.q named.length) (.slot l.q)
    (sl.homeConversions env b l.q es, { b with toWrite := b.toWrite ++ ops ++ [head] })

/-- The results of an EVAL_ACCUM batch (R179 to R181): its slots in ascending order, their operations numbered on. -/
def Batch.buildAccum (b : Batch) (c : Ctx) : Batch :=
  let slots := sortBy (fun a b => decide (a < b)) ((b.res.map (·.slot)).eraseDups)
  { b with ops := b.ops ++ (indexed slots).map (fun e => .vector e.2 (e.1 * ((c.dout + 63) / 64))), built := true
           res := b.res.map (fun x => { x with placed := true }) }

/-! ### Writes at the mesh port (R183, R501) -/

/-- A core of a die. -/
def coreKey (w : MeshWrite) : Nat := w.die * 512 + w.core

/-- Tagged operations towards a core that are not settled (R501). -/
def Slice.unsettledOf (sl : Slice) (key : Nat) : Nat := ((sl.ing.unsettled.find? (fun p => p.1 = key)).map (·.2)).getD 0

def Slice.addUnsettled (sl : Slice) (key : Nat) (up : Bool) : Slice :=
  let n := sl.unsettledOf key
  let rest := sl.ing.unsettled.filter (fun p => p.1 != key)
  let n := if up then n + 1 else n - 1
  { sl with ing := { sl.ing with unsettled := if n = 0 then rest else rest ++ [(key, n)] } }

/-- Whether a write is one of a batch. -/
def MeshWrite.isOf (h : Nat) (w : MeshWrite) : Bool := w.handle = some h

def MeshWrite.isResult (w : MeshWrite) : Bool :=
  match w.kind with
  | .slot _ => true
  | .vector _ _ => true
  | _ => false

/-- The transfer of a write's block makes its first request (R365). -/
def Slice.startTransfer (sl : Slice) (w : MeshWrite) : Slice :=
  match w.block with
  | none => sl
  | some (i, index) =>
    sl.onStream i (fun s => { s with transfers := updateWhere (fun t => t.index = index) (fun t => { t with started := true }) s.transfers })

/-- The 8-bit ID of the next write (R594): the first from `nextId` on that no write at the port has. -/
def Ingress.freeId (g : Ingress) : Option Nat :=
  ((List.range 256).map (fun k => (g.nextId + k) % 256)).find? (fun i => !(g.meshOut.any (fun w => w.id = i)))

/-- A write leaves for the mesh interface. -/
def Slice.issueMesh (sl : Slice) (w : MeshWrite) : Slice :=
  let id := sl.ing.freeId.getD sl.ing.nextId
  let sl := if w.op = .write then sl else sl.addUnsettled (coreKey w) true
  ({ sl with ing := { sl.ing with meshOut := sl.ing.meshOut ++ [{ w with id := id, waiting := false }]
                                  nextId := (id + 1) % 256 } }).startTransfer w

/-- Whether a batch's later result writes are held (R188): one was refused, and has not succeeded since. -/
def Slice.batchHeld (sl : Slice) (h : Option Nat) : Bool :=
  sl.ing.meshOut.any (fun x => x.isResult && (x.waiting || x.retried) && x.handle = h)

/-- Whether a write may leave now, behind those that still wait: while an ID is free (R594); a tagged one while fewer than 64 towards its
core are unsettled (R183, R501), a result write while its batch's are not held, in the order of its batch (R188). -/
def Slice.mayLeave (sl : Slice) (before : List MeshWrite) (w : MeshWrite) : Bool :=
  sl.ing.freeId.isSome && (w.op = .write || sl.unsettledOf (coreKey w) < 64) &&
    !(w.isResult && (sl.batchHeld w.handle || before.any (fun x => x.isResult && x.handle = w.handle)))

/-- The writes that may leave do so, in order. -/
def leaveAll : List MeshWrite → List MeshWrite → Slice → Slice
  | [], late, sl => { sl with ing := { sl.ing with meshWait := late } }
  | w :: rest, late, sl => if sl.mayLeave late w then leaveAll rest late (sl.issueMesh w) else leaveAll rest (late ++ [w]) sl

def Slice.pumpMesh (sl : Slice) : Slice := leaveAll sl.ing.meshWait [] sl

/-- A write is made at the mesh port (R148, R183, R501): at once where it may leave. -/
def Slice.issueCompl (sl : Slice) (w : MeshWrite) : Slice :=
  ({ sl with ing := { sl.ing with meshWait := sl.ing.meshWait ++ [w] } }).pumpMesh

/-- A tagged operation is settled (R501); one that waited takes its place. -/
def Slice.settleTagged (sl : Slice) (key : Nat) : Slice := (sl.addUnsettled key false).pumpMesh

/-! ### The journal (R496 to R500) -/

/-- The runs of the ledger among cask items. -/
def ledgerRuns (items : List CaskItem) : List (Nat × Nat) := (items.filter (fun i => i.use = .ledger)).flatMap (·.runs)

def Batch.ledgerRuns (b : Batch) : List (Nat × Nat) := Machine.ledgerRuns b.items

/-- What a journal entry says of a batch (R497). -/
structure JEntry where
  batchId : Nat
  core : Nat
  die : Nat
  jstate : JState
  acked : Nat
  runs : List (Nat × Nat)
  deriving DecidableEq, Repr

/-- A line of an entry. -/
def JEntry.line (e : JEntry) (ctx : Nat) : Nat → List Byte
  | 0 => journalLine0 e.batchId e.core e.die ctx e.acked e.jstate (journalRuns e.runs) (e.runs.map (·.2)).sum
  | i => journalLine i (journalRuns e.runs)

/-- A line of the journal entry `k` of slice `id` is written and cleaned at once (R500); the home coalescer is its source. `handle` names
the batch-table entry it stands for, `settles` the core of the tagged operation that it records. -/
def Slice.writeJournal (env : Capstan) (sl : Slice) (c : Ctx) (id k line : Nat) (e : JEntry) (handle settles : Option Nat) : Slice :=
  let a := journalAddr env.n id c k line
  let w : JWrite := { ctx := c.id, addr := a, handle := handle, jstate := e.jstate, acked := e.acked, settles := settles }
  let sl := { sl with ing := { sl.ing with jwrites := sl.ing.jwrites ++ [w] } }
  sl.writeLine env 18 c.id a (e.line c.id line) (clean := true)

/-- All four lines of an entry of the slice's own journal (R500, R505). -/
def Slice.journalAll (env : Capstan) (sl : Slice) (c : Ctx) (handle : Nat) (e : JEntry) : Slice :=
  [0, 1, 2, 3].foldl (fun sl i => sl.writeJournal env c sl.id handle i e (some handle) none) sl

/-- What the journal says of a batch in the table. -/
def Batch.entry (b : Batch) (js : JState) : JEntry :=
  { batchId := b.desc.batchId, core := b.core, die := b.die, jstate := js, acked := b.acked, runs := b.ledgerRuns }

/-- Line 0 of a batch's journal entry with a new state (R500). `op` tells whether it records that a tagged operation was
acknowledged. -/
def Slice.journalState (env : Capstan) (sl : Slice) (b : Batch) (js : JState) (op : Bool) : Slice :=
  match env.ctx? b.desc.ctx with
  | none => sl
  | some c => sl.writeJournal env c sl.id b.handle 0 (b.entry js) (some b.handle) (if op then some (b.die * 512 + b.core) else none)

/-! ### The end of a batch (R148, R188 to R190, R623) -/

/-- Whether a stream block carries a result write of a batch. -/
def Block.isOf (h : Nat) (b : Block) : Bool :=
  match b.use with
  | .result w => w.isOf h
  | _ => false

/-- Whether a result write that satisfies `p` has not been acknowledged yet: it is to be placed, on its stream, held, or out. -/
def Slice.unlanded (sl : Slice) (b : Batch) (p : MeshWrite → Bool) : Bool :=
  let mine (w : MeshWrite) : Bool := w.isOf b.handle && w.isResult && p w
  let carried (x : Block) : Bool := match x.use with
    | .result w => mine w
    | _ => false
  b.toWrite.any mine || (sl.ing.meshOut ++ sl.ing.meshWait).any mine || sl.str.streams.any (fun s => (s.ring ++ s.window).any carried)

/-- Whether a result write of the batch has not been acknowledged yet. -/
def Slice.resultsOut (sl : Slice) (b : Batch) : Bool := !b.ops.isEmpty || sl.unlanded b (fun _ => true)

/-- Blocks that satisfy `p` move nothing any more: those on a list keep their place until it comes to them. -/
def Slice.dropBlocks (sl : Slice) (p : Block → Bool) : Slice :=
  let f (b : Block) : Block := if p b then { b with use := .dropped } else b
  let cut (s : Stream) : Stream :=
    { s with ring := s.ring.map f, window := s.window.map f, transfers := s.transfers.map (fun t => { t with block := f t.block }) }
  { sl with str := { sl.str with streams := sl.str.streams.map cut, queued := sl.str.queued.filter (fun q => !p q.block) } }

/-- The result blocks of a batch that were not issued move nothing any more (R188, R368). -/
def Slice.purgeBlocks (sl : Slice) (h : Nat) : Slice := sl.dropBlocks (Block.isOf h)

/-- A result block as the home coalescer appends it to a RESULT stream (R362, R363). -/
def resultBlock (w : MeshWrite) (last : Bool) : Block :=
  let seq := match w.kind with
    | .vector _ s => s
    | _ => 0
  { raw := toLe 8 (w.off + place w.core 9 19 + place w.batchId 32 32) ++ toLe 4 (roundUp (max w.data.length 1) 16) ++ toLe 2 1 ++
      toLe 2 1 ++ toLe 4 0 ++ toLe 4 0 ++ toLe 4 seq ++ [if w.op = .accumF32 then 5 else 4, BitVec.ofNat 8 (flag last 1)] ++ toLe 2 0
    use := .result w }

/-- The RESULT stream of a batch (R360). -/
def resultStream (h : Nat) : Nat := 8 + h % 4

/-- The block of a result write, with END on the last of its batch (R362). -/
def Batch.resultQueued (b : Batch) (w : MeshWrite) (rest : List MeshWrite) : Queued :=
  { stream := resultStream b.handle, block := resultBlock w (rest.isEmpty && b.ops.isEmpty && b.res.all (·.placed)), data := w.data }

/-- The result writes of a batch go onto its RESULT stream in order, as far as its ring has room and buffers are free (R364, R374);
`fuel` bounds them. -/
def feedWrites (env : Capstan) (h : Nat) : (fuel : Nat) → Slice → Slice
  | 0, sl => sl
  | fuel + 1, sl =>
    match sl.batch? h with
    | none => sl
    | some b =>
      match b.toWrite with
      | [] => sl
      | w :: rest =>
        match sl.tryAppend env (b.resultQueued w rest) with
        | none => sl
        | some sl => feedWrites env h fuel (sl.setBatch { b with toWrite := rest })

/-- Result writes of a batch whose TAKEN increase is acknowledged go onto its RESULT stream (R148, R364, R374). -/
def Slice.feed (env : Capstan) (sl : Slice) (h : Nat) : Slice :=
  match sl.batch? h with
  | some b => if b.takenAcked then feedWrites env h b.toWrite.length sl else sl
  | none => sl

/-- What producers have to place goes onto the streams, as far as there is room now (R364). -/
def Slice.feedAll (env : Capstan) (sl : Slice) : Slice :=
  sl.ing.batches.foldl (fun sl b => sl.feed env b.handle) (sl.placeWaiting env)

/-- An interrupt event of the slice without a record of its own (R577). -/
def Slice.raise (sl : Slice) (i : Irq) : Slice :=
  { sl with outbox := sl.outbox ++ [{ head := none, tail := none, irq := some i, arith := none }] }

/-- The interrupt and the capture of ING_UNREACH with its record (R188, R190, R194, R195, R540, R577). -/
def Slice.captureUnreach (env : Capstan) (sl : Slice) (core ctx batchId detail : Nat) (lost : Bool) (irq : Option Irq) : Slice :=
  let r : Reg := BitVec.ofNat 64 (1 + flag lost 1 + place core 9 8 + place ctx 12 17 + place batchId 32 32)
  ({ sl with ing := { sl.ing with unreach := r } }).log env 0x3002
    (toLe 2 (ctx % 4096) ++ toLe 2 (core % 512) ++ toLe 4 batchId ++ toLe 1 (flag lost 0)) { tail := some (toLe 4 detail), irq := irq }

/-! ### Batch replay (R494) -/

/-- The rows of a job that satisfy `p` leave it, with their states and outputs. -/
def Job.without (p : Query → Bool) (j : Job) : Job :=
  let keep {α : Type} (xs : List α) : List α :=
    ((j.rows.zip xs).filter (fun e => !p e.1)).map (·.2)
  { j with rows := j.rows.filter (fun q => !p q), waiting := j.waiting.filter (fun q => !p q)
           replay := keep j.replay, hist := j.hist.map (fun h => (h.1, keep h.2))
           tiles := j.tiles.map (fun t => { t with accs := keep t.accs, merged := keep t.merged, outs := keep t.outs }) }

/-- The operand buffer without the rows of such queries in its row group. -/
def OpBuf.without (p : Query → Bool) (js : List Job) (b : OpBuf) : OpBuf :=
  match js.find? (fun j => b.job = some j.id) with
  | none => b
  | some j =>
    let keep (xs : List (List OpRow)) : List (List OpRow) := ((j.rows.zip xs).filter (fun e => !p e.1)).map (·.2)
    { b with low := keep b.low, high := keep b.high }

/-- A packet without the queries that satisfy `p`, if any are left. -/
def Packet.without (p : Query → Bool) (x : Packet) : Option Packet :=
  let ms := x.members.filter (fun q => !p q)
  if ms.isEmpty then none else some { x with members := ms }

def Walker.without (p : Query → Bool) (w : Walker) : Walker :=
  { work := w.work.bind (Packet.without p), parked := w.parked.filterMap (Packet.without p) }

def Mash.without (p : Query → Bool) (m : Mash) : Mash :=
  let keep (qs : List Query) : List Query := qs.filter (fun q => !p q)
  { bins := (m.bins.map (fun b => { b with members := keep b.members })).filter (fun b => !b.members.isEmpty)
    overflow := (m.overflow.map (fun o => (o.1, o.2.1, keep o.2.2))).filter (fun o => !o.2.2.isEmpty)
    gathers := (m.gathers.map (fun g => { g with members := keep g.members })).filter (fun g => !g.members.isEmpty)
    gatherWait := keep m.gatherWait, restores := m.restores }

def Work.without (p : Query → Bool) (w : Work) : Work :=
  let keep (qs : List Query) : List Query := qs.filter (fun q => !p q)
  { w with
    hitched := keep w.hitched, walkers0 := w.walkers0.map (Walker.without p), walkers1 := w.walkers1.map (Walker.without p)
    jobs0 := w.jobs0.map (Job.without p), jobs1 := w.jobs1.map (Job.without p)
    opBuf0 := w.opBuf0.without p w.jobs0, opBuf1 := w.opBuf1.without p w.jobs1
    runs := (w.runs.map (fun r => { r with gather := { r.gather with members := keep r.gather.members } })).filter
      (fun r => !r.gather.members.isEmpty) }

/-- The query a pointer message names. -/
def RopeMsg.pointer? (m : RopeMsg) : Option Query :=
  match m.body with
  | .migratePtr q => some q
  | _ => none

/-- The queries that a slice holds: in the Mash, the walkers, the leaf sequencers, hitched, or as pointers to be sent. -/
def Slice.queries (sl : Slice) : List Query :=
  sl.mash.bins.flatMap (·.members) ++ sl.mash.overflow.flatMap (fun o => o.2.2) ++ sl.mash.gathers.flatMap (·.members) ++
    sl.mash.gatherWait ++ sl.work.hitched ++ sl.work.runs.flatMap (fun r => r.gather.members) ++
    (sl.work.walkers0 ++ sl.work.walkers1).flatMap (fun w => w.work.toList.flatMap (·.members) ++ w.parked.flatMap (·.members)) ++
    (sl.work.jobs0 ++ sl.work.jobs1).flatMap (fun j => j.rows ++ j.waiting) ++
    sl.rope.ports.flatMap (fun p => (p.ptrq ++ p.leaving).filterMap (fun m => m.pointer?.map (·.arriveAt sl.id)))

/-- Whether a slice is idle (R616). -/
def Slice.idle (sl : Slice) : Bool :=
  let quiet (x : Stream) : Bool := x.ring.isEmpty && x.window.isEmpty && x.transfers.isEmpty
  sl.ing.pendq.isEmpty && sl.ing.batches.isEmpty && sl.ing.fromJournal.isEmpty && sl.ing.adopting.isEmpty && sl.queries.isEmpty && sl.work.jobs0.isEmpty &&
    sl.work.jobs1.isEmpty && sl.str.streams.all quiet && sl.str.queued.isEmpty && sl.cache.evict.isEmpty &&
    sl.rope.sendq.all (fun e => e.1.vc != 0)

/-- A napping slice wakes: its idle time begins anew (R616). -/
def Slice.wake (sl : Slice) : Slice :=
  if sl.pwr.napping then { sl with pwr := { sl.pwr with napping := false, idleSince := sl.time } } else sl

/-- A napping slice that has work wakes (R616). -/
def Slice.awaken (sl : Slice) : Slice := if sl.idle then sl else sl.wake

/-- What a slice was spilling or restoring of queries is given up: their blocks move nothing any more, and the granules taken are free again. -/
def Slice.dropRestores (sl : Slice) (qs : List Query) : Slice :=
  let mine (r : Restore) : Bool := qs.any (fun q => r.home = q.home && r.batch = q.batch && r.qindex = q.qindex)
  let back := (sl.mash.restores.filter mine).flatMap (·.runs)
  ({ sl with mash := { sl.mash with restores := sl.mash.restores.filter (fun r => !mine r) }
             store := { sl.store with free := back.foldl (fun f r => addRun r f) sl.store.free } }).dropBlocks
    (fun b => qs.any (fun q => b.restores q || b.spills q))

/-- The queries that satisfy `p` are taken out of the slice. -/
def Slice.removeQueries (sl : Slice) (p : Query → Bool) : Slice × List Query :=
  let gone (m : RopeMsg) : Bool := m.pointer?.any (fun q => p (q.arriveAt sl.id))
  let port (x : Port) : Port := { x with ptrq := x.ptrq.filter (fun m => !gone m), leaving := x.leaving.filter (fun m => !gone m) }
  let qs := sl.queries.filter p
  (({ sl with mash := sl.mash.without p, work := sl.work.without p
              rope := { sl.rope with ports := sl.rope.ports.map port } }).dropRestores qs, qs)

/-- A batch replay starts or starts again (R494, R495): it waits for the queries whose end message has not come. `gone` are queries known to
be lost. -/
def Slice.startReplay (sl : Slice) (h : Nat) (gone : List Nat) : Slice :=
  match sl.batch? h with
  | none => sl
  | some b =>
    let (sl, held) := (sl.purgeBlocks h).removeQueries (fun q => q.home = sl.id && q.batch = h)
    let old : List Nat := match b.replaying with
      | some l => l
      | none => if b.reading.isSome then [] else (b.res.filter (fun (r : QRes) => r.ended.isNone)).map (fun (r : QRes) => r.q)
    let left := old.filter (fun q => !(held.any (fun (x : Query) => x.qindex = q)) && !(q ∈ gone))
    (sl.setBatch { b with replaying := some left, reading := none, toWrite := [], ops := [], opGot := [] }).count 0x706 0 (some b.desc.ctx) 1

/-- The batch's query state as the ledger gives it again (R494): results discarded, areas zero; queries that completed
DATA_LOST keep that. -/
def QRes.again (r : QRes) : QRes :=
  if r.stat = .dataLost then { r with got := 0, ended := some 0, hits := [], best := [], branches := 0, placed := false }
  else { r with got := 0, ended := none, stat := .ok, stopped := false, hits := [], best := [], branches := 0
                flags := noFlags, placed := false }

/-! ### Combining areas (R177, R348, R491) -/

/-- The lines of a slot's combining area. -/
def Batch.areaLines (b : Batch) (c : Ctx) (slot : Nat) : List Nat :=
  ((b.items.filter (fun i => i.use = .area slot)).flatMap (·.runs)).flatMap (fun r =>
    (List.range r.2).map (fun i => c.caskBase + 256 * (r.1 + i)))

/-- The number of the home coalescer among the write sources (R322). -/
def homeSource : Nat := 18

/-- An area's lines are written, with its sums from its first byte on (R321, R348). -/
def Slice.writeArea (env : Capstan) (sl : Slice) (b : Batch) (c : Ctx) (slot : Nat) (bs : List Byte) : Slice :=
  let ls := b.areaLines c slot
  (ls.zip (chunks 256 ls.length (padTo (256 * ls.length) bs))).foldl (fun sl e => sl.writeLine env homeSource c.id e.1 e.2) sl

/-- The bytes of an area as a batch's operation reads them through the slice cache (R348): none while a line is awaited; whether one is
poisoned. -/
def Slice.readArea (env : Capstan) (sl : Slice) (b : Batch) (c : Ctx) (slot : Nat) : Option (List Byte) × Bool × Slice :=
  (b.areaLines c slot).foldl (fun (acc : Option (List Byte) × Bool × Slice) a =>
    let (d, bad, sl) := match fromSectors (b.opGot ++ acc.2.2.cache.arrived .stream c.id a) a (List.range 8) with
      | some x => (some x, false, acc.2.2)
      | none =>
        let (d, sl) := acc.2.2.readLine env (.comb b.handle) .stream c.id a 0
        (d.map (·.1), d.any (fun x => !x.2.isEmpty), sl)
    match acc.1, d with
    | some bs, some x => (some (bs ++ x), acc.2.1 || bad, sl)
    | _, _ => (none, acc.2.1 || bad, sl)) (some [], false, sl)

/-- A contribution joins its area (R177, R179): the first finds it zero (R494). -/
def Slice.addArea (env : Capstan) (sl : Slice) (b : Batch) (c : Ctx) (slot : Nat) (vec : List Code) (bs : List Byte) : Slice × Batch :=
  let a := (b.area? slot).getD { slot := slot, count := 0, marks := List.replicate vec.length emptyComb.mark }
  let cs := combine (a.combs bs) vec
  let a := { a with count := a.count + 1, marks := cs.map Comb.mark }
  (sl.writeArea env b c slot (areaImage cs), { b with slots := b.slots.filter (fun x => x.slot != slot) ++ [a] })

/-- The slot of an operation. -/
def AreaOp.slot : AreaOp → Nat
  | .add slot _ => slot
  | .result _ slot => slot
  | .vector slot _ => slot

/-- An operation is done with the bytes of its area. -/
def Slice.doArea (env : Capstan) (sl : Slice) (b : Batch) (c : Ctx) (op : AreaOp) (bs : List Byte) : Slice × Batch :=
  let area := (b.area? op.slot).map (fun a => (a.count, a.combs bs))
  match op with
  | .add slot vec => sl.addArea env b c slot vec bs
  | .result q _ => match b.res.find? (fun r => r.q = q) with
    | some r => sl.formResult env b c r area
    | none => (sl, b)
  | .vector slot seq => sl.formVector env b c slot seq area

/-- The state of a combining area is lost (R488, R491): the batch is replayed. -/
def Slice.loseArea (sl : Slice) (h : Nat) : Slice := (sl.startReplay h []).tell (.fault sl.id classQueryLost 0xFF none)

/-- A batch's operations on its combining areas are done in order, as far as their lines are there; `fuel` bounds them. -/
def runAreas (env : Capstan) (h : Nat) : (fuel : Nat) → Slice → Slice
  | 0, sl => sl
  | fuel + 1, sl =>
    match sl.batch? h with
    | none => sl
    | some b =>
      match b.ops, env.ctx? b.desc.ctx with
      | op :: rest, some c =>
        let r := if (b.area? op.slot).isNone then (some [], false, sl) else sl.readArea env b c op.slot
        if r.2.1 then r.2.2.loseArea h
        else match r.1 with
          | none => r.2.2
          | some bs =>
            let (sl, b) := r.2.2.doArea env { b with ops := rest, opGot := [] } c op bs
            runAreas env h fuel (sl.setBatch b)
      | _, _ => sl

def Slice.runAreaOps (env : Capstan) (sl : Slice) (h : Nat) : Slice :=
  match sl.batch? h with
  | some b => runAreas env h b.ops.length sl
  | none => sl

/-! ### The batch goes on (R148) -/

/-- A batch holds nothing more: its items and home entries are released and its journal entry is written FREE (R500, R623). `done`
tells whether its DONE increase was acknowledged. -/
def Slice.closeBatch (env : Capstan) (sl : Slice) (b : Batch) (done : Bool) : Slice :=
  let sl := sl.releaseItems b.desc.ctx b.items
  let sl := { sl with store := sl.store.drop (fun e => e.home = sl.id && e.batch = b.handle && !e.guest) }
  let b := { b with phase := .closed, toWrite := [], ops := [] }
  ((sl.setBatch b).journalState env b .free done).setBatch { b with items := [] }

/-- BSTATUS and, for a failed batch, DETAIL are written (R148, R188). -/
def Slice.writeStatus (sl : Slice) (b : Batch) : Slice :=
  let sl := sl.setBatch { b with phase := .completing }
  match b.failDetail with
  | none => sl.issueCompl (b.write (b.desc.compl + 8) .write 0 [1] .bstatus)
  | some d => (sl.issueCompl (b.write (b.desc.compl + 8) .write 0 [2] .bstatus)).issueCompl
      (b.write (b.desc.compl + 12) .write 0 (toLe 4 d) .detail)

/-- Whether a write of the batch is at the mesh port. -/
def Slice.meshBusy (sl : Slice) (h : Nat) : Bool := (sl.ing.meshOut ++ sl.ing.meshWait).any (fun w => w.isOf h)

/-- The batch goes on when every query has ended (R148): vectors are formed, the status is written once every result write
is acknowledged; a stopped batch, failed or not, and one whose completion block is lost close (R127, R149, R190, R623). -/
def Slice.progress (env : Capstan) (sl : Slice) (h : Nat) : Slice :=
  match sl.batch? h with
  | none => sl
  | some b =>
    if b.replaying.isSome || b.reading.isSome || !b.allEnded then sl
    else match b.phase with
      | .walking =>
        if b.res.any (·.stopped) then
          if sl.meshBusy h then sl else (sl.purgeBlocks h).closeBatch env b false
        else
          match env.ctx? b.desc.ctx with
          | none => sl
          | some c =>
            let b := if b.mode c = 6 && !b.built then b.buildAccum c else b
            let sl := ((sl.setBatch b).runAreaOps env h).feed env h
            match sl.batch? h with
            | some b => if b.takenAcked && !sl.resultsOut b then sl.writeStatus b else sl
            | none => sl
      | .failed =>
        if b.res.any (·.stopped) then (if sl.meshBusy h then sl else sl.closeBatch env b false) else sl.writeStatus b
      | .lostCompl => if sl.meshBusy h then sl else sl.closeBatch env b false
      | _ => sl

/-! ### Results arriving (R407, R420, R492) -/

/-- A message joins what the home holds of its query (R407). What a query that was lost had sent before its end is counted only (R179,
R492). -/
def QRes.take (r : QRes) (m : ResMsg) : QRes :=
  let r := { r with flags := r.flags.or m.flags }
  let lost : Bool := decide (r.stat = .dataLost)
  match m.rkind with
  | .rayEnd => { r with ended := some m.parts, tmax := m.tmax, hits := r.hits ++ m.hits }
  | .hostReport => { r with got := r.got + 1, hits := if lost then [] else r.hits ++ m.hits }
  | .bestList => { r with got := r.got + 1, best := if lost then [] else mergeBest r.k r.best m.best }
  | .contrib => { r with got := r.got + 1, branches := r.branches + if lost then 0 else 1 }
  | .tokenEnd => { r with ended := some m.parts }
  | .keyEnd => { r with ended := some m.parts, best := mergeBest r.k r.best m.best }
  | .lost => { r with ended := some m.parts, stat := .dataLost, hits := [], best := [] }

/-- Whether a message ends its query's walk. -/
def RKind.ends : RKind → Bool
  | .rayEnd => true | .tokenEnd => true | .keyEnd => true | .lost => true
  | .hostReport => false | .bestList => false | .contrib => false

/-- A batch with operations on its combining areas goes on. -/
def Slice.areaMoved (env : Capstan) (sl : Slice) (h : Nat) : Slice :=
  match sl.batch? h with
  | some b => if b.ops.isEmpty then sl else ((sl.runAreaOps env h).feed env h).progress env h
  | none => sl

/-- A completed query's result is placed, its batch goes on (R407, R148). -/
def Slice.queryDone (env : Capstan) (sl : Slice) (h qindex : Nat) : Slice :=
  match sl.batch? h with
  | none => sl
  | some b =>
    match b.res.find? (fun r => r.q = qindex), env.ctx? b.desc.ctx with
    | some r, some c =>
      let placeable := r.complete && !r.placed && b.phase = .walking && b.mode c != 6 && !b.res.any (·.stopped)
      let (sl, b) := if placeable then sl.placeResult env b c r else (sl, b)
      (((sl.setBatch b).runAreaOps env h).feed env h).progress env h
    | _, _ => sl

/-- A RESULT message is taken by the home coalescer (R420). During a replay it counts at most as an end (R494). A TOKEN of an
EVAL_ACCUM batch lost after a contribution starts a replay (R492); a contribution that comes after the loss joins nothing (R179). -/
def Slice.takeResult (env : Capstan) (sl : Slice) (m : ResMsg) : Slice :=
  match sl.batch? m.handle with
  | none => sl
  | some b =>
    if b.replaying.isSome then (if m.rkind.ends then sl.endOld m.handle m.qindex else sl)
    else match b.res.find? (fun r => r.q = m.qindex), env.ctx? b.desc.ctx with
      | some r, some c =>
        let r' := r.take m
        let b' := { b with res := updateWhere (fun x => x.q = m.qindex) (fun _ => r') b.res }
        let b' := if m.rkind = .contrib && r.stat != .dataLost then { b' with ops := b'.ops ++ [.add r.slot m.vec] } else b'
        let sl := sl.setBatch b'
        if m.rkind = .lost && b.mode c = 6 && r.branches != 0 then sl.startReplay m.handle []
        else sl.queryDone env m.handle m.qindex
      | _, _ => sl

/-- A query of the batch ended in a tree fault (R127): DONE is never increased. -/
def Slice.queryStopped (env : Capstan) (sl : Slice) (h qindex : Nat) : Slice :=
  match sl.batch? h with
  | none => sl
  | some b =>
    if b.replaying.isSome then sl.endOld h qindex
    else
      let f (r : QRes) : QRes := { r with ended := some 0, stopped := true }
      let b := { b with res := updateWhere (fun r => r.q = qindex) f b.res, toWrite := [], ops := [], opGot := [] }
      ((sl.setBatch b).purgeBlocks h).progress env h

/-- Query state of the batch was lost (R488): the query is marked lost and the batch is replayed. -/
def Slice.queryLost (sl : Slice) (h qindex : Nat) : Slice := (sl.startReplay h [qindex]).endOld h qindex

/-! ### Acknowledgements and retries (R183, R188, R190, R623) -/

/-- A block is complete and its credits are back (R365, R368). -/
def Slice.finishBlock (sl : Slice) (i index : Nat) : Slice := (sl.onStream i (fun s => s.repay index)).completeBlock i index

/-- The block of a RESULT stream that a write used is complete (R365, R368): its buffers and credits return. -/
def Slice.blockDone (sl : Slice) (w : MeshWrite) : Slice :=
  match w.block with
  | none => sl
  | some (i, idx) =>
    let hs := (((sl.str.streams[i]?).bind (fun s => s.transfers.find? (fun t => t.index = idx))).map (·.handles)).getD []
    ({ sl with cache := sl.cache.freeBuffers (hs.map handleBuf) }).finishBlock i idx

/-- Completion-block writes of the same block as `w` that are out (R190). -/
def sameBlock (w x : MeshWrite) : Bool :=
  !x.isResult && x.core = w.core && x.die = w.die && x.batchId = w.batchId && x.compl = w.compl && x.handle = w.handle

/-- The batch-taken report to the core (R142). -/
def Slice.reportTaken (sl : Slice) (die core batchId : Nat) : Slice :=
  { sl with ing := { sl.ing with takenOut := sl.ing.takenOut ++ [(die, core, batchId)] } }

/-- A completion-block write of a batch without a table entry is acknowledged: a refusal goes on to TAKEN, a batch without
active queries to BSTATUS and DONE (R140, R148, R157). -/
def Slice.bareAck (sl : Slice) (w : MeshWrite) : Slice :=
  let next (off : Nat) (op : MeshOp) (tag : Nat) (data : List Byte) (kind : WriteKind) : MeshWrite :=
    { w with off := w.compl + off, op := op, tag := BitVec.ofNat 64 tag, data := data, kind := kind, failures := 0, retried := false }
  match w.kind with
  | .taken =>
    let sl := sl.settleTagged (coreKey w)
    if w.cause = 0 then sl.issueCompl (next 8 .write 0 [1] .bstatus) else sl
  | .bstatus => sl.issueCompl (next 4 .addU32 (tagOf w.batchId seqDone) (toLe 4 w.amount) .done)
  | .done => sl.settleTagged (coreKey w)
  | _ =>
    if sl.ing.meshOut.any (sameBlock w) then sl
    else (sl.reportTaken w.die w.core w.batchId).issueCompl (next 0 .addU32 (tagOf w.batchId seqTaken) (toLe 4 w.amount) .taken)

/-- A completion-block write of an admitted batch is acknowledged (R148, R500). -/
def Slice.complAck (env : Capstan) (sl : Slice) (b : Batch) (w : MeshWrite) : Slice :=
  match w.kind with
  | .taken =>
    let b := { b with takenAcked := true }
    (((sl.setBatch b).journalState env b .taken true).feed env b.handle).progress env b.handle
  | .done =>
    let sl := match b.failDetail with
      | some d => sl.captureUnreach env b.core b.desc.ctx b.desc.batchId d false (some .contextError)
      | none => sl
    sl.closeBatch env b true
  | _ =>
    if sl.ing.meshOut.any (fun x => sameBlock w x && x.kind != .taken) then sl
    else (sl.setBatch { b with phase := .finishing }).issueCompl
      (b.write (b.desc.compl + 4) .addU32 (tagOf b.desc.batchId seqDone) (toLe 4 b.active) .done)

/-- The query a result write names: the one of the slot, or the lowest that names it (R180). -/
def MeshWrite.lead (w : MeshWrite) : Nat :=
  match w.kind with
  | .slot q => q
  | .vector q _ => q
  | _ => 0

/-- The slot whose accumulates have landed gives up its combining area; the queries whose last result has landed their entries and spill
slots (R337, R344). -/
def Slice.landSlot (sl : Slice) (b : Batch) (q : Nat) : Slice × Batch :=
  let areaFree := !sl.unlanded b (fun w => w.lead = q && (w.op != .write || !b.built))
  let allFree := !sl.unlanded b (fun w => w.lead = q)
  match b.res.find? (fun r => r.q = q) with
  | none => (sl, b)
  | some r =>
    let qs := if b.built then (b.res.filter (fun x => x.slot = r.slot)).map (fun (x : QRes) => x.q) else [q]
    let frees (u : CaskUse) : Bool := match u with
      | .ledger => false
      | .spill x => allFree && decide (x ∈ qs)
      | .area s => areaFree && s = r.slot
    let (items, sl) := sl.releaseUse b.desc.ctx frees b.items
    let gone (e : QEntry) : Bool := allFree && e.home = sl.id && e.batch = b.handle && !e.guest && decide (e.qindex ∈ qs)
    ({ sl with store := sl.store.drop gone }, { b with items := items })

/-- A result write of a batch is acknowledged (R183, R188, R344); a vector operation is journalled (R500). -/
def Slice.resultAck (env : Capstan) (sl : Slice) (b : Batch) (w : MeshWrite) : Slice :=
  let (sl, b) := sl.landSlot { b with budget := 0 } w.lead
  match w.kind with
  | .vector _ s =>
    let b := { b with acked := max b.acked (s + 1) }
    ((((sl.setBatch b).journalState env b .accum true).count 0x605 0 (some b.desc.ctx) 1).feed env b.handle).progress env b.handle
  | _ => (((sl.setBatch b).count 0x604 0 (some b.desc.ctx) 1).feed env b.handle).progress env b.handle

/-- A write is acknowledged (R183). -/
def Slice.meshAck (env : Capstan) (sl : Slice) (w : MeshWrite) : Slice :=
  let out := sl.ing.meshOut.filter (fun x => x.id != w.id)
  let out := if w.isResult then out else updateWhere (sameBlock w) (fun x => { x with failures := 0 }) out
  let sl := ((({ sl with ing := { sl.ing with meshOut := out } }).blockDone w).pumpMesh).feedAll env
  match w.handle with
  | none => sl.bareAck w
  | some h =>
    match sl.batch? h with
    | none => if w.op = .write then sl else sl.settleTagged (coreKey w)
    | some b => if w.isResult then sl.resultAck env b w else sl.complAck env b w

/-- A write is given up (R188, R190, R501): it is settled where it was tagged and out. -/
def Slice.discardWrite (sl : Slice) (w : MeshWrite) : Slice :=
  let out := sl.ing.meshOut.any (fun x => x.id = w.id)
  let sl := ({ sl with ing := { sl.ing with meshOut := sl.ing.meshOut.filter (fun x => x.id != w.id) } }).blockDone w
  if w.op = .write || !out then sl else sl.settleTagged (coreKey w)

/-- The writes at the mesh port that satisfy `p` are given up: those held first, then those out. -/
def Slice.discardWrites (sl : Slice) (p : MeshWrite → Bool) : Slice :=
  let held := sl.ing.meshWait.filter p
  let sl := { sl with ing := { sl.ing with meshWait := sl.ing.meshWait.filter (fun w => !p w) } }
  let sl := held.foldl (fun (sl : Slice) w => sl.blockDone w) sl
  ((sl.ing.meshOut.filter p).foldl (fun sl w => sl.discardWrite w) sl).pumpMesh

/-- The batch fails (R188): no further result of it is written. -/
def Slice.failBatch (env : Capstan) (sl : Slice) (b : Batch) (w : MeshWrite) : Slice :=
  let sl := (sl.purgeBlocks b.handle).discardWrites (fun x => x.isOf b.handle && x.isResult)
  ((sl.setBatch { b with phase := .failed, failDetail := some w.lead, toWrite := [], ops := [], opGot := [] }).feedAll env).progress env b.handle

/-- A completion-block write exhausts its budget (R190, R623): no further part of that block is written. -/
def Slice.complLost (env : Capstan) (sl : Slice) (w : MeshWrite) : Slice :=
  let sl := sl.discardWrites (sameBlock w)
  let detail := if w.cause = 0 then 0 else w.detail
  match w.handle with
  | none =>
    let sl := if w.kind = .refuse || w.kind = .detail then sl.reportTaken w.die w.core w.batchId else sl
    sl.captureUnreach env w.core w.ctx w.batchId detail true (some .faultNotice)
  | some h =>
    match sl.batch? h with
    | none => sl
    | some b =>
      let sl := sl.captureUnreach env b.core b.desc.ctx b.desc.batchId (b.failDetail.getD 0) true (some .faultNotice)
      let sl := if b.failDetail.isSome then sl.raise .contextError else sl
      let sl := (sl.purgeBlocks h).discardWrites (fun x => x.isOf h && x.isResult)
      ((sl.setBatch { b with phase := .lostCompl, toWrite := [], ops := [], opGot := [] }).feedAll env).progress env h

/-- A retry of a refused write fails (R188, R190): the 64th gives the write up. -/
def Slice.retryFailed (env : Capstan) (sl : Slice) (w : MeshWrite) : Slice :=
  if w.isResult then
    match w.handle.bind sl.batch? with
    | none => sl.discardWrite w
    | some b =>
      if 64 ≤ b.budget + 1 then sl.failBatch env { b with budget := 0 } w
      else sl.setBatch { b with budget := b.budget + 1 }
  else if 64 ≤ w.failures + 1 then sl.complLost env w
  else
    let up (x : MeshWrite) : MeshWrite := { x with failures := x.failures + 1 }
    { sl with ing := { sl.ing with meshOut := updateWhere (fun x => x.id = w.id) up sl.ing.meshOut } }

end Sys2Proof.Machine
end

