-- ==== Sys2Proof/Machine/Submit.lean ====
section
/-!
DEFINITION. What a batch submits: the descriptor and its checks (R133 to R138, R152, R153, R166), the records and their checks
(R46 to R73), rays normalised and settled (R53, R54), the reservation of a batch (R154, R344) and its ledger (R347).
-/

namespace Sys2Proof.Machine

/-! ### The descriptor (R133, R134) -/

/-- The fields of a descriptor (R133). -/
def descOf (bs : List Byte) : Desc :=
  { batchId := le bs 0 4, ctx := le bs 4 2 % 4096, column := bit (byteAt bs 7) 0, accMapped := bit (byteAt bs 7) 1
    maint := bit (byteAt bs 7) 2, count := le bs 8 4, laneq := le bs 12 2, recStride := le bs 14 2, recOff := le bs 16 4
    pay := le bs 20 4, payStride := le bs 24 4, res := le bs 28 4, resStride := le bs 32 4, resCap := le bs 36 2
    accMap := le bs 40 4, accSlots := le bs 44 4, compl := le bs 48 4 }

/-- The size of a core's local memory (R152). -/
def localBytes : Nat := 524288

/-- Whether the descriptor's address fails check 0x01 before any byte is read (R152). -/
def badAddress (off : Nat) : Bool := off % 16 != 0 || localBytes < off + 64

/-- Whether the descriptor's bytes fail check 0x01 (R133, R152). -/
def badDescBytes (bs : List Byte) : Bool :=
  byteAt bs 6 % 16 != 1 || byteAt bs 6 / 16 != 0 || byteAt bs 5 / 16 != 0 || byteAt bs 7 / 8 != 0 ||
    !zeroBytes bs 38 2 || !zeroBytes bs 52 12

/-- The active query indices in ascending order (R137, R138). -/
def activeOf (d : Desc) (isG : Bool) (mask : Nat) : List Nat :=
  if isG then (maskBits 64 mask).flatMap (fun l => (List.range d.laneq).map (fun j => l * d.laneq + j))
  else List.range d.count

/-- A′ of a refused batch (R157). -/
def refusedCount (d : Desc) (isG : Bool) (mask : Nat) : Nat :=
  (if isG then popCount 64 mask * d.laneq else d.count) % 2 ^ 32

/-- The result mode of a descriptor's batch (R135, R136): 0 for a MAINT batch. -/
def modeOf (d : Desc) (c : Ctx) : Nat := if d.maint then 0 else c.rmode

/-- The query kind of a batch; none for a MAINT batch. -/
def kindOf (d : Desc) (c : Ctx) : Option QKind := if d.maint then none else c.qkind

/-- Bytes of a record (R50, R56, R57, R65). -/
def recordBytes (d : Desc) (c : Ctx) : Nat := if kindOf d c = some .ray then 64 else 32

/-- Whether the queries of a batch have payloads. -/
def hasPayload (d : Desc) (c : Ctx) : Bool := kindOf d c = some .key || kindOf d c = some .token

/-- The bounds of RES_CAP (R166). -/
def resCapOk (mode cap : Nat) : Bool :=
  if mode = 1 || mode = 2 || mode = 3 then 1 ≤ cap && cap ≤ 1024
  else if mode = 4 then 1 ≤ cap && cap ≤ 64
  else cap = 0

/-- The minimum slot size (R166). -/
def slotSize (mode cap : Nat) (c : Ctx) : Nat :=
  if mode = 1 || mode = 3 then 16 + 32 * cap
  else if mode = 2 then 48
  else if mode = 4 then 16 + 16 * cap
  else if mode = 5 then roundUp (16 + c.dout * c.ofmt.bytes) 16
  else if mode = 6 then roundUp (16 + 4 * c.dout) 16
  else 16

/-- Whether the descriptor breaks R135 or the range of RES_CAP: check 0x05. -/
def badField (d : Desc) (c : Ctx) : Bool :=
  let mode := modeOf d c
  let accum : Bool := mode = 6
  (!hasPayload d c && (d.column || d.pay != 0 || d.payStride != 0)) ||
    (!accum && (d.accMapped || d.accMap != 0 || d.accSlots != 0)) ||
    (accum && !d.accMapped && (d.accMap != 0 || d.accSlots < d.count)) || !resCapOk mode d.resCap

/-- A byte range: its first byte and the byte after its last. -/
abbrev Extent := Nat × Nat

/-- The extents the engine reads (R153). -/
def readExtents (off : Nat) (d : Desc) (c : Ctx) : List Extent :=
  let e := c.elem
  let pay : List Extent := if !hasPayload d c then []
    else if d.column then [(d.pay, d.pay + (c.dim - 1) * d.payStride + d.count * e)]
    else [(d.pay, d.pay + (d.count - 1) * d.payStride + c.dim * e)]
  let idx : List Extent := if d.accMapped then [(d.accMap, d.accMap + 4 * d.count)] else []
  [(off, off + 64), (d.recOff, d.recOff + (d.count - 1) * d.recStride + recordBytes d c)] ++ pay ++ idx

/-- The result area (R153). -/
def resultExtent (d : Desc) (c : Ctx) : Extent :=
  (d.res, d.res + (if modeOf d c = 6 then d.accSlots else d.count) * d.resStride)

def complExtent (d : Desc) : Extent := (d.compl, d.compl + 16)

/-- Whether two ranges share a byte. -/
def Extent.meets (a b : Extent) : Bool := a.1 < a.2 && b.1 < b.2 && a.1 < b.2 && b.1 < a.2

/-- Check 0x06 (R62, R152, R153, R166). -/
def badRegion (off : Nat) (d : Desc) (c : Ctx) : Bool :=
  let mult : Bool := [d.recOff, d.recStride, d.pay, d.payStride, d.res, d.resStride, d.accMap, d.compl].all (· % 16 = 0)
  let payOk : Bool := !hasPayload d c || (if d.column then d.count * c.elem else c.dim * c.elem) ≤ d.payStride
  !mult || d.recStride < recordBytes d c || !payOk || d.resStride < slotSize (modeOf d c) d.resCap c ||
    (readExtents off d c ++ [resultExtent d c, complExtent d]).any (fun x => localBytes < x.2)

/-- Check 0x07 (R152, R153). -/
def badOverlap (off : Nat) (d : Desc) (c : Ctx) : Bool :=
  let r := resultExtent d c
  let k := complExtent d
  r.meets k || (readExtents off d c).any (fun x => r.meets x || k.meets x)

/-- Check 0x04 (R137, R138, R152). -/
def badCount (d : Desc) (isG : Bool) : Bool :=
  d.count = 0 || 65536 < d.count ||
    (if isG then d.laneq = 0 || 1024 < d.laneq || d.count != 64 * d.laneq else d.laneq != 0)

/-- The first check of R152 that a descriptor fails, in table order. -/
def descCause (env : Capstan) (off : Nat) (isG : Bool) (bs : List Byte) : Option Nat :=
  let d := descOf bs
  if badDescBytes bs then some 0x01
  else match env.ctx? d.ctx with
    | none => some 0x02
    | some c =>
      if env.img.ctxCount ≤ d.ctx || c.cstate = .invalid || (!d.maint && !rmodeMatches c.qkind c.rmode) then some 0x02
      else if c.faulted then some 0x03
      else if badCount d isG then some 0x04
      else if badField d c then some 0x05
      else if badRegion off d c then some 0x06
      else if badOverlap off d c then some 0x07
      else none

/-! ### The index table (R150, R152, R159, R162) -/

/-- The result slots that queries name (R162), or the cause and DETAIL of the first entry that fails. -/
def readIndex (d : Desc) (detect : Option Nat) : List Nat → List Nat → Except (Nat × Nat) (List (Nat × Nat))
  | [], _ => .ok []
  | q :: qs, es =>
    let x := es.headD 0
    if detect = some q then .error (0x0A, q)
    else if d.accSlots ≤ x then .error (0x08, q)
    else (readIndex d detect qs es.tail).map (fun r => (q, x) :: r)

/-! ### Records (R46 to R73) -/

/-- Whether a reserved bit or byte of a record is non-zero (R49 to R51, R56, R57, R65, R66). -/
def reservedSet (kind : Nat) (bs : List Byte) : Bool :=
  byteAt bs 3 != 0 ||
    (if kind = 1 then byteAt bs 1 / 8 != 0 || !zeroBytes bs 40 24
     else if kind = 2 then byteAt bs 1 != 0 || byteAt bs 2 != 0 || !zeroBytes bs 10 2 || !zeroBytes bs 16 16
     else if kind = 3 then byteAt bs 1 != 0 || byteAt bs 2 != 0 || byteAt bs 8 != 0 || !zeroBytes bs 10 2 || !zeroBytes bs 16 16
     else 1 < byteAt bs 1 || !zeroBytes bs 14 2 || !zeroBytes bs 24 8)

/-- The fault cause of a record (R73): the lowest code among the rules it breaks. -/
def recordCause (d : Desc) (c : Ctx) (bs : List Byte) : Option Nat :=
  let kind := byteAt bs 0 % 16
  let vec : Bool := kind = 2 || kind = 3
  let fmt := fmtOf (byteAt bs 9)
  let dim := le bs 12 4
  let k := byteAt bs 8
  let op := byteAt bs 2
  let checks : List (Bool × Nat) :=
    [(!(kind = 1 || kind = 2 || kind = 3 || kind = 8), 0x01),
     (byteAt bs 0 / 16 != 1, 0x02),
     ((kind = 8 : Bool) != d.maint, 0x03),
     (!d.maint && (c.qkind.map kindCode) != some kind, 0x04),
     (reservedSet kind bs, 0x05),
     (vec && (fmt.isNone || byteAt bs 9 != byteAt c.fixed 2), 0x06),
     (vec && (dim = 0 || dim != c.dim || 16384 < dim * c.elem), 0x07),
     (kind = 2 && (k = 0 || 64 < k || d.resCap < k), 0x08),
     (kind = 8 && op != 1 && op != 2, 0x09),
     (kind = 8 && 2 ^ 48 < le bs 8 6 + le bs 16 8, 0x0A)]
  (checks.find? (·.1)).map (·.2)

/-- A component of a ray after R53, if it is finite; subnormals and −0 become zero. -/
def rayPart (bs : List Byte) (off : Nat) : Option Rat :=
  match geo (le32 bs off) with
  | .fin x => some x
  | _ => none

/-- Three components from byte `off` on. -/
def rayVec (bs : List Byte) (off : Nat) : Option V3 :=
  match rayPart bs off, rayPart bs (off + 4), rayPart bs (off + 8) with
  | some x, some y, some z => some { x := x, y := y, z := z }
  | _, _, _ => none

/-- Origin, direction, TMIN and TMAX of a ray that is walked; none where it is settled without a hit (R53, R54). -/
def settleRay (bs : List Byte) : Option (V3 × V3 × Num × Num) :=
  let tmin := geo (le32 bs 32)
  let tmax := geo (le32 bs 36)
  if tmin = .nan || tmax = .nan then none
  else match rayVec bs 8, rayVec bs 20 with
    | some o, some d =>
      if d.x = 0 && d.y = 0 && d.z = 0 then none
      else
        let tmin := if tmin.lt (.fin 0) then .fin 0 else tmin
        if tmax.lt tmin then none else some (o, d, tmin, tmax)
    | _, _ => none

/-- A query without values of its own yet. -/
def blankQuery (home handle batchId mode qindex ctx : Nat) (kind : QKind) : Query :=
  { home := home, batch := handle, batchId := batchId, mode := mode, qindex := qindex, ctx := ctx, kind := kind, tag := 0
    cullBack := false, cullFront := false, skipHost := false, mask := 0, org := { x := 0, y := 0, z := 0 }
    dir := { x := 0, y := 0, z := 0 }, tmin := .fin 0, tmax := .nan, tmax0 := .nan, k := 0, payload := []
    next := { addr := 0, ckind := 0, holder := 0, placed := .replicated, tnear := .fin 0 }
    pathDepth := 0, cnt := 0, insts := [], stack := [], trail := [], restartDepth := none, rewalk := none, closest := none
    hits := [], best := [], gate := 0x3F800000, flags := noFlags, layerOuts := none, hitch := none, parts := 0
    spilled := false, guest := false, entry := 0, slot := [], ledger := [], entered := 0 }

/-- Whether a ray was settled without a hit (R54): its copy holds no interval. -/
def Query.settled (q : Query) : Bool := q.kind = .ray && q.tmax = .nan

/-- The elements of a payload (R61, R63). -/
def payloadOf (e n : Nat) (bs : List Byte) : List Code := (List.range n).map (fun i => BitVec.ofNat 32 (le bs (e * i) e))

/-- The engine's copy of a query, from its record and payload (R53, R63, R335, R336). -/
def queryOf (home handle : Nat) (d : Desc) (c : Ctx) (qindex : Nat) (r : List Byte × List Byte) : Query :=
  let bs := r.1
  let kind := c.qkind.getD .ray
  let q := { blankQuery home handle d.batchId c.rmode qindex d.ctx kind with tag := le bs 4 4 }
  match kind with
  | .ray =>
    let q := { q with cullBack := bit (byteAt bs 1) 0, cullFront := bit (byteAt bs 1) 1, skipHost := bit (byteAt bs 1) 2
                      mask := byteAt bs 2 }
    match settleRay bs with
    | none => q
    | some (o, dir, tmin, tmax) => { q with org := o, dir := dir, tmin := tmin, tmax := tmax, tmax0 := geo (le32 bs 36) }
  | .key => { q with k := byteAt bs 8, payload := payloadOf c.elem c.dim r.2 }
  | .token => { q with payload := payloadOf c.elem c.dim r.2 }

/-- What the records of a batch come to (R71, R151, R158, R159): the cause, DETAIL and record fault of the first that fails, or
the queries and maintenance descriptors. Of one query the record is checked before its payload is read, so that a malformed record goes before a
detection on that payload (log entry 82). -/
def readRecords (home handle : Nat) (d : Desc) (c : Ctx) (detect : Option Nat) :
    List Nat → List (List Byte × List Byte) → Except (Nat × Nat × Nat) (List Query × List (Nat × List Byte))
  | [], _ => .ok ([], [])
  | q :: qs, rs =>
    let r := rs.headD ([], [])
    let bs := padTo (recordBytes d c) r.1
    if detect = some q && r.1.isEmpty then .error (0x0A, q, 0)
    else match recordCause d c bs with
      | some x => .error (0x0B, q, x)
      | none =>
        if detect = some q then .error (0x0A, q, 0)
        else (readRecords home handle d c detect qs rs.tail).map (fun t =>
          if d.maint then (t.1, (q, bs) :: t.2) else (queryOf home handle d c q (bs, r.2) :: t.1, t.2))

/-! ### The reservation (R154, R344) -/

/-- Cask units of a batch's ledger: its head, its records and its payloads, each in whole units (R154, R347). -/
def ledgerUnits (d : Desc) (c : Ctx) (active : Nat) : Nat × Nat × Nat :=
  (caskUnits (72 + (if d.accMapped then 4 * active else 0)), caskUnits (recordBytes d c * active),
   if hasPayload d c then caskUnits (roundUp (c.dim * c.elem) 64 * active) else 0)

/-- The items of a batch's cask reservation (R154, R345). -/
def caskItems (d : Desc) (c : Ctx) (index : List (Nat × Nat)) : List (CaskUse × Nat) :=
  let n := index.length
  let l := ledgerUnits d c n
  let spills : List (CaskUse × Nat) := match kindOf d c with
    | none => []
    | some k => index.map (fun e => (.spill e.1, caskUnits (spillBytes k c.rmode d.resCap)))
  let areas : List (CaskUse × Nat) := if kindOf d c = some .token
    then ((index.map (·.2)).eraseDups).map (fun s => (.area s, caskUnits (40 * c.dout))) else []
  (.ledger, l.1 + l.2.1 + l.2.2) :: (spills ++ areas)

/-- Units of the items. -/
def itemUnits (items : List (CaskUse × Nat)) : Nat := (items.map (·.2)).sum

/-- Check 0x09 (R152, R496). -/
def caskTooSmall (env : Capstan) (id : Nat) (c : Ctx) (items : List (CaskUse × Nat)) : Bool :=
  c.allocatable env.n < 256 * itemUnits items || ownCount env.n id c < 17

/-- Granules of a batch's entries, one count per active query (R334). -/
def granulesEach (d : Desc) (c : Ctx) : Nat := if hasPayload d c then entryGranules (c.dim * c.elem) else 1

/-! ### The ledger (R347) -/

/-- The ledger's bytes, its three items each on a unit boundary; the bytes that fill an item up to its boundary are zero (log entry 81). -/
def ledgerBytes (raw : List Byte) (d : Desc) (c : Ctx) (mask : Nat) (index : List (Nat × Nat))
    (recs : List (List Byte × List Byte)) : List Byte :=
  let l := ledgerUnits d c index.length
  let head := raw ++ toLe 8 mask ++ (if d.accMapped then index.flatMap (fun e => toLe 4 e.2) else [])
  let payloads := if hasPayload d c then recs.flatMap (fun r => padTo (roundUp (c.dim * c.elem) 64) r.2) else []
  padTo (256 * l.1) head ++ padTo (256 * l.2.1) (recs.flatMap (fun r => padTo (recordBytes d c) r.1)) ++
    padTo (256 * l.2.2) payloads

/-- The units of runs, in order. -/
def runUnitsOf (runs : List (Nat × Nat)) : List Nat := runs.flatMap (fun r => (List.range r.2).map (· + r.1))

/-- The pieces of a batch's ledger, as addresses and lengths. -/
def ledgerPieces (c : Ctx) (items : List CaskItem) : List (Nat × Nat) :=
  (ledgerRuns items).map (fun r => (c.caskBase + 256 * r.1, 256 * r.2))

/-- The addresses of the lines of a ledger. -/
def ledgerLines (c : Ctx) (items : List CaskItem) : List Nat :=
  (runUnitsOf (ledgerRuns items)).map (fun u => c.caskBase + 256 * u)

/-- The LEDGER stream of a batch (R360): by batch-table index, which the spec leaves open (log entry 16). -/
def ledgerStream (handle : Nat) : Nat := 12 + handle % 2

/-- The ledger is written by a LEDGER stream (R150, R360); its lines go on to memory at once (log entry 16). -/
def Slice.writeLedger (env : Capstan) (sl : Slice) (c : Ctx) (handle : Nat) (items : List CaskItem) (bytes : List Byte) : Slice :=
  sl.produce env (pieceBlocks (ledgerStream handle) c.id 3 (.ledger handle) (ledgerPieces c items) bytes)

/-- Whether a block carries part of the ledger of a batch. -/
def Block.ledgers (handle : Nat) (b : Block) : Bool := b.use = .ledger handle

/-- Whether the memory port has still to acknowledge a ledger write (R150 step 6, R323). -/
def Slice.ledgerUnwritten (sl : Slice) (c : Ctx) (handle : Nat) (items : List CaskItem) : Bool :=
  let here (ctx addr : Nat) : Bool := ctx = c.id && decide (addr ∈ ledgerLines c items)
  sl.str.underway (ledgerStream handle) (Block.ledgers handle) ||
    sl.cache.waiting.any (fun w => here w.ctx w.addr && w.who.writes) ||
    sl.cache.misses.any (fun m => here m.ctx m.addr && m.waiters.any Requester.writes) ||
    sl.cache.evict.any (fun e => here e.ctx e.addr)

/-- What the journal says of a batch in the pending queue (R497, R500). -/
def Pend.entry (p : Pend) (js : JState) : JEntry :=
  { batchId := p.desc.batchId, core := p.core, die := p.die, jstate := js, acked := 0, runs := ledgerRuns p.items }

/-- A descriptor whose ledger is acknowledged has its four journal lines written, LEDGERED (R500). -/
def Slice.journalLedger (env : Capstan) (sl : Slice) (i : Nat) (p : Pend) : Slice :=
  match env.ctx? p.desc.ctx with
  | none => sl
  | some c =>
    if p.stage != .ledger || sl.ledgerUnwritten c p.handle p.items then sl
    else
      let sl := { sl with ing := { sl.ing with pendq := sl.ing.pendq.set i { p with stage := .journal } } }
      sl.journalAll env c p.handle (p.entry .ledgered)

/-- Every descriptor whose ledger is acknowledged by now (R150 step 6, R500). -/
def Slice.journalLedgers (env : Capstan) (sl : Slice) : Slice :=
  (indexed sl.ing.pendq).foldl (fun sl e => sl.journalLedger env e.1 e.2) sl

end Sys2Proof.Machine
end

