-- ==== Sys2Proof/Machine/Admit.lean ====
section
/-!
DEFINITION. Ingress (R150 to R159, R469): refusals, the wait for a context's pass and activation, reservations, the release of a
batch's queries to the Mash and of its maintenance descriptors to the Rope (R30, R86, R326).
-/

namespace Sys2Proof.Machine

/-! ### Refusals (R157, R158, R193, R195) -/

/-- A batch's loan is asked for, or ends (R343). -/
def Slice.tellLoan (sl : Slice) (p : Pend) (missing : Nat) : Slice :=
  sl.tell (.loan sl.id p.desc.ctx (p.die * 512 + p.core) p.desc.batchId missing)

/-- The reservations of a waiting batch are released (R157): cask items, query-store entries, its loan. -/
def Slice.releasePend (sl : Slice) (p : Pend) : Slice :=
  let sl := if p.items.isEmpty then sl else sl.releaseItems p.desc.ctx p.items
  let granted : Bool := p.stage = .records || p.stage = .ledger || p.stage = .journal
  let mine (e : QEntry) : Bool := granted && e.home = sl.id && e.batch = p.handle && !e.guest
  let sl := { sl with store := sl.store.drop mine }
  if p.stage = .reserve then sl.tellLoan p 0 else sl

/-- Whether the engine can write a batch's completion block (R157). -/
def complAddressable (d : Desc) : Bool := d.compl % 16 = 0 && d.compl + 16 ≤ localBytes

/-- A completion-block write of a batch without a table entry (R148, R157). -/
def Pend.write (p : Pend) (off : Nat) (op : MeshOp) (tag : Nat) (data : List Byte) (kind : WriteKind) (amount cause detail : Nat) :
    MeshWrite :=
  { id := 0, handle := none, core := p.core, die := p.die, off := p.desc.compl + off, op := op, tag := BitVec.ofNat 64 tag
    data := data, kind := kind, block := none, failures := 0, waiting := false, retried := false, retryAt := 0, compl := p.desc.compl, amount := amount
    ctx := p.desc.ctx, batchId := p.desc.batchId, cause := cause, detail := detail }

/-- ING_REFUSE (R193). -/
def refuseReg (cause core ctx batchId : Nat) : Reg :=
  BitVec.ofNat 64 (place cause 8 0 + 2 ^ 8 + place core 9 9 + place ctx 12 18 + place batchId 32 32)

/-- Ingress refuses a batch (R157). `read` tells whether its descriptor was read. -/
def Slice.refuse (env : Capstan) (sl : Slice) (p : Pend) (cause detail : Nat) (read : Bool) : Slice :=
  let sl := (sl.releasePend p).count 0x602 0 (if read then some p.desc.ctx else none) 1
  let sl := if read && complAddressable p.desc then
      let n := refusedCount p.desc p.isG p.mask
      (sl.issueCompl (p.write 9 .write 0 (toLe 1 cause) .refuse n cause detail)).issueCompl
        (p.write 12 .write 0 (toLe 4 detail) .detail n cause detail)
    else sl.reportTaken p.die p.core (if read then p.desc.batchId else 0)
  ({ sl with ing := { sl.ing with refuse := refuseReg cause p.core p.desc.ctx p.desc.batchId } }).log env 0x3001
    (toLe 2 p.desc.ctx ++ toLe 1 cause ++ toLe 2 (p.core % 512) ++ toLe 4 p.desc.batchId)
    { tail := some (toLe 4 detail), irq := some .contextError }

/-- A slice knows of a CONTEXT_FAULT that it has found itself (R156, log entry 77). -/
def CtxCache.setFault (k : CtxCache) (ctx : Nat) : CtxCache :=
  { k with states := updateWhere (fun x => x.1 = ctx) (fun x => (x.1, .fault)) k.states }

/-- A malformed record (R71, R74): the batch is refused, the context enters CONTEXT_FAULT, one record tells the cause. The refusal
and the fault are one context-error event (R577). The slice admits no further batch of the context (R72). -/
def Slice.refuseMalformed (env : Capstan) (sl : Slice) (p : Pend) (q cause : Nat) : Slice :=
  let sl := sl.log env 0x2001 (toLe 2 p.desc.ctx ++ toLe 1 cause ++ toLe 4 p.desc.batchId ++ toLe 4 q)
  ({ sl.refuse env p 0x0B q true with cctx := sl.cctx.setFault p.desc.ctx }).tell (.ctxFault p.desc.ctx 1 cause p.desc.batchId q 0)

/-! ### Waiting for the pass, the activation and the reservations (R155, R156, R383, R469) -/

/-- Whether earlier descriptors keep a batch from going on before them (R155): one not yet read, or one of its context. -/
def behind (earlier : List Pend) (p : Pend) : Bool := earlier.any (fun e => e.stage = .descriptor || e.desc.ctx = p.desc.ctx)

/-- A batch without active queries is admitted when its turn comes (R140): TAKEN by 0, then the batch taken. -/
def Slice.takeEmpty (sl : Slice) (p : Pend) : Slice :=
  ((sl.reportTaken p.die p.core p.desc.batchId).issueCompl
    (p.write 0 .addU32 (tagOf p.desc.batchId seqTaken) (toLe 4 0) .taken 0 0 0)).count 0x601 0 (some p.desc.ctx) 1

/-- Whether the context holds an activation slot (R469). -/
def Capstan.isActive (c : Capstan) (ctx : Nat) : Bool := c.active.any (fun a => a.2 = ctx)

/-- Blocks that a slice lacks for a batch's reservation (R343), counted against the units that it holds free now (log entry 78), or for the
shape of the ledger, where that is more (R499). -/
def Slice.missingBlocks (env : Capstan) (sl : Slice) (c : Ctx) (items : List (CaskUse × Nat)) : Nat :=
  let k := sl.cask c.id
  max ((itemUnits items - k.units env.n c + 255) / 256) (k.shapeShort env.n c (ledgerWant items))

/-- Step 3 of R150: the reservation is computed and checked; a loan of what is missing is asked for. -/
def Slice.checkCask (env : Capstan) (sl : Slice) (c : Ctx) (p : Pend) : Slice × Option Pend :=
  let items := caskItems p.desc c p.index
  if caskTooSmall env sl.id c items then (sl.refuse env p 0x09 0 true, none)
  else
    let m := sl.missingBlocks env c items
    (if m = 0 then sl else sl.tellLoan p m, some { p with stage := .reserve })

/-- A batch that waits at step 4 asks for a loan again where its slice lacks blocks and no loan of it is queued (R343). -/
def Slice.askLoan (env : Capstan) (sl : Slice) (c : Ctx) (p : Pend) : Slice :=
  let m := sl.missingBlocks env c (caskItems p.desc c p.index)
  let l : Loan := { ctx := c.id, slice := sl.id, missing := m, core := p.die * 512 + p.core, batchId := p.desc.batchId }
  let asked := env.loans.any (fun x => x.same l) || sl.mail.any (fun n => match n with
    | .loan _ ctx core b k => k != 0 && ctx = l.ctx && core = l.core && b = l.batchId
    | _ => false)
  if m = 0 || asked then sl else sl.tellLoan p m

/-- Step 5 of R150: granules for a batch's entries are taken while 16,384 remain free (R338); else the batch waits. -/
def Slice.takeEntries (sl : Slice) (c : Ctx) (p : Pend) : Slice × Pend :=
  let g := granulesEach p.desc c
  if sl.store.freeCount < 16384 + g * p.index.length then (sl, { p with stage := .granules })
  else
    let kind := match kindOf p.desc c with
      | some k => kindCode k
      | none => 8
    let st := p.index.foldl (fun (st : Store) e => match st.place g kind sl.id p.handle e.1 false with
      | some (_, st) => st
      | none => st) sl.store
    ({ sl with store := st }, { p with stage := .records })

/-- A batch that waits at step 5 looks again (R338). -/
def Slice.waitGranules (env : Capstan) (sl : Slice) (p : Pend) : Slice × Option Pend :=
  match env.ctx? p.desc.ctx with
  | none => (sl, some p)
  | some c =>
    let (sl, p) := sl.takeEntries c p
    (sl, some p)

/-- What a descriptor in the pending queue does of itself, after those earlier in the queue. -/
def Slice.admitOne (env : Capstan) (earlier : List Pend) (p : Pend) (sl : Slice) : Slice × Option Pend :=
  if p.stage = .granules then sl.waitGranules env p
  else if !(p.stage = .waiting || p.stage = .reserve) then (sl, some p)
  else match env.ctx? p.desc.ctx with
    | none => (sl.refuse env p 0x02 0 true, none)
    | some c =>
      if c.cstate = .invalid then (sl.refuse env p 0x02 0 true, none)
      else if c.faulted then (sl.refuse env p 0x03 0 true, none)
      else if p.stage = .reserve then (sl.askLoan env c p, some p)
      else if c.pass != .running then (sl, some p)
      else if (activeOf p.desc p.isG p.mask).isEmpty then
        if behind earlier p then (sl, some p) else (sl.takeEmpty p, none)
      else if !env.isActive c.id then (sl.tell (.activate sl.id c.id), some p)
      else if p.index.isEmpty then
        if p.desc.accMapped then (sl, some { p with stage := .index })
        else sl.checkCask env c { p with index := (activeOf p.desc p.isG p.mask).map (fun q => (q, q)) }
      else sl.checkCask env c p

/-- The pending queue in order of arrival, each descriptor as far as it can go. -/
def admitList (env : Capstan) : List Pend → List Pend → Slice → Slice
  | [], kept, sl => { sl with ing := { sl.ing with pendq := kept } }
  | p :: rest, kept, sl =>
    match sl.admitOne env kept p with
    | (sl, some p) => admitList env rest (kept ++ [p]) sl
    | (sl, none) => admitList env rest kept sl

/-- Ingress goes on with its pending queue. -/
def Slice.admitWaiting (env : Capstan) (sl : Slice) : Slice := admitList env sl.ing.pendq [] sl

/-! ### Reservations (R154, R155, R338, R343, R499) -/

/-- The lowest free batch-table entry (R154). -/
def Slice.freeHandle (sl : Slice) : Option Nat :=
  freeNumber 1024 (sl.ing.batches.map (·.handle) ++
    (sl.ing.pendq.filter (fun p => p.stage.holds)).map (·.handle) ++ sl.ing.adopting.map (·.handle))

/-- Whether another slice's loan at the head of the context's queue must first have the blocks this slice can give (R343). -/
def owesBlocks (env : Capstan) (sl : Slice) (c : Ctx) : Bool :=
  match env.loans.find? (fun l => l.ctx = c.id) with
  | none => false
  | some l => l.slice != sl.id && env.hl.restarting.isNone && !((sl.cask c.id).givable env.n c 1).isEmpty

/-- The reservations of a batch, if both can be granted now (R154); then its granules are taken, or it waits for them (R338). -/
def Slice.tryGrant (env : Capstan) (sl : Slice) (c : Ctx) (p : Pend) : Option (Slice × Pend) :=
  if owesBlocks env sl c || !sl.ing.fromJournal.isEmpty then none
  else match sl.freeHandle, sl.reserveCask env.n c (caskItems p.desc c p.index) with
    | some h, some (items, sl) => some (sl.takeEntries c { p with items := items, handle := h })
    | _, _ => none

/-- The position of the batch that ingress serves next (R155): of those that can be granted, the highest priority, then the
earliest arrival; one of a context waits behind the earlier ones of its context. -/
def Slice.nextGrant (env : Capstan) (sl : Slice) : Option Nat :=
  let able (i : Nat) (p : Pend) : Bool := p.stage = .reserve &&
    !((sl.ing.pendq.take i).any (fun e => e.desc.ctx = p.desc.ctx && (e.stage = .waiting || e.stage = .index || e.stage = .reserve || e.stage = .granules))) &&
    (match env.ctx? p.desc.ctx with
     | some c => (sl.tryGrant env c p).isSome
     | none => false)
  let cands := (indexed sl.ing.pendq).filter (fun e => able e.1 e.2)
  (sortBy (fun (a b : Nat × Pend) => decide (prioOf env b.2.desc.ctx < prioOf env a.2.desc.ctx)) cands).head?.map (·.1)

/-! ### The release (R86, R150, R326) -/

/-- A spilled query whose spill slot is reset to what its record gives (R494 step 3). -/
def Slice.resetSlot (env : Capstan) (sl : Slice) (q : Query) : Slice := if q.spilled then sl.writeSlot env q true else sl

/-- A query takes up its entry at its home (R337); one whose entry is gone, in a replay, takes a new one (R494). -/
def Slice.withEntry (env : Capstan) (sl : Slice) (q : Query) : Slice × Query :=
  match sl.store.entries.find? q.owns with
  | some e => ({ sl with store := sl.store.markHitched q.owns false }, { q with entry := e.first, spilled := e.spilled })
  | none =>
    match sl.store.place (entryGranules (q.payloadBytes env)) (kindCode q.kind) q.home q.batch q.qindex false with
    | some (first, st) => ({ sl with store := st }, { q with entry := first, spilled := false })
    | none => ({ sl with store := sl.store.addSpilled q }, { q with spilled := true })

/-- A query is released to the Mash (R30, R150): it enters its bin on its home slice whatever its root's placement
(Query.first says what comes of it there). -/
def Slice.release (env : Capstan) (sl : Slice) (c : Ctx) (q : Query) : Slice :=
  let (sl, q) := sl.withEntry env q
  let q := q.atRoot (rootRef env c)
  let sl := sl.resetSlot env q
  if q.next.ckind = 6 then sl.gatherQuery env { q with entered := sl.time } else sl.toBin env q

/-- A maintenance descriptor as it goes to a slice (R65 to R68, R326). -/
def maintMsg (home handle : Nat) (d : Desc) (e : Nat × List Byte) : MaintMsg :=
  { home := home, handle := handle, qindex := e.1, ctx := d.ctx, batchId := d.batchId, clean := byteAt e.2 2 = 2
    all := bit (byteAt e.2 1) 0, base := le e.2 8 6, length := le e.2 16 8, raw := e.2 }

/-- A maintenance descriptor is passed to every live slice, the home included (R326, R506). -/
def Slice.sendMaint (env : Capstan) (sl : Slice) (m : MaintMsg) : Slice :=
  let out : MaintOut := { msg := m, acks := [] }
  let sl := { sl with ing := { sl.ing with maintOut := sl.ing.maintOut ++ [out] } }
  (env.ids.filter env.isLive).foldl (fun sl i => sl.send env i (.maintDesc m)) sl

/-- What the home coalescer holds of a query before any part has come. -/
def blankRes (q tag slot k : Nat) (tmax : Num) : QRes :=
  { q := q, tag := tag, slot := slot, k := k, ended := none, got := 0, stat := .ok, stopped := false, tmax := tmax, hits := []
    best := [], branches := 0, flags := noFlags, placed := false }

/-- The result state of a batch's queries. -/
def resOf (index : List (Nat × Nat)) (qs : List Query) (ms : List (Nat × List Byte)) : List QRes :=
  let slotOf (q : Nat) : Nat := ((index.find? (fun e => e.1 = q)).map (·.2)).getD q
  qs.map (fun q => blankRes q.qindex q.tag (slotOf q.qindex) q.k q.tmax) ++
    ms.map (fun m => blankRes m.1 (le m.2 4 4) (slotOf m.1) 0 (.fin 0))

/-- The queries of a batch, in ascending query index, with their spill slots as runs of cask units and the pieces of the ledger that hold
their payloads (R335, R344, R347). -/
def withSlots (c : Ctx) (d : Desc) (items : List CaskItem) (qs : List Query) : List Query :=
  let l := ledgerUnits d c qs.length
  let payload (k : Nat) : List (Nat × Nat) :=
    if hasPayload d c then
      takePieces (c.dim * c.elem) (dropPieces (256 * (l.1 + l.2.1) + roundUp (c.dim * c.elem) 64 * k) (ledgerPieces c items))
    else []
  (indexed qs).map (fun e =>
    let it := items.find? (fun i => i.use = .spill e.2.qindex)
    { e.2 with slot := (it.map (·.runs)).getD [], ledger := payload e.1 })

/-- The batch-table entry of a batch that reaches step 7 (R150, R154). -/
def Pend.toBatch (p : Pend) : Batch :=
  { handle := p.handle, core := p.core, die := p.die, off := p.off, isG := p.isG, mask := p.mask, desc := p.desc
    active := p.index.length, phase := .walking, takenAcked := false, res := resOf p.index p.admitted p.maint, slots := [], ops := [], opGot := [], toWrite := []
    built := false, budget := 0, failDetail := none, acked := 0, jstate := .ledgered, replaying := none, items := p.items }

/-- The queries and maintenance descriptors of a batch are released in ascending query index (R150, R326). -/
def Slice.releaseBatch (env : Capstan) (sl : Slice) (c : Ctx) (b : Batch) (qs : List Query) (ms : List (Nat × List Byte)) : Slice :=
  let sl := qs.foldl (fun sl q => sl.release env c q) sl
  ms.foldl (fun sl e => sl.sendMaint env (maintMsg sl.id b.handle b.desc e)) sl

/-- The TAKEN increase of a batch (R148, R182), with the batch-taken report (R142). -/
def Slice.takeBatch (sl : Slice) (b : Batch) : Slice :=
  (sl.issueCompl (b.write b.desc.compl .addU32 (tagOf b.desc.batchId seqTaken) (toLe 4 b.active) .taken)).reportTaken b.die b.core
    b.desc.batchId

/-- Steps 7 and 8 of R150. -/
def Slice.admitBatch (env : Capstan) (sl : Slice) (c : Ctx) (p : Pend) : Slice :=
  let b := p.toBatch
  let sl := { sl with ing := { sl.ing with batches := sl.ing.batches ++ [b] } }
  let sl := sl.takeBatch b
  let sl := (sl.count 0x601 0 (some c.id) 1).count 0x603 0 (some c.id) b.active
  sl.releaseBatch env c b (withSlots c p.desc p.items p.admitted) p.maint

end Sys2Proof.Machine
end

