-- ==== Sys2Proof/Machine/Requests.lean ====
section
/-!
DEFINITION. What becomes of those who wait for data that does not come: poison from memory (R491), a page that is not there (R377), an
access that failed (R379), and the stop of a slice (R503).
-/

namespace Sys2Proof.Machine

/-! ### A slice stops (R503) -/

/-- Class codes of CAP_FAULT (R489). -/
def classMemoryPoison : Nat := 0x02
def classSliceStop : Nat := 0x04

/-- A slice stops and reports it (R503). `unit` is the SRAM instance and `row` its row, where one is concerned (R524). -/
def Slice.stop (sl : Slice) (unit : Nat) (row : Option Nat) : Slice :=
  if sl.stopped then sl else ({ sl with stopped := true }).tell (.fault sl.id classSliceStop unit row)

/-! ### Query state lost (R488) -/

/-- A guest query is discarded and reported to its home through the Capstan (R488). -/
def Slice.discardGuest (sl : Slice) (q : Query) : Slice :=
  let (sl, _) := sl.removeQueries (fun x => x.home = q.home && x.batch = q.batch && x.qindex = q.qindex)
  (sl.leave q).tell (.lost q.home q.batch q.qindex)

/-- Whether runs of cask units hold a unit. -/
def holdsUnit (runs : List (Nat × Nat)) (u : Nat) : Bool := runs.any (fun r => r.1 ≤ u && u < r.1 + r.2)

/-- The owner of a cask unit is found, and acted on (R488): the query of a spill slot, the batch of a combining area or a
ledger. Not found, the slice stops. -/
def Slice.loseUnit (sl : Slice) (ctx u unit : Nat) (row : Option Nat) : Slice :=
  let mine (b : Batch) : Option (Nat × Option Nat) :=
    if b.desc.ctx != ctx || b.phase = .closed then none
    else (b.items.find? (fun i => holdsUnit i.runs u)).map (fun i => match i.use with
      | .spill q => (b.handle, some q)
      | _ => (b.handle, none))
  match sl.ing.batches.findSome? mine with
  | some (h, some q) => (sl.queryLost h q).tell (.fault sl.id classQueryLost unit row)
  | some (h, none) => (sl.startReplay h []).tell (.fault sl.id classQueryLost unit row)
  | none =>
    match sl.queries.find? (fun q => q.guest && q.ctx = ctx && holdsUnit q.slot u) with
    | some q => (sl.discardGuest q).tell (.fault sl.id classQueryLost unit row)
    | none => sl.stop unit row

/-- The loss of a line of a context's cask (R487, R488). -/
def Slice.loseLine (env : Capstan) (sl : Slice) (ctx addr unit : Nat) (row : Option Nat) : Slice :=
  match env.ctx? ctx with
  | none => sl.stop unit row
  | some c =>
    if c.caskBase ≤ addr && addr < c.caskBase + c.caskSize then sl.loseUnit ctx ((addr - c.caskBase) / 256) unit row
    else sl.stop unit row

/-! ### Who waits for a line -/

/-- A query with the layer its work begins again at (R77). -/
abbrev Held := Query × Option Nat

/-- The queries of packets parked on a node-cache register's line; the register is FREE again (R325). -/
def Slice.takeNode (sl : Slice) (lay reg : Nat) : List Held × Slice :=
  match (sl.cache.nodeMiss lay).find? (fun m => m.reg = reg) with
  | none => ([], sl)
  | some m =>
    let here (p : Packet) : Bool := p.ctx = m.ctx && p.miss = m.addr && p.reg = reg
    let qs := (sl.walkers lay).flatMap (fun w => (w.parked.filter here).flatMap (·.members))
    let sl := (List.range 8).foldl (fun (sl : Slice) w =>
      sl.setWalker lay w (fun x => { x with parked := x.parked.filter (fun p => !here p) })) sl
    (qs.map (fun q => (q, none)), { sl with cache := sl.cache.freeNodeReg lay reg })

/-- The rows in work of a job leave it (R302): those of an evaluated leaf keep the outputs of the layer before the one in work.
The rows that wait start again as a job of their own. -/
def Slice.takeJob (env : Capstan) (sl : Slice) (lay id : Nat) : List Held × Slice :=
  match sl.job? lay id with
  | none => ([], sl)
  | some j =>
    let sl := sl.dropJob env lay j
    match j.kind with
    | .eval _ _ =>
      let row (e : Nat × Query) : Held :=
        let l := match (j.replay.getD e.1 none) with
          | some p => p.layer
          | none => j.layer
        (j.kept e.1 l e.2, some l)
      ((indexed j.rows).map row, match j.nextRows with
        | none => sl
        | some again => sl.startJob env lay again)
    | _ => (j.rows.map (fun q => (q, none)), sl)

/-- Whether a run needs a line: it asks for it when it tries again with no request pending. -/
def Slice.runNeeds (env : Capstan) (sl : Slice) (r : RunWait) (addr : Nat) : Bool :=
  let probe := ({ sl with cache := { sl.cache with misses := [], waiting := [] } }).tryRun env r
  probe.cache.misses.any (fun m => m.addr = addr && m.ctx = r.gather.ctx) ||
    probe.cache.waiting.any (fun w => w.addr = addr && w.ctx = r.gather.ctx)

/-- A run that waits for a line gives up its queries. -/
def Slice.takeRun (env : Capstan) (sl : Slice) (id ctx addr : Nat) : List Held × Slice :=
  let need (r : RunWait) : Bool := r.id = id && r.gather.ctx = ctx && sl.runNeeds env r addr
  let qs := (sl.work.runs.filter need).flatMap (fun r => r.gather.members)
  (qs.map (fun q => (q, none)), { sl with work := { sl.work with runs := sl.work.runs.filter (fun r => !need r) } })

/-- The queries behind a requester of a line, taken out of where they wait. -/
def Slice.takeWaiting (env : Capstan) (sl : Slice) (ctx addr : Nat) (r : Requester) : List Held × Slice :=
  match r with
  | .node lay reg => sl.takeNode lay reg
  | .tile lay job _ => sl.takeJob env lay job
  | .run _ id => sl.takeRun env id ctx addr
  | .write _ _ => ([], sl)
  | .whole _ _ _ _ => ([], sl)
  | .flush => ([], sl)
  | .stream _ _ => ([], sl)
  | .refetch => ([], sl)
  | .comb _ => ([], sl)
  | .ledger _ => ([], sl)

/-- The code of a requester in STR_FAULT (R394). -/
def Requester.source : Requester → Nat
  | .node _ _ => 16
  | _ => 17

/-! ### What they meet -/

/-- Memory returned poison (R491): each query that needs the line completes with DATA_LOST. -/
def Slice.poisonQueries (env : Capstan) (sl : Slice) (qs : List Query) : Slice :=
  match qs with
  | [] => sl
  | q :: _ => (qs.foldl (fun sl x => sl.loseData env x) sl).tell (.fault sl.id classMemoryPoison 0xFF (some q.batchId))

/-- A failed access (R379): its queries end as in a tree fault, the context enters CONTEXT_FAULT, one record is written. -/
def Slice.failAccess (env : Capstan) (sl : Slice) (ctx fcause addr : Nat) (qs : List Query) : Slice :=
  let irq := if entersFault env sl ctx then some Irq.contextError else none
  let (b, q) := match qs.head? with
    | some x => (x.batchId, x.qindex)
    | none => (0xFFFFFFFF, 0xFFFFFFFF)
  let sl := qs.foldl (fun sl x => (sl.leave x).tell (.ended x.home x.batch x.qindex)) sl
  (sl.tell (.ctxFault ctx 3 fcause b q addr)).log env 0x2003 (toLe 2 ctx ++ toLe 1 fcause ++ toLe 4 b ++ toLe 4 q)
    { tail := some (toLe 8 addr), irq := irq }

/-- FCAUSE of R461. -/
def causePageFailed : Nat := 1
def causeNoResponse : Nat := 2
def causeCask : Nat := 3

/-- STR_FAULT and STR_FAULT_ADDR capture an access, with a record (R394). -/
def Slice.captureAccess (env : Capstan) (sl : Slice) (source ctx resume addr : Nat) (failed : Bool) : Slice :=
  let r : Reg := BitVec.ofNat 64 (1 + place source 5 1 + flag failed 6 + place ctx 12 8 + place resume 32 32)
  let a : Reg := BitVec.ofNat 64 (addr % 2 ^ 48)
  ({ sl with str := { sl.str with fault := r, faultAddr := a } }).log env 0x7001 (toLe 8 r.toNat) { tail := some (toLe 8 a.toNat) }

/-- The page of an address (R375). -/
def pageOf (addr : Nat) : Nat := addr / 4096

/-- A page request is sent unless one is outstanding for the page (R375). -/
def Slice.askPage (env : Capstan) (sl : Slice) (ctx addr : Nat) : Slice :=
  match env.ctx? ctx with
  | none => sl
  | some c =>
    let there : Bool := env.hl.pages.any (fun p => p.asid = c.asid && p.page = pageOf addr) ||
      decide (Notice.page c.asid (pageOf addr) ∈ sl.mail)
    if there then sl else (sl.tell (.page c.asid (pageOf addr))).count 0x405 0 (some ctx) 1

/-- A cask access was not translated (R380): the context enters CONTEXT_FAULT; no page request is made. -/
def Slice.caskFault (env : Capstan) (sl : Slice) (ctx addr : Nat) (failed : Bool) : Slice :=
  (sl.captureAccess env 17 ctx 0 addr failed).failAccess env ctx causeCask addr []

end Sys2Proof.Machine
end

