-- ==== Sys2Proof/Machine/Ledger.lean ====
section
/-!
DEFINITION. The ledger as a replay reads it (R161, R347, R348, R491, R494 step 4), through the slice cache; the batches that a proxy takes
from a dead slice's journal (R505 steps 3 and 4).
-/

namespace Sys2Proof.Machine

/-! ### Reading a ledger (R347, R348) -/

/-- A reading of a ledger goes on: each line it lacks is looked up in the slice cache, and asked for where it is not there. -/
def Slice.readLedger (env : Capstan) (sl : Slice) (h : Nat) (c : Ctx) (items : List CaskItem) (r : LedgerRead) : LedgerRead × Slice :=
  ((ledgerLines c items).filter (fun a => (fromSectors r.got a (List.range 8)).isNone)).foldl (fun (acc : LedgerRead × Slice) a =>
    match acc.2.readLine env (.ledger h) .stream c.id a 0 with
    | (some d, sl) => (acc.1.take (lineSectors a d.1) (sectorAddrs a d.2), sl)
    | (none, sl) => (acc.1.take (sl.cache.arrived .stream c.id a) [], sl)) (r, sl)

/-- The lines of a ledger in order, with their poisoned sectors, once all are there. -/
def LedgerRead.whole (r : LedgerRead) (c : Ctx) (items : List CaskItem) : Option (List (List Byte × List Nat)) :=
  let ls := (ledgerLines c items).map (fun a => (fromSectors r.got a (List.range 8)).map (fun bs =>
    (bs, (List.range 8).filter (fun k => decide (a + 32 * k ∈ r.poison)))))
  if ls.all Option.isSome then some (ls.filterMap id) else none

/-- Where the record of the k-th active query stands in a ledger, and where its payload does, as offsets (R347). -/
def recordOff (d : Desc) (c : Ctx) (n k : Nat) : Nat := 256 * (ledgerUnits d c n).1 + recordBytes d c * k
def payloadOff (d : Desc) (c : Ctx) (n k : Nat) : Nat :=
  256 * ((ledgerUnits d c n).1 + (ledgerUnits d c n).2.1) + roundUp (c.dim * c.elem) 64 * k

/-- The record and the payload of each of the `n` active queries, from the bytes of the ledger. -/
def ledgerRecs (d : Desc) (c : Ctx) (n : Nat) (bytes : List Byte) : List (List Byte × List Byte) :=
  (List.range n).map (fun k => ((bytes.drop (recordOff d c n k)).take (recordBytes d c),
    if hasPayload d c then (bytes.drop (payloadOff d c n k)).take (c.dim * c.elem) else []))

/-- Which of the active queries have poison in their record or payload; all where it is in the ledger's head (R491). -/
def ledgerPoisoned (d : Desc) (c : Ctx) (n : Nat) (ls : List (List Byte × List Nat)) : List Nat :=
  let bad := (indexed ls).flatMap (fun e => e.2.2.map (fun k => 256 * e.1 + 32 * k))
  let touched (a len : Nat) : Bool := bad.any (fun x => x < a + len && a < x + 32)
  if touched 0 (72 + (if d.accMapped then 4 * n else 0)) then List.range n
  else (List.range n).filter (fun k => touched (recordOff d c n k) (recordBytes d c) ||
    (hasPayload d c && touched (payloadOff d c n k) (c.dim * c.elem)))

/-- The queries, or the maintenance descriptors, of a batch as its ledger holds them (R53, R347). -/
def ledgerQueries (home handle : Nat) (d : Desc) (c : Ctx) (items : List CaskItem) (qs : List Nat) (bytes : List Byte) :
    List Query × List (Nat × List Byte) :=
  let rs := qs.zip (ledgerRecs d c qs.length bytes)
  if d.maint then ([], rs.map (fun r => (r.1, r.2.1))) else (withSlots c d items (rs.map (fun r => queryOf home handle d c r.1 r.2)), [])

/-- Poison met in a query's part of a ledger (R489, R491). -/
def Slice.ledgerPoison (sl : Slice) (batchId : Nat) (poisoned : List Nat) : Slice :=
  poisoned.foldl (fun (sl : Slice) _ => sl.tell (.fault sl.id classMemoryPoison 0xFF (some batchId))) sl

/-- A query whose ledger copy is poisoned has ended DATA_LOST (R491). -/
def QRes.loseLedger (bad : List Nat) (r : QRes) : QRes :=
  if r.q ∈ bad then { r with stat := .dataLost, ended := some 0, flags := noFlags } else r

/-- The queries of a batch that have ended DATA_LOST go on to their results; the others are released (R491, R494 step 4). -/
def Slice.runLedger (env : Capstan) (sl : Slice) (c : Ctx) (b : Batch) (qs : List Query) (ms : List (Nat × List Byte)) : Slice :=
  let lost := (b.res.filter (fun r => r.stat = .dataLost)).map (·.q)
  let sl := lost.foldl (fun sl q => sl.queryDone env b.handle q) sl
  sl.releaseBatch env c b (qs.filter (fun q => !(q.qindex ∈ lost))) (ms.filter (fun m => !(m.1 ∈ lost)))

/-- A batch whose ledger has been read runs again (R491, R494 steps 4 and 5). Queries that have completed DATA_LOST keep that status. -/
def Slice.rerun (env : Capstan) (sl : Slice) (c : Ctx) (b : Batch) (ls : List (List Byte × List Nat)) : Slice :=
  let qs := b.res.map (·.q)
  let had := (b.res.filter (fun r => r.stat = .dataLost)).map (·.q)
  let bad := ((ledgerPoisoned b.desc c qs.length ls).map (fun k => qs.getD k 0)).filter (fun q => !(q ∈ had))
  let b := { b with res := b.res.map (QRes.loseLedger bad), reading := none }
  let x := ledgerQueries sl.id b.handle b.desc c b.items qs (ls.flatMap (·.1))
  ((sl.ledgerPoison b.desc.batchId bad).setBatch b).runLedger env c b x.1 x.2

/-- The reading of a batch's ledger goes on, if one is under way; with its last line the batch runs again. -/
def Slice.reread (env : Capstan) (sl : Slice) (h : Nat) : Slice :=
  match sl.batch? h with
  | none => sl
  | some b =>
    match b.reading, env.ctx? b.desc.ctx with
    | some r, some c =>
      let (r, sl) := sl.readLedger env h c b.items r
      match r.whole c b.items with
      | none => sl.setBatch { b with reading := some r }
      | some ls => sl.rerun env c b ls
    | _, _ => sl

/-! ### Batches of a dead slice (R505) -/

/-- What a journal entry that was read says, with another state (R497). -/
def journalEntry (e : JournalRead) (items : List CaskItem) (js : JState) : JEntry :=
  { batchId := e.batchId, core := field e.core 8 0, die := field e.core 13 9, jstate := js, acked := e.acked, runs := ledgerRuns items }

/-- The state that a sound entry names (R498). -/
def jstateOf (e : JournalRead) : JState := if e.jstate = 1 then .ledgered else if e.jstate = 2 then .taken else .accum

/-- A journal batch takes a free entry of the proxy's table, and the proxy writes its own journal entry for it (R505 step 3). -/
def Slice.adopt (env : Capstan) (sl : Slice) (dead handle : Nat) (e : JournalRead) (items : List CaskItem) : Slice :=
  match env.ctx? e.ctx with
  | none => sl
  | some c =>
    let a : Adopting := { handle := handle, dead := dead, entry := e, items := items }
    let sl := { sl with ing := { sl.ing with adopting := sl.ing.adopting ++ [a] } }
    sl.journalAll env c handle (journalEntry e items (jstateOf e))

/-- Journal batches take free entries in order while there are any (R505). `fuel` bounds the batches. -/
def adoptAll (env : Capstan) : (fuel : Nat) → Slice → Slice
  | 0, sl => sl
  | fuel + 1, sl =>
    match sl.ing.fromJournal, sl.freeHandle with
    | (dead, e, items) :: rest, some h =>
      adoptAll env fuel (({ sl with ing := { sl.ing with fromJournal := rest } }).adopt env dead h e items)
    | _, _ => sl

def Slice.adoptWaiting (env : Capstan) (sl : Slice) : Slice := adoptAll env sl.ing.fromJournal.length sl

/-- The active queries of a ledger with their result slots, from its head (R138, R347): LANEQ is 0 for NSUB. -/
def ledgerIndex (d : Desc) (bytes : List Byte) : List (Nat × Nat) :=
  let act := activeOf d (d.laneq != 0) (le bytes 64 8)
  act.zip (if d.accMapped then (List.range act.length).map (fun k => le bytes (72 + 4 * k) 4) else act)

/-- The batch-table entry of a batch of a dead slice, whose ledger has been read: `bad` are the queries whose copy is poisoned. -/
def Adopting.toBatch (a : Adopting) (d : Desc) (mask : Nat) (index : List (Nat × Nat)) (bad : List Nat) (qs : List Query)
    (ms : List (Nat × List Byte)) : Batch :=
  { handle := a.handle, core := field a.entry.core 8 0, die := field a.entry.core 13 9, off := 0, isG := d.laneq != 0, mask := mask, desc := d
    active := index.length, phase := .walking, takenAcked := a.entry.jstate != 1, res := (resOf index qs ms).map (QRes.loseLedger bad)
    slots := [], ops := [], opGot := [], toWrite := [], built := false, budget := 0, failDetail := none, acked := a.entry.acked
    jstate := jstateOf a.entry, replaying := none, items := a.items }

/-- A batch of a dead slice is homed here (R505 step 4), its ledger read: a LEDGERED one has its TAKEN increase issued and is reported
taken; then it runs. -/
def Slice.adopted (env : Capstan) (sl : Slice) (c : Ctx) (a : Adopting) (ls : List (List Byte × List Nat)) : Slice :=
  let bytes := ls.flatMap (·.1)
  let d := descOf bytes
  let index := ledgerIndex d bytes
  let qs := index.map (·.1)
  let x := ledgerQueries sl.id a.handle d c a.items qs bytes
  let bad := (ledgerPoisoned d c qs.length ls).map (fun k => qs.getD k 0)
  let b := a.toBatch d (le bytes 64 8) index bad x.1 x.2
  let sl := { sl with ing := { sl.ing with batches := sl.ing.batches ++ [b], adopting := sl.ing.adopting.filter (fun y => y.handle != a.handle) } }
  let sl := sl.ledgerPoison d.batchId bad
  let sl := if a.entry.jstate = 1 then
      let sl := sl.takeBatch b
      { sl with ing := { sl.ing with adopted := sl.ing.adopted ++ [(b.die, b.core, a.entry.batchId)] } }
    else sl
  (sl.runLedger env c b x.1 x.2).count 0x706 0 (some c.id) 1

/-- The reading of the ledger of a batch that a proxy adopts goes on. -/
def Slice.adoptOn (env : Capstan) (sl : Slice) (h : Nat) : Slice :=
  match sl.ing.adopting.find? (fun a => a.handle = h) with
  | none => sl
  | some a =>
    match a.reading, env.ctx? a.entry.ctx with
    | some r, some c =>
      let (r, sl) := sl.readLedger env h c a.items r
      let keep (x : Adopting) : Adopting := { x with reading := some r }
      match r.whole c a.items with
      | none => { sl with ing := { sl.ing with adopting := updateWhere (fun x => x.handle = h) keep sl.ing.adopting } }
      | some ls => sl.adopted env c a ls
    | _, _ => sl

/-- Whether a journal line of a batch-table entry has still to settle (R500). -/
def Slice.unsettledLine (sl : Slice) (handle : Nat) : Bool := sl.ing.jwrites.any (fun j => j.handle = some handle)

/-- The proxy's entry is settled (R505 step 3): the dead slice's becomes FREE, and the ledger is read. -/
def Slice.adoptSettles (env : Capstan) (sl : Slice) (a : Adopting) : Slice :=
  match env.ctx? a.entry.ctx with
  | none => sl
  | some c =>
    let start (x : Adopting) : Adopting := { x with reading := some {} }
    let sl := { sl with ing := { sl.ing with adopting := updateWhere (fun x => x.handle = a.handle) start sl.ing.adopting } }
    (sl.writeJournal env c a.dead a.entry.handle 0 (journalEntry a.entry a.items .free) none none).adoptOn env a.handle

/-- The batches a proxy adopts whose journal entries are settled (R505 step 3). -/
def Slice.adoptSettled (env : Capstan) (sl : Slice) : Slice :=
  (sl.ing.adopting.filter (fun a => a.reading.isNone && !sl.unsettledLine a.handle)).foldl (fun sl a => sl.adoptSettles env a) sl

/-- The readings of ledgers that are under way go on. -/
def Slice.ledgersMoved (env : Capstan) (sl : Slice) : Slice :=
  let sl := (sl.ing.batches.filter (fun b => b.reading.isSome)).foldl (fun sl b => sl.reread env b.handle) sl
  (sl.ing.adopting.filter (fun a => a.reading.isSome)).foldl (fun sl a => sl.adoptOn env a.handle) sl

end Sys2Proof.Machine
end

