-- ==== Sys2Proof/Machine/Holds.lean ====
section
/-!
DEFINITION. Whether anything of a context is left on a slice or in flight: what keeps its activation slot (R469), what keeps its pass
from being empty (R383).
-/

namespace Sys2Proof.Machine

/-- Whether the Capstan takes decisions now (R28, R511, R512). -/
def Capstan.acts (c : Capstan) : Bool := c.hl.restarting.isNone && !c.hl.failed && c.su.power = .running

/-- Whether a slice holds queries, results or stream blocks of a context, wherever they stand. -/
def Slice.holdsWork (sl : Slice) (ctx : Nat) : Bool :=
  let mine (q : Query) : Bool := q.ctx = ctx
  sl.ing.meshOut.any (fun w => w.ctx = ctx) || sl.ing.meshWait.any (fun w => w.ctx = ctx) ||
    sl.mash.bins.any (fun b => b.ctx = ctx) || sl.mash.overflow.any (fun o => o.2.2.any mine) ||
    sl.mash.gathers.any (fun g => g.ctx = ctx) || sl.mash.gatherWait.any mine || sl.work.hitched.any mine ||
    sl.work.runs.any (fun r => r.gather.ctx = ctx) || (sl.work.jobs0 ++ sl.work.jobs1).any (fun j => j.ctx = ctx) ||
    (sl.work.walkers0 ++ sl.work.walkers1).any (fun w => (w.work.toList ++ w.parked).any (fun p => p.ctx = ctx)) ||
    (sl.rope.ports.flatMap (fun p => p.ptrq ++ p.leaving) ++ sl.rope.sendq.map (·.1)).any (fun m => match m.body with
      | .migratePtr q => mine q
      | .migrate q => mine q
      | _ => false)

/-- Whether a block is one of a context. -/
def Block.isOfCtx (ctx : Nat) (b : Block) : Bool :=
  match b.use with
  | .dropped => false
  | .result w => w.ctx = ctx
  | _ => b.ctx = ctx

/-- Whether a stream, or a producer, holds blocks of a context (R469). -/
def Slice.holdsBlocks (sl : Slice) (ctx : Nat) : Bool :=
  sl.str.queued.any (fun q => q.block.isOfCtx ctx) || sl.str.streams.any (fun s =>
    (s.ring ++ s.window).any (Block.isOfCtx ctx) || s.transfers.any (fun t => !t.done && t.block.isOfCtx ctx))

/-- Whether a proxy has still to run a journal batch of a context (R505). -/
def Ingress.owedBatch (g : Ingress) (ctx : Nat) : Bool :=
  g.fromJournal.any (fun e => e.2.1.ctx = ctx) || g.adopting.any (fun a => a.entry.ctx = ctx)

/-- Whether a slice holds anything of a context (R469). -/
def Slice.holdsCtx (sl : Slice) (ctx : Nat) : Bool :=
  sl.ing.pendq.any (fun p => p.stage != .descriptor && p.desc.ctx = ctx) || sl.ing.batches.any (fun b => b.desc.ctx = ctx) ||
    sl.ing.owedBatch ctx || sl.holdsWork ctx || sl.holdsBlocks ctx

/-- Whether a slice holds anything of a context's pass (R383): a batch past step 3 of R150 that is not over, its work, or
a stream block that has not completed. -/
def Slice.holdsPass (sl : Slice) (ctx : Nat) : Bool :=
  sl.ing.pendq.any (fun p => (p.stage = .reserve || p.stage.holds) && p.desc.ctx = ctx) ||
    sl.ing.batches.any (fun b => b.desc.ctx = ctx && b.phase != .closed) ||
    sl.ing.owedBatch ctx || sl.holdsWork ctx || sl.holdsBlocks ctx

/-- The context of a message in flight that carries work of it. -/
def RopeMsg.ctxIs (s : State) (ctx : Nat) (m : RopeMsg) : Bool :=
  match m.body with
  | .migrate q => q.ctx = ctx
  | .migratePtr q => q.ctx = ctx
  | .maintDesc d => d.ctx = ctx
  | .maintAck d _ => d.ctx = ctx
  | .result r => (s.slices[m.dest]?.bind (fun sl => sl.batch? r.handle)).any (fun b => b.desc.ctx = ctx)

/-- Whether messages carry anything of a context. -/
def State.sends (s : State) (ctx : Nat) : Bool := s.rope.any (RopeMsg.ctxIs s ctx)

/-- Whether a slice's journal names a batch of a context (R500). -/
def Slice.journalled (sl : Slice) (ctx : Nat) : Bool :=
  sl.ing.batches.any (fun b => b.desc.ctx = ctx && b.phase != .closed) ||
    sl.ing.pendq.any (fun p => (p.stage = .ledger || p.stage = .journal) && p.desc.ctx = ctx) ||
    sl.ing.owedBatch ctx

/-- Whether a dead slice's journal that no proxy has read yet names a batch of a context (R505). -/
def State.unread (s : State) (ctx : Nat) : Bool :=
  s.cap.hl.deaths.any (fun d => !d.read && (s.slices[d.slice]?).any (fun sl => sl.journalled ctx))

/-- Whether anything of a context is left in the engine. -/
def State.holdsCtx (s : State) (ctx : Nat) : Bool :=
  s.slices.any (fun sl => s.cap.isLive sl.id && sl.holdsCtx ctx) || s.sends ctx || s.unread ctx

/-- Whether a pass is empty (R383); the batches of a dead slice are still in it until its proxy has read them (R505). -/
def State.passEmpty (s : State) (ctx : Nat) : Bool :=
  !(s.slices.any (fun sl => s.cap.isLive sl.id && sl.holdsPass ctx)) && !s.sends ctx && !s.unread ctx

end Sys2Proof.Machine
end

