-- ==== Sys2Proof/Machine/Hash.lean ====
section
/-!
DEFINITION. CRC-32C (R438), SHA-256 and HMAC-SHA-256, which R551 and R552 name (PRESUMED: FIPS 180-4 and RFC 2104, log entry 7).
-/

namespace Sys2Proof.Machine

/-! ### CRC-32C (R438) -/

/-- One bit of the reflected Castagnoli CRC. -/
def crcBit (c : BitVec 32) : BitVec 32 := if c.getLsbD 0 then (c >>> 1) ^^^ 0x82F63B78#32 else c >>> 1

/-- One byte. -/
def crcByte (c : Nat) (b : Byte) : Nat := ((List.range 8).foldl (fun c _ => crcBit c) (BitVec.ofNat 32 c ^^^ b.setWidth 32)).toNat

/-- Bytes in ascending order. The two cases are alike: looking at the state lets each byte be computed before the next. -/
def crcRun : List Byte → Nat → Nat
  | [], c => c
  | b :: bs, 0 => crcRun bs (crcByte 0 b)
  | b :: bs, c + 1 => crcRun bs (crcByte (c + 1) b)

/-- CRC-32C of bytes in ascending order. -/
def crc32c (bs : List Byte) : BitVec 32 := BitVec.ofNat 32 (crcRun bs 0xFFFFFFFF) ^^^ 0xFFFFFFFF#32

/-! ### SHA-256 -/

def shaK0 : List (BitVec 32) :=
  [0x428a2f98, 0x71374491, 0xb5c0fbcf, 0xe9b5dba5, 0x3956c25b, 0x59f111f1, 0x923f82a4, 0xab1c5ed5,
   0xd807aa98, 0x12835b01, 0x243185be, 0x550c7dc3, 0x72be5d74, 0x80deb1fe, 0x9bdc06a7, 0xc19bf174]

def shaK1 : List (BitVec 32) :=
  [0xe49b69c1, 0xefbe4786, 0x0fc19dc6, 0x240ca1cc, 0x2de92c6f, 0x4a7484aa, 0x5cb0a9dc, 0x76f988da,
   0x983e5152, 0xa831c66d, 0xb00327c8, 0xbf597fc7, 0xc6e00bf3, 0xd5a79147, 0x06ca6351, 0x14292967]

def shaK2 : List (BitVec 32) :=
  [0x27b70a85, 0x2e1b2138, 0x4d2c6dfc, 0x53380d13, 0x650a7354, 0x766a0abb, 0x81c2c92e, 0x92722c85,
   0xa2bfe8a1, 0xa81a664b, 0xc24b8b70, 0xc76c51a3, 0xd192e819, 0xd6990624, 0xf40e3585, 0x106aa070]

def shaK3 : List (BitVec 32) :=
  [0x19a4c116, 0x1e376c08, 0x2748774c, 0x34b0bcb5, 0x391c0cb3, 0x4ed8aa4a, 0x5b9cca4f, 0x682e6ff3,
   0x748f82ee, 0x78a5636f, 0x84c87814, 0x8cc70208, 0x90befffa, 0xa4506ceb, 0xbef9a3f7, 0xc67178f2]

/-- The 64 round constants. -/
def shaK : List (BitVec 32) := shaK0 ++ shaK1 ++ shaK2 ++ shaK3

/-- The initial hash value. -/
def shaInit : List (BitVec 32) :=
  [0x6a09e667, 0xbb67ae85, 0x3c6ef372, 0xa54ff53a, 0x510e527f, 0x9b05688c, 0x1f83d9ab, 0x5be0cd19]

/-- The number that bytes hold, highest first. -/
def beNat (bs : List Byte) : Nat := leNat bs.reverse

/-- The next word of the message schedule from the sixteen before it. -/
def shaNext (w : List (BitVec 32)) : BitVec 32 :=
  let a := w.getD 1 0
  let b := w.getD 14 0
  let s0 := a.rotateRight 7 ^^^ a.rotateRight 18 ^^^ (a >>> 3)
  let s1 := b.rotateRight 17 ^^^ b.rotateRight 19 ^^^ (b >>> 10)
  s1 + w.getD 9 0 + s0 + w.getD 0 0

/-- One round on the working variables. -/
def shaRound (h : List (BitVec 32)) (k w : BitVec 32) : List (BitVec 32) :=
  match h with
  | [a, b, c, d, e, f, g, x] =>
    let t1 := x + (e.rotateRight 6 ^^^ e.rotateRight 11 ^^^ e.rotateRight 25) + ((e &&& f) ^^^ (~~~e &&& g)) + k + w
    let t2 := (a.rotateRight 2 ^^^ a.rotateRight 13 ^^^ a.rotateRight 22) + ((a &&& b) ^^^ (a &&& c) ^^^ (b &&& c))
    [t1 + t2, a, b, c, d + t1, e, f, g]
  | _ => h

/-- The rounds of a block: the schedule's window of sixteen words moves on by one in each. -/
def shaRounds : List (BitVec 32) → List (BitVec 32) → List (BitVec 32) → List (BitVec 32)
  | [], _, h => h
  | k :: ks, w, h => shaRounds ks (w.drop 1 ++ [shaNext w]) (shaRound h k (w.getD 0 0))

/-- One block of 64 bytes. -/
def shaBlock (h : List (BitVec 32)) (block : List Byte) : List (BitVec 32) :=
  let w := (List.range 16).map (fun i => BitVec.ofNat 32 (beNat ((block.drop (4 * i)).take 4)))
  List.zipWith (· + ·) h (shaRounds shaK w h)

/-- The padded message. -/
def shaPad (m : List Byte) : List Byte :=
  m ++ [0x80] ++ List.replicate ((119 - m.length % 64) % 64) 0 ++ toBe 8 (8 * m.length)

/-- SHA-256. -/
def sha256 (m : List Byte) : List Byte :=
  let p := shaPad m
  ((chunks 64 p.length p).foldl shaBlock shaInit).flatMap (fun w => toBe 4 w.toNat)

/-- HMAC-SHA-256 under a key of at most 64 bytes. -/
def hmac (key m : List Byte) : List Byte :=
  let k := key ++ List.replicate (64 - key.length) 0
  sha256 (k.map (· ^^^ 0x5C) ++ sha256 (k.map (· ^^^ 0x36) ++ m))

end Sys2Proof.Machine
end

