-- ==== Sys2Proof/Machine/Logline.lean ====
section
/-!
DEFINITION. The Capstan's Logline (R527 to R543) and its interrupt messages (R577 to R579, R600); CAP_FAULT (R524).
-/

namespace Sys2Proof.Machine

/-! ### Interrupt messages (R578, R600) -/

/-- The class of an event (R577). -/
def Irq.cls : Irq → Nat
  | .contextError => 0 | .deadlineMiss => 1 | .faultNotice => 2 | .loglineThreshold => 3

/-- Messages that wait move to the port while fewer than 16 are held (R600), and none while the Capstan restarts (R511). -/
def Capstan.refillPort (c : Capstan) : Capstan :=
  if c.hl.restarting.isSome then c
  else
    let k := 16 - c.irq.held.length
    { c with irq := { c.irq with held := c.irq.held ++ c.irq.wait.take k, wait := c.irq.wait.drop k } }

/-- Whether the engine may send messages (R578). -/
def Capstan.maySend (c : Capstan) : Bool := c.su.state != .notReady && c.su.state != .failed && !c.irq.closed

/-- The message of class `k` is sent (R578). -/
def Capstan.message (c : Capstan) (k : Nat) : Capstan :=
  let m := c.img.irqs.getD k (0, 0)
  if m.1 = 0 || !c.maySend then c
  else Capstan.refillPort { c with irq := { c.irq with wait := c.irq.wait ++ [m] } }

/-- An interrupt event is counted, its pending bit set, its message sent (R578). -/
def Capstan.event (c : Capstan) (i : Irq) : Capstan :=
  let k := i.cls
  let fires := bit c.irq.mask k && !bit c.irq.pend k
  let c := { c with irq := { c.irq with pend := c.irq.pend ||| 2 ^ k
                                        counts := updateAt (fun n => satAdd 0xFFFF n 1) k c.irq.counts } }
  if fires then c.message k else c

/-! ### Writing records (R527 to R533) -/

/-- ORIGIN (R527). -/
def LogRec.origin (r : LogRec) : Nat := (if r.capstan then 0 else r.slice % 32) + flag r.capstan 5 + flag r.held 6

/-- The 32 bytes of a record (R527). -/
def LogRec.bytes (r : LogRec) (seq package : Nat) : List Byte :=
  let b := toLe 4 seq ++ toLe 2 r.code ++ toLe 2 (package % 4096) ++ toLe 8 r.time ++ toLe 1 r.origin ++ padTo 11 r.data
  b ++ toLe 4 (crc32c b).toNat

/-- The oldest record of the last runnings leaves, its tail with it (R533). -/
def dropOldest : List Stored → List Stored
  | [] => []
  | r :: rest => if r.isHead then rest.drop 1 else rest

/-- The record with the next SEQ, in the area it belongs to (R528, R532, R533). -/
def Capstan.store (c : Capstan) (r : LogRec) (isHead toFirst : Bool) : Capstan :=
  let x : Stored := { seq := c.log.next, bytes := r.bytes c.log.next.toNat c.img.package, isHead := isHead }
  let log := { c.log with next := c.log.next + 1 }
  { c with log := if toFirst then { log with first := log.first ++ [x] }
                  else { log with last := (if 7168 ≤ log.last.length then dropOldest log.last else log.last) ++ [x] } }

/-- The value that the threshold is compared with (R543). -/
def Capstan.unread (c : Capstan) : Nat := (c.log.next - c.log.mark).toNat

/-- The comparison of R543: one event when the value first reaches a threshold that is not zero. -/
def Capstan.compareMark (c : Capstan) : Capstan :=
  if c.log.armed && c.log.thresh != 0 && c.log.thresh ≤ c.unread then
    Capstan.event { c with log := { c.log with armed := false } } .loglineThreshold
  else c

/-- A record of the Capstan at its engine time. -/
def Capstan.rec' (c : Capstan) (code : Nat) (data : List Byte) : LogRec :=
  { code := code, time := c.now, slice := 0, capstan := true, held := false, data := data }

/-- A record, or an extended event, is written (R529, R532): into the first runnings while they have room; where one slot is
left for two records, FR_CLOSED takes it. -/
def Capstan.record (c : Capstan) (head : LogRec) (tail : Option LogRec) : Capstan :=
  let room := 1024 - c.log.first.length
  let opened : Bool := room != 0
  match tail with
  | none => (c.store head false opened).compareMark
  | some t =>
    if opened && 2 ≤ room then (((c.store head true true).compareMark).store t false true).compareMark
    else
      let c := if opened then (c.store (c.rec' 0x0003 []) false true).compareMark else c
      (((c.store head true false).compareMark).store t false false).compareMark

/-- A record of the Capstan's own (R540). -/
def Capstan.note (c : Capstan) (code : Nat) (data : List Byte) (tail : Option (List Byte) := none) : Capstan :=
  c.record (c.rec' code data) (tail.map (c.rec' 0xF000))

/-! ### CAP_FAULT (R489, R490, R524) -/

/-- A fault is captured, recorded and notified. -/
def Capstan.captureFault (c : Capstan) (cls slice : Nat) (inCapstan : Bool) (unit detail : Nat) : Capstan :=
  let r : Reg := BitVec.ofNat 64 (1 + place cls 8 8 + place slice 5 16 + flag inCapstan 21 + place unit 8 24 + place detail 32 32)
  let c := { c with hl := { c.hl with fault := r, faultTime := BitVec.ofNat 64 c.now }
                    su := { c.su with faultLow := c.su.faultLow || cls = 0x0A || cls = 0x0B || cls = 0x0C } }
  let c := c.note 0x9001 (toLe 8 r.toNat)
  if cls = 0x01 then c else c.event .faultNotice

/-! ### Reading (R541, R558 to R560) -/

/-- The SEQ of the oldest record of the last runnings (R559). -/
def Logline.oldest (l : Logline) : BitVec 32 :=
  match l.last.head? with
  | some r => r.seq
  | none => l.next

/-- What a selection finds (R541, R562): 1 FOUND with the record, 2 GONE, 3 NOT_YET. -/
def Logline.select (l : Logline) (area : Bool) (index : Nat) : Nat × List Byte :=
  if area then
    match l.first[index]? with
    | some r => if r.lost then (2, []) else (1, r.bytes)
    | none => (if index < 1024 then 3 else 2, [])
  else
    let i := BitVec.ofNat 32 index
    match l.last[(i - l.oldest).toNat]?.filter (fun r => !r.lost) with
    | some r => (1, r.bytes)
    | none => (if (i - l.next).toNat < 2 ^ 31 then 3 else 2, [])

/-- The words of a record do not decode any more (R530). -/
def Logline.lose (l : Logline) (area : Bool) (index : Nat) : Logline :=
  if area then { l with first := updateAt (fun r => { r with lost := true }) index l.first }
  else { l with last := updateAt (fun r => { r with lost := true }) (BitVec.ofNat 32 index - l.oldest).toNat l.last }

/-- LOG_HEAD (R558). -/
def Logline.headReg (l : Logline) : Reg :=
  BitVec.ofNat 64 (l.next.toNat + place l.first.length 11 32 + place l.clears 8 43)

/-- LOG_LAST (R559). -/
def Logline.lastReg (l : Logline) : Reg := BitVec.ofNat 64 (l.oldest.toNat + place l.last.length 13 32)

/-- LOG_DROP (R560). -/
def Logline.dropReg (l : Logline) : Reg := BitVec.ofNat 64 (min l.dropLimited 0xFFFFFFFF + min l.dropHeld 0xFFFFFFFF * 2 ^ 32)

end Sys2Proof.Machine
end

