-- ==== Sys2Proof/Machine/Deliver.lean ====
section
/-!
DEFINITION. What follows from a slice's step beyond the slice: its notices are handed to the Rope, to home slices and to the Capstan
before the step ends (log entry 8). Boundaries (R382, R383), CONTEXT_FAULT (R127, R461), the start of an epoch change (R415),
the overrun record (R387).
-/

namespace Sys2Proof.Machine

/-- Slice `i` changed by `f`, which may read the Capstan as the slice sees it. -/
def State.atSlice (s : State) (i : Nat) (f : Capstan → Slice → Slice) : State :=
  match s.slices[i]? with
  | none => s
  | some sl => { s with slices := s.slices.set i (f (sl.view s.cap) sl) }

/-- Every slice changed by `f`. -/
def State.eachSlice (s : State) (f : Capstan → Slice → Slice) : State :=
  { s with slices := s.slices.map (fun sl => f (sl.view s.cap) sl) }

/-! ### The context table (R457, R460) -/

/-- CSTATE and the pass state as the status block codes them. -/
def CState.code : CState → Nat
  | .invalid => 0 | .valid => 1 | .fault => 2

def PassState.code : PassState → Nat
  | .none => 0 | .running => 0 | .draining => 1 | .halted => 2

/-- The status block (R460). -/
def Ctx.status (c : Ctx) : Bytes :=
  let b0 := c.cstate.code + place c.pass.code 2 2 + flag c.missedNow 4 + flag c.missedLast 5 + flag c.pend.isSome 6
  toLe 1 b0 ++ toLe 1 c.fclass ++ toLe 1 c.fcause ++ toLe 1 0 ++ toLe 4 c.passId ++ toLe 4 c.fbatch ++ toLe 4 c.fqindex ++
    toLe 8 (c.faddr % 2 ^ 48) ++ toLe 4 c.appliedSeq ++ toLe 4 c.misses ++ toLe 8 c.passStart ++ toLe 8 0

/-- The blocks of a context are written (R457): the status block in full, and the live and the pending block where they have changed. -/
def Ctx.entry (c : Ctx) (old : Option TableEntry) : TableEntry :=
  { ctx := c.id, live := c.live, pend := c.pend.getD ((old.map (·.pend)).getD (List.replicate 48 0)), status := c.status }

/-- The entries of a context are written (R457). -/
def Capstan.writeEntry (c : Capstan) (id : Nat) : Capstan :=
  { c with table := match c.ctx? id with
      | none => c.table
      | some x => insertBy (fun a b => decide (a.ctx < b.ctx)) (x.entry (c.table.find? (fun e => e.ctx = id)))
          (c.table.filter (fun e => e.ctx != id)) }

/-- The context of an id changed by `f`, with its blocks in the context table. -/
def Capstan.onCtx (c : Capstan) (id : Nat) (f : Ctx → Ctx) : Capstan :=
  Capstan.writeEntry { c with ctxs := updateWhere (fun x => x.id = id) f c.ctxs } id

/-- The Capstan broadcasts the CSTATE of every context (R470). -/
def State.broadcast (s : State) : State :=
  let states := (s.cap.ctxs.filter (fun x => x.cstate != .invalid)).map (fun x => (x.id, x.cstate))
  { s with slices := s.slices.map (fun sl => { sl with cctx := { sl.cctx with states := states } }) }

def State.onCap (s : State) (f : Capstan → Capstan) : State := { s with cap := f s.cap }

/-- Ingress on every slice goes on with its pending queue: a context has changed (R156, R383, R469, R470). -/
def State.admitAll (s : State) : State := s.eachSlice (fun env sl => if sl.works env then sl.admitWaiting env else sl)

/-! ### The end of a pass (R381, R383, R387, R464) -/

/-- The OVERRUN record of a context that missed its deadline (R387): the time of the event less T_R + D. -/
def Capstan.overrun (c : Capstan) (x : Ctx) : Capstan :=
  match x.overrunFrom with
  | none => c
  | some due =>
    (c.onCtx x.id (fun y => { y with overrunFrom := none })).note 0x5002
      (toLe 2 x.id ++ toLe 4 x.passId ++ toLe 4 (min (c.now - due) 0xFFFFFFFF))

/-- CTX_CMD_RESULT with an outcome (R478, R479). -/
def resultReg (code : Nat) (busy : Bool) (op ctx detail : Nat) : Reg :=
  BitVec.ofNat 64 (place code 8 0 + flag busy 8 + flag true 9 + place ctx 12 10 + place op 4 22 + place detail 8 32)

/-- The code of an operation (R464). -/
def CtxOp.code : CtxOp → Nat
  | .validate => 1 | .invalidate => 2 | .stage => 3 | .boundary => 4 | .clearFault => 5

/-- The command in progress ends; each refusal has its record (R478, R479). -/
def Capstan.endCmd (c : Capstan) (code detail : Nat) : Capstan :=
  match c.cmd with
  | none => c
  | some k =>
    let c := { c with ctxResult := resultReg code false k.op.code k.ctx detail, cmd := none }
    if code = 1 then c else c.note 0x2006 (toLe 2 k.ctx ++ toLe 1 k.op.code ++ toLe 1 code ++ toLe 1 detail)

/-- The command in progress ends with DONE if it is this one. -/
def Capstan.cmdDone (c : Capstan) (op : CtxOp) (ctx : Nat) : Capstan :=
  if c.cmd.any (fun k => k.op = op && k.ctx = ctx) then c.endCmd 1 0 else c

/-- A pass has ended: the context is INVALID under INVALIDATE, HALTED in CONTEXT_FAULT, or its next pass starts (R381, R464). -/
def Ctx.passOver (c : Ctx) : Ctx :=
  let c := { c with missedLast := c.missedNow, emptied := [] }
  if c.toInvalid then { c with cstate := .invalid, pass := .none, toInvalid := false, tick := none, deadlineArmed := false }
  else if c.faulted then { c with pass := .halted, tick := none, deadlineArmed := false }
  else { c with awaitStart := true }

/-- The Capstan declares a pass ended; every live slice has reported it empty (R383, R591). -/
def State.endPass (s : State) (c : Ctx) : State :=
  let s := s.eachSlice (fun env sl => if env.isLive sl.id && !(sl.id ∈ c.emptied) then sl.count 0x406 0 (some c.id) 1 else sl)
  let s := (s.onCap (fun k => (k.overrun c).onCtx c.id Ctx.passOver)).broadcast
  if c.toInvalid then (s.onCap (fun k => k.cmdDone .invalidate c.id)).admitAll
  else if c.faulted then s.admitAll
  else s

/-- A draining pass that is empty ends; while the Capstan restarts the declaration waits (R383). -/
def State.endIfEmpty (s : State) (ctx : Nat) : State :=
  match s.cap.ctx? ctx with
  | none => s
  | some c => if c.pass = .draining && !c.awaitStart && s.cap.acts && s.passEmpty ctx then s.endPass c else s

/-! ### Boundaries (R382, R383) -/

/-- The bins and gathers of a context that drains are ready (R198, R202, R383). -/
def Slice.drainCtx (sl : Slice) (ctx : Nat) : Slice :=
  { sl with mash := { sl.mash with
      bins := updateWhere (fun b => b.ctx = ctx) (fun b => { b with ready := some .age }) sl.mash.bins
      gathers := updateWhere (fun g => g.ctx = ctx) (fun g => { g with ready := some .age }) sl.mash.gathers } }

/-- A boundary is requested (R382 to R384): a RUNNING pass drains, and ends at once if it is empty; a request while DRAINING adds
none. `tick` is the frame tick that requested it. -/
def State.boundaryOf (s : State) (ctx : Nat) (tick : Option Nat) : State :=
  match s.cap.ctx? ctx with
  | none => s
  | some c =>
    if c.pass = .running then
      let s := s.onCap (fun k => k.onCtx ctx (fun c => { c with pass := .draining, emptied := [], tick := tick }))
      (s.eachSlice (fun _ sl => sl.drainCtx ctx)).endIfEmpty ctx
    else s

/-! ### CONTEXT_FAULT (R71, R127, R461) -/

/-- The fault fields of a context keep the first fault (R461). -/
def Ctx.takeFault (c : Ctx) (fclass fcause batch qindex addr : Nat) : Ctx :=
  let addrs := if fclass = 2 && !(addr ∈ c.faultAddrs) && c.faultAddrs.length < 64 then c.faultAddrs ++ [addr] else c.faultAddrs
  let c := { c with cstate := .fault, faultAddrs := addrs }
  if c.fclass = 0 then { c with fclass := fclass, fcause := fcause, fbatch := batch, fqindex := qindex, faddr := addr } else c

/-- A context enters CONTEXT_FAULT, or has a further fault; its pass ends once its batches have drained (R127). -/
def State.ctxFault (s : State) (ctx fclass fcause batch qindex addr : Nat) : State :=
  match s.cap.ctx? ctx with
  | none => s
  | some c =>
    if c.cstate = .invalid then s
    else
      let s := (s.onCap (fun k => k.onCtx ctx (fun c => c.takeFault fclass fcause batch qindex addr))).broadcast
      (s.boundaryOf ctx none).admitAll

/-! ### Epoch changes (R415) -/

/-- The dead slices as a mask (R540). -/
def Capstan.deadMask (c : Capstan) : Nat :=
  c.ids.foldl (fun m i => m + flag (c.hl.slices.getD i .absent = .deadPass || c.hl.slices.getD i .absent = .deadIsolated) i) 0

/-- Step 1 of R415: the change is recorded; one that arises during a change follows it. -/
def Capstan.startEpoch (c : Capstan) : Capstan :=
  if c.hl.epochBusy then { c with hl := { c.hl with epochAgain := true } }
  else
    let e := (c.hl.epoch + 1) % 65536
    let c := { c with hl := { c.hl with epoch := e, epochBusy := true, epochAgain := false, drained := [] } }
    c.note 0x8002 (toLe 2 e ++ toLe 4 c.deadMask)

/-- A link without a working module is lost (R410): both its ports are, and the epoch changes. -/
def Capstan.loseLink (c : Capstan) (slice port : Nat) : Capstan :=
  let mate := match c.neighbour slice port with
    | some t => [(t, facing port)]
    | none => []
  let new := ((slice, port) :: mate).filter (fun l => !(l ∈ c.hl.lostLinks))
  if new.isEmpty then c
  else
    let c := { c with hl := { c.hl with lostLinks := c.hl.lostLinks ++ new } }
    (c.captureFault 0x06 slice false 0xFF 0).startEpoch

/-! ### Quiet contexts (R387) -/

/-- Whether a slice keeps a context from being quiet: a batch in its pending queue, one admitted and not over, or one that it has still to run
for a dead slice (R505). -/
def Slice.busyWith (sl : Slice) (ctx : Nat) : Bool :=
  sl.ing.pendq.any (fun p => p.stage != .descriptor && p.desc.ctx = ctx) ||
    sl.ing.batches.any (fun b => b.desc.ctx = ctx && b.phase != .closed) || sl.ing.owedBatch ctx

/-- Whether a context is quiet (R387). -/
def State.quiet (s : State) (ctx : Nat) : Bool :=
  !(s.slices.any (fun sl => s.cap.isLive sl.id && sl.busyWith ctx)) && !s.unread ctx

/-- Contexts that missed their deadline and are quiet now have their second record (R387). -/
def State.overruns (s : State) : State :=
  if s.cap.hl.restarting.isSome || s.cap.hl.failed then s
  else
    let late := s.cap.ctxs.filter (fun x => x.overrunFrom.isSome && s.quiet x.id)
    s.onCap (fun c => late.foldl (fun c x => c.overrun x) c)

/-! ### Notices -/

/-- The Capstan takes a notice. -/
def State.capTakes (s : State) (n : Notice) : State :=
  match n with
  | .activate slice ctx =>
    if (slice, ctx) ∈ s.cap.actWait || s.cap.isActive ctx then s
    else s.onCap (fun c => { c with actWait := c.actWait ++ [(slice, ctx)] })
  | .ctxFault ctx fclass fcause batch qindex addr => s.ctxFault ctx fclass fcause batch qindex addr
  | .loan slice ctx core batchId missing =>
    let l : Loan := { ctx := ctx, slice := slice, missing := missing, core := core, batchId := batchId }
    let rest := s.cap.loans.filter (fun x => !x.same l)
    if missing = 0 then s.onCap (fun c => { c with loans := rest })
    else if s.cap.loans.any (fun x => x.same l) then s.onCap (fun c => { c with loans := updateWhere (fun x => x.same l) (fun _ => l) c.loans })
    else s.onCap (fun c => { c with loans := c.loans ++ [l] })
  | .fault slice cls unit detail =>
    match detail with
    | some d => s.onCap (fun c => c.captureFault cls slice false unit d)
    | none =>
      { s with fresh := s.fresh + 1
               cap := s.cap.captureFault cls slice false unit ((Config.freeBits s.fresh).toNat % 2 ^ 32) }
  | .dropped k held =>
    s.onCap (fun c => { c with log := if held then { c.log with dropHeld := satAdd 0xFFFFFFFF c.log.dropHeld k }
                                      else { c.log with dropLimited := satAdd 0xFFFFFFFF c.log.dropLimited k } })
  | .lost home handle q => s.atSlice home (fun _ sl => sl.queryLost handle q)
  | .repair r => s.onCap (fun c => if c.hl.repairs.length < 4096 then { c with hl := { c.hl with repairs := c.hl.repairs ++ [r] } } else c)
  | .linkLost slice port => s.onCap (fun c => c.loseLink slice port)
  | .send m => { s with rope := s.rope ++ [m] }
  | .page asid page =>
    if s.cap.hl.pages.any (fun p => p.asid = asid && p.page = page) then s
    else s.onCap (fun c => { c with hl := { c.hl with pages := c.hl.pages ++ [{ asid := asid, page := page, since := c.tb.time }] } })
  | .ended home handle q => s.atSlice home (fun env sl => sl.queryStopped env handle q)

/-- Whether a notice goes to the Capstan. -/
def Notice.toCapstan : Notice → Bool
  | .send _ => false | .page _ _ => false | .ended _ _ _ => false
  | .activate _ _ => true | .ctxFault _ _ _ _ _ _ => true | .loan _ _ _ _ _ => true | .fault _ _ _ _ => true
  | .dropped _ _ => true | .lost _ _ _ => true | .repair _ => true | .linkLost _ _ => true

/-- A notice is delivered; what is for the Capstan waits while it restarts, and after a restart that failed (R488, R511, R512). -/
def State.notify (s : State) (n : Notice) : State :=
  if n.toCapstan && (s.cap.hl.restarting.isSome || s.cap.hl.failed) then
    s.onCap (fun c => { c with hl := { c.hl with waiting := c.hl.waiting ++ [n] } })
  else s.capTakes n

/-- The mail of slice `i` is delivered in order. -/
def State.readMail (s : State) (i : Nat) : State :=
  match s.slices[i]? with
  | none => s
  | some sl => sl.mail.foldl State.notify { s with slices := s.slices.set i { sl with mail := [] } }

/-- The mail of every slice is delivered, slice by slice; what its delivery makes other slices tell is delivered in two
further rounds. -/
def deliverAll (s : State) : State :=
  let ids := List.range s.slices.length
  State.overruns ((ids ++ ids ++ ids).foldl State.readMail s)

/-- The mail of slice `i` is delivered, then what follows from it. -/
def deliver (s : State) (i : Nat) : State := deliverAll (s.readMail i)

end Sys2Proof.Machine
end

