-- ==== Sys2Proof/Machine/Decodes.lean ====
section
/-!
DEFINITION. Words that do not decode (R483 to R488): rows out of use, the loss of query state, retired lays (R26, R205); the reads of a
walker's visit (R493).
-/

namespace Sys2Proof.Machine

/-! ### Retired lays (R26, R205) -/

/-- A bin joins a lay as long as its bank there has a descriptor; else its members wait in the bank's overflow bin (R204, R205, log
entry 65). -/
def Slice.takeBin (sl : Slice) (b : Bin) : Slice :=
  if sl.mash.bankFree b.lay b.bank then { sl with mash := { sl.mash with bins := sl.mash.bins ++ [b] } }
  else ({ sl with mash := sl.mash.addOverflow b.lay b.bank b.members }).forceOldest b.lay b.bank

/-- Every bin, overflow bin and gather passes to the lay that it belongs to now, its members' entry times kept (R197, R205, R615). -/
def Slice.rebin (sl : Slice) : Slice :=
  let m := sl.mash
  let left : Mash := { m with bins := [], overflow := [], gathers := m.gathers.map (fun (g : Gather) => { g with lay := sl.layOf g.leaf }) }
  let left := (m.overflow.flatMap (fun o => o.2.2)).foldl (fun (l : Mash) q => l.addOverflow (sl.layOf q.next.addr) (bankOf q.next.addr) [q]) left
  m.bins.foldl (fun (s : Slice) b => s.takeBin { b with lay := sl.layOf b.obj }) { sl with mash := left }

/-- A query returned from a lay that is lost enters the bin or gather of the object it was visiting (R205). -/
def Slice.returned (env : Capstan) (sl : Slice) (q : Query) : Slice :=
  if q.next.ckind = 6 then sl.gatherQuery env { q with entered := sl.time } else sl.toBin env q

/-- What a lay held passes to the other lay (R205): its walkers' packets, its jobs and its waiting runs are returned. -/
def Slice.passLay (env : Capstan) (sl : Slice) (lay : Nat) : Slice :=
  let sl := sl.rebin
  let packets := (sl.walkers lay).flatMap (fun w => w.work.toList.flatMap (·.members) ++ w.parked.flatMap (·.members))
  let rows := (sl.jobs lay).flatMap (fun j => j.rows ++ j.waiting)
  let runs := (sl.work.runs.filter (fun r => r.lay = lay)).flatMap (fun r => r.gather.members)
  let sl := (sl.jobs lay).foldl (fun sl j => sl.dropJob env lay j) sl
  let sl := (List.range 8).foldl (fun sl w => sl.setWalker lay w (fun _ => emptyWalker)) sl
  let sl := { sl with work := { sl.work with runs := sl.work.runs.filter (fun r => r.lay != lay) } }
  (packets ++ rows ++ runs).foldl (fun sl q => sl.returned env q) sl

/-- The trimmed lay is powered on by itself (R615): the lay that stayed powered is retired. -/
def Slice.autoPower (sl : Slice) (lay : Nat) : Slice :=
  if sl.work.layOff = some (1 - lay) then { sl with pwr := { sl.pwr with pendingOp := some 2, autoOn := true } } else sl

/-- A lay is retired (R26, R205); with both lays retired the slice stops (R503). -/
def Slice.retireLay (env : Capstan) (sl : Slice) (lay : Nat) : Slice :=
  if lay ∈ sl.work.layRetired then sl
  else
    let sl := { sl with work := { sl.work with layRetired := sl.work.layRetired ++ [lay] } }
    if 2 ≤ sl.work.layRetired.length then sl.stop 0xFF none else (sl.passLay env lay).autoPower lay

/-! ### Rows out of use (R486, R515, R526) -/

/-- A repair record made in operation (R515, R526): written to the Logline and told to the Capstan. -/
def Slice.repair (env : Capstan) (sl : Slice) (kind unit index : Nat) (retired : Bool) : Slice :=
  let r : Repair := { slice := sl.id, kind := kind, unit := unit, index := index, retired := retired, inService := true }
  (sl.tell (.repair r)).log env 0x1001 (toLe 1 sl.id ++ toLe 1 kind ++ toLe 2 unit ++ toLe 4 index ++ toLe 1 (flag retired 0) ++ toLe 1 1)

def classRowRetired : Nat := 0x09
def classUnitRetired : Nat := 0x08

/-- A row read UNCORRECTABLE is noted; the second time within 1 s it goes out of use (R486): `retired` where no spare row replaces it (R526). -/
def Slice.noteRow' (env : Capstan) (sl : Slice) (unit row : Nat) (retired : Bool) (retire : Slice → Slice) : Slice :=
  let again : Bool := sl.cache.badRows.any (fun b => b.1 = unit && b.2.1 = row && sl.time ≤ b.2.2 + 2000000000)
  let rest := sl.cache.badRows.filter (fun b => !(b.1 = unit && b.2.1 = row))
  if again then
    let sl := retire { sl with cache := { sl.cache with badRows := rest } }
    (sl.repair env 0x04 unit row retired).tell (.fault sl.id classRowRetired unit (some row))
  else { sl with cache := { sl.cache with badRows := rest ++ [(unit, row, sl.time)] } }

/-- The spare rows of a lay's operand buffer in use. -/
def Slice.operandRows (sl : Slice) (lay : Nat) : Nat := if lay = 0 then sl.work.opRows0 else sl.work.opRows1

/-- A spare row of an operand buffer replaces one; when none of the 32 is left the lay is retired (R486, R513). -/
def Slice.useOperandRow (env : Capstan) (sl : Slice) (lay : Nat) : Slice :=
  let n := sl.operandRows lay
  if 32 ≤ n then sl.retireLay env lay
  else { sl with work := if lay = 0 then { sl.work with opRows0 := n + 1 } else { sl.work with opRows1 := n + 1 } }

/-- The granules of a row leave the free list; those in use once they are freed (R486). -/
def Slice.dropGranules (sl : Slice) (row : Nat) : Slice :=
  let gs := (List.range 4).map (fun i => 4 * row + i)
  let st := sl.store
  { sl with store := (({ st with bad := st.bad ++ gs, free := [] } : Store).giveBack st.free) }

/-! ### Words that do not decode (R483 to R488) -/

/-- The use of the block that a stream buffer serves (R488): by the handles that wait in the splice queues, or that transfers hold. -/
def Slice.bufferUse (sl : Slice) (b : Nat) : Option BlockUse :=
  let blockAt (i index : Nat) : Option BlockUse := (sl.str.streams[i]?).bind (fun s =>
    match s.transfers.find? (fun t => t.index = index) with
    | some t => some t.block.use
    | none => ((s.window ++ s.ring)[wrapSub 32 index s.next]?).map (·.use))
  let held := sl.str.streams.flatMap (fun s => (s.transfers.filter Transfer.buffered).flatMap (fun t => t.handles))
  ((held ++ sl.str.splice.flatten.filter (fun h => !handlePoison h)).find? (fun h => handleBuf h = b)).bind (fun h => blockAt (handleStream h) (handleBlock h))

/-- A ledger is lost as it is written (R488): its batch has released no query yet, and begins again at step 5 of R150 (log entry 79). -/
def Slice.rewriteLedger (sl : Slice) (h : Nat) : Slice :=
  let again (p : Pend) : Pend := { p with stage := .records, admitted := [], maint := [] }
  let mine (p : Pend) : Bool := p.stage = .ledger && p.handle = h
  let n := (sl.ing.pendq.filter mine).length
  ({ sl.dropBlocks (Block.ledgers h) with ing := { sl.ing with pendq := updateWhere mine again sl.ing.pendq } }).count 0x706 0 none n

/-- The loss of a stream-buffer word (R487, R488): the batch, or the query, whose block the buffer serves. -/
def Slice.loseBuffer (sl : Slice) (b unit : Nat) (row : Option Nat) : Slice :=
  let told (sl : Slice) : Slice := sl.tell (.fault sl.id classQueryLost unit row)
  let query (home batch q : Nat) : Slice :=
    if home = sl.id then told (sl.queryLost batch q)
    else match sl.queries.find? (fun x => x.home = home && x.batch = batch && x.qindex = q) with
      | some x => told (sl.discardGuest x)
      | none => told (sl.tell (.lost home batch q))
  match sl.bufferUse b with
  | some (.result w) => told (match w.handle with
    | some h => sl.startReplay h []
    | none => sl)
  | some (.ledger h) => told (sl.rewriteLedger h)
  | some (.spill home batch q) => query home batch q
  | some (.restore home batch q) => query home batch q
  | _ => sl.stop unit row

/-- A slice-cache word that the code cannot correct (R484, R487): a clean line is dropped, and a reserved tile meets its row as poison (R301);
a dirty line and a stream buffer keep the word poisoned, and query state is lost. A word that is stored poisoned already has been handled. -/
def Slice.loseCached (env : Capstan) (sl : Slice) (set way word : Nat) : Slice :=
  match sl.cache.lines.find? (fun l => l.set = set && l.way = way) with
  | none => sl
  | some l =>
    let marked := { sl with cache := sl.cache.poisonWord set way word }
    if word / 2 ∈ l.poison then sl
    else match l.buf with
      | some b => marked.loseBuffer b way (some set)
      | none =>
        if l.dirty then marked.loseLine env l.ctx l.tag way (some set)
        else ({ sl with cache := (sl.cache.poisonSlot set way).dropLines (fun x => x.set = set && x.way = way) }).tell
          (.fault sl.id classRefetch way (some set))

/-- The words of an entry's first granule that hold its QINDEX and ORIGIN (R335, R336). -/
def originWord : Nat := 2

/-- A granule's word that the code cannot correct (R487, R488): the query that owns it is lost; the slice stops where it is the word that
says whose it is. -/
def Slice.loseGranule (sl : Slice) (g word : Nat) : Slice :=
  match sl.store.entries.find? (fun e => !e.spilled && e.runs.any (fun r => r.1 ≤ g && g < r.1 + r.2)) with
  | none => sl
  | some e =>
    if g = e.first && word = originWord then sl.stop 0x13 (some (g / 4))
    else
    let sl := if e.guest then
        match sl.queries.find? (fun q => q.owns e) with
        | some q => sl.discardGuest q
        | none => ({ sl with store := sl.store.drop (· = e) }).tell (.lost e.home e.batch e.qindex)
      else sl.startReplay e.batch []
    sl.tell (.fault sl.id classQueryLost 0x13 (some (g / 4)))

/-- An uncorrectable row of an operand buffer (R487, R301): it is poisoned, and with it the input activations, or the outputs, of the row of
the row group that it belongs to. -/
def Slice.loseOperand (sl : Slice) (lay row : Nat) : Slice :=
  match sl.bufferJob lay, (sl.opBuf lay).place? row with
  | some j, some (input, ri, i) =>
    let sl := (sl.setOpBuf lay ((sl.opBuf lay).poisonAt input ri i)).tell (.fault sl.id classRefetch (0x16 + lay) (some row))
    sl.setJob lay (if input then j.loseRow ri else j.loseOutputs ri i)
  | _, _ => sl

/-- A node-cache word that the code cannot correct (R487): the line of its slot is dropped. Row `r` of a lay holds the slots of ways 2 (r mod 4)
and 2 (r mod 4) + 1 of set r / 4 (log entry 67). -/
def Slice.loseNode (sl : Slice) (lay row word : Nat) : Slice :=
  let here (l : NcLine) : Bool := nodeSet l.addr = row / 4 && l.way = 2 * (row % 4) + word / 8 % 2
  if (sl.cache.node lay).any here then
    ({ sl with cache := sl.cache.setNode lay ((sl.cache.node lay).filter (fun l => !here l)) }).tell
      (.fault sl.id classRefetch (0x14 + lay) (some row))
  else sl

/-- The action on a word that the code cannot correct (R487). -/
def Slice.loseWord (env : Capstan) (sl : Slice) (r : ScrubRow) : Slice :=
  match r with
  | .sliceLine set way word => sl.loseCached env set way word
  | .nodeLine lay row word => sl.loseNode lay row word
  | .granule g word => sl.loseGranule g word
  | .operand lay row => sl.loseOperand lay row
  | .control unit row => sl.stop unit (some row)

/-- A row that reads UNCORRECTABLE, of those that can go out of use, is noted (R486). -/
def Slice.noteWord (env : Capstan) (sl : Slice) (r : ScrubRow) : Slice :=
  match r with
  | .sliceLine set way _ => sl.noteRow' env way set true (fun sl =>
      { sl with cache := { sl.cache with badSlots := sl.cache.badSlots ++ [set * 16 + way] } })
  | .nodeLine lay row _ => sl.noteRow' env (0x14 + lay) row true (fun sl =>
      { sl with cache := { sl.cache with badNode := sl.cache.badNode ++
          [(lay, row / 4, 2 * (row % 4)), (lay, row / 4, 2 * (row % 4) + 1)] } })
  | .granule g _ => sl.noteRow' env 0x13 (g / 4) true (fun sl => sl.dropGranules (g / 4))
  | .operand lay row => sl.noteRow' env (0x16 + lay) row (decide (32 ≤ sl.operandRows lay)) (fun sl => sl.useOperandRow env lay)
  | .control _ _ => sl

/-- The SRAM instance of a word (R513). -/
def scrubUnit : ScrubRow → Nat
  | .sliceLine _ way _ => way
  | .nodeLine lay _ _ => 0x14 + lay
  | .granule _ _ => 0x13
  | .operand lay _ => 0x16 + lay
  | .control unit _ => unit

/-- A decode is counted by its outcome (R483, R591). -/
def Slice.countDecode (sl : Slice) (r : ScrubRow) (o : WordCode) : Slice :=
  match o with
  | .ok => sl
  | .corrected => sl.count 0x701 (scrubUnit r) none 1
  | .uncorrectable => sl.count 0x702 (scrubUnit r) none 1
  | .poisoned => sl.count 0x703 (scrubUnit r) none 1

/-- A word is read (R483): POISONED and UNCORRECTABLE have the same action (R487), and an UNCORRECTABLE read counts towards the row (R486). -/
def Slice.decode (env : Capstan) (sl : Slice) (r : ScrubRow) (o : WordCode) : Slice :=
  let sl := sl.countDecode r o
  match o with
  | .ok => sl
  | .corrected => sl
  | .poisoned => sl.loseWord env r
  | .uncorrectable => (sl.loseWord env r).noteWord env r

/-- The words that a command's reads met. -/
def Slice.decodeAll (env : Capstan) (sl : Slice) (ds : Decodes) : Slice := ds.foldl (fun sl d => sl.decode env d.1 d.2) sl

/-! ### Readers of a line that is dropped (R487, R493) -/

/-- The lines of the TREE and WEIGHT ways, by partition, context and address, that a command's reads drop. -/
def Slice.lostLines (env : Capstan) (sl : Slice) (ds : Decodes) : List (Part × Nat × Nat) :=
  ds.flatMap (fun d => match d.1, d.2.bad with
    | .sliceLine set way word, true =>
      match sl.cache.lines.find? (fun l => l.set = set && l.way = way) with
      | some l => if word / 2 ∈ l.poison || l.buf.isSome || l.dirty then []
        else ([Part.tree, Part.weight].filter (fun p => bit (partMask env p) way)).map (fun p => (p, l.ctx, l.tag))
      | none => []
    | _, _ => [])

/-- The queries behind a requester that read a line which is dropped are hitched on it (R493). -/
def Slice.hitchReader (env : Capstan) (sl : Slice) (part : Part) (ctx addr : Nat) (r : Requester) : Slice :=
  let (qs, sl) := sl.takeWaiting env ctx addr r
  qs.foldl (fun sl h => sl.hitchQuery env h.1 { cause := .refetch, addr := addr, layer := h.2, source := r.source } part) sl

/-- Whether a requester reads lines for queries that wait: a node-cache register, or a run. -/
def Requester.reads : Requester → Bool
  | .node _ _ => true
  | .run _ _ => true
  | _ => false

/-- The readers that missed a line which their own reads had dropped: they would have read it. -/
def Slice.hitchReaders (env : Capstan) (sl : Slice) (lost : List (Part × Nat × Nat)) : Slice :=
  lost.foldl (fun sl l =>
    let rs := (sl.cache.misses.filter (fun m => m.st = .pending && m.part = l.1 && m.ctx = l.2.1 && m.addr = l.2.2)).flatMap (·.waiters) ++
      (sl.cache.waiting.filter (fun w => w.part = l.1 && w.ctx = l.2.1 && w.addr = l.2.2)).map (·.who)
    (rs.filter Requester.reads).foldl (fun sl r => sl.hitchReader env l.1 l.2.1 l.2.2 r) sl) sl

/-- What a slice goes on with unless it has stopped. -/
def Slice.whileUp (sl : Slice) (f : Slice → Slice) : Slice := if sl.stopped then sl else f sl

/-- What a slice does as its reads meet words (R482): the words have their effect, then it goes on, and those who read a dropped line of the
slice cache are hitched (R487). -/
def Slice.reading (env : Capstan) (sl : Slice) (ds : Decodes) (f : Slice → Slice) : Slice :=
  let lost := sl.lostLines env ds
  (sl.decodeAll env ds).whileUp (fun sl => (f sl).hitchReaders env lost)

/-! ### Words of queries that depart (R484) -/

/-- The words that a departing query's granules take in the body of its MIGRATE message (R406): word `w` of granule `i` of its entry, the
first granule first, the payload's after the walk state. -/
def Query.bodyWord (q : Query) (i w : Nat) : Nat :=
  if i = 0 then w else 8 + 2 * q.stack.length + ((6 * q.trail.length + 7) / 8 + 15) / 16 + 4 * (i - 1) + w

/-- The place of a granule in an entry. -/
def QEntry.placeOf (e : QEntry) (g : Nat) : Nat := (e.runs.flatMap (fun r => (List.range r.2).map (· + r.1))).idxOf g

/-- A query that departs without a step of its walk when it leaves the ready queue (R418). -/
def Slice.departs (env : Capstan) (sl : Slice) (q : Query) : Bool :=
  (sl.migratesTo env q).isSome && (env.ctx? q.ctx).any (fun c => (q.first (rootRef env c)).isNone)

/-- The query of `ms` to which a word belongs that is moved into a flit, and the word's place in the message. -/
def Slice.movedWord (env : Capstan) (sl : Slice) (ms : List Query) (r : ScrubRow) : Option (Query × Nat) :=
  match r with
  | .granule g w =>
    (sl.store.entries.find? (fun e => !e.spilled && e.runs.any (fun r => r.1 ≤ g && g < r.1 + r.2))).bind (fun e =>
      (ms.find? (fun q => q.owns e && sl.departs env q)).map (fun q => (q, q.bodyWord (e.placeOf g) w)))
  | _ => none

/-- Every query that waits in bins and gathers, as `f` makes it. -/
def Mash.each (f : Query → Query) (m : Mash) : Mash :=
  { m with bins := m.bins.map (fun (b : Bin) => { b with members := b.members.map f })
           gathers := m.gathers.map (fun (g : Gather) => { g with members := g.members.map f }) }

/-- A word of a departing query is read as it moves into a flit (R483, R484): it is counted, and where it does not decode the message carries it
poisoned; its receiver finds the query's state lost. -/
def Slice.moveWord (env : Capstan) (sl : Slice) (d : ScrubRow × WordCode) (q : Query) (word : Nat) : Slice :=
  let mark (x : Query) : Query := if x = q then { x with poison := x.poison ++ [word] } else x
  let sl := sl.countDecode d.1 d.2
  match d.2 with
  | .ok => sl
  | .corrected => sl
  | .poisoned => { sl with mash := sl.mash.each mark }
  | .uncorrectable => ({ sl with mash := sl.mash.each mark }).noteWord env d.1

/-- What a slice does as members leave its ready queue: the words of those that depart move with them (R484), the others are read where they
stand (R482). -/
def Slice.leavingReads (env : Capstan) (sl : Slice) (ms : List Query) (ds : Decodes) (f : Slice → Slice) : Slice :=
  let stays := ds.filter (fun d => (sl.movedWord env ms d.1).isNone)
  let move (sl : Slice) (d : ScrubRow × WordCode) : Slice := match sl.movedWord env ms d.1 with
    | some (q, word) => sl.moveWord env d q word
    | none => sl
  (ds.foldl move sl).reading env stays f

/-! ### What a tile reads (R301) -/

/-- The capture of a word that a tile's read meets (R301, R305), and what it makes of the outputs: a word of one of the `lines` that the tile
reads now, with their code in ARR_LEAF_POI, or of the operand buffer's input half. -/
def Slice.captureTile (env : Capstan) (sl : Slice) (lay : Nat) (j : Job) (t : Tile) (source : Nat) (lines : List Nat) (r : ScrubRow) : Slice :=
  match r with
  | .sliceLine set way _ =>
    match t.lines.find? (fun p => p.2 = (set, way) && decide (p.1 ∈ lines)) with
    | some p =>
      let j' := j.loseLine p.1
      ((sl.leafPoison env lay j t source j.rows.length).setJob lay j').storeOuts lay j' j'.tiles
    | none => sl
  | .operand l row =>
    match (sl.opBuf lay).place? row with
    | some (true, _, _) => if l = lay then sl.leafPoison env lay j t 2 1 else sl
    | _ => sl
  | _ => sl

/-- A tile's read of a word (R301, R483, R486): one that does not decode is captured before it has its effect. A line that is stored poisoned
already is captured only where the command tells of a word of it (log entry 86). -/
def Slice.tileRead (env : Capstan) (sl : Slice) (lay job ti source : Nat) (lines : List Nat) (d : ScrubRow × WordCode) : Slice :=
  let sl := match sl.job? lay job, d.2 with
    | some j, .poisoned => (j.tiles[ti]?).elim sl (fun t => sl.captureTile env lay j t source lines d.1)
    | some j, .uncorrectable => (j.tiles[ti]?).elim sl (fun t => sl.captureTile env lay j t source lines d.1)
    | _, _ => sl
  sl.decode env d.1 d.2

/-- The words that a step or the end of a tile reads. -/
def Slice.tileReads (env : Capstan) (sl : Slice) (lay job ti source : Nat) (lines : List Nat) (ds : Decodes) : Slice :=
  ds.foldl (fun sl d => sl.tileRead env lay job ti source lines d) sl

/-- Whether the slots of a node-cache row that reads met hold a line. -/
def hitsLine (ds : Decodes) (lay : Nat) (l : NcLine) : Bool :=
  ds.any (fun d => match d.1 with
    | .nodeLine x row word => (d.2 = .poisoned || d.2 = .uncorrectable) && x = lay && nodeSet l.addr = row / 4 &&
        l.way = 2 * (row % 4) + word / 8 % 2
    | _ => false)

/-- The node-cache lines that a packet's visit reads. -/
def Slice.objectLines (env : Capstan) (sl : Slice) (lay : Nat) (p : Packet) (c : Ctx) (ckind : Nat) : List Nat :=
  match sl.nodeBytes env lay p p.obj 128 with
  | .error _ => nodeLines p.obj 128
  | .ok head => nodeLines p.obj (objectBytes c.tree ckind p.obj head)

/-- The first line of a packet's object that lies in a word that does not decode. -/
def Slice.badNodeLine (env : Capstan) (sl : Slice) (ds : Decodes) (lay : Nat) (p : Packet) : Option Nat :=
  match env.ctx? p.ctx, p.members.head? with
  | some c, some q =>
    (sl.objectLines env lay p c q.next.ckind).find? (fun a =>
      (sl.cache.node lay).any (fun l => l.addr = a && l.ctx = p.ctx && l.gen = genOf env p.ctx && hitsLine ds lay l))
  | _, _ => none

/-- A walker's visit reads its object's lines and its queries' entries (R482): the queries of a packet whose object has a word that does not
decode are hitched on the line (R487, R493), and the walker goes on; else the visit is made. -/
def Slice.visitReads (env : Capstan) (sl : Slice) (lay w : Nat) (ds : Decodes) (visit : Slice → Slice) : Slice :=
  match ((sl.walkers lay)[w]?).bind (·.work) with
  | none => sl.reading env ds visit
  | some p =>
    match sl.badNodeLine env ds lay p with
    | none => sl.reading env ds visit
    | some a =>
      let sl := (sl.decodeAll env ds).setWork lay w none
      let h : Hitch := { cause := .refetch, addr := a, layer := none, source := 16 }
      (p.members.foldl (fun sl q => sl.hitchQuery env q h .tree) sl).resumeWalker env lay w

end Sys2Proof.Machine
end

