-- ==== Sys2Proof/Machine/Packets.lean ====
section
/-!
DEFINITION. The commands of the Mash, the walkers and the leaf stage (05_sorting_and_traversal.md, 07_evaluated_leaves.md), and the
departure and arrival of queries on the Rope (R418, R419). A command whose trigger the state does not meet changes
nothing (log entry 9).
-/

namespace Sys2Proof.Machine

/-! ### Slices that work -/

/-- A command of a slice's own work: it changes nothing on a slice that does not work, and work wakes a napping slice (R616). -/
def onLive (i : Nat) (s : State) (f : Capstan → Slice → Slice) : Out' :=
  onSlice deliver i s (fun env sl => if sl.works env then (f env sl).awaken else sl)

/-! ### Bins and gathers (R198, R202 to R204, R423) -/

/-- A bin whose oldest member has reached the flush age less 8 ns is ready by age (R198). -/
def Slice.flushBin (env : Capstan) (sl : Slice) (i : Nat) : Slice :=
  match sl.mash.bins[i]? with
  | none => sl
  | some b =>
    let age := match env.ctx? b.ctx with
      | some c => flushAgeOf env c
      | none => 0
    if sl.aged age b.members then
      { sl with mash := { sl.mash with bins := sl.mash.bins.set i { b with ready := some .age } } }
    else sl

/-- BIN_FLUSH_AGE (R198, R44): the flush age of bin number `bin` is reached. -/
def execBinFlushAge (slice bin : Nat) (s : State) : Out' := onLive slice s (fun env sl => sl.flushBin env bin)

/-- A gather whose oldest token has reached GATHER_AGE less 8 ns is ready by age (R202). -/
def Slice.flushGather (env : Capstan) (sl : Slice) (i : Nat) : Slice :=
  match sl.mash.gathers[i]? with
  | none => sl
  | some g =>
    let age := match env.ctx? g.ctx with
      | some c => gatherAgeOf env c
      | none => 0
    if sl.aged age g.members then
      { sl with mash := { sl.mash with gathers := sl.mash.gathers.set i { g with ready := some .age } } }
    else sl

/-- GATHER_AGE (R202, R44). -/
def execGatherAge (slice gather : Nat) (s : State) : Out' := onLive slice s (fun env sl => sl.flushGather env gather)

/-- The first member of an overflow bin moves to its proper bin once a descriptor is free, its entry time kept (R423). -/
def Slice.moveOverflow (env : Capstan) (sl : Slice) (lay bank : Nat) : Slice :=
  let at_ (o : Nat × Nat × List Query) : Bool := o.1 = lay && o.2.1 = bank
  match sl.mash.overflow.find? at_ with
  | some (_, _, q :: rest) =>
    if sl.mash.bankFree lay bank || sl.mash.bins.any (·.isFor lay q) then
      let others := sl.mash.overflow.filter (fun o => !at_ o)
      let queues := if rest.isEmpty then others else others ++ [(lay, bank, rest)]
      ({ sl with mash := { sl.mash with overflow := queues } }).binQuery env q
    else sl
  | _ => sl

/-- OVERFLOW_BIN_MOVE (R423). -/
def execOverflowBinMove (slice lay bank : Nat) (s : State) : Out' := onLive slice s (fun env sl => sl.moveOverflow env lay bank)

/-- A free walker takes the packet at the head of its lay's ready queue (R198, R203); the restore of spilled members begins (R339), the
members left behind stay in the bin. -/
def Slice.releaseBin (env : Capstan) (sl : Slice) (lay : Nat) : Slice :=
  if !sl.layRuns lay then sl
  else
    let (head, spilled) := sl.headBin env lay
    let sl := sl.restoreAll env spilled
    match sl.freeWalker lay, head with
    | some w, some b =>
      let ms := b.packet sl.time
      let rest := b.members.drop ms.length
      let left := if rest.isEmpty then sl.mash.bins.filter (fun x => !b.same x)
        else updateWhere b.same (fun x => sl.binAfter env x rest) sl.mash.bins
      let sl := { sl with mash := { sl.mash with bins := left } }
      let sl := (sl.count 0x104 lay (some b.ctx) 1).count 0x105 lay (some b.ctx) (if b.ready = some .age then 1 else 0)
      sl.startPacket env lay w { ctx := b.ctx, obj := b.obj, miss := 0, reg := 0, members := ms }
    | _, _ => sl

/-- BIN_RELEASE (R203), with the words that the release reads (R482). -/
def execBinRelease (slice lay : Nat) (s : State) (reads : Decodes := []) : Out' :=
  onLive slice s (fun env sl =>
    let ms := if (sl.freeWalker lay).isSome then (sl.headBin env lay).1.toList.flatMap (·.packet sl.time) else []
    sl.leavingReads env ms reads (fun sl => sl.releaseBin env lay))

/-! ### Node visits (R206 to R220, R228) -/

/-- The advances of a packet at a box, an instance or a host-leaf object, with the reports of host leaves and the stack
entries discarded. -/
def visitPacket (t : TreeCtx) (r : RootRef) (ckind : Nat) (bs : List Byte) (ms : List Query) :
    List Adv × List (Query × Hit) × Nat :=
  if ckind = 1 then
    (ms.map (visitBox t r bs), [],
     (ms.map (fun q => discards (boxChildren (boxSlots bs) q.frame.1 q.frame.2 q.tmin q.tmax q.skipHost q.gate) q)).sum)
  else if ckind = 3 then (ms.map (visitInstance t r bs), [], 0)
  else
    let vs := ms.map (fun q => (q, visitHost t r bs q))
    (vs.map (fun v => v.2.1), vs.filterMap (fun v => v.2.2.map (fun h => (v.1, h))), 0)

/-- The reports of host leaves go home (R228, R407). -/
def Slice.sendReports (env : Capstan) (sl : Slice) (rs : List (Query × Hit)) : Slice :=
  rs.foldl (fun sl e => sl.send env e.1.home (.result { resMsg e.1 .hostReport with hits := [e.2], parts := 0 })) sl

/-- A walker visits its object with its packet and splits the packet (R206 to R213, R219, R228). -/
def Slice.visitNode (env : Capstan) (sl : Slice) (lay w : Nat) : Slice :=
  match ((sl.walkers lay)[w]?).bind (·.work) with
  | none => sl
  | some p =>
    match env.ctx? p.ctx, p.members.head? with
    | some c, some q0 =>
      let k := q0.next.ckind
      if !(k = 1 || k = 3 || k = 7) then sl
      else match sl.visitBytes env lay w p c.tree k with
        | (none, sl) => sl
        | (some bs, sl) =>
          let (as, reports, lost) := visitPacket c.tree (rootRef env c) k bs p.members
          let wq := walkerQual lay w
          let n := p.members.length
          let sl := if k = 7 then sl
            else ((sl.count 0x101 wq (some c.id) 1).count 0x102 wq (some c.id) n).count 0x103 wq (some c.id) 4
          let sl := ((sl.count 0x108 wq (some c.id) n).count 0x109 wq (some c.id) (restarts as)).count 0x10A wq (some c.id) lost
          (sl.sendReports env reports).split env lay w c as
    | _, _ => sl

/-- BOX_NODE_VISIT (R208): the visit of a walker's packet to a box node, an instance node (R219) or a host leaf (R228), with the
words that it reads (R482). -/
def execBoxNodeVisit (slice lay walker : Nat) (s : State) (reads : Decodes := []) : Out' :=
  onLive slice s (fun env sl => sl.visitReads env lay walker reads (fun sl => sl.visitNode env lay walker))

/-- A node-cache fill is there (R324, R325): the packets on the register's list have the line, which is installed where the register is
PENDING; packets that wait go on. -/
def Slice.nodeFill (env : Capstan) (sl : Slice) (lay reg : Nat) : Slice :=
  match (sl.cache.nodeMiss lay).find? (fun m => m.reg = reg) with
  | none => sl
  | some m =>
    match m.ready with
    | none => sl
    | some d =>
      let line : NcLine := { way := 0, addr := m.addr, ctx := m.ctx, gen := genOf env m.ctx, data := d }
      let c := sl.cache.freeNodeReg lay reg
      let c := if m.st = .pending && m.gen = line.gen then c.nodeInstall lay line else c
      ((({ sl with cache := c }).giveParked lay reg m.addr d).askAgain env lay).resumeLay env lay

/-- A fill whose slice-cache line does not decode is not made: the queries that read it are hitched (R487, R493). -/
def Slice.nodeFillReads (env : Capstan) (sl : Slice) (lay reg : Nat) (reads : Decodes) : Slice :=
  let lost := sl.lostLines env reads
  sl.reading env reads (fun sl =>
    match (sl.cache.nodeMiss lay).find? (fun m => m.reg = reg) with
    | some m =>
      if m.ready.isSome && (Part.tree, m.ctx, lineAddr m.addr) ∈ lost then
        (sl.hitchReader env .tree m.ctx (lineAddr m.addr) (.node lay reg)).resumeLay env lay
      else sl.nodeFill env lay reg
    | none => sl)

/-- NODE_CACHE_FILL (R325), with the words that it reads (R482). -/
def execNodeCacheFill (slice lay reg : Nat) (s : State) (reads : Decodes := []) : Out' :=
  onLive slice s (fun env sl => sl.nodeFillReads env lay reg reads)

/-! ### Triangle leaves (R222 to R227) -/

/-- Ray-triangle tests that a ray makes at a leaf: in ANY mode none after the first accepted hit (R226). -/
def testsMade (recs : List Tri) (q : Query) : Nat :=
  if q.mode = 2 then
    match (List.range recs.length).find? (fun i => (testTriangles (recs.take (i + 1)) q).2.1) with
    | some i => i + 1
    | none => recs.length
  else recs.length

/-- The primitive test unit of a walker's strand, or the other where it is retired (R24): the qualifier U of R591. -/
def Slice.unitQual (sl : Slice) (lay w : Nat) : Nat :=
  let strand := w / 4 % 2
  if bit sl.work.ptuActive (2 * lay + strand) then 2 * lay + strand else 2 * lay + (1 - strand)

/-- A walker's group is tested against the records of its triangle leaf (R222 to R227). -/
def Slice.testLeaf (env : Capstan) (sl : Slice) (lay w : Nat) : Slice :=
  match ((sl.walkers lay)[w]?).bind (·.work) with
  | none => sl
  | some p =>
    match env.ctx? p.ctx, p.members.head? with
    | some c, some q0 =>
      if q0.next.ckind != 4 then sl
      else match sl.visitBytes env lay w p c.tree 4 with
        | (none, sl) => sl
        | (some bs, sl) =>
          let rs := p.members.map (visitTriangles c.tree (rootRef env c) bs)
          let bad := (triFault c.tree p.obj bs).isSome
          let tests := if bad then 0 else (p.members.map (testsMade (triRecords bs))).sum
          let sl := (sl.count 0x10D (sl.unitQual lay w) (some c.id) tests).count 0x10E (sl.unitQual lay w) (some c.id)
            ((rs.map (·.2)).sum)
          let as := rs.map (·.1)
          let sl := (sl.count 0x108 (walkerQual lay w) (some c.id) p.members.length).count 0x109 (walkerQual lay w) (some c.id)
            (restarts as)
          ((as.foldl (fun sl a => sl.settle env a) sl).setWork lay w none).resumeWalker env lay w
    | _, _ => sl

/-- PRIMITIVE_TEST (R222), with the words that it reads (R482). -/
def execPrimitiveTest (slice lay walker : Nat) (s : State) (reads : Decodes := []) : Out' :=
  onLive slice s (fun env sl => sl.visitReads env lay walker reads (fun sl => sl.testLeaf env lay walker))

/-! ### Tiles (R295 to R301) -/

/-- A tile's reservation is complete (R295, R318): the right to hold an incomplete one passes on; while a line is missing it
is asked for. -/
def Slice.completeReservation (env : Capstan) (sl : Slice) (lay job ti : Nat) : Slice :=
  if sl.work.reserving != some (lay, job, ti) then sl
  else match sl.job? lay job with
    | none => sl
    | some j =>
      let sl := sl.reserveLines env lay j ti
      match (sl.job? lay job).bind (fun j => j.tiles[ti]?.map (fun t => (j, t))) with
      | none => sl
      | some (j, t) =>
        if (sl.linesAsked lay j t).all (fun a => t.lines.any (fun l => l.1 = a)) then
          let sl := sl.setJob lay { j with tiles := updateAt (fun t => { t with st := .reserved }) ti j.tiles }
          ({ sl with work := { sl.work with reserving := none } }).grantReserving env lay
        else sl

/-- TILE_RESERVATION_COMPLETE (R295). -/
def execTileReservationComplete (slice lay job tile : Nat) (s : State) : Out' :=
  onLive slice s (fun env sl => sl.completeReservation env lay job tile)

/-- Arrays that a job's tiles may use: a strand's own two for tiles of its walkers (R24); every array of the lay for an evaluated leaf, and
where a strand has no active array left while the other has, for which the spec gives no rule (log entry 28). -/
def Slice.arraysFor (sl : Slice) (lay : Nat) (j : Job) : List Nat :=
  let all := List.range (sl.arrays lay)
  match j.kind with
  | .eval _ _ => all
  | _ =>
    let own := all.filter (fun a => a / 2 = j.walker / 4 % 2)
    if own.isEmpty then all else own

/-- The array that takes a tile's next segment (R299): the lowest one free that has run no segment of the tile; any free one where all
have. `used` are the arrays of the segments before, the last of which is free by now. -/
def Slice.freeArray (sl : Slice) (lay : Nat) (j : Job) (used : List Nat) : Option Nat :=
  let all := sl.arraysFor lay j
  let fresh := all.filter (fun a => !(a ∈ used))
  let own := used.getLastD 16
  let busy := (sl.busyArrays lay).filter (fun a => a != own)
  (if fresh.isEmpty then all else fresh).find? (fun a => !(a ∈ busy))

/-- The qualifier of an array (R591). -/
def arrayQual (lay a : Nat) : Nat := 4 * (lay % 2) + a % 4

/-- Whether the tiles of a job before tile `ti` have begun: blocks are given to arrays in ascending order (R299). -/
def Job.inTurn (j : Job) (ti : Nat) : Bool :=
  (j.tiles.take ti).all (fun t => match t.st with
    | .running _ => true
    | .finished => true
    | _ => false)

/-- A tile begins on a free array (R299): the states are empty (R251, R264). -/
def Slice.beginTile (env : Capstan) (sl : Slice) (lay : Nat) (j : Job) (ti : Nat) (t : Tile) : Option Tile :=
  if !j.inTurn ti then none
  else (sl.freeArray lay j []).map (fun a =>
    { t with st := .running 0, arrs := [a], chain := min (j.chainOver (sl.arrays lay)) (max (j.steps t.layer) 1)
             accs := j.emptyAccs (j.inputFmt (pfmtOf env j.ctx) t.layer) t })

/-- A running tile as it stands at step `k`: on the array of the step's segment, which it may have to wait for (R299). -/
def Slice.onSegment (sl : Slice) (lay : Nat) (j : Job) (t : Tile) (k : Nat) : Option Tile :=
  if segmentOf (j.steps t.layer) t.chain k < t.arrs.length then some t
  else (sl.freeArray lay j t.arrs).map t.nextSegment

/-- The step that a tile runs next. -/
def Tile.nextStep (t : Tile) : Nat :=
  match t.st with
  | .running k => k
  | _ => 0

/-- A tile begins, or passes to its next segment where its next step is of that (R299): none where it has no step to run, or no array. -/
def Slice.tileReady (env : Capstan) (sl : Slice) (lay : Nat) (j : Job) (ti : Nat) (t : Tile) : Option Tile :=
  if j.steps t.layer ≤ t.nextStep then none
  else match t.st with
    | .reserved => sl.beginTile env lay j ti t
    | .running k => sl.onSegment lay j t k
    | _ => none

/-- A tile as `f` makes it of the tile of a job. -/
def Slice.setTile (sl : Slice) (lay : Nat) (j : Job) (ti : Nat) (t : Tile) : Slice :=
  sl.setJob lay { j with tiles := updateAt (fun _ => t) ti j.tiles }

/-- A tile of a job. -/
def Slice.tile? (sl : Slice) (lay job ti : Nat) : Option (Job × Tile) :=
  (sl.job? lay job).bind (fun j => j.tiles[ti]?.map (fun t => (j, t)))

/-- Step `k` of a running tile (R296), the words that it reads decoded. -/
def Slice.runTile (env : Capstan) (sl : Slice) (lay job ti k : Nat) : Slice :=
  match sl.tile? lay job ti with
  | none => sl
  | some (j, t) =>
    let pf := pfmtOf env j.ctx
    let bad := sl.badLines lay j t
    let t := sl.noteLines env lay j (j.runStep (sl.opBuf lay).input sl.cache bad pf t k) bad (j.stepLines t k)
    let cost := if j.inputFmt pf t.layer = .bf16 then 4 * j.rows.length else j.rows.length
    let sl := (sl.count 0x202 (arrayQual lay t.arr) (some j.ctx) 1).count 0x203 (arrayQual lay t.arr) (some j.ctx) cost
    sl.setTile lay j ti t

/-- The next step of a tile of the row group in the operand buffer (R296), with the words that it reads (R301). -/
def Slice.stepTile (env : Capstan) (sl : Slice) (lay job ti : Nat) (reads : Decodes) : Slice :=
  if (sl.opBuf lay).job != some job then sl
  else match sl.tile? lay job ti with
    | none => sl
    | some (j, t0) =>
      match sl.tileReady env lay j ti t0 with
      | none => sl
      | some t =>
        let k := t0.nextStep
        let sl := (sl.setTile lay j ti t).handOver lay
        (sl.tileReads env lay job ti 0 (j.stepLines t k) reads).runTile env lay job ti k

/-- TILE_STEP (R296), with the words that the step reads (R482). -/
def execTileStep (slice lay job tile : Nat) (reads : Decodes) (s : State) : Out' :=
  onLive slice s (fun env sl => sl.stepTile env lay job tile reads)

/-- The outputs that the end of a tile forms (R282, R284, R298): its own; of a pair those of both layers, once both tiles are finished,
which stand with layer 0. -/
def Slice.tileFormed (env : Capstan) (sl : Slice) (j : Job) (ti : Nat) (t : Tile) : Slice × Job :=
  let put (i : Nat) (outs : List (List Out)) (j : Job) : Job := { j with tiles := updateAt (fun t => { t with outs := outs }) i j.tiles }
  let j := { j with tiles := updateAt (fun _ => t) ti j.tiles }
  match j.group with
  | [_, _] =>
    let first := if t.layer = 0 then ti else ti - 1
    match j.tiles[first]?, j.tiles[first + 1]? with
    | some t0, some t1 =>
      if t0.st = .finished && t1.st = .finished then
        let outs := j.pairOuts t0 t1 t0.bias t1.bias
        let (sl, j) := sl.formed env j outs (t0.poisonAt.or t1.poisonAt)
        (sl, put first outs j)
      else (sl, j)
    | _, _ => (sl, j)
  | _ =>
    let outs := j.tileOuts t t.bias
    let (sl, j) := sl.formed env j outs t.poisonAt
    (sl, put ti outs j)

/-- The end of a tile (R295, R298), the words that it reads decoded: its states are final, its outputs are formed and written to the operand
buffer where they belong there, its reservations are dropped; when the layers in work are complete the job goes on. -/
def Slice.endTile (env : Capstan) (sl : Slice) (lay job ti : Nat) : Slice :=
  match sl.tile? lay job ti with
  | none => sl
  | some (j, t) =>
    let bad := sl.badLines lay j t
    let t : Tile := sl.noteLines env lay j t bad (j.endLines t)
    let bias := j.readBias sl.cache t
    let t : Tile := { t with st := .finished, bias := bias, accs := j.markEnd bad t bias (mergeStates t.merged t.accs), merged := [] }
    let held : List (Nat × Nat) := t.lines.map (fun p => p.2)
    let sl : Slice := ({ sl with cache := sl.cache.unreserve held }).count 0x201 (arrayQual lay t.arr) (some j.ctx) 1
    let (sl, j) := sl.tileFormed env j ti { t with lines := [] }
    let sl := ((sl.setJob lay j).storeOuts lay j (j.tiles.filter (fun x => x.nb = t.nb))).handOver lay
    let (sl, as) := if j.layerDone then sl.advanceJob env lay j else (sl.grantReserving env lay, [])
    let sl := sl.count 0x109 (walkerQual lay j.walker) (some j.ctx) (restarts as)
    (as.foldl (fun sl a => sl.settle env a) sl).retryAll env

/-- A tile that has run its steps ends, with the words that its end reads (R301). -/
def Slice.completeTile (env : Capstan) (sl : Slice) (lay job ti : Nat) (reads : Decodes) : Slice :=
  match sl.tile? lay job ti with
  | none => sl
  | some (j, t) =>
    if t.st != .running (j.steps t.layer) then sl
    else (sl.tileReads env lay job ti 1 (j.endLines t) reads).endTile env lay job ti

/-- TILE_COMPLETE (R298), with the words that the end of the tile reads (R482). -/
def execTileComplete (slice lay job tile : Nat) (reads : Decodes) (s : State) : Out' :=
  onLive slice s (fun env sl => sl.completeTile env lay job tile reads)

/-! ### Runs (R202, R293) -/

/-- A ready gather gives the leaf sequencer a run (R202, R293): the members that entered earliest; the restore of spilled ones begins
(R339). -/
def Slice.runGather (env : Capstan) (sl : Slice) (lay : Nat) : Slice :=
  if !sl.layRuns lay then sl
  else
    let (head, spilled) := sl.headGather env lay
    let sl := sl.restoreAll env spilled
    match head with
    | none => sl
    | some g =>
      let ms := g.runMembers env
      let rest := g.members.drop ms.length
      let same (x : Gather) : Bool := x.ctx = g.ctx && x.leaf = g.leaf
      let left := if rest.isEmpty then sl.mash.gathers.filter (fun x => !same x)
        else updateWhere same (fun x => sl.gatherAfter env x rest) sl.mash.gathers
      let sl := { sl with mash := { sl.mash with gathers := left } }
      let sl := ((sl.count 0x10B lay (some g.ctx) 1).count 0x10C lay (some g.ctx) ms.length).count 0x108 (8 * lay) (some g.ctx)
        ms.length
      (sl.beginRun env lay { g with members := ms }).gatherAgain env

/-- GATHER_RUN (R293), with the words that the run reads (R482). -/
def execGatherRun (slice lay : Nat) (s : State) (reads : Decodes := []) : Out' :=
  onLive slice s (fun env sl =>
    sl.leavingReads env ((sl.headGather env lay).1.toList.flatMap (·.runMembers env)) reads (fun sl => sl.runGather env lay))

/-! ### Migration (R340, R418, R419) -/

/-- A word of the Rope buffers of a port (R513). -/
def ropeRow (port : Nat) : ScrubRow := .control (0x23 + port) 0

/-- A message of a query whose state does not decode: its first body word is poisoned (R484). -/
def RopeMsg.poisoned (m : RopeMsg) : RopeMsg :=
  match m.body with
  | .migrate q => { m with body := .migrate { q with poison := 0 :: q.poison } }
  | .migratePtr q => { m with body := .migratePtr { q with poison := 0 :: q.poison } }
  | _ => m

/-- The pointer at the head of a port's queue is sent when a migrate credit is free (R418); one that is read poisoned moves into its flit
poisoned (R484). -/
def Slice.sendPointer (env : Capstan) (sl : Slice) (port : Nat) (read : WordCode) : Slice :=
  match sl.rope.ports[port]? with
  | none => sl
  | some p =>
    match p.ptrq with
    | [] => sl
    | m :: rest =>
      let m := { (if read.bad then m.poisoned else m) with epoch := sl.rope.epoch }
      match (m.flits env).head?.bind p.sendOne with
      | none => sl
      | some x =>
        if sl.rope.hold then sl
        else
        let sl := { sl with rope := { sl.rope with ports := sl.rope.ports.set port { x with ptrq := rest } } }
        let sl := sl.countDecode (ropeRow port) read
        let left (sl : Slice) : Slice := match m.body with
          | .migratePtr q => (sl.leave (q.arriveAt sl.id)).count 0x507 port (some q.ctx) 1
          | _ => sl
        (((left sl).tell (.send m)).count 0x501 port none 1).queuePointers env

/-- POINTER_QUEUE_SEND (R418), with the outcome of the read of the pointer from the port's buffers (R482). -/
def execPointerQueueSend (slice port : Nat) (s : State) (read : WordCode := .ok) : Out' :=
  onLive slice s (fun env sl => sl.sendPointer env port read)

/-- An arriving query enters the bin or gather of its next object (R419), its entry time the moment of arrival. -/
def Slice.enterArrived (env : Capstan) (sl : Slice) (q : Query) : Slice :=
  let q := { q with entered := sl.time }
  if q.next.ckind = 6 then sl.gatherQuery env q else sl.binQuery env q

/-- A query that arrives with its state takes granules, or goes to its spill slot where none is free (R340, R419). At its home
slice it takes up its entry again (R337). The carried state is installed in its spill slot (R340, R341). -/
def Slice.landQuery (env : Capstan) (sl : Slice) (q : Query) : Slice :=
  let late (sl : Slice) : Slice :=
    ((({ sl with store := sl.store.addSpilled q }).writeSlot env q true).count 0x30A 0 (some q.ctx) 1).enterArrived env { q with spilled := true }
  match sl.store.entries.find? q.owns with
  | some e =>
    if e.spilled then
      match sl.takeGranules env { q with spilled := true } with
      | some (q, sl) => ((sl.writeSlot env q false).enterArrived env q).spillLow env
      | none => late sl
    else (sl.writeSlot env q false).enterArrived env { q with spilled := false, entry := e.first }
  | none =>
    match sl.store.place (entryGranules (q.payloadBytes env)) (kindCode q.kind) q.home q.batch q.qindex q.guest with
    | some (first, st) =>
      ((({ sl with store := st }).writeSlot env q false).enterArrived env { q with spilled := false, entry := first }).spillLow env
    | none => late sl

/-- Whether a message in flight has no maintenance message of the same source and destination before it: those arrive in the order in which
they were sent (R399). -/
def State.firstOfPath (s : State) (idx : Nat) (m : RopeMsg) : Bool :=
  m.vc != 3 || !(s.rope.take idx).any (fun x => x.vc = 3 && x.src = m.src && x.dest = m.dest)

/-- The message number `idx` in flight, if it is for the slice and may arrive, and the state without it. -/
def State.takeMsg (s : State) (slice idx : Nat) : Option (RopeMsg × State) :=
  match s.rope[idx]? with
  | some m => if m.dest = slice && s.firstOfPath idx m then some (m, { s with rope := s.rope.eraseIdx idx }) else none
  | none => none

/-- A message arrives at a slice that works, and wakes it (R616): `f` says what the slice does with it, none where it is not the message
named. A message of the new epoch is not there before the slice's HOLD is cleared (R415 steps 2 and 9). -/
def onArrival (slice idx : Nat) (s : State) (f : Capstan → Slice → RopeMsg → Option Slice) : Out' :=
  match s.slices[slice]? with
  | none => .next s
  | some sl =>
    match s.takeMsg slice idx with
    | none => .next s
    | some (m, s') =>
      if sl.works s.cap && !(sl.rope.hold && m.src != slice && m.epoch = sl.rope.epoch) then
        match f (sl.view s.cap) sl m with
        | none => .next s
        | some sl' => .next (deliver { s' with slices := s'.slices.set slice sl'.wake } slice)
      else .next s

/-- A query arrives, with the outcome of the read of its message from a port's buffers (R482): one whose words are poisoned, or do not decode,
is lost (R484, R488); one of the old run of a replay ends there (R494); else `land` takes it. -/
def Slice.arrives (sl : Slice) (q : Query) (read : Option (Nat × WordCode)) (land : Slice → Query → Slice) : Slice :=
  let sl := read.elim sl (fun r => sl.countDecode (ropeRow r.1) r.2)
  if sl.replaying q then sl.endOld q.batch q.qindex
  else if !q.poison.isEmpty || read.any (fun r => r.2.bad) then
    sl.loseQuery { q with guest := false } (read.elim 0xFF (fun r => 0x23 + r.1))
  else land sl q

/-- MIGRATE (R419): a query's state arrives. -/
def execMigrate (slice idx : Nat) (s : State) (read : Option (Nat × WordCode) := none) : Out' :=
  onArrival slice idx s (fun env sl m => match m.body with
    | .migrate q => some (sl.arrives q read (fun sl q => sl.landQuery env q))
    | _ => none)

/-- MIGRATE_PTR (R419): the query enters its bin as a spilled member. -/
def execMigratePtr (slice idx : Nat) (s : State) (read : Option (Nat × WordCode) := none) : Out' :=
  onArrival slice idx s (fun env sl m => match m.body with
    | .migratePtr q => some (sl.arrives q read (fun sl q =>
        ({ sl with store := sl.store.addSpilled q }).enterArrived env { q with spilled := true }))
    | _ => none)

end Sys2Proof.Machine
end

