-- ==== Sys2Proof/Machine/Fills.lean ====
section
/-!
DEFINITION. The memory port's answers (R313, R316, R317, R321, R323, R491): sectors of a fill, acknowledgements of eviction-buffer writes.
-/

namespace Sys2Proof.Machine

/-! ### Fills (R312, R313, R316, R317) -/

/-- A requester of a register as a request of its own. -/
def ScMiss.request (env : Capstan) (m : ScMiss) (r : Requester) : Waiting :=
  { who := r, ctx := m.ctx, gen := genOf env m.ctx, part := m.part, addr := m.addr, sector := m.first }

/-- A requester that reads the line has sectors of it (R316). -/
def Slice.giveSectors (sl : Slice) (sectors : List (Nat × List Byte)) (r : Requester) : Slice :=
  match r with
  | .run _ id => sl.giveRun id sectors
  | .stream i j => sl.giveStream i j sectors []
  | .comb h => sl.giveComb h sectors
  | .ledger h => sl.giveLedger h sectors []
  | _ => sl

/-- A requester on a register's list has the line (R313, R316): a node-cache register its half, other readers its sectors; a change to the
line is carried out, and a reader behind it looks the line up. Tiles and FETCH blocks find the line when they look again. -/
def Slice.giveLine (env : Capstan) (sl : Slice) (m : ScMiss) (data : List Byte) (r : Requester) : Slice :=
  match r with
  | .node lay reg => { sl with cache := sl.cache.giveNode lay reg m.ctx m.addr data }
  | r =>
    if r.writes then sl.change env (caskRequest r m.ctx m.addr)
    else if r ∈ m.readers then sl.giveSectors (lineSectors m.addr data) r
    else sl.retry env (m.request env r)

/-- Whether a fill is installed (R313): under a PENDING register whose generation is its context's current one, where no other way than a
draining one holds the line (R318). -/
def ScMiss.installs (env : Capstan) (c : Cache) (m : ScMiss) : Bool :=
  m.st = .pending && (m.part = .stream || m.gen = genOf env m.ctx) &&
    (if m.part = .stream then (c.find env .stream m.ctx m.addr).isNone else (c.findReserve env m.part m.ctx m.addr).isNone)

/-- What the cache does once lines have moved: what waits looks again, and producers place what they have. -/
def Slice.cacheMoved (env : Capstan) (sl : Slice) : Slice :=
  let sl := (((sl.retryAll env).feedAll env).writeMaps env).journalLedgers env
  (sl.ing.batches.foldl (fun sl b => sl.areaMoved env b.handle) sl).ledgersMoved env

/-- A fill is complete (R312, R313, R319): the line is installed or not, its requesters have it in the order of the list, the register is
FREE. A line that is not installed and is changed is written whole (R321). -/
def Slice.fillDone (env : Capstan) (sl : Slice) (m : ScMiss) : Slice :=
  let data := (sortBy (fun (a b : Nat × List Byte) => decide (a.1 < b.1)) m.got).flatMap (·.2)
  let line : Line := { set := m.set, way := m.way, ctx := m.ctx, gen := m.gen, tag := m.addr, dirty := false, lock := m.lock
                       doomed := false, rsv := 0, data := data }
  let c := sl.cache.freeReg m.reg
  let sl := if m.installs env c then
      { sl with cache := { c.install line with overflow := if m.pin && !m.lock then satAdd 0xFFFFFFFF c.overflow 1 else c.overflow } }
    else
      let sl := ({ sl with cache := c }).count 0x307 m.part.code none 1
      if m.waiters.any Requester.writes then sl.change env (caskRequest (.whole data [] false false) m.ctx m.addr) else sl
  (m.waiters.foldl (fun sl r => sl.giveLine env m data r) sl).cacheMoved env

/-- What poison from memory means to a requester (R317, R491): its queries complete with DATA_LOST; a partial write to the cask has lost
query state; a READ block has its data as poison. -/
def Slice.poisonWaiter (env : Capstan) (sl : Slice) (m : ScMiss) (data : List Byte) (r : Requester) : Slice :=
  match r with
  | .write _ _ => sl.loseLine env m.ctx m.addr 0xFF none
  | .whole d p a c => sl.change env (caskRequest (.whole d p a c) m.ctx m.addr)
  | .flush => sl
  | .stream i j => sl.giveStream i j (lineSectors m.addr data) (sectorAddrs m.addr m.poisoned)
  | .comb h => sl.loseArea h
  | .ledger h => sl.giveLedger h (lineSectors m.addr data) (sectorAddrs m.addr m.poisoned)
  | w =>
    let (qs, sl) := sl.takeWaiting env m.ctx m.addr w
    sl.poisonQueries env (qs.map (·.1))

/-- A fill came poisoned (R317, R491): nothing is installed. -/
def Slice.fillPoison (env : Capstan) (sl : Slice) (m : ScMiss) : Slice :=
  let data := (sortBy (fun (a b : Nat × List Byte) => decide (a.1 < b.1)) m.got).flatMap (·.2)
  let sl := ({ sl with cache := sl.cache.freeReg m.reg }).count 0x307 m.part.code none 1
  (m.waiters.foldl (fun sl r => sl.poisonWaiter env m data r) sl).cacheMoved env

/-- What a fill with a word that did not decode at the memory port means to a requester, as for the line that it enters (R487): its queries are
hitched on the line (R493); a reader or a change of a cask line, and a refetch, ask for it again. Tiles look again. -/
def Slice.loseWaiter (env : Capstan) (sl : Slice) (m : ScMiss) (r : Requester) : Slice :=
  match r with
  | .node _ _ => sl.hitchReader env m.part m.ctx m.addr r
  | .run _ _ => sl.hitchReader env m.part m.ctx m.addr r
  | .tile _ _ _ => sl
  | .stream i _ => if isFetch i then sl else sl.missFor env (m.request env r)
  | r => if r.writes then sl.change env (caskRequest r m.ctx m.addr) else sl.missFor env (m.request env r)

/-- A fill came with a word that did not decode (R482, R487): the line is dropped without install. -/
def Slice.fillLost (env : Capstan) (sl : Slice) (m : ScMiss) : Slice :=
  let sl := ({ sl with cache := sl.cache.freeReg m.reg }).count 0x307 m.part.code none 1
  ((m.waiters.foldl (fun sl r => sl.loseWaiter env m r) sl).tell (.fault sl.id classRefetch m.way (some m.set))).cacheMoved env

/-- The sectors that have come are with the readers on a register's list (R316); runs go on where they have what they need. -/
def Slice.feedReaders (env : Capstan) (sl : Slice) (m : ScMiss) : Slice :=
  if m.readers.isEmpty then sl else (m.readers.foldl (fun sl r => sl.giveSectors m.sectors r) sl).retryRuns env

/-- A sector arrives (R316): the memory port sends the sector that the first requester needs, then the others in ascending order with
wrap. Each requester has it at once; with the eighth the fill is complete. `lost` tells that a word of it did not decode. -/
def Slice.sectorArrives (env : Capstan) (sl : Slice) (reg sector : Nat) (data : List Byte) (poison lost : Bool) : Slice :=
  match sl.cache.misses.find? (fun m => m.reg = reg) with
  | none => sl
  | some m =>
    if sector != (m.first + m.got.length) % 8 then sl
    else
      let m := { m with got := m.got ++ [(sector, padTo 32 data)], poisoned := if poison then m.poisoned ++ [sector] else m.poisoned
                        lost := if lost then m.lost ++ [sector] else m.lost }
      let (c, m) := sl.cache.giveHalves m
      let sl := { sl with cache := { c with misses := updateWhere (fun x => x.reg = reg) (fun _ => m) c.misses } }
      if m.got.length < 8 then sl.feedReaders env m
      else if !m.poisoned.isEmpty then sl.fillPoison env m
      else if !m.lost.isEmpty then sl.fillLost env m
      else sl.fillDone env m

/-- FILL_SECTOR_ARRIVAL (R316), with the worst outcome of the sector's words at the engine side of the memory port, and the words that what
goes on with the line reads (R482). -/
def execFillSectorArrival (slice reg sector : Nat) (data : List Byte) (poison : Bool) (s : State) (port : WordCode := .ok)
    (reads : Decodes := []) : Out' :=
  onLive slice s (fun env sl => sl.reading env reads (fun sl => sl.sectorArrives env reg sector data poison port.bad))

/-! ### Evictions (R323) -/

/-- Entry `i` of the eviction buffer is freed; descriptors no longer wait for it (R327). -/
def Cache.freeEvict (c : Cache) (i : Nat) : Cache :=
  let id := (c.evict[i]?).map (·.id)
  let cut (m : MaintIn) : MaintIn := { m with evicts := m.evicts.filter (fun k => some k != id) }
  { c with evict := c.evict.eraseIdx i, maintIn := c.maintIn.map cut }

/-- Whether entry `i` is the first of its line: writes to one line are issued in the order of entry (R323). -/
def Cache.firstOfLine (c : Cache) (i : Nat) : Bool :=
  match c.evict[i]? with
  | none => false
  | some e => !((c.evict.take i).any (fun x => x.ctx = e.ctx && x.addr = e.addr))

/-- The words of an entry as they went to memory (R483, R484): those of poisoned sectors decode POISONED; where another does not decode its
query state is lost (R487, R488). -/
def Slice.readEntry (env : Capstan) (sl : Slice) (e : Evict) (o : WordCode) : Slice :=
  let sl := (sl.count 0x703 0x11 none e.poison.length).countDecode (.control 0x11 (e.id % 64)) o
  if (o = .poisoned || o = .uncorrectable) && e.poison.isEmpty then sl.loseLine env e.ctx e.addr 0x11 (some (e.id % 64)) else sl

/-- The memory port acknowledges an eviction-buffer write (R323): a miss that waited for an entry goes on (R314). -/
def Slice.evictAck (env : Capstan) (sl : Slice) (i : Nat) (o : WordCode) : Slice :=
  match sl.cache.evict[i]? with
  | none => sl
  | some e =>
    if sl.cache.firstOfLine i then
      ((({ sl with cache := sl.cache.freeEvict i }).count 0x308 0 none 1).readEntry env e o).cacheMoved env
    else sl

/-- EVICTION_WRITE_ACK (R323). -/
def execEvictionWriteAck (slice idx : Nat) (s : State) (read : WordCode := .ok) : Out' :=
  onLive slice s (fun env sl => sl.evictAck env idx read)

end Sys2Proof.Machine
end

