-- ==== Sys2Proof/Machine/Streams.lean ====
section
/-!
DEFINITION. The commands of the streams (R364 to R369) and of translation (R375 to R380).
-/

namespace Sys2Proof.Machine

/-! ### Bursts and issue (R363, R364, R367, R369) -/

/-- A burst of up to 8 descriptors moves into the window (R364), and producers that waited for room go on; an invalid one stops the slice
(R363). -/
def Slice.burst (env : Capstan) (sl : Slice) (i : Nat) : Slice :=
  match sl.str.streams[i]? with
  | none => sl
  | some s =>
    if 8 < s.window.length || s.ring.isEmpty then sl
    else
      let got := s.ring.take 8
      let sl := (sl.onStream i (fun _ => { s with ring := s.ring.drop 8, window := s.window ++ got })).count 0x402 i none 1
      if got.any Block.bad then sl.stop 0x12 none else sl.feedAll env

/-- STREAM_BURST_FETCH (R364). -/
def execStreamBurstFetch (slice stream : Nat) (s : State) : Out' := onLive slice s (fun env sl => sl.burst env stream)

/-- The partition of a FETCH block (R362). -/
def Block.part (b : Block) : Part := if bit (byteAt b.raw 29) 0 then .weight else .tree

/-- The lines of a block, row by row (R362). -/
def Block.lines (b : Block) : List Nat :=
  ((List.range b.planes).flatMap (fun i2 => (List.range b.rows).flatMap (fun i1 =>
    linesOf (b.addr + i2 * b.planeStride + i1 * b.rowStride) b.len))).eraseDups

/-- A FETCH block's lines that are not present are misses (R363). -/
def Slice.fetchLines (env : Capstan) (sl : Slice) (i index : Nat) (b : Block) : Slice :=
  b.lines.foldl (fun sl a => (sl.readLine env (.stream i index) b.part b.ctx a 0).2) sl

/-- The lines of a READ block are read into its buffers (R363): those at hand at once, the others as misses. -/
def Slice.readBlock (env : Capstan) (sl : Slice) (i index : Nat) (b : Block) : Slice :=
  b.lines.foldl (fun sl a =>
    let (d, sl) := sl.readLine env (.stream i index) .stream b.ctx a 0
    match d with
    | some (data, poison) => sl.giveStream i index (lineSectors a data) (sectorAddrs a poison)
    | none => sl.giveStream i index (sl.cache.arrived .stream b.ctx a) []) sl

/-- The lines behind handles, in order, with their poison (R373). -/
def Cache.handleLines (c : Cache) (hs : List Reg) : List (List Byte × List Nat) :=
  hs.flatMap (fun h =>
    let ls := sortBy (fun (x y : Line) => decide (x.tag < y.tag)) (c.lines.filter (fun l => l.buf = some (handleBuf h)))
    (ls.take ((handleBytes h + 255) / 256)).map (fun l => (l.data, if handlePoison h then List.range 8 else l.poison)))

/-- A WRITE_MEM block writes its buffers into the slice cache (R321, R322, R363): the stream is the source; lines of a ledger are cleaned
at once (log entry 16). -/
def Slice.writeBlock (env : Capstan) (sl : Slice) (i : Nat) (b : Block) (hs : List Reg) : Slice :=
  let clean : Bool := match b.use with
    | .ledger _ => true
    | _ => false
  (b.lines.zip (sl.cache.handleLines hs)).foldl (fun sl e => sl.writeLine env i b.ctx e.1 e.2.1 clean e.2.2) sl

/-- The handles of a block's buffers, off the front of a write stream's splice queue (R374). -/
def StreamUnit.takeHandles (u : StreamUnit) (i n : Nat) : List Reg × StreamUnit :=
  ((u.queue (spliceOf i)).take n, u.setQueue (spliceOf i) ((u.queue (spliceOf i)).drop n))

/-- The handles of READ blocks that are delivered go onto the splice queue of their consumer, in block-index order (R365, R372). -/
def Slice.pushDelivered (sl : Slice) (i since : Nat) : Slice :=
  match sl.str.streams[i]? with
  | none => sl
  | some s =>
    let n := wrapSub 32 s.delivered since
    let hs := (List.range n).flatMap (fun k => ((s.transfers.find? (fun t => t.index = (since + k) % 2 ^ 32)).map (·.handles)).getD [])
    { sl with str := sl.str.push (spliceOf i) hs }

/-- A stream changes, and what it delivers of READ blocks goes to its consumer. -/
def Slice.delivering (sl : Slice) (i : Nat) (f : Slice → Slice) : Slice :=
  if i = restoreStream then (f sl).pushDelivered i (((sl.str.streams[i]?).map (fun s => s.delivered)).getD 0) else f sl

/-- A block that moves nothing any more is complete as its turn comes: its buffers and credits return, and producers go on. -/
def Slice.skipBlock (env : Capstan) (sl : Slice) (i index : Nat) (hs : List Reg) : Slice :=
  (({ sl with cache := sl.cache.freeBuffers (hs.map handleBuf) }).delivering i (fun sl => sl.finishBlock i index)).feedAll env

/-- The transfer of a block begins: its requests are made. -/
def Slice.startBlock (env : Capstan) (sl : Slice) (i index : Nat) (b : Block) (hs : List Reg) : Slice :=
  match b.use with
  | .result w =>
    let hold (t : Transfer) : Transfer := if t.index = index then { t with started := false } else t
    (sl.onStream i (fun s => { s with transfers := s.transfers.map hold })).issueCompl { w with block := some (i, index) }
  | .fetch _ _ => sl.fetchLines env i index b
  | .restore _ _ _ => sl.readBlock env i index b
  | .ledger _ => sl.writeBlock env i b hs
  | .spill _ _ _ => sl.writeBlock env i b hs
  | .dropped => sl.skipBlock env i index hs

/-- The buffers of a stream's next block (R363, R374): a write stream takes the next handles of its splice queue, a READ block allocates its
own; none where too few are free. -/
def Slice.blockBuffers (env : Capstan) (sl : Slice) (i index : Nat) (b : Block) : Option (List Reg × Slice) :=
  if isFetch i then some ([], sl)
  else if i = 15 then
    (sl.cache.takeBuffers env i b.need).map (fun r =>
      (makeHandles i index b.bytes r.1 false, ({ sl with cache := r.2 }).countVictims sl.cache .stream bufferCtx 0))
  else
    let (hs, u) := sl.str.takeHandles i b.need
    some (hs, { sl with str := u })

/-- A stream issues its next block with its credits (R367, R369); one that finds none waits until credits of its reserve return. -/
def Slice.issueBlock (env : Capstan) (sl : Slice) (i : Nat) : Slice :=
  match sl.str.streams[i]? with
  | none => sl
  | some s =>
    if s.resume.isSome || s.starved || 8 ≤ s.outstanding then sl
    else match s.window.head? with
      | none => sl
      | some b =>
        match sl.str.grant env i b.need s with
        | none => sl.onStream i (fun s => { s with starved := true })
        | some reserve =>
          match sl.blockBuffers env i s.next b with
          | none => sl
          | some (hs, sl) =>
            ((sl.onStream i (fun s => s.issue b b.need reserve hs)).count 0x404 i none (if reserve then 0 else 1)).startBlock env i s.next b hs

/-- The result write at the front of a RESULT stream's window is rebuilt by the home coalescer (R487): its buffers hold its data again. -/
def Slice.rebuild (sl : Slice) (i : Nat) : Slice :=
  match (sl.str.streams[i]?).bind (fun s => s.window.head?) with
  | some b => match b.use with
    | .result w => { sl with cache := sl.cache.fillBuffers (((sl.str.queue (spliceOf i)).take b.need).map handleBuf) w.data false }
    | _ => sl
  | none => sl

/-- STREAM_BLOCK_ISSUE (R367), with the words of the buffers that it reads (R482); a result write whose words do not decode at the mesh port
is not sent, and rebuilt (R487). -/
def execStreamBlockIssue (slice stream : Nat) (s : State) (reads : Decodes := []) (mesh : WordCode := .ok) : Out' :=
  onLive slice s (fun env sl => (sl.decodeAll env reads).whileUp (fun sl =>
    if (mesh = .poisoned || mesh = .uncorrectable) && 8 ≤ stream && stream < 12 then sl.rebuild stream else sl.issueBlock env stream))

/-! ### Completion and credits (R365, R368) -/

/-- Whether a line of a FETCH block is still awaited. -/
def Slice.awaited (sl : Slice) (i index : Nat) : Bool :=
  sl.cache.misses.any (fun m => decide (Requester.stream i index ∈ m.waiters)) ||
    sl.cache.waiting.any (fun w => w.who = .stream i index)

/-- Whether a line of a WRITE_MEM block has still to go into the slice cache (R368). -/
def Slice.unplaced (sl : Slice) (b : Block) : Bool :=
  let here (ctx addr : Nat) : Bool := ctx = b.ctx && decide (addr ∈ b.lines)
  sl.cache.waiting.any (fun w => here w.ctx w.addr && w.who.writes) ||
    sl.cache.misses.any (fun m => here m.ctx m.addr && m.waiters.any Requester.writes)

/-- The bytes of a READ block, once all its lines are there. -/
def Transfer.readBytes (t : Transfer) : Option (List Byte) :=
  let parts := t.block.lines.map (fun a => fromSectors t.got a (sectorsOf a t.block.addr t.block.bytes))
  if parts.all Option.isSome then some (((parts.flatMap (·.getD [])).drop (t.block.addr % 256)).take t.block.bytes) else none

/-- A handle marked POISON (R373). -/
def poisonHandle (h : Reg) : Reg := BitVec.ofNat 64 (h.toNat % 2 ^ 29 + 2 ^ 29 + h.toNat / 2 ^ 30 * 2 ^ 30)

/-- A READ block has all its lines (R363): they are in its buffers, and it is delivered in its turn. -/
def Slice.readDone (sl : Slice) (i : Nat) (t : Transfer) (bytes : List Byte) : Slice :=
  let hs := if t.poisoned then t.handles.map poisonHandle else t.handles
  let put (x : Transfer) : Transfer := if x.index = t.index then { x with handles := hs, got := [] } else x
  let sl := { sl with cache := sl.cache.fillBuffers (hs.map handleBuf) bytes t.poisoned }
  (sl.onStream i (fun s => { s with transfers := s.transfers.map put })).delivering i (fun sl => sl.completeBlock i t.index)

/-- A transfer is complete (R365): of a FETCH block once all its lines are installed, or were delivered as poison; of a READ block once they
have arrived; of a WRITE_MEM block once they have been written. -/
def Slice.transferDone (env : Capstan) (sl : Slice) (i index : Nat) : Slice :=
  match sl.str.streams[i]? with
  | none => sl
  | some s =>
    match s.transfers.find? (fun t => t.index = index && !t.done) with
    | none => sl
    | some t =>
      if isFetch i then (if sl.awaited i index then sl else sl.completeBlock i index)
      else if i < 12 then sl
      else if i = 15 then
        match t.readBytes with
        | some bytes => sl.readDone i t bytes
        | none => sl
      else if sl.unplaced t.block then sl else (sl.completeBlock i index).journalLedgers env

/-- STREAM_TRANSFER_COMPLETE (R365). -/
def execStreamTransferComplete (slice stream block : Nat) (s : State) : Out' :=
  onLive slice s (fun env sl => sl.transferDone env stream block)

/-- Whether a job has still to reserve a line (R368): for a tile that reserves and has not taken it, or for a layer to come. -/
def Job.toReserve (j : Job) (addr : Nat) : Bool :=
  let later : List Tile := match j.kind with
    | .eval _ _ => (j.groupsFrom (j.group.getLastD 0 + 1)).flatMap j.groupTiles
    | _ => []
  j.tiles.any (fun t => t.st = .reserving && decide (addr ∈ j.tileLines t) && !(t.lines.any (fun l => l.1 = addr))) ||
    later.any (fun t => decide (addr ∈ j.tileLines t))

/-- Whether the unit of work of a FETCH block still needs one of its lines, which is present (R368). -/
def Slice.fetchNeeded (env : Capstan) (sl : Slice) (b : Block) : Bool :=
  match b.use with
  | .fetch lay job =>
    (sl.job? lay job).any (fun j => b.lines.any (fun a => j.toReserve a && (sl.cache.find env b.part b.ctx a).isSome))
  | _ => false

/-! ### The restore of a query (R339, R368) -/

/-- The spilled query that a restore is of, where it waits. -/
def Slice.restored? (sl : Slice) (home batch q : Nat) : Option Query :=
  sl.queries.find? (fun x => x.spilled && x.home = home && x.batch = batch && x.qindex = q)

/-- The granules of a restore, taken as its first buffer is copied (R339); none where too few are free. -/
def Slice.openRestore (env : Capstan) (sl : Slice) (q : Query) : Option (Restore × Slice) :=
  match sl.mash.restores.find? (fun r => r.home = q.home && r.batch = q.batch && r.qindex = q.qindex) with
  | some r => some (r, sl)
  | none =>
    (takeRuns (entryGranules (q.payloadBytes env)) sl.store.free).map (fun e =>
      let r : Restore := { home := q.home, batch := q.batch, qindex := q.qindex, runs := e.1, bytes := [], poisoned := false }
      let st := sl.store.reuse e.1
      (r, { sl with store := { st with free := e.2 }, mash := { sl.mash with restores := sl.mash.restores ++ [r] } }))

def Slice.setRestore (sl : Slice) (r : Restore) (left : Bool) : Slice :=
  let others := sl.mash.restores.filter (fun x => !(x.home = r.home && x.batch = r.batch && x.qindex = r.qindex))
  { sl with mash := { sl.mash with restores := if left then others ++ [r] else others } }

/-- A restore has read everything (R339): the query holds what its slot and its payload say; one whose bytes came poisoned is lost (R488,
R491). -/
def Slice.endRestore (env : Capstan) (sl : Slice) (q : Query) (r : Restore) : Slice :=
  let sl := sl.setRestore r false
  let mine (x : Query) : Bool := x.home = q.home && x.batch = q.batch && x.qindex = q.qindex
  if r.poisoned then
    let sl := { sl with store := { sl.store with free := r.runs.foldl (fun f x => addRun x f) sl.store.free } }
    let sl := if q.guest then sl.discardGuest q else sl.queryLost q.batch q.qindex
    sl.tell (.fault sl.id classQueryLost 0xFF none)
  else match env.ctx? q.ctx with
  | none => sl
  | some c =>
    let first := (r.runs.headD (0, 0)).1
    let back (e : QEntry) : QEntry := { e with first := first, runs := r.runs, spilled := false }
    let n := q.slotBytesRead
    let f (x : Query) : Query :=
      if mine x then { x.ofSlot c (r.bytes.take n) (r.bytes.drop n) with spilled := false, entry := first } else x
    (({ sl with store := { sl.store with entries := updateWhere q.owns back sl.store.entries } }).mapWaiting f).count 0x30B 0 (some q.ctx) 1

/-- The handles of a block at the front of the queue to the Mash are taken: its buffers and credits go back (R366, R368). -/
def Slice.freeRead (sl : Slice) (i : Nat) (t : Transfer) : Slice :=
  let sl := { sl with cache := sl.cache.freeBuffers (if t.buffered then t.handles.map handleBuf else [])
                      str := (sl.str.takeHandles i t.handles.length).2 }
  sl.onStream i (fun s => (s.repay t.index).forget)

/-- The Mash copies the buffers of a READ block into granules (R339, R368), those at the front of its queue. -/
def Slice.copyRead (env : Capstan) (sl : Slice) (i : Nat) (t : Transfer) : Slice :=
  if t.handles.isEmpty || (sl.str.queue (spliceOf i)).take t.handles.length != t.handles then sl
  else
    let query := match t.block.use with
      | .restore home batch q => sl.restored? home batch q
      | _ => none
    match query with
    | none => sl.freeRead i t
    | some q =>
      match sl.openRestore env q with
      | none => sl
      | some (r, sl) =>
        let r := { r with bytes := r.bytes ++ sl.cache.handleData t.handles
                          poisoned := r.poisoned || !t.buffered || sl.cache.handlesPoisoned t.handles }
        let sl := (sl.setRestore r true).freeRead i t
        if t.block.isEnd then sl.endRestore env q r else sl

/-- The credits of a block return (R368): of a delivered FETCH block when its lines are taken, or have left the cache, or its work is over;
of a LEDGER or SPILL block when its lines are in the slice cache; of a RESTORE block when the Mash has copied it, which takes the handles of
one delivered as poison likewise (R376). -/
def Slice.returnCredits (env : Capstan) (sl : Slice) (i index : Nat) : Slice :=
  match sl.str.streams[i]? with
  | none => sl
  | some s =>
    match s.transfers.find? (fun t => t.index = index && (t.buffered || !t.handles.isEmpty)) with
    | none => sl
    | some t =>
      if isFetch i then
        if s.isDelivered index && !sl.fetchNeeded env t.block then sl.onStream i (fun s => (s.repay index).forget) else sl
      else if i < 12 then sl
      else if i = 15 then (if s.isDelivered index then (sl.copyRead env i t).feedAll env else sl)
      else if sl.unplaced t.block then sl
      else (({ sl with cache := sl.cache.freeBuffers (t.handles.map handleBuf) }).onStream i (fun s => (s.repay index).forget)).feedAll env

/-- CREDIT_RETURN (R368), with the words of the buffers that their consumer reads (R482). -/
def execCreditReturn (slice stream block : Nat) (s : State) (reads : Decodes := []) : Out' :=
  onLive slice s (fun env sl => (sl.decodeAll env reads).whileUp (fun sl => sl.returnCredits env stream block))

/-! ### Faulted streams (R376, R379) -/

/-- Blocks up to the first with END set. -/
def uptoEnd : List Block → Nat
  | [] => 0
  | b :: rest => if b.isEnd then 1 else 1 + uptoEnd rest

/-- Whether block index `a` comes before block index `b`, both counted modulo 2^32. -/
def indexBefore (a b : Nat) : Bool := decide (2 ^ 31 ≤ wrapSub 32 a b)

/-- The transfers of blocks from `j` on are given up: their blocks stand before the window again, their credits are back; blocks of an
earlier fault that are to be delivered as poison stand there already. -/
def Stream.cancel (s : Stream) (j : Nat) : Stream :=
  let from_ (t : Transfer) : Bool := !indexBefore t.index j
  let gone := sortBy (fun (a b : Transfer) => decide (wrapSub 32 a.index j < wrapSub 32 b.index j))
    (s.transfers.filter (fun t => from_ t && indexBefore t.index s.next))
  let s := gone.foldl (fun (s : Stream) t => s.repay t.index) s
  { s with transfers := s.transfers.filter (fun t => !from_ t), window := gone.map (·.block) ++ s.window, next := j }

/-- A block of stream `i` that is delivered as poison without having buffers (R376): the handles of a READ block carry POISON. -/
def poisonTransfer (i index : Nat) (b : Block) : Transfer :=
  { index := index, block := b, credits := 0, reserve := true, done := true
    handles := if i = restoreStream then makeHandles i index b.bytes (List.replicate b.need 0) true else [] }

/-- The blocks of stream `i` from `j` to END are delivered as poison, each in its turn after the blocks before it (R365, R376); how many are
delivered at once is the first part. -/
def Stream.poisonFrom (i : Nat) (s : Stream) (j : Nat) : Nat × Stream :=
  let bs := s.window ++ s.ring
  let ts : List Transfer := (indexed (bs.take (uptoEnd bs))).map (fun e => poisonTransfer i ((j + e.1) % 2 ^ 32) e.2)
  let (n, s) := ({ s with transfers := s.transfers ++ ts }).deliver (s.transfers.length + ts.length + 1)
  (n, s.forget)

/-- A stream's requests that satisfy `p`, and were not made yet, are withdrawn (R376: no further reads). -/
def Slice.withdraw (sl : Slice) (i : Nat) (p : Nat → Bool) : Slice :=
  let mine (r : Requester) : Bool := match r with
    | .stream x y => x = i && p y
    | _ => false
  { sl with cache := { sl.cache with waiting := sl.cache.waiting.filter (fun w => !mine w.who) } }

/-- The lines of FETCH blocks delivered as poison are fed as poison to their jobs (R376). -/
def Slice.feedPoison (sl : Slice) (bs : List Block) : Slice :=
  let lines (b : Block) : List (Nat × Nat × Nat) := match b.use with
    | .fetch lay job => b.lines.map (fun a => (lay, job, a))
    | _ => []
  { sl with str := { sl.str with fed := (sl.str.fed ++ bs.flatMap lines).eraseDups } }

/-- The buffers of the transfers of a READ stream whose blocks satisfy `p` are free again. -/
def Slice.freeTransfers (sl : Slice) (i : Nat) (p : Nat → Bool) : Slice :=
  if i = restoreStream then
    let ts := (((sl.str.streams[i]?).map (fun (s : Stream) => s.transfers)).getD []).filter (fun t => t.buffered && p t.index)
    { sl with cache := sl.cache.freeBuffers (ts.flatMap (fun t => t.handles.map handleBuf)) }
  else sl

/-- A read of block `j` needs a page (R376): the stream is FAULTED, the blocks up to END are delivered as poison. -/
def Slice.faultStream (env : Capstan) (sl : Slice) (i j ctx addr : Nat) : Slice :=
  match sl.str.streams[i]?, env.ctx? ctx with
  | some s, some c =>
    if !(s.transfers.any (fun t => t.index = j && !t.done)) then sl
    else
      let s := s.cancel j
      let bs := s.window ++ s.ring
      let (n, s) := s.poisonFrom i j
      let s := { s with resume := some j, lastResume := j, faultPage := some (c.asid, addr) }
      let sl := (sl.freeTransfers i (fun y => !indexBefore y j)).delivering i (fun sl => sl.onStream i (fun _ => s))
      (((sl.withdraw i (fun y => decide (wrapSub 32 y j < 2 ^ 31))).feedPoison (bs.take (uptoEnd bs))).count 0x401 i none n).captureAccess env i
        ctx j addr false
  | _, _ => sl

/-- The blocks from `j` on, in order: those issued, then those of the window and the ring. -/
def Stream.blocksFrom (s : Stream) (j : Nat) : List Block :=
  (sortBy (fun (a b : Transfer) => decide (wrapSub 32 a.index j < wrapSub 32 b.index j))
    (s.transfers.filter (fun t => !indexBefore t.index j && indexBefore t.index s.next))).map (·.block) ++ s.window ++ s.ring

/-- The `n` blocks of stream `i` from `j` on are delivered as poison for good (R379): those issued have their credits back, the others leave the
list. -/
def Stream.giveUp (i : Nat) (s : Stream) (j n : Nat) : Stream :=
  let mine (k : Nat) : Bool := decide (wrapSub 32 k j < n)
  let bs := s.blocksFrom j
  let issued := wrapSub 32 s.next j
  let s := (s.transfers.filter (fun t => mine t.index)).foldl (fun (s : Stream) t => s.repay t.index) s
  let have_ (k : Nat) : Bool := s.transfers.any (fun t => t.index = k)
  let done (t : Transfer) : Transfer := if mine t.index then poisonTransfer i t.index t.block else t
  let late : List Transfer := (((indexed (bs.take n)).map (fun e => ((j + e.1) % 2 ^ 32, e.2))).filter (fun e => !have_ e.1)).map
    (fun e => poisonTransfer i e.1 e.2)
  let k := n - issued
  let inside : Bool := s.resume.any mine
  { s with transfers := s.transfers.map done ++ late, window := s.window.drop k, ring := s.ring.drop (k - s.window.length)
           next := (s.next + k) % 2 ^ 32, resume := if inside then none else s.resume
           faultPage := if inside then none else s.faultPage, lastResume := j }

/-- The access of block `j` failed (R379): the blocks up to END are delivered as poison, and the stream goes on. -/
def Slice.failStream (sl : Slice) (i j : Nat) : Slice :=
  match sl.str.streams[i]? with
  | none => sl
  | some s =>
    let live : Bool := s.transfers.any (fun t => t.index = j && !t.done) || s.resume = some j
    if !live then sl
    else
      let bs := s.blocksFrom j
      let n := uptoEnd bs
      let (told, s') := (s.giveUp i j n).deliver (s.transfers.length + n + 1)
      let sl := (sl.freeTransfers i (fun y => decide (wrapSub 32 y j < n))).delivering i (fun sl => sl.onStream i (fun _ => s'.forget))
      ((sl.withdraw i (fun y => decide (wrapSub 32 y j < n))).feedPoison (bs.take n)).count 0x401 i none told

/-- Whether a stream is FAULTED on a page. -/
def Stream.onPage (s : Stream) (asid page : Nat) : Bool := s.faultPage.any (fun p => p.1 = asid && pageOf p.2 = page)

/-- A FAULTED stream resumes at its RESUME index (R378). -/
def Stream.resumed (s : Stream) : Stream :=
  match s.resume with
  | none => s
  | some j =>
    { s with resume := none, faultPage := none, next := j, transfers := s.transfers.filter (fun t => indexBefore t.index j)
             delivered := if indexBefore s.delivered j then s.delivered else j }

/-! ### Answers of the translation unit (R375 to R380) -/

/-- Hitched queries that awaited the refetch of a line wait for its page from now on (R377). -/
def Slice.pageInstead (sl : Slice) (ctx addr : Nat) : Slice :=
  let f (q : Query) : Query := match q.hitch with
    | some h => if q.ctx = ctx && h.cause = .refetch && lineAddr h.addr = addr then { q with hitch := some { h with cause := .page } } else q
    | none => q
  { sl with work := { sl.work with hitched := sl.work.hitched.map f } }

/-- A requester of a line that needs a page: its queries are hitched, its stream is FAULTED (R376, R377). -/
def Slice.pageWaiter (env : Capstan) (sl : Slice) (m : ScMiss) (r : Requester) : Slice :=
  match r with
  | .stream i j => sl.faultStream env i j m.ctx m.addr
  | .refetch => sl.pageInstead m.ctx m.addr
  | _ =>
    let (qs, sl) := sl.takeWaiting env m.ctx m.addr r
    qs.foldl (fun sl h => sl.hitchQuery env h.1 { cause := .page, addr := m.addr, layer := h.2, source := r.source } m.part) sl

/-- The register of an access answered otherwise than TRANSLATED is FREE. -/
def Slice.endMiss (sl : Slice) (m : ScMiss) : Slice := { sl with cache := sl.cache.freeReg m.reg }

/-- The accesses that a miss serves, as R394 names them: one for its ordinary requesters, by the first of them, and one for each block of
a stream; 17 for a miss that no requester waits for any more. -/
def ScMiss.accesses (m : ScMiss) : List PageAccess :=
  let blocks := m.waiters.filterMap (fun r => match r with
    | .stream i j => some (i, j)
    | _ => none)
  let ordinary := m.waiters.filter (fun r => match r with
    | .stream _ _ => false
    | _ => true)
  let own : List PageAccess := if m.waiters.isEmpty then [{ ctx := m.ctx, addr := m.addr, source := 17, resume := 0 }]
    else (ordinary.head?.map (fun r => { ctx := m.ctx, addr := m.addr, source := r.source, resume := 0 })).toList
  own ++ blocks.map (fun b => { ctx := m.ctx, addr := m.addr, source := b.1, resume := b.2 })

/-- STR_FAULT captures the failure of accesses (R379, R394). -/
def Slice.captureFailed (env : Capstan) (sl : Slice) (as : List PageAccess) : Slice :=
  as.foldl (fun sl a => sl.captureAccess env a.source a.ctx a.resume a.addr true) sl

/-- A cask access was not translated (R376, R379, R380): the context enters CONTEXT_FAULT and no page is asked for; the READ blocks that
wait for the line are the case of R376 or R379, captured as theirs, what else waits is captured as a cask access (R394, log entry 80). -/
def Slice.caskMiss (env : Capstan) (sl : Slice) (m : ScMiss) (failed : Bool) : Slice :=
  let as := m.accesses
  let sl := if failed then sl.captureFailed env as
    else (as.filter (fun a => 16 ≤ a.source)).foldl (fun sl a => sl.captureAccess env a.source a.ctx 0 a.addr false) sl
  let sl := m.waiters.foldl (fun (sl : Slice) r => match r with
    | .stream i j => if failed then sl.failStream i j else sl.faultStream env i j m.ctx m.addr
    | _ => sl) sl
  sl.failAccess env m.ctx causeCask m.addr []

/-- A miss needs a page (R375, R377): nothing is installed, its requesters have poison, a page is requested. The fault of a stream is
captured as the stream is FAULTED (R376), every other one here. -/
def Slice.missNeedsPage (env : Capstan) (sl : Slice) (m : ScMiss) : Slice :=
  let sl := (sl.endMiss m).askPage env m.ctx m.addr
  let sl := (m.accesses.filter (fun a => 16 ≤ a.source)).foldl (fun sl a => sl.captureAccess env a.source a.ctx 0 a.addr false) sl
  let sl := { sl with str := { sl.str with awaiting := (sl.str.awaiting ++ m.accesses).eraseDups } }
  (m.waiters.foldl (fun sl r => sl.pageWaiter env m r) sl).cacheMoved env

/-- A miss failed translation (R379): its queries end as in a tree fault, the context enters CONTEXT_FAULT; its streams go on after their
END blocks. Hitched queries whose refetch it was meet that outcome by HITCH_REFETCH_DONE (R493). -/
def Slice.missFailed (env : Capstan) (sl : Slice) (m : ScMiss) : Slice :=
  let sl := (sl.endMiss m).captureFailed env m.accesses
  let r := m.waiters.foldl (fun (acc : List Query × Slice) w => match w with
    | .stream i j => (acc.1, acc.2.failStream i j)
    | _ =>
      let (qs, sl) := acc.2.takeWaiting env m.ctx m.addr w
      (acc.1 ++ qs.map (·.1), sl)) ([], sl)
  (if !m.waiters.isEmpty && m.waiters.all (· = .refetch) then r.2 else r.2.failAccess env m.ctx causePageFailed m.addr r.1).cacheMoved env

/-- Bytes of a page by the code of its size (R596). -/
def pageSize (code : Nat) : Nat := [4096, 65536, 2097152, 1073741824].getD (code % 4) 4096

/-- The package physical address of a virtual one: the page's own bits with the offset in it (R595, R596). -/
def physical (size page va : Nat) : Nat :=
  let n := pageSize size
  page % 2 ^ 36 * 4096 / n * n + va % n

/-- A register has the physical address of its line. -/
def Cache.locateMiss (c : Cache) (reg addr : Nat) : Cache :=
  { c with misses := updateWhere (fun m => m.reg = reg) (fun m => { m with phys := some (lineAddr addr) }) c.misses }

/-- Entries of the eviction buffer have the physical address of their line. -/
def Cache.locateEvict (c : Cache) (ctx la addr : Nat) : Cache :=
  { c with evict := c.evict.map (fun (e : Evict) => if e.ctx = ctx && e.addr = la then { e with phys := some (lineAddr addr) } else e) }

/-- The answer to a slice-cache miss; one of a cask line is the case of R380. -/
def Slice.missAnswered (env : Capstan) (sl : Slice) (m : ScMiss) (a : Xlate) : Slice :=
  match a with
  | .translated size page => { sl with cache := sl.cache.locateMiss m.reg (physical size page m.addr) }
  | _ =>
    if m.part = .stream then ((sl.endMiss m).caskMiss env m (a = .failed)).cacheMoved env
    else if a = .failed then sl.missFailed env m
    else sl.missNeedsPage env m

/-- The answer of the translation unit (R375). -/
def Slice.translated (env : Capstan) (sl : Slice) (x : Access) (a : Xlate) : Slice :=
  match x with
  | .miss reg =>
    match sl.cache.misses.find? (fun m => m.reg = reg && m.got.isEmpty) with
    | none => sl
    | some m => sl.missAnswered env m a
  | .block i index addr =>
    match sl.cache.misses.find? (fun m => m.addr = lineAddr addr && decide (Requester.stream i index ∈ m.waiters) && m.got.isEmpty) with
    | none => sl
    | some m => sl.missAnswered env m a
  | .cask ctx addr =>
    match env.ctx? ctx with
    | none => sl
    | some c =>
      if let .translated size page := a then
        { sl with cache := sl.cache.locateEvict ctx (lineAddr addr) (physical size page (lineAddr addr)) }
      else if c.cstate = .invalid || addr < c.caskBase || c.caskBase + c.caskSize ≤ addr then sl
      else sl.caskFault env ctx addr (a = .failed)

/-- TRANSLATION_RESPONSE (R375). -/
def execTranslationResponse (slice : Nat) (access : Access) (answer : Xlate) (s : State) : Out' :=
  onLive slice s (fun env sl => sl.translated env access answer.taken)

/-! ### Page responses (R378, R379) -/

/-- Whether a hitched query awaits a page. -/
def Query.awaitsPage (env : Capstan) (asid page : Nat) (q : Query) : Bool :=
  match q.hitch, env.ctx? q.ctx with
  | some h, some c => h.cause = .page && c.asid = asid && pageOf h.addr = page
  | _, _ => false

/-- The hitched queries that satisfy `p` leave the hitched set. -/
def Slice.unhitch (sl : Slice) (p : Query → Bool) : List Query × Slice :=
  (sl.work.hitched.filter p, { sl with work := { sl.work with hitched := sl.work.hitched.filter (fun q => !p q) } })

/-- Whether an access waits for a page. -/
def PageAccess.onPage (env : Capstan) (asid page : Nat) (a : PageAccess) : Bool :=
  pageOf a.addr = page && (env.ctx? a.ctx).any (fun c => c.asid = asid)

/-- The jobs of the FETCH blocks that a stream fetches again. -/
def Stream.refetched (s : Stream) : List (Nat × Nat) :=
  ((s.window ++ s.ring).take (uptoEnd (s.window ++ s.ring))).filterMap (fun b => match b.use with
    | .fetch lay job => some (lay, job)
    | _ => none)

/-- A page is there (R378): faulted streams resume, hitched queries are replayed. What a READ stream has delivered as poison, and its consumer
has not taken, it reads again. -/
def Slice.pageThere (env : Capstan) (sl : Slice) (asid page : Nat) : Slice :=
  let back (s : Stream) : Stream := if s.onPage asid page then s.resumed else s
  let again := (sl.str.streams.filter (fun s => s.onPage asid page)).flatMap Stream.refetched
  let gone (h : Reg) : Bool := (sl.str.streams[restoreStream]?).any (fun s => s.onPage asid page &&
    s.transfers.any (fun t => t.index = handleBlock h && !t.buffered && s.resume.any (fun j => !indexBefore t.index j)))
  let str := { sl.str.setQueue (spliceOf restoreStream) ((sl.str.queue (spliceOf restoreStream)).filter (fun h => !gone h)) with
                           streams := sl.str.streams.map back
                           fed := sl.str.fed.filter (fun f => !((f.1, f.2.1) ∈ again))
                           awaiting := sl.str.awaiting.filter (fun a => !a.onPage env asid page) }
  let (qs, sl) := ({ sl with str := str }).unhitch (Query.awaitsPage env asid page)
  qs.foldl (fun sl q => sl.replayQuery env q) sl

/-- A page request failed (R379): each access that waited on it has failed. -/
def Slice.pageFailed (env : Capstan) (sl : Slice) (asid page fcause : Nat) : Slice :=
  let failed := sl.str.awaiting.filter (PageAccess.onPage env asid page)
  let streams := ((indexed sl.str.streams).filter (fun e => e.2.onPage asid page)).map (fun e => (e.1, e.2.resume.getD 0))
  let (qs, sl) := sl.unhitch (Query.awaitsPage env asid page)
  let addrOf (q : Query) : Nat := (q.hitch.map (fun (h : Hitch) => h.addr)).getD (4096 * page)
  let sl := { sl with str := { sl.str with awaiting := sl.str.awaiting.filter (fun a => !a.onPage env asid page) } }
  let sl := (streams.foldl (fun (sl : Slice) e => sl.failStream e.1 e.2) sl).captureFailed env failed
  let ctxs := (qs.map (fun q => q.ctx) ++ (failed.filter (fun a => !a.map)).map (·.ctx)).eraseDups
  ctxs.foldl (fun sl c =>
    let mine := qs.filter (fun q => q.ctx = c)
    let at_ := ((failed.find? (fun a => a.ctx = c)).map (·.addr)).getD (4096 * page)
    sl.failAccess env c fcause ((mine.head?.map addrOf).getD at_) mine) sl

/-- A page request ends, with success or without, on every slice. -/
def State.endPage (s : State) (asid page : Nat) (f : Capstan → Slice → Slice) : State :=
  let s := s.onCap (fun c => { c with hl := { c.hl with pages := c.hl.pages.filter (fun p => !(p.asid = asid && p.page = page)) } })
  deliverAll (s.eachSlice (fun env sl => if sl.works env then f env sl else sl))

/-- The outstanding request for a page. -/
def State.pageReq (s : State) (asid page : Nat) : Option PageReq :=
  s.cap.hl.pages.find? (fun p => p.asid = asid && p.page = page)

/-- PAGE_RESPONSE (R378, R379). -/
def execPageResponse (asid page : Nat) (ok : Bool) (s : State) : Out' :=
  if s.cap.su.power != .running then .next s
  else match s.pageReq asid page with
  | none => .next s
  | some _ =>
    .next (s.endPage asid page (fun env sl => if ok then sl.pageThere env asid page else sl.pageFailed env asid page causePageFailed))

/-- 10 ms in half-nanoseconds (R379). -/
def pageWait : Nat := 20000000

/-- PAGE_TIMEOUT (R379): 10 ms of engine time have passed without a response. -/
def execPageTimeout (asid page : Nat) (s : State) : Out' :=
  if s.cap.su.power != .running then .next s
  else match s.pageReq asid page with
  | none => .next s
  | some p =>
    if s.cap.tb.time < p.since + pageWait then .next s
    else .next (s.endPage asid page (fun env sl => sl.pageFailed env asid page causeNoResponse))

end Sys2Proof.Machine
end

