-- ==== Sys2Proof/Machine/Clock.lean ====
section
/-!
DEFINITION. The passing of time on an empty queue (log entry 3): one cycle of VCLK, 2.5 ns (R603, R606), with the cycle counts of R591.
-/

namespace Sys2Proof.Machine

/-! ### Engine time (R606, R610) -/

/-- VCLK cycles in which a slew moves engine time by a half-nanosecond: 500 ns in each ms (R610). -/
def slewCycles : Nat := 400

/-- What engine time gains in this cycle beyond 2.5 ns: one half-nanosecond of the slew, in its turn. -/
def TimeBase.slewNow (t : TimeBase) : Int :=
  if t.slew = 0 || t.phase + 1 < slewCycles then 0 else if 0 < t.slew then -1 else 1

/-- The Capstan's engine time after one cycle. -/
def TimeBase.cycle (t : TimeBase) : TimeBase :=
  if !t.on then t
  else { t with time := (((t.time : Int) + 5 + t.slewNow).toNat), slew := t.slew + t.slewNow
                phase := if t.slew = 0 then 0 else (t.phase + 1) % slewCycles }

/-- The increments of a slice's copy in one cycle of VCLK: one for each SCLK cycle; where the copy is to be corrected, one is doubled or skipped
in each 64 SCLK cycles (R606). -/
def Slice.increments (sl : Slice) : Nat :=
  if sl.timeFix = 0 || sl.fixPhase + sclkCycles < 64 then sclkCycles else if 0 < sl.timeFix then sclkCycles + 1 else sclkCycles - 1

/-- A slice's copy after one cycle of VCLK (R606). -/
def Slice.cycle (sl : Slice) : Slice :=
  let n := sl.increments
  let low := sl.timeLow + n * sl.period
  { sl with time := sl.time + low / halfNs, timeLow := low % halfNs, timeFix := sl.timeFix - ((n : Int) - sclkCycles)
            fixPhase := (sl.fixPhase + sclkCycles) % 64 }

/-! ### Cycles of a slice's domains (R603, R604, R613, R616, R591) -/

/-- ACLK cycles in the VCLK cycle with number `k`: 9 at 3.6 GHz, half under stretch. -/
def aclkCycles (stretched : Bool) (k : Nat) : Nat := if stretched then 9 * (k + 1) / 2 - 9 * k / 2 else 9

/-- Whether a slice stretches (R604). -/
def SlicePower.stretches (p : SlicePower) : Bool := p.droopNow || p.droopHold.isSome || p.thermNow || p.thermHold.isSome

/-- Whether a stream waits under rule 3 of R367. -/
def Slice.waitsForCredit (env : Capstan) (sl : Slice) (i : Nat) (x : Stream) : Bool :=
  x.resume.isNone && x.outstanding < 8 && (x.starved || x.window.head?.any (fun b => (sl.str.grant env i b.need x).isNone))

/-- Cycles counted in each domain at the reference frequencies: SCLK 5, TCLK 6, LCLK 5 for each working port. -/
def Slice.countCycles (env : Capstan) (k : Nat) (sl : Slice) : Slice :=
  let slow := sl.pwr.stretches
  let sl := sl.count 0x001 0 none sclkCycles
  let sl := if sl.pwr.napping then sl
    else (sl.count 0x002 0 none (if slow then 3 else 6)).count 0x003 0 none (aclkCycles slow k)
  let sl := (indexed sl.rope.ports).foldl (fun (sl : Slice) e => if e.2.works then sl.count 0x004 e.1 none 5 else sl) sl
  (indexed sl.str.streams).foldl (fun (sl : Slice) e => if sl.waitsForCredit env e.1 e.2 then sl.count 0x403 e.1 none sclkCycles else sl) sl

/-- An idle slice keeps the time since which it is idle (R616). -/
def Slice.markBusy (sl : Slice) : Slice :=
  if sl.idle then sl else { sl with pwr := { sl.pwr with idleSince := sl.time } }

/-- One cycle of a slice that has clocks. -/
def Slice.tick (env : Capstan) (k : Nat) (sl : Slice) : Slice :=
  let sl := if env.tb.on then sl.cycle else sl
  if sl.stopped then sl else ((if sl.store.spilling then sl.spillLow env else sl).countCycles env k).markBusy

/-- One VCLK cycle passes. -/
def tick (s : State) : State :=
  if s.cap.su.power != .running then s
  else
    let c := { s.cap with su := { s.cap.su with upTime := s.cap.su.upTime + 5 }, tb := s.cap.tb.cycle }
    State.eachSlice { s with cap := c } (fun env sl => sl.tick env (env.su.upTime / 5))

end Sys2Proof.Machine
end

