-- ==== Sys2Proof/Machine/Ingress.lean ====
section
/-!
DEFINITION. The commands of ingress (R137 to R161, R343, R505): submissions arrive, the answers of local memory and of the memory
port take a batch through the steps of R150.
-/

namespace Sys2Proof.Machine

/-! ### Submissions (R27, R137, R138, R155, R505) -/

/-- The slice that takes a die's submissions: the slice of the die, or the proxy of a dead one once it has read the journal
(R27, R505). None where the mesh interface holds them back (R507, R508). -/
def Capstan.ingressOf (c : Capstan) (die : Nat) : Option Nat :=
  if c.isLive die then some die
  else if c.hl.deaths.any (fun d => d.slice = die && !d.read) then none
  else match c.hl.proxies.find? (fun p => p.1 = die) with
    | none => none
    | some p =>
      let reads (d : Death) : Bool := !d.read && c.hl.proxies.any (fun x => x.1 = d.slice && x.2 = p.2)
      if c.hl.deaths.any reads then none else some p.2

/-- A descriptor joins the pending queue, which holds 256 (R155); one whose address fails check 0x01 is refused unread (R152). -/
def Slice.arrive (env : Capstan) (sl : Slice) (die core off : Nat) (isG : Bool) (mask : Nat) : Slice :=
  let p : Pend := { core := core, die := die, off := off, isG := isG, mask := mask, stage := .descriptor, raw := []
                    desc := descOf [], index := [], items := [], handle := 0, admitted := [], maint := [] }
  if 256 ≤ sl.ing.pendq.length then sl
  else if badAddress off then sl.refuse env p 0x01 0 false
  else { sl with ing := { sl.ing with pendq := sl.ing.pendq ++ [p] } }

/-- A submission of a core goes to the ingress that serves its die. -/
def submit (die core off : Nat) (isG : Bool) (mask : Nat) (s : State) : Out' :=
  match s.slices[die]? with
  | none => .next s
  | some _ =>
    match s.cap.ingressOf die with
    | none => .next s
    | some i => onLive i s (fun env sl => (sl.arrive env die core off isG mask).wake)

/-- NSUB (R137): the mask in the ledger is all ones (R347). -/
def execNsub (die core off : Nat) (s : State) : Out' := submit die core off false (2 ^ 64 - 1) s

/-- NSUB_G (R138). -/
def execNsubG (die core off : Nat) (mask : BitVec 64) (s : State) : Out' := submit die core off true mask.toNat s

/-- SUBMISSION_RE_PRESENTED (R505, R507): one that matches a LEDGERED journal entry is discarded once the proxy has reported that
batch taken, and waits until then. -/
def execSubmissionRePresented (die core off : Nat) (isG : Bool) (mask : BitVec 64) (batchId : Nat) (s : State) : Out' :=
  match s.slices[die]? with
  | none => .next s
  | some _ =>
    if s.cap.isLive die then .next s
    else match s.cap.ingressOf die with
      | none => .next s
      | some i =>
        onLive i s (fun env sl =>
          let waits (e : JournalRead) : Bool :=
            field e.core 13 9 = die && field e.core 8 0 = core && e.batchId = batchId && e.jstate = 1
          if (die, core, batchId) ∈ sl.ing.adopted || sl.ing.fromJournal.any (fun e => waits e.2.1) ||
              sl.ing.adopting.any (fun a => waits a.entry) then sl
          else (sl.arrive env die core off isG (if isG then mask.toNat else 2 ^ 64 - 1)).wake)

/-! ### The steps of R150 -/

/-- The descriptor at a position of the pending queue, at a stage. -/
def Slice.pendAt (sl : Slice) (i : Nat) (st : Stage) : Option Pend :=
  match sl.ing.pendq[i]? with
  | none => none
  | some p => if p.stage = st then some p else none

/-- The pending queue without a position. -/
def Slice.cutPend (sl : Slice) (i : Nat) : Slice := { sl with ing := { sl.ing with pendq := sl.ing.pendq.eraseIdx i } }

/-- A position of the pending queue replaced. -/
def Slice.setPend (sl : Slice) (i : Nat) (p : Pend) : Slice := { sl with ing := { sl.ing with pendq := sl.ing.pendq.set i p } }

/-- The descriptor is there and is checked (R150 step 1, R152, R452). -/
def Slice.descriptorRead (env : Capstan) (sl : Slice) (i : Nat) (bs : List Byte) : Slice :=
  match sl.pendAt i .descriptor with
  | none => sl
  | some p =>
    let bs := padTo 64 bs
    let p := { p with raw := bs, desc := descOf bs }
    match descCause env p.off p.isG bs with
    | some cause => ((sl.cutPend i).refuse env p cause 0 true).admitWaiting env
    | none => (sl.setPend i { p with stage := .waiting }).admitWaiting env

/-- DESCRIPTOR_READ_DONE (R152). -/
def execDescriptorReadDone (slice idx : Nat) (desc : List Byte) (s : State) : Out' :=
  onLive slice s (fun env sl => sl.descriptorRead env idx desc)

/-- The index entries are there and are checked (R150 step 2, R159). -/
def Slice.indexRead (env : Capstan) (sl : Slice) (i : Nat) (es : List Nat) (detect : Option Nat) : Slice :=
  match sl.pendAt i .index with
  | none => sl
  | some p =>
    match readIndex p.desc detect (activeOf p.desc p.isG p.mask) es with
    | .error (cause, q) => ((sl.cutPend i).refuse env p cause q true).admitWaiting env
    | .ok ix => (sl.setPend i { p with index := ix, stage := .waiting }).admitWaiting env

/-- INDEX_READ_DONE (R150). -/
def execIndexReadDone (slice idx : Nat) (entries : List Nat) (detect : Option Nat) (s : State) : Out' :=
  onLive slice s (fun env sl => sl.indexRead env idx entries detect)

/-- RESERVATIONS_GRANTED (R150 step 4, R155, R338): for the batch that ingress serves next; the Mash spills where few granules
are left. -/
def execReservationsGranted (slice idx : Nat) (s : State) : Out' :=
  onLive slice s (fun env sl =>
    if sl.nextGrant env != some idx then sl
    else match sl.pendAt idx .reserve with
      | none => sl
      | some p =>
        match (env.ctx? p.desc.ctx).bind (fun c => sl.tryGrant env c p) with
        | none => sl
        | some (sl, p) => (((sl.setPend idx p).tellLoan p 0).spillLow env).admitWaiting env)

/-- The records and payloads are there (R150 step 5, R71, R151, R159): the batch is refused, or its ledger is written (step 6). -/
def Slice.recordsRead (env : Capstan) (sl : Slice) (i : Nat) (recs : List (List Byte × List Byte)) (detect : Option Nat) : Slice :=
  match sl.pendAt i .records with
  | none => sl.admitWaiting env
  | some p =>
    match env.ctx? p.desc.ctx with
    | none => sl
    | some c =>
      match readRecords sl.id p.handle p.desc c detect (p.index.map (·.1)) recs with
      | .error (0x0B, q, x) =>
        let sl := (sl.cutPend i).refuseMalformed env p q x
        sl.admitWaiting (sl.view env)
      | .error (cause, q, _) => ((sl.cutPend i).refuse env p cause q true).admitWaiting env
      | .ok (qs, ms) =>
        (sl.setPend i { p with stage := .ledger, admitted := qs, maint := ms }).writeLedger env c p.handle p.items
          (ledgerBytes p.raw p.desc c p.mask p.index recs)

/-- RECORDS_READ_DONE (R71). -/
def execRecordsReadDone (slice idx : Nat) (recs : List (List Byte × List Byte)) (detect : Option Nat) (s : State) : Out' :=
  onLive slice s (fun env sl => sl.recordsRead env idx recs detect)

/-- A batch is refused after its journal entry was written, which becomes FREE: a refused batch has none (R500, log entry 76). -/
def Slice.refuseJournalled (env : Capstan) (sl : Slice) (c : Ctx) (p : Pend) : Slice :=
  (sl.refuse env p 0x03 0 true).writeJournal env c sl.id p.handle 0 (p.entry .free) none none

/-- The ledger and its journal lines are settled (R150 steps 6 to 8, R155, R156, R500). -/
def Slice.ledgerDone (env : Capstan) (sl : Slice) (i : Nat) : Slice :=
  match sl.pendAt i .journal with
  | none => sl
  | some p =>
    match env.ctx? p.desc.ctx with
    | none => sl
    | some c =>
      if behind (sl.ing.pendq.take i) p || sl.unsettledLine p.handle then sl
      else if c.faulted then ((sl.cutPend i).refuseJournalled env c p).admitWaiting env
      else ((sl.cutPend i).admitBatch env c p).admitWaiting env

/-- LEDGER_ACKNOWLEDGED (R150). -/
def execLedgerAcknowledged (slice idx : Nat) (s : State) : Out' := onLive slice s (fun env sl => sl.ledgerDone env idx)

/-! ### Loans (R343) -/

/-- The loan at the head of its context's queue that a slice can give a block to. -/
def loanFor (env : Capstan) (sl : Slice) (block : Nat) : Option (Loan × Ctx) :=
  (env.ctxs.filterMap (fun c => (env.loans.find? (fun l => l.ctx = c.id)).map (fun l => (l, c)))).find? (fun e =>
    e.1.slice != sl.id && decide (block ∈ (sl.cask e.2.id).givable env.n e.2 (e.2.caskBlocks)))

/-- A loan is one block nearer its end. -/
def Capstan.lend (c : Capstan) (l : Loan) : Capstan :=
  if l.missing ≤ 1 then { c with loans := c.loans.filter (fun x => !x.same l) }
  else { c with loans := updateWhere (fun x => x.same l) (fun x => { x with missing := x.missing - 1 }) c.loans }

/-- The byte of a block in the owner map names its new holder (R343, R505): slice `i` rewrites it where its line stands; where the slice that
writes the map has still to write that line, it writes it so (log entry 78). -/
def State.moveOwner (s : State) (i : Nat) (c : Ctx) (block holder : Nat) : State :=
  let due (m : OwnerMap) : Bool := m.ctx = c.id && decide (256 * m.next ≤ block)
  if s.slices.any (fun sl => sl.store.maps.any due) then
    let note (m : OwnerMap) : OwnerMap := { m with moved := (block, holder) :: m.moved }
    { s with slices := s.slices.map (fun sl => { sl with store := { sl.store with maps := updateWhere due note sl.store.maps } }) }
  else s.atSlice i (fun env sl => sl.writeOwner env c block holder)

/-- CASK_BLOCK_GIVEN (R343): the block changes hands; loans pause while the Capstan restarts. -/
def execCaskBlockGiven (slice block : Nat) (s : State) : Out' :=
  match s.slices[slice]? with
  | none => .next s
  | some sl =>
    if !sl.works s.cap || s.cap.hl.restarting.isSome || s.cap.hl.failed then .next s
    else match loanFor s.cap sl block with
      | none => .next s
      | some (l, c) =>
        let s := (s.atSlice slice (fun _ sl => (sl.setCask ((sl.cask c.id).give block)).wake)).moveOwner slice c block l.slice
        let s := s.atSlice l.slice (fun _ sl => sl.setCask ((sl.cask c.id).receive block))
        .next (s.onCap (fun k => k.lend l))

/-! ### Activations (R469, R470) -/

/-- The lowest free activation slot (R469). -/
def Capstan.freeSlot (c : Capstan) : Option Nat := freeNumber 64 (c.active.map (·.1))

/-- ENTRY_POISON at a read of the entry for a running context (R468, R491): FCLASS ENTRY, its record and its event. -/
def State.entryPoison (s : State) (ctx : Nat) : State :=
  let a := s.cap.img.ctxBase + 256 * ctx
  let fresh : Bool := match s.cap.ctx? ctx with
    | some c => c.cstate = .valid
    | none => false
  let s := s.ctxFault ctx 4 1 0xFFFFFFFF 0xFFFFFFFF a
  s.onCap (fun c =>
    let c := c.note 0x2004 (toLe 2 ctx ++ toLe 8 a)
    if fresh then c.event .contextError else c)

/-- The fixed and live blocks of an entry as a slice reads them (R470): as they came, or as they were last written. -/
def Capstan.readEntry (c : Capstan) (ctx : Nat) (r : EntryRead) : Bytes :=
  let live : Bytes := ((c.table.find? (fun e => e.ctx = ctx)).map (·.live)).getD []
  let fixed : Bytes := ((c.ctx? ctx).map (·.fixed)).getD []
  padTo 112 (r.entry.getD (padTo 64 fixed ++ live))

/-- A slice loads a slot of its context cache, unless its read came poisoned (R468, R470). -/
def CtxCache.load (k : CtxCache) (slot ctx : Nat) (bs : Bytes) (r : EntryRead) : CtxCache :=
  if r.poison then k
  else { k with slots := k.slots.filter (fun x => x.slot != slot) ++
                  [{ slot := slot, ctx := ctx, fixed := bs.take 64, live := (bs.drop 64).take 48 }] }

/-- Whether a slice that works read an entry poisoned. -/
def State.readPoison (s : State) (reads : List EntryRead) : Bool :=
  s.slices.any (fun sl => sl.works s.cap && (reads.getD sl.id {}).poison)

/-- Every slice that works loads the slot of a context that is active (R470). -/
def State.loadSlot (s : State) (ctx : Nat) (reads : List EntryRead) : State :=
  match s.cap.active.find? (fun a => a.2 = ctx) with
  | none => s
  | some a => s.eachSlice (fun env sl =>
      let r := reads.getD sl.id {}
      if sl.works env then ({ sl with cctx := sl.cctx.load a.1 ctx (s.cap.readEntry ctx r) r }).wake else sl)

/-- ACTIVATION_GRANTED (R469, R470): a free slot goes to the oldest waiting request, every slice loads it, and the waiting batches of the
context go on. A load that returns poison is the case of R468. -/
def execActivationGranted (reads : List EntryRead) (s : State) : Out' :=
  if !s.cap.acts then .next s
  else match s.cap.actWait, s.cap.freeSlot with
    | (_, ctx) :: _, some slot =>
      let s := s.onCap (fun c => { c with active := c.active ++ [(slot, ctx)], actWait := c.actWait.filter (fun a => a.2 != ctx) })
      let s := s.loadSlot ctx reads
      let s := if s.readPoison reads then s.entryPoison ctx else s
      .next (deliverAll s.admitAll)
    | _, _ => .next s

/-- The slot of a context is free on every slice (R469). -/
def State.freeSlot (s : State) (ctx : Nat) : State :=
  s.eachSlice (fun _ sl => { sl with cctx := { sl.cctx with slots := sl.cctx.slots.filter (fun x => x.ctx != ctx) } })

/-- ACTIVATION_END (R469): once no slice holds anything of the context, its slot is free. -/
def execActivationEnd (ctx : Nat) (s : State) : Out' :=
  if !s.cap.acts || s.holdsCtx ctx then .next s
  else .next ((s.freeSlot ctx).onCap (fun c => { c with active := c.active.filter (fun a => a.2 != ctx) }))

end Sys2Proof.Machine
end

