-- ==== Sys2Proof/Machine/Passes.lean ====
section
/-!
DEFINITION. Context commands (R463 to R468, R477 to R479), pass starts with the tree generation and the home map (R121, R123, R130,
R384, R466), pass ends (R383), frame ticks (R382, R607) and deadlines (R386, R387).
-/

namespace Sys2Proof.Machine

/-! ### Context commands (R463, R464, R477 to R479) -/

/-- A context before its first VALIDATE. -/
def blankCtx (id : Nat) : Ctx :=
  { id := id, fixed := [], live := [], pend := none, cstate := .invalid, pass := .none, missedNow := false, missedLast := false
    fclass := 0, fcause := 0, passId := 0, fbatch := 0xFFFFFFFF, fqindex := 0xFFFFFFFF, faddr := 0, appliedSeq := 0, misses := 0
    passStart := 0, prevGen := none, tref := 0, deadlineArmed := false, overrunFrom := none, tick := none, toInvalid := false
    emptied := [], arithDone := [], faultAddrs := [], awaitStart := false, late := false }

/-- The operation of a code (R464). -/
def ctxOp? (k : Nat) : Option CtxOp :=
  if k = 1 then some .validate else if k = 2 then some .invalidate else if k = 3 then some .stage
  else if k = 4 then some .boundary else if k = 5 then some .clearFault else none

/-- Whether a context allows an operation ("Allowed when", R464). -/
def ctxAllows (c : Ctx) (op : CtxOp) (wb : Bool) : Bool :=
  let boundary : Bool := c.cstate = .valid && !c.frame && c.pass != .halted
  match op with
  | .validate => c.cstate = .invalid
  | .invalidate => c.cstate != .invalid
  | .stage => c.cstate != .invalid && (!wb || boundary)
  | .boundary => boundary
  | .clearFault => c.cstate = .fault && c.pass = .halted

/-- The context of an id, INVALID where it has never been valid. -/
def Capstan.ctxOr (c : Capstan) (id : Nat) : Ctx := (c.ctx? id).getD (blankCtx id)

/-- A command is refused at its write: it changes nothing but CTX_CMD_RESULT, and has its record (R463, R479). -/
def Capstan.refuseCmd (c : Capstan) (op : CtxOp) (ctx code : Nat) : Capstan :=
  { c with ctxResult := resultReg code c.cmd.isSome op.code ctx 0 }.note 0x2006
    (toLe 2 ctx ++ toLe 1 op.code ++ toLe 1 code ++ toLe 1 0)

/-- The fault fields are reset (R461, R464). -/
def Ctx.clearFault (c : Ctx) : Ctx :=
  { c with cstate := .valid, fclass := 0, fcause := 0, fbatch := 0xFFFFFFFF, fqindex := 0xFFFFFFFF, faddr := 0, awaitStart := true }

/-- A command that may go on does what it can do at once (R464). -/
def State.runCmd (s : State) (k : CtxCmd) : State :=
  match k.op with
  | .validate => s
  | .stage => s
  | .invalidate =>
    let s := s.onCap (fun c => c.onCtx k.ctx (fun x => { x with toInvalid := true }))
    let x := s.cap.ctxOr k.ctx
    if x.pass = .halted then s.endPass x else s.boundaryOf k.ctx none
  | .boundary => (s.boundaryOf k.ctx none).onCap (fun c => c.cmdDone .boundary k.ctx)
  | .clearFault => (s.onCap (fun c => c.onCtx k.ctx Ctx.clearFault)).broadcast

/-- A write to CTX_CMD (R463, R464, R477): an OP that requests nothing has no effect; a command that arises while a pass start of
its context is due is handled after it. -/
def State.command (s : State) (v : Nat) : State :=
  let ctx := field v 11 0
  let wb := bit v 16
  match ctxOp? (field v 15 12) with
  | none => s
  | some op =>
    if s.cap.hl.failed then s.onCap (fun c => c.refuseCmd op ctx 0x04)
    else if s.cap.cmd.isSome then s.onCap (fun c => c.refuseCmd op ctx 0x03)
    else if s.cap.su.state != .ready then s.onCap (fun c => c.refuseCmd op ctx 0x04)
    else if v >>> 17 != 0 || s.cap.img.ctxCount ≤ ctx || (wb && op != .stage) then s.onCap (fun c => c.refuseCmd op ctx 0x05)
    else
      let x := s.cap.ctxOr ctx
      if !x.awaitStart && !ctxAllows x op wb then s.onCap (fun c => c.refuseCmd op ctx 0x04)
      else
        let k : CtxCmd := { op := op, ctx := ctx, withBoundary := wb, after := x.awaitStart }
        let s := s.onCap (fun c => { c with cmd := some k, ctxResult := resultReg 0x02 true op.code ctx 0 })
        if k.after then s else s.runCmd k

/-- A command that waited for a pass start is handled (R463). -/
def State.resumeCmd (s : State) (ctx : Nat) : State :=
  match s.cap.cmd with
  | none => s
  | some k =>
    if k.after && k.ctx = ctx then
      if ctxAllows (s.cap.ctxOr ctx) k.op k.withBoundary then
        let k := { k with after := false }
        (s.onCap (fun c => { c with cmd := some k })).runCmd k
      else s.onCap (fun c => c.endCmd 0x04 0)
    else s

/-! ### The entry of a VALIDATE or STAGE command (R464, R465, R468) -/

/-- Whether SYNC_MODE gives frame ticks (R441). -/
def Capstan.ticks (c : Capstan) : Bool := c.img.syncMode = 1 || c.img.syncMode = 3 || (c.img.syncMode = 2 && c.img.tickPeriod != 0)

/-- Whether a TIMERS record of a deadline names a context (R445). -/
def Capstan.hasTimer (c : Capstan) (ctx : Nat) : Bool :=
  c.img.timers.any (fun t => field t 15 8 = 1 && field t 31 16 = ctx)

/-- Whether the cask breaks R342: every slice holds a block after the owner map. -/
def badCask (n : Nat) (f : Bytes) : Bool :=
  let base := le f 16 8
  let size := le f 24 8
  let blocks := size / 65536
  base % 65536 != 0 || size % 65536 != 0 || 2 ^ 48 < base + size || blocks < (blocks + 65535) / 65536 + n

/-- Whether OFMT does not suit RMODE (R465, R277). -/
def badOfmt (f : Bytes) : Bool :=
  let m := byteAt f 1
  let o := byteAt f 3
  if m = 5 then (ofmtOf o).isNone else if m = 6 then ofmtOf o != some .fp32 else o != 0

/-- Whether a KEY or TOKEN context's PFMT or DIM is out of range (R58, R59). -/
def badDim (f : Bytes) : Bool :=
  let dim := le f 4 4
  (byteAt f 0 = 2 || byteAt f 0 = 3) && (match fmtOf (byteAt f 2) with
    | none => true
    | some m => dim = 0 || 16384 < dim * m.bytes)

/-- The first check of R465 that fails, as outcome code and DETAIL; `v` marks a VALIDATE. -/
def entryFails (c : Capstan) (v : Bool) (ctx : Nat) (f b : Bytes) : Option (Nat × Nat) :=
  let hcount := le b 32 2
  let homed := byteAt f 14 = 1
  let checks : List (Bool × Nat) := [
    (!(zeroBytes b 14 2 && zeroBytes b 22 2 && zeroBytes b 30 2 && zeroBytes b 38 2) ||
      (v && !(zeroBytes f 22 2 && zeroBytes f 32 32)), 6),
    (v && !((byteAt f 14 = 1 || byteAt f 14 = 2) && (byteAt f 15 = 1 || byteAt f 15 = 2)), 6),
    (7 < byteAt b 36 || 15 < byteAt b 37, 6),
    (v && badCask c.n f, 6),
    (le b 16 6 ≤ le b 8 6, 6),
    ((if homed then hcount = 0 || 32768 < hcount else hcount != 0) || le b 24 6 % 16 != 0, 6),
    (le b 40 4 != 0 && !c.hasTimer ctx, 7),
    (v && byteAt f 15 = 2 && !c.ticks, 8),
    (v && badOfmt f, 6),
    (v && badDim f, 6)]
  ((indexed checks).find? (fun e => e.2.1)).map (fun e => (e.2.2, e.1 + 1))

/-- The cask a slice holds under the initial owner map of a context: its own blocks, and those of the dead slices it serves
(R342, R505). -/
def startCask (env : Capstan) (sl : Slice) (ctx : Nat) : Cask :=
  let k := emptyCask sl.id ctx
  { k with own := k.own ++ ((env.hl.proxies.filter (fun p => p.2 = sl.id)).map (fun p => (p.1, journalBlocks))) }

/-- VALIDATE passes its checks (R464): the staged block is live, the pending block cleared and the status initialised, all three blocks
written (R457); the owner map is written; pass 0 is due. -/
def State.makeValid (s : State) (ctx : Nat) (f b : Bytes) : State :=
  let x : Ctx := { blankCtx ctx with fixed := f, live := b, cstate := .valid, appliedSeq := le b 44 4, awaitStart := true }
  let s := (s.onCap (fun c => Capstan.writeEntry
    { c with ctxs := insertBy (fun a b => decide (a.id < b.id)) x (c.ctxs.filter (fun y => y.id != ctx))
             table := c.table.filter (fun e => e.ctx != ctx), loans := c.loans.filter (fun l => l.ctx != ctx) } ctx)).broadcast
  let writer := s.cap.ids.find? s.cap.isLive
  s.eachSlice (fun env sl =>
    let sl := { sl with cnt := { sl.cnt with offers := sl.cnt.offers.filter (fun o => o.1 != ctx) } }.setCask (startCask env sl ctx)
    if writer = some sl.id then sl.startMap env ctx else sl)

/-- STAGE passes its checks (R464): the staged block is pending, and a boundary is requested where the command says so. -/
def State.makePending (s : State) (k : CtxCmd) (b : Bytes) : State :=
  let s := s.onCap (fun c => c.onCtx k.ctx (fun x => { x with pend := some b, late := x.awaitStart }))
  let s := if k.withBoundary then s.boundaryOf k.ctx none else s
  s.onCap (fun c => c.cmdDone .stage k.ctx)

/-- The entry is there. -/
def State.entryRead (s : State) (k : CtxCmd) (entry : List Byte) (poison : Bool) : State :=
  let e := padTo 256 entry
  let v : Bool := k.op = .validate
  let f := if v then e.take 64 else (s.cap.ctxOr k.ctx).fixed
  let b := (e.drop 112).take 48
  if poison then
    s.onCap (fun c => (c.note 0x2004 (toLe 2 k.ctx ++ toLe 8 (c.img.ctxBase + 256 * k.ctx))).endCmd 0x09 0)
  else match entryFails s.cap v k.ctx f b with
    | some (code, detail) => s.onCap (fun c => c.endCmd code detail)
    | none => if v then s.makeValid k.ctx f b else s.makePending k b

/-- CONTEXT_ENTRY_READ (R464, R465, R468): for the VALIDATE or STAGE command in progress. -/
def execContextEntryRead (entry : List Byte) (poison : Bool) (s : State) : Out' :=
  match s.cap.cmd with
  | none => .next s
  | some k =>
    if !s.cap.acts || k.after || !(k.op = .stage || (k.op = .validate && !(s.cap.ctxOr k.ctx).awaitStart)) then .next s
    else .next (deliverAll (s.entryRead k entry poison))

/-! ### Pass starts (R121, R123, R130, R384, R386, R466, R468) -/

/-- The pending block is applied, unless it was written after the last pass was declared ended (R466); the pass has its id. -/
def Ctx.beginPass (c : Ctx) : Ctx :=
  let c := match c.pend with
    | some b => if c.late then c else { c with live := b, pend := none, appliedSeq := le b 44 4 }
    | none => c
  { c with passId := if c.pass = .none then c.passId else (c.passId + 1) % 2 ^ 32, late := false, missedNow := false
           awaitStart := false, emptied := [], faultAddrs := [] }

/-- Whether the lines of a context are swept at a pass start (R130). -/
def Ctx.sweeps (c : Ctx) : Bool :=
  match c.prevGen with
  | none => true
  | some g => !(c.gen = g || (g != 0xFFFF && c.gen = g + 1))

/-- The registers whose generation is no longer the context's become NOINSTALL (R315). -/
def Cache.oldFills (env : Capstan) (ctx : Nat) (c : Cache) : Cache :=
  let g := genOf env ctx
  let old (m : NcMiss) : Bool := m.ctx = ctx && m.gen != g
  { c with misses := updateWhere (fun m => m.ctx = ctx && m.part != .stream && m.gen != g) (fun m => { m with st := .noInstall }) c.misses
           nodeMiss0 := updateWhere old (fun m => { m with st := .noInstall }) c.nodeMiss0
           nodeMiss1 := updateWhere old (fun m => { m with st := .noInstall }) c.nodeMiss1 }

/-- The lines of a context leave the node caches and the tree and weight partitions (R130, R312, R315). -/
def Cache.sweepCtx (env : Capstan) (ctx : Nat) (c : Cache) : Cache :=
  let c := c.dropLines (fun l => l.ctx = ctx && !bit (partMask env .stream) l.way)
  { c with misses := updateWhere (fun m => m.ctx = ctx && m.part != .stream) (fun m => { m with st := .noInstall }) c.misses
           node0 := c.node0.filter (fun l => l.ctx != ctx), node1 := c.node1.filter (fun l => l.ctx != ctx)
           nodeMiss0 := updateWhere (fun m => m.ctx = ctx) (fun m => { m with st := .noInstall }) c.nodeMiss0
           nodeMiss1 := updateWhere (fun m => m.ctx = ctx) (fun m => { m with st := .noInstall }) c.nodeMiss1 }

/-- The slices take in a context's generation, each as its reread gave it. -/
def State.rereadGen (s : State) (id : Nat) : State :=
  let f (env : Capstan) (x : Cache) : Cache := if (env.ctxOr id).sweeps then x.sweepCtx env id else x.oldFills env id
  (s.eachSlice (fun env sl => ({ sl with cache := f env sl.cache }).retryAll env)).onCap
    (fun k => k.onCtx id (fun x => { x with prevGen := some x.gen }))

/-- What a slice's read of the home map gives the pass: its entries, or the case of R123. -/
def homeMapOf (c : Ctx) (m : MapRead) : HomeMap :=
  if c.hmap < c.base || c.bound < c.hmap + 2 * c.hcount then .bound 1
  else match m with
    | .lines bs => .entries ((List.range c.hcount).map (fun i => le bs (c.hmap % 256 + 2 * i) 2))
    | .needsPage _ => .bound 2
    | .failed _ => .bound 2
    | .poison => .bound 3

/-- A line of the home map comes from memory into the tree partition (R308), in place of a copy that the cache held: changes in memory take
effect at the next pass start (R121). Where no slot is free for it, it is not installed. -/
def Slice.putMapLine (env : Capstan) (sl : Slice) (ctx addr : Nat) (data : List Byte) : Slice :=
  let old (l : Line) : Bool := l.tag = addr && l.ctx = ctx && bit (partMask env .tree) l.way
  let sl := { sl with cache := sl.cache.dropLines old }.count 0x303 Part.tree.code (some ctx) 1
  let w : Waiting := { who := .refetch, ctx := ctx, gen := genOf env ctx, part := .tree, addr := addr, sector := 0 }
  if (sl.cache.pendingFor .tree ctx addr).isSome then sl
  else
    let x := sl.missFor env w
    match x.cache.pendingFor .tree ctx addr with
    | some m => x.fillDone env { m with got := (indexed (chunks 32 8 data)) }
    | none => sl

/-- A slice reads the home map (R121, R123): its lines come in, or the page that is needed is asked for; an access that is not translated is
captured (R394). -/
def Slice.readMap (env : Capstan) (sl : Slice) (c : Ctx) (m : MapRead) : Slice :=
  let h := homeMapOf c m
  let sl := { sl with cctx := { sl.cctx with maps := sl.cctx.maps.filter (fun p => p.1 != c.id) ++ [(c.id, h)] } }
  match h, m with
  | .entries _, .lines bs =>
    (indexed (linesOf c.hmap (2 * c.hcount))).foldl (fun sl e => sl.putMapLine env c.id e.2 (padTo 256 ((bs.drop (256 * e.1)).take 256))) sl
  | .bound 2, .needsPage a =>
    let sl := (sl.askPage env c.id a).captureAccess env 17 c.id 0 a false
    let x : PageAccess := { ctx := c.id, addr := a, source := 17, resume := 0, map := true }
    { sl with str := { sl.str with awaiting := (sl.str.awaiting ++ [x]).eraseDups } }
  | .bound 2, .failed a => sl.captureAccess env 17 c.id 0 a true
  | _, _ => sl

/-- The reasons of the slices that work for a pass without a home map (R123). -/
def State.mapReasons (s : State) (id : Nat) : List Nat :=
  s.slices.filterMap (fun sl => match sl.cctx.mapOf id with
    | .bound r => if sl.works s.cap then some r else none
    | _ => none)

/-- Every slice that works reads the home map of a context in HOMED placement (R121); a slice that the command gives no read for has met a
FAILED translation. The cases of R123 have one record a pass, with the lowest reason that a slice reported (R540). -/
def State.rereadMap (s : State) (id : Nat) (maps : List MapRead) : State :=
  let s := s.eachSlice (fun env sl =>
    let c := env.ctxOr id
    if c.homed && sl.works env then sl.readMap env c (maps.getD sl.id (.failed c.hmap))
    else { sl with cctx := { sl.cctx with maps := sl.cctx.maps.filter (fun p => p.1 != id) } })
  match (s.mapReasons id).min? with
  | some r => s.onCap (fun k => k.note 0x2005 (toLe 2 id ++ toLe 4 (k.ctxOr id).passId ++ toLe 1 r))
  | none => s

/-- The pass runs: its start time, its reference time and its deadline timer (R384, R386); one whose context is in CONTEXT_FAULT
is HALTED. -/
def Ctx.run (now : Nat) (c : Ctx) : Ctx :=
  let c := { c with passStart := now, tref := if c.frame then c.tick.getD now else now, tick := none
                    deadlineArmed := c.deadline != 0 && !c.faulted }
  if c.faulted then { c with pass := .halted } else { c with pass := .running }

/-- The pass that was due to start is HALTED, for the entry read poison (R468). -/
def State.haltStart (s : State) (ctx : Nat) : State :=
  (s.entryPoison ctx).onCap (fun c => c.onCtx ctx (fun x => { x with pass := .halted, tick := none }))

/-- A pass starts: the pending block is applied, every slice rereads the entry, the generation and the home map. -/
def State.startPass (s : State) (ctx : Nat) (reads : List EntryRead) (maps : List MapRead) : State :=
  let s := (s.onCap (fun c => c.onCtx ctx Ctx.beginPass)).loadSlot ctx reads
  let s :=
    if s.readPoison reads then s.haltStart ctx
    else ((s.rereadGen ctx).rereadMap ctx maps).onCap (fun c => c.onCtx ctx (Ctx.run c.now))
  let s := s.onCap (fun c => (c.cmdDone .validate ctx).cmdDone .clearFault ctx)
  (s.resumeCmd ctx).admitAll

/-- Whether the next pass of a context may start now: it is due, and no command that arose before it is being handled (R463). -/
def Capstan.startDue (c : Capstan) (ctx : Nat) : Bool :=
  (c.ctxOr ctx).awaitStart && !c.cmd.any (fun k => k.ctx = ctx && k.op = .stage && !k.after)

/-- PASS_START (R384). -/
def execPassStart (ctx : Nat) (reads : List EntryRead) (maps : List MapRead) (s : State) : Out' :=
  if s.cap.acts && s.cap.startDue ctx then .next (deliverAll (s.startPass ctx reads maps)) else .next s

/-! ### Pass ends (R383) -/

/-- The Capstan declares a pass ended once all live slices have reported it empty. -/
def State.endReported (s : State) (ctx : Nat) : State :=
  let x := s.cap.ctxOr ctx
  if (s.cap.ids.filter s.cap.isLive).all (fun i => i ∈ x.emptied) then s.endIfEmpty ctx else s

/-- A slice reports that it holds nothing of a pass (R383, R591). -/
def State.reportEmpty (s : State) (i ctx : Nat) : State :=
  if i ∈ (s.cap.ctxOr ctx).emptied then s
  else (s.atSlice i (fun _ sl => sl.count 0x406 0 (some ctx) 1)).onCap
    (fun c => c.onCtx ctx (fun x => { x with emptied := x.emptied ++ [i] }))

/-- SLICE_PASS_EMPTY (R383). -/
def execSlicePassEmpty (slice ctx : Nat) (s : State) : Out' :=
  match s.slices[slice]? with
  | none => .next s
  | some sl =>
    if !sl.works s.cap || (s.cap.ctxOr ctx).pass != .draining || (s.cap.ctxOr ctx).awaitStart || sl.holdsPass ctx then .next s
    else .next (deliverAll ((s.reportEmpty slice ctx).endReported ctx))

/-! ### Frame ticks (R382, R441, R607) -/

/-- A frame tick at time `t` reaches a context in FRAME mode (R382). -/
def State.tickCtx (s : State) (t : Nat) (x : Ctx) : State :=
  if !x.frame || x.cstate = .invalid then s
  else match x.pass with
    | .running => s.boundaryOf x.id (some t)
    | .draining =>
      s.onCap (fun c => (c.onCtx x.id (fun y => { y with tick := some t })).note 0x5003 (toLe 2 x.id ++ toLe 4 x.passId))
    | .halted => s
    | .none => s

/-- A frame tick reaches every context. -/
def State.tickAll (s : State) (t : Nat) : State := s.cap.ctxs.foldl (fun s x => s.tickCtx t x) s

/-- A frame tick: at once, or held while the Capstan restarts. -/
def State.tickAt (s : State) (t : Nat) : State :=
  if s.cap.acts then s.tickAll t else s.onCap (fun c => { c with tb := { c.tb with heldTicks := c.tb.heldTicks ++ [t] } })

/-- A rising edge of SYNC_IN in mode FRAME (R607), sampled now: less than 10 us after the last accepted edge it is ignored. -/
def State.syncEdge (s : State) : State :=
  let near : Bool := match s.cap.tb.lastEdge with
    | some e => s.cap.tb.time < e + 20000
    | none => false
  if near then s.onCap (fun c => { c with tb := { c.tb with bad := satAdd 0xFFF c.tb.bad 1 } })
  else (s.onCap (fun c => { c with tb := { c.tb with lastEdge := some c.tb.time } })).tickAt ((s.cap.tb.time - 15) / 2)

/-- The latest multiple of TICK_PERIOD that engine time has reached, once (R382, R610). -/
def State.timerTick (s : State) : State :=
  let p := s.cap.img.tickPeriod
  let t := s.cap.now / p * p
  let new : Bool := match s.cap.tb.lastTick with
    | some l => l < t
    | none => true
  if new then (s.onCap (fun c => { c with tb := { c.tb with lastTick := some t } })).tickAt t else s

/-- FRAME_TICK (R382): every accepted edge and every multiple of the period is a tick; one that comes while the Capstan restarts reaches
the contexts when the restart ends (R510). -/
def execFrameTick (s : State) : Out' :=
  if s.cap.su.power != .running || s.cap.hl.failed || !s.cap.tb.on || !s.cap.ticks then .next s
  else .next (deliverAll (if s.cap.img.syncMode = 1 then s.syncEdge else s.timerTick))

/-! ### Deadlines (R387) -/

/-- The timer of a context has reached T_R + D. -/
def Ctx.timerDue (now : Nat) (c : Ctx) : Bool := c.deadlineArmed && c.tref + c.deadline ≤ now

/-- A pass has missed its deadline (R387): DEADLINE_MISSED, MISSES, the record with T_R and D, the interrupt event. -/
def Capstan.missDeadline (c : Capstan) (x : Ctx) : Capstan :=
  let miss (y : Ctx) : Ctx :=
    { y with missedNow := true, misses := satAdd 0xFFFFFFFF y.misses 1, overrunFrom := some (y.tref + y.deadline) }
  ((c.onCtx x.id miss).note 0x5001 (toLe 2 x.id ++ toLe 4 x.passId ++ toLe 4 x.deadline) (some (toLe 8 x.tref))).event .deadlineMiss

/-- DEADLINE_MISSED (R387): the timer event reaches the Capstan, which decides whether the context is quiet. -/
def execDeadlineMissed (ctx : Nat) (s : State) : Out' :=
  let x := s.cap.ctxOr ctx
  if !s.cap.acts || !x.timerDue s.cap.now then .next s
  else
    let late := !s.quiet ctx
    let s := s.onCap (fun c => c.onCtx ctx (fun y => { y with deadlineArmed := false }))
    .next (deliverAll (if late then s.onCap (fun c => c.missDeadline x) else s))

end Sys2Proof.Machine
end

