-- ==== Sys2Proof/Machine/Faults.lean ====
section
/-!
DEFINITION. Detected faults of a slice: the end of a refetch (R493), scrubbing (R485), rotation testing (R516, R517).
-/

namespace Sys2Proof.Machine

/-! ### Refetches (R493) -/

/-- Whether a hitched query awaits the refetch of an address. -/
def Query.awaitsRefetch (addr : Nat) (q : Query) : Bool :=
  match q.hitch with
  | some h => h.cause = .refetch && lineAddr h.addr = lineAddr addr
  | none => false

/-- Whether the refetch of an address is still under way. -/
def Cache.refetching (c : Cache) (addr : Nat) : Bool :=
  c.misses.any (fun m => m.addr = lineAddr addr && decide (Requester.refetch ∈ m.waiters)) ||
    c.waiting.any (fun w => w.addr = lineAddr addr && w.who = .refetch)

/-- The queries hitched on an address meet the outcome of its refetch (R493). -/
def Slice.refetchDone (env : Capstan) (sl : Slice) (addr : Nat) (o : Refetch) : Slice :=
  if sl.cache.refetching addr then sl
  else
    let qs := sl.work.hitched.filter (Query.awaitsRefetch addr)
    let sl := { sl with work := { sl.work with hitched := sl.work.hitched.filter (fun q => !q.awaitsRefetch addr) } }
    match o with
    | .installed => qs.foldl (fun sl q => sl.replayQuery env q) sl
    | .poison => sl.poisonQueries env qs
    | .failed =>
      ((qs.map (fun (q : Query) => q.ctx)).eraseDups).foldl (fun sl c =>
        sl.failAccess env c causePageFailed addr (qs.filter (fun q => q.ctx = c))) sl

/-- HITCH_REFETCH_DONE (R493). -/
def execHitchRefetchDone (slice addr : Nat) (outcome : Refetch) (s : State) : Out' :=
  onLive slice s (fun env sl => sl.refetchDone env addr outcome)

/-! ### Scrubbing (R485) -/

/-- A row is scrubbed (R485), with the counts of R591: a word found POISONED has been handled before. -/
def Slice.scrub (env : Capstan) (sl : Slice) (r : ScrubRow) (o : WordCode) : Slice :=
  let sl := (if r.ofLay then sl.wake else sl).count 0x709 0 none 1
  if o = .poisoned then sl.countDecode r o else sl.decode env r o

/-- SCRUB (R485). -/
def execScrub (slice : Nat) (row : ScrubRow) (outcome : WordCode) (s : State) : Out' :=
  onLive slice s (fun env sl => sl.scrub env row outcome)

/-! ### Rotation testing (R516, R517) -/

/-- One rotation step of a lay (R516, R517, R614), which skips a trimmed lay: the next unit in turn that is not retired and whose kind has a
spare. A spare is tested in place; the position of another passes to the spare at the next bound of its packet or tile. -/
def Slice.rotateLay (sl : Slice) (lay : Nat) : Slice :=
  let w := sl.work
  if (w.rotUnit lay).isSome || lay ∈ w.layRetired || w.layOff = some lay then sl
  else
    let order := (List.range 14).map (fun i => (w.rotStep lay + i) % 14)
    let able (u : Nat) : Bool := !w.retired lay (u < 9) (unitIndex u) && (w.spare lay (u < 9)).isSome
    match order.find? able with
    | none => sl
    | some u =>
      let w := ((w.setRotUnit lay (some u)).setRotDue lay (unitIndex u ∈ w.map lay (u < 9))).setRotStep lay ((u + 1) % 14)
      (({ sl with work := w }).count 0x708 lay none 1).handOver lay

/-- The ROTATION timer falls due each ROT_PERIOD us (R516), where the image sets ROTATE; a step that falls due during a nap waits for the
next wake (R616). -/
def Slice.rotate (env : Capstan) (sl : Slice) : Slice :=
  let period := 2000 * env.img.rotPeriod
  if !env.img.rotate || sl.pwr.napping || sl.time < sl.work.rotAt + period then sl
  else
    let due := sl.work.rotAt + (sl.time - sl.work.rotAt) / period * period
    (({ sl with work := { sl.work with rotAt := due } }).rotateLay 0).rotateLay 1

/-- ROTATION_STEP (R517): one step in each lay. -/
def execRotationStep (slice : Nat) (s : State) : Out' := onLive slice s (fun env sl => sl.rotate env)

/-- A unit that fails its test is retired until the next start (R517), and a lay without a unit of a kind with it (R26). -/
def Slice.retireUnit (env : Capstan) (sl : Slice) (lay u : Nat) : Slice :=
  let k := unitIndex u
  let unit := k + 16 * lay
  let sl := { sl with work := sl.work.retire lay (u < 9) k }
  let sl := (sl.repair env (if u < 9 then 0x01 else 0x02) unit 0 true).tell (.fault sl.id classUnitRetired 0xFF (some unit))
  if (sl.work.map lay (u < 9)).isEmpty then sl.retireLay env lay else sl

/-- The end of a rotation test (R517): a unit that passes becomes the spare. A unit that still holds its position is not under test yet. -/
def Slice.rotationDone (env : Capstan) (sl : Slice) (lay : Nat) (pass : Bool) : Slice :=
  match sl.work.rotUnit lay with
  | none => sl
  | some u =>
    if sl.work.rotDue lay then sl.handOver lay
    else
    let sl := { sl with work := sl.work.setRotUnit lay none }
    if pass then sl else sl.retireUnit env lay u

/-- ROTATION_TEST_DONE (R517). -/
def execRotationTestDone (slice lay : Nat) (pass : Bool) (s : State) : Out' :=
  onLive slice s (fun env sl => sl.rotationDone env lay pass)

end Sys2Proof.Machine
end

