-- ==== Sys2Proof/Machine/Power.lean ====
section
/-!
DEFINITION. Power of a slice: TRIM, ON and NAP (R614 to R620), the stretch of its clocks (R604), the loss of its rail (R612).
-/

namespace Sys2Proof.Machine

/-- A command of a slice's power or clocks: the engine has power and the slice has not stopped. -/
def onPowered (i : Nat) (s : State) (f : Capstan → Slice → Slice) : Out' :=
  onSlice deliver i s (fun env sl => if env.su.power = .running && !sl.stopped then f env sl else sl)

/-- A new outcome in PWR_STATUS (R617, R619). -/
def Slice.powerOutcome (sl : Slice) (code : Nat) : Slice :=
  { sl with pwr := { sl.pwr with result := BitVec.ofNat 64 (place code 8 8 + flag true 16) } }

def powerDone : Nat := 0x01
def powerAccepted : Nat := 0x02
def powerBusy : Nat := 0x03
def powerLay : Nat := 0x04
def powerState : Nat := 0x05

/-! ### TRIM (R614) -/

/-- The packets of a lay's walkers are returned (R205, R614 step 2). -/
def Slice.returnPackets (env : Capstan) (sl : Slice) (lay : Nat) : Slice :=
  let qs := (sl.walkers lay).flatMap (fun w => w.work.toList.flatMap (·.members) ++ w.parked.flatMap (·.members))
  let sl := (List.range 8).foldl (fun sl w => sl.setWalker lay w (fun _ => emptyWalker)) sl
  qs.foldl (fun sl q => sl.returned env q) sl

/-- Steps 1 to 3 of R614 begin: the lay releases nothing more, what waits passes to the other lay; tiles that have started run on. -/
def Slice.startTrim (env : Capstan) (sl : Slice) (lay : Nat) : Slice :=
  let sl := { sl with pwr := { sl.pwr with pendingOp := some 1, trimLay := lay, autoOn := false }
                      work := { sl.work with layOff := some lay, runs := updateWhere (fun r => r.lay = lay) (fun r => { r with lay := 1 - lay }) sl.work.runs } }
  (sl.rebin.returnPackets env lay).powerOutcome powerAccepted

/-- A lay's node cache is discarded, its miss registers with it (R614 step 4). -/
def Cache.dropLay (c : Cache) (lay : Nat) : Cache :=
  let mine (r : Requester) : Bool := match r with
    | .node l _ => l = lay
    | _ => false
  let c := (c.setNode lay []).setNodeMiss lay []
  { c with misses := c.misses.map (fun (m : ScMiss) => { m with waiters := m.waiters.filter (fun r => !mine r) })
           waiting := c.waiting.filter (fun w => !mine w.who)
           maintIn := c.maintIn.map (fun (m : MaintIn) => { m with ncRegs := m.ncRegs.filter (fun r => r.1 != lay) }) }

/-- Steps 4 and 5 of R614, once the lay's runs and tiles are over. -/
def Slice.trimDrained (sl : Slice) : Slice :=
  let lay := sl.pwr.trimLay
  if sl.pwr.pendingOp = some 1 && (sl.jobs lay).isEmpty then
    { sl with cache := sl.cache.dropLay lay, pwr := { sl.pwr with pendingOp := none, state := 1 } }.powerOutcome powerDone
  else sl

/-- TRIM_DRAINED (R614). -/
def execTrimDrained (slice : Nat) (s : State) : Out' := onPowered slice s (fun _ sl => sl.trimDrained)

/-! ### ON (R615) -/

/-- The lay is powered and its stores are written; it takes its bins and gathers of R197 again (R615). -/
def Slice.poweredOn (sl : Slice) : Slice :=
  match sl.pwr.pendingOp with
  | none => sl
  | some op =>
    if op = 1 then sl
    else
      let st := if op = 0 || sl.pwr.state = 1 then 0 else sl.pwr.state
      { sl with pwr := { sl.pwr with pendingOp := none, state := st }, work := { sl.work with layOff := none } }.rebin.wake.powerOutcome powerDone

/-- LAY_POWERED_ON (R615). -/
def execLayPoweredOn (slice : Nat) (s : State) : Out' := onPowered slice s (fun _ sl => sl.poweredOn)

/-! ### Requests (R616, R617, R620) -/

/-- An ON request. -/
def Slice.requestOn (sl : Slice) : Slice :=
  if sl.work.layOff.isSome then { sl with pwr := { sl.pwr with pendingOp := some 0 } }.powerOutcome powerAccepted
  else if sl.pwr.state = 0 then sl.powerOutcome powerState
  else { sl with pwr := { sl.pwr with state := 0 } }.powerOutcome powerDone

/-- A TRIM request. -/
def Slice.requestTrim (env : Capstan) (sl : Slice) (lay : Nat) : Slice :=
  match sl.work.layOff with
  | some l =>
    if l != lay || sl.pwr.state = 1 then sl.powerOutcome powerState
    else { sl with pwr := { sl.pwr with state := 1 } }.powerOutcome powerDone
  | none => if (1 - lay) ∈ sl.work.layRetired then sl.powerOutcome powerLay else sl.startTrim env lay

/-- A NAP request: it is DONE when it is accepted (R617). -/
def Slice.requestNap (sl : Slice) : Slice :=
  if sl.pwr.state = 2 then sl.powerOutcome powerState
  else { sl with pwr := { sl.pwr with state := 2, idleSince := sl.time } }.powerOutcome powerDone

/-- A write to PWR_REQ (R617, R620); it wakes a napping slice (R616). -/
def Slice.powerRequest (env : Capstan) (sl : Slice) (v : Nat) : Slice :=
  let st := field v 1 0
  if st = 3 then sl
  else
    let sl := sl.wake
    if sl.pwr.pendingOp.isSome then sl.powerOutcome powerBusy
    else if st = 0 then sl.requestOn
    else if st = 1 then sl.requestTrim env (field v 2 2)
    else sl.requestNap

/-- NAP_IDLE_TIMER (R616): after 10 us idle, while NAP is the requested state and no change of power is under way. -/
def execNapIdleTimer (slice : Nat) (s : State) : Out' :=
  onPowered slice s (fun _ sl =>
    if sl.pwr.state = 2 && sl.pwr.pendingOp.isNone && sl.idle && sl.pwr.idleSince + 20000 ≤ sl.time then
      { sl with pwr := { sl.pwr with napping := true } }
    else sl)

/-- NAP_WAKE (R616). -/
def execNapWake (slice : Nat) (s : State) : Out' := onPowered slice s (fun _ sl => sl.wake)

/-- PWR_LAYS (R621): bit k is 1 while lay k is powered: not trimmed off, which it is once a trim has ended and until it is on again. -/
def Slice.pwrLays (sl : Slice) : BitVec 2 :=
  let on (k : Nat) : Bool := sl.pwr.rail && (sl.work.layOff != some k || sl.pwr.pendingOp = some 1)
  BitVec.ofNat 2 (flag (on 0) 0 + flag (on 1) 1)

/-! ### Stretch (R604, R621) -/

/-- Whether the slice stretches for droop, for temperature (R604, R619). -/
def SlicePower.droops' (p : SlicePower) : Bool := p.droopNow || p.droopHold.isSome
def SlicePower.heats' (p : SlicePower) : Bool := p.thermNow || p.thermHold.isSome

/-- STRETCH_WARN_RISE (R604, R621). -/
def execStretchWarnRise (slice : Nat) (droop : Bool) (s : State) : Out' :=
  onPowered slice s (fun _ sl =>
    let p := sl.pwr
    if droop then
      if p.droopNow then sl else { sl with pwr := { p with droopNow := true, droopHold := none, droops := satAdd 0xFFFF p.droops 1 } }
    else if p.thermNow then sl
    else { sl with pwr := { p with thermNow := true, thermHold := none, heats := satAdd 0xFFFF p.heats 1 } })

/-- STRETCH_WARN_FALL (R604): the clocks stay stretched for 1 us after DROOP_WARN, for 100 us after THERM_WARN. -/
def execStretchWarnFall (slice : Nat) (droop : Bool) (s : State) : Out' :=
  onPowered slice s (fun _ sl =>
    let p := sl.pwr
    if droop then
      if p.droopNow then { sl with pwr := { p with droopNow := false, droopHold := some (sl.time + 2000) } } else sl
    else if p.thermNow then { sl with pwr := { p with thermNow := false, thermHold := some (sl.time + 200000) } }
    else sl)

/-- A hold that has ended is over. -/
def holdOver (now : Nat) (h : Option Nat) : Option Nat := h.filter (fun t => now < t)

/-- STRETCH_RESTORE (R604). -/
def execStretchRestore (slice : Nat) (s : State) : Out' :=
  onPowered slice s (fun _ sl =>
    { sl with pwr := { sl.pwr with droopHold := holdOver sl.time sl.pwr.droopHold, thermHold := holdOver sl.time sl.pwr.thermHold } })

/-! ### The loss of a rail (R503, R612) -/

/-- SLICE_POWER_LOSS (R612): RAIL_GOOD low, or THERM_TRIP high; the slice stops. -/
def execSlicePowerLoss (slice : Nat) (trip : Bool) (s : State) : Out' :=
  onPowered slice s (fun _ sl =>
    { sl with pwr := { sl.pwr with rail := sl.pwr.rail && trip, tripped := sl.pwr.tripped || trip } }.stop 0xFF none)

end Sys2Proof.Machine
end

