-- ==== Sys2Proof/Machine/Regs.lean ====
section
/-!
DEFINITION. The values that the registers read (R572, R573): each from the field tables of the chapter that defines it. `none` stands for
an offset that no table lists.
-/

namespace Sys2Proof.Machine

def reg (n : Nat) : Reg := BitVec.ofNat 64 n

/-- The sum of fields, each placed at its bit. -/
def fields (fs : List Nat) : Reg := reg fs.sum

/-- A register of a list of `n`, `step` bytes apart from `base` on: its number. -/
def indexAt (base step n off : Nat) : Option Nat :=
  if base ≤ off && (off - base) % step = 0 && (off - base) / step < n then some ((off - base) / step) else none

/-! ### The Capstan window (R572) -/

/-- CAP_ID (R574). -/
def Capstan.idReg (c : Capstan) : Reg := fields [0x2B4D, place 0x4E52 16 16, place 0x00 8 32, place 0x01 8 40, place c.n 6 48]

def StartState.code : StartState → Nat
  | .starting => 0 | .ready => 1 | .notReady => 2 | .failed => 3

/-- CAP_START (R472). -/
def Capstan.startReg (c : Capstan) : Reg :=
  fields [c.su.state.code, flag c.su.selftest 3, flag c.su.dtr 4, place c.su.cause 8 8, place c.su.section_ 8 16, place c.su.startUs 32 32]

/-- CAP_IMAGE (R473). -/
def Capstan.imageReg (c : Capstan) : Reg := fields [place c.img.revision 32 0, place c.img.length 25 32]

/-- CAP_ENGINE (R474). -/
def Capstan.engineReg (c : Capstan) : Reg :=
  fields [place c.img.package 12 0, place (if c.img.loaded then c.n else 0) 6 12, place c.img.syncMode 2 18, flag c.img.rotate 20
          , place c.img.tickPeriod 32 32]

/-- CTX_TABLE (R476). -/
def Capstan.tableReg (c : Capstan) : Reg := fields [place c.img.ctxBase 48 0, place c.img.ctxCount 13 48]

/-- CTX_ACTIVE (R480). -/
def Capstan.activeReg (c : Capstan) : Reg := fields [place c.active.length 7 0, place (min c.actWait.length 8191) 13 7]

def SliceState.code : SliceState → Nat
  | .absent => 0 | .live => 1 | .deadPass => 2 | .deadIsolated => 3

/-- CAP_SLICE_STATE (R522). -/
def Capstan.slicesReg (c : Capstan) : Reg := fields ((indexed c.hl.slices).map (fun e => place e.2.code 2 (2 * e.1)))

/-- CAP_PROXYn (R523). -/
def Capstan.proxyReg (c : Capstan) (n : Nat) : Reg :=
  fields ((List.range 8).map (fun k => match c.hl.proxies.find? (fun p => p.1 = 8 * n + k) with
    | some p => place p.2 5 (8 * k) + flag true (8 * k + 7)
    | none => 0))

/-- CAP_RESTART (R525): RECENT counts the restarts of the last second. -/
def Capstan.restartReg (c : Capstan) : Reg :=
  fields [place (min c.hl.restartCount 0xFFFF) 16 0, place (min c.hl.lastRestart 0xFFFF) 16 16
          , place (min (c.hl.recent.countP (fun t => c.now ≤ t + 1000000000)) 0xFFFF) 16 32]

/-- CAP_REPAIR (R526). -/
def Capstan.repairReg (c : Capstan) : Reg :=
  match c.hl.repairs[c.hl.repairSel]? with
  | none => 0
  | some r => fields [1, place r.kind 4 1, flag r.retired 5, flag r.inService 6, place r.slice 5 8, place r.unit 16 16, place r.index 32 32]

/-- MGT_STATUS (R563): NUMBER is that of the open or last session. -/
def Capstan.mgtReg (c : Capstan) : Reg :=
  let s := match c.mgt.session with
    | some x => fields [1, place x.key 2 1, place (((c.img.keys.find? (fun k => k.1 = x.key)).map (·.2.1)).getD 0) 3 3]
    | none => 0
  s + fields [flag c.mgt.addr.isSome 6, place (c.mgt.addr.getD 0) 7 7, flag c.mgt.lockout.isSome 14, place c.mgt.sessions 32 32]

/-- MGT_KEYS (R564). -/
def Capstan.keysReg (c : Capstan) : Reg := fields (c.img.keys.map (fun k => flag true (4 * k.1) + place k.2.1 3 (4 * k.1 + 1)))

/-- CAP_TIMEBASE (R611). -/
def Capstan.timebaseReg (c : Capstan) : Reg :=
  fields [place c.tb.state 3 0, place c.tb.error.toNat 32 4, place (min c.tb.frames 0xFFFF) 16 36, place (min c.tb.bad 0xFFF) 12 52]

/-- CAP_IRQ_COUNT (R580). -/
def Capstan.countReg (c : Capstan) : Reg := fields ((indexed c.irq.counts).map (fun e => place (min e.2 0xFFFF) 16 (16 * e.1)))

/-- A register of the Capstan window. -/
def Capstan.reg? (c : Capstan) (off : Nat) : Option Reg :=
  let l := c.log
  if off = 0x0000 then some c.idReg
  else if off = 0x0008 then some (reg (if c.tb.on then c.now else 0))
  else if off = 0x0010 then some c.irq.regErr
  else if off = 0x0100 then some (reg c.irq.mask)
  else if off = 0x0108 then some (reg c.irq.pend)
  else if off = 0x0110 then some c.countReg
  else if off = 0x0200 then some c.startReg
  else if off = 0x0208 then some c.imageReg
  else if off = 0x0210 then some c.engineReg
  else if off = 0x0218 then some (reg c.img.rotPeriod)
  else if off = 0x0220 then some c.tableReg
  else if off = 0x0228 then some 0
  else if off = 0x0230 then some c.ctxResult
  else if off = 0x0238 then some c.activeReg
  else if off = 0x0300 then some c.slicesReg
  else if off = 0x0328 then some c.hl.fault
  else if off = 0x0330 then some c.hl.faultTime
  else if off = 0x0338 then some c.restartReg
  else if off = 0x0340 then some 0
  else if off = 0x0348 then some c.repairReg
  else if off = 0x0400 then some l.headReg
  else if off = 0x0408 then some l.lastReg
  else if off = 0x0410 then some l.dropReg
  else if off = 0x0418 then some (reg l.mark.toNat)
  else if off = 0x0420 then some (reg l.thresh)
  else if off = 0x0428 then some 0
  else if off = 0x0430 then some (reg l.rstat)
  else if off = 0x0438 then some l.word0
  else if off = 0x0440 then some l.word1
  else if off = 0x0448 then some l.word2
  else if off = 0x0450 then some l.word3
  else if off = 0x0500 then some c.mgtReg
  else if off = 0x0508 then some c.keysReg
  else if off = 0x0510 then some (reg (min c.mgt.fails 0xFFFF))
  else if off = 0x0600 then some c.timebaseReg
  else match indexAt 0x0140 16 4 off, indexAt 0x0148 16 4 off, indexAt 0x0308 8 4 off with
    | some k, _, _ => some (reg (c.img.irqs.getD k (0, 0)).1)
    | _, some k, _ => some (reg (c.img.irqs.getD k (0, 0)).2)
    | _, _, some n => some (c.proxyReg n)
    | _, _, _ => none

/-! ### The slice window (R573) -/

/-- ING_STATUS (R192). -/
def Slice.ingReg (sl : Slice) : Reg :=
  let held := sl.ing.pendq.countP (fun p => p.stage.holds)
  fields [place sl.ing.pendq.length 9 0, place (sl.ing.batches.length + sl.ing.adopting.length + held) 11 9]

/-- MASH_STATUS (R236). HELD counts the tokens that wait for a gather descriptor, of which the spec does not say where they wait (log entry
12). -/
def Slice.mashReg (sl : Slice) : Reg :=
  let m := sl.mash
  let held := (m.bins.map (·.members.length)).sum + (m.overflow.map (fun o => o.2.2.length)).sum + (m.gathers.map (·.members.length)).sum +
    m.gatherWait.length
  fields [place (m.bins.countP (fun b => b.lay = 0)) 14 0, place (m.bins.countP (fun b => b.lay = 1)) 14 14
          , place m.gathers.length 11 28, place (min held 1048575) 20 39]

/-- A mask of unit numbers. -/
def maskOf (ks : List Nat) : Nat := ks.foldl (fun m k => m ||| 2 ^ k) 0

/-- WLK_STATUS (R238). -/
def Slice.wlkReg (sl : Slice) : Reg :=
  fields [place (maskOf sl.work.walkMap0) 9 0, place (maskOf sl.work.walkMap1) 9 9, place sl.work.walkRetired 18 18]

/-- ARR_STATUS (R275). -/
def Slice.arrReg (sl : Slice) : Reg :=
  fields [place (maskOf sl.work.arrMap0) 5 0, place (maskOf sl.work.arrMap1) 5 5, place sl.work.arrRetired 10 10]

/-- ARR_SEQ_STATUS (R304). -/
def Slice.seqReg (sl : Slice) : Reg :=
  let evals (js : List Job) : Nat := js.countP (fun j => match j.kind with
    | .eval _ _ => true
    | _ => false)
  let hitched := sl.work.hitched.countP (fun q => q.next.ckind = 6)
  fields [place (sl.tilesHeld 0) 4 0, place (sl.tilesHeld 1) 4 4
          , place (min (evals sl.work.jobs0 + evals sl.work.jobs1 + sl.work.runs.length) 1023) 10 8, place (min hitched 1048575) 20 18]

/-- SC_STATUS (R351). -/
def Slice.scReg (sl : Slice) : Reg :=
  let tiles := sl.tilesHeld 0 + sl.tilesHeld 1 + (if sl.work.reserving.isSome then 1 else 0)
  fields [place sl.cache.misses.length 9 0, place sl.cache.evict.length 7 9
          , place (min (sl.cache.lines.countP (fun l => l.rsv != 0)) 1048575) 20 16, place tiles 5 36]

def WayState.code : WayState → Nat
  | .active => 0 | .draining => 1 | .gated => 2 | .waking => 3

/-- SC_WAY_STATUS (R353). -/
def Slice.wayReg (env : Capstan) (sl : Slice) : Reg :=
  fields ((indexed sl.cache.ways).map (fun e => place e.2.code 2 (2 * e.1)) ++ [place (env.img.partMasks.getD 4 0) 16 32])

/-- SC_PINn_LO and SC_PINn_HI (R357). -/
def pinReg (env : Capstan) (sl n : Nat) : Reg × Reg :=
  match env.img.pinWins.find? (fun w => w.1 = sl && w.2.1 = n) with
  | some w => (reg w.2.2.1, reg w.2.2.2)
  | none => (0, 0)

/-- QS_STATUS (R358). -/
def Slice.qsReg (sl : Slice) : Reg :=
  let st := sl.store
  fields [place st.freeCount 19 0, place (st.entries.countP (fun e => !e.guest)) 19 19, place (st.entries.countP (·.guest)) 19 38
          , flag st.spilling 57]

/-- QS_DIAG (R359). -/
def Slice.diagReg (sl : Slice) : Reg :=
  match sl.store.entryOf sl.store.diagSel with
  | none => 0
  | some e => fields [1, place e.kind 4 1, flag e.hitched 5, flag e.spilled 6, flag e.guest 7, place e.batch 10 8, place e.qindex 16 18
                      , place e.home 5 34]

/-- STR_STATUS (R390). -/
def Slice.strReg (sl : Slice) : Reg :=
  fields ((indexed sl.str.streams).map (fun e => flag e.2.busy e.1 + flag e.2.resume.isSome (16 + e.1)))

/-- Credits of a pool that no stream holds. -/
def Slice.poolFree (env : Capstan) (sl : Slice) (i : Nat) : Nat :=
  (poolOf env i).1 - ((indexed sl.str.streams).filter (fun e => isFetch e.1 = isFetch i)).foldl
    (fun n e => n + e.2.heldReserve + e.2.heldShared) 0

/-- STR_POOL (R391). -/
def Slice.poolReg (env : Capstan) (sl : Slice) : Reg := fields [place (sl.poolFree env 0) 13 0, place ((poolOf env 8).1 - sl.cache.buffersHeld.length) 13 13]

/-- STR_POSn (R395). -/
def Stream.posReg (x : Stream) : Reg := fields [place x.delivered 32 0, place (x.resume.getD x.lastResume) 32 32]

def PortState.code : PortState → Nat
  | .unused => 0 | .up => 1 | .degraded => 2 | .down => 3

/-- ROPE_STATUS (R425). -/
def Slice.ropeReg (sl : Slice) : Reg :=
  let r := sl.rope
  fields ([place r.epoch 16 0, flag r.passThrough 40, flag r.hold 41, flag r.detour 42] ++
    (indexed r.ports).flatMap (fun p => place p.2.st.code 2 (16 + 2 * p.1) ::
      (indexed p.2.modules).map (fun m => flag (m.2.st = .up) (24 + 4 * p.1 + m.1))))

/-- ROPE_ROUTE0 and ROPE_ROUTE1 (R427). -/
def Slice.routeReg (sl : Slice) (h : Nat) : Reg :=
  fields ((List.range 16).map (fun d => place (sl.rope.routes.getD (16 * h + d) 0xF) 4 (4 * d)))

/-- ROPE_PTRQ (R429). -/
def Slice.ptrqReg (sl : Slice) : Reg := fields ((indexed sl.rope.ports).map (fun p => place (min p.2.ptrq.length 2048) 12 (12 * p.1)))

/-- PWR_STATUS (R619). -/
def Slice.pwrReg (sl : Slice) : Reg :=
  let p := sl.pwr
  p.result + fields [place p.state 2 0, place p.trimLay 1 2, flag p.napping 3, flag p.pendingOp.isSome 4, flag p.droops' 5
                     , flag p.heats' 6, flag p.autoOn 7]

/-- PWR_SENSE (R621). -/
def Slice.senseReg (sl : Slice) : Reg :=
  let p := sl.pwr
  fields [flag p.rail 0, flag p.droopNow 1, flag p.thermNow 2, flag p.tripped 3, place p.droops 16 16, place p.heats 16 32]

/-- The bytes of a Mash profile (R200, R237). -/
def profileReg (env : Capstan) (n off : Nat) : Reg := reg (le (env.img.profiles.getD n []) off 8)

/-- A register of a slice window. -/
def Slice.reg? (env : Capstan) (sl : Slice) (off : Nat) : Option Reg :=
  let k := sl.cnt
  if off = 0x2000 then some sl.ingReg
  else if off = 0x2008 then some sl.ing.refuse
  else if off = 0x2010 then some sl.ing.unreach
  else if off = 0x2400 then some sl.mashReg
  else if off = 0x2800 then some sl.wlkReg
  else if off = 0x2C00 then some (fields [place sl.work.ptuActive 4 0, place sl.work.ptuRetired 4 4])
  else if off = 0x3000 then some sl.arrReg
  else if off = 0x3008 then some sl.seqReg
  else if off = 0x3010 then some sl.work.leafPoi
  else if off = 0x3400 then some (fields [place sl.cache.nodeMiss0.length 6 0, place sl.cache.nodeMiss1.length 6 6])
  else if off = 0x3800 then some sl.scReg
  else if off = 0x3808 then some (fields ((List.range 4).map (fun i => place (env.img.partMasks.getD i 0) 16 (16 * i))))
  else if off = 0x3810 then some (sl.wayReg env)
  else if off = 0x3818 then some 0
  else if off = 0x3820 then some sl.cache.result
  else if off = 0x3828 then some (fields [place sl.cache.lost 32 0, place sl.cache.overflow 32 32])
  else if off = 0x3C00 then some sl.qsReg
  else if off = 0x3C08 then some 0
  else if off = 0x3C10 then some sl.diagReg
  else if off = 0x4000 then some sl.strReg
  else if off = 0x4008 then some (sl.poolReg env)
  else if off = 0x4010 then some (reg env.img.strCfg)
  else if off = 0x4018 then some sl.str.fault
  else if off = 0x4020 then some sl.str.faultAddr
  else if off = 0x4400 then some sl.ropeReg
  else if off = 0x4408 then some (reg env.img.ropeCfg)
  else if off = 0x4410 then some (sl.routeReg 0)
  else if off = 0x4418 then some (sl.routeReg 1)
  else if off = 0x4420 then some sl.rope.linkErr
  else if off = 0x4428 then some sl.ptrqReg
  else if off = 0x4800 then some sl.pwrReg
  else if off = 0x4808 then some 0
  else if off = 0x4810 then some sl.senseReg
  else if off = 0x5000 then some k.ctl
  else if off = 0x5008 then some k.inv
  else if off = 0x5010 then some k.nan
  else if off = 0x5018 then some k.ovf
  else if off = 0x5020 then some k.sat
  else if off = 0x5028 then some k.ftz
  else if off = 0x5040 then some k.capt0
  else if off = 0x5048 then some k.capt1
  else if off = 0x5050 then some k.capt2
  else if off = 0x5058 then some k.captTime
  else match indexAt 0x2440 16 8 off, indexAt 0x2448 16 8 off, indexAt 0x3840 16 8 off, indexAt 0x3848 16 8 off with
    | some n, _, _, _ => some (profileReg env n 0)
    | _, some n, _, _ => some (profileReg env n 8)
    | _, _, some n, _ => some (pinReg env sl.id n).1
    | _, _, _, some n => some (pinReg env sl.id n).2
    | _, _, _, _ =>
      match indexAt 0x4080 8 16 off, indexAt 0x5100 8 16 off, indexAt 0x5180 8 16 off with
      | some n, _, _ => some ((sl.str.streams.map Stream.posReg).getD n 0)
      | _, some n, _ => some (k.sels.getD n 0)
      | _, _, some n => some (k.vals.getD n 0)
      | _, _, _ => none

end Sys2Proof.Machine
end

