-- ==== Sys2Proof/Machine/Ways.lean ====
section
/-!
DEFINITION. Range maintenance at a slice (R67 to R69, R326 to R328) and the power of slice-cache ways (R309, R330 to R332, R355, R393).
-/

namespace Sys2Proof.Machine

/-! ### Range maintenance (R68, R326, R327) -/

/-- Whether a descriptor affects lines of a context (R68). -/
def MaintMsg.ofCtx (env : Capstan) (m : MaintMsg) (ctx : Nat) : Bool :=
  ctx = m.ctx || (m.all && (match env.ctx? ctx, env.ctx? m.ctx with
    | some a, some b => a.asid = b.asid
    | _, _ => false))

/-- Whether a line of `size` bytes holds a byte of the range (R68). -/
def MaintMsg.covers (m : MaintMsg) (addr size : Nat) : Bool := m.length != 0 && addr < m.base + m.length && m.base < addr + size

/-- The dirty lines that a descriptor cleans enter the eviction buffer as far as it has room (R327); the others are the first part. -/
def Cache.cleanLines (p : Line → Bool) (c : Cache) : List (Nat × Nat) × Cache :=
  (c.lines.filter (fun l => p l && l.dirty && l.rsv = 0)).foldl (fun (acc : List (Nat × Nat) × Cache) l =>
    if acc.2.canVacate l.set l.way then (acc.1, acc.2.vacate l.set l.way) else (acc.1 ++ [(l.ctx, l.tag)], acc.2)) ([], c)

/-- The order in which a descriptor invalidates lines (R326): line by line through a range of at most 2,048 lines, else set by set,
and in a set by way, which the spec does not order (log entry 82). -/
def MaintMsg.before (m : MaintMsg) (a b : Line) : Bool :=
  if (m.length + m.base % 256 + 255) / 256 ≤ 2048 then a.tag < b.tag else a.set < b.set || (a.set = b.set && a.way < b.way)

/-- A node cache without the range, its registers that must be FREE first (R327). -/
def Cache.maintNode (env : Capstan) (c : Cache) (lay : Nat) (m : MaintMsg) : Cache × List (Nat × Nat) :=
  let mine (ctx addr : Nat) : Bool := m.ofCtx env ctx && m.covers addr 128
  let ms := c.nodeMiss lay
  let c := c.setNode lay ((c.node lay).filter (fun l => !mine l.ctx l.addr))
  (c.setNodeMiss lay (updateWhere (fun x => mine x.ctx x.addr) (fun x => { x with st := .noInstall }) ms),
   (ms.filter (fun x => mine x.ctx x.addr)).map (fun x => (lay, x.reg)))

/-- A descriptor is applied to both node caches and the slice cache (R326, R327). -/
def Slice.applyMaint (env : Capstan) (sl : Slice) (m : MaintMsg) : Slice :=
  let mine (ctx addr : Nat) : Bool := m.ofCtx env ctx && m.covers addr 256
  let line (l : Line) : Bool := mine l.ctx l.tag
  let locked := sl.cache.lines.filter (fun l => line l && l.lock && !l.doomed)
  let (c, r0) := sl.cache.maintNode env 0 m
  let (c, r1) := c.maintNode env 1 m
  let (late, c) := if m.clean then c.cleanLines line else ([], c)
  let c := c.dropLines (fun l => line l && !((l.ctx, l.tag) ∈ late))
  let regs := (c.misses.filter (fun x => mine x.ctx x.addr)).map (·.reg)
  let waits := if m.clean then (c.evict.filter (fun e => mine e.ctx e.addr)).map (·.id) else []
  let job : MaintIn := { msg := m, scRegs := regs, ncRegs := r0 ++ r1, evicts := waits, flushes := late, locked := locked.length
                         lockFirst := ((sortBy m.before locked).head?.map (·.tag)).getD 0 }
  let c : Cache := { c with
    misses := updateWhere (fun x => mine x.ctx x.addr) (fun x => { x with st := .noInstall }) c.misses
    lost := satAdd 0xFFFFFFFF c.lost locked.length
    maintIn := c.maintIn ++ [job] }
  (late.foldl (fun (sl : Slice) l => sl.flushLine env l.1 l.2) { sl with cache := c }).cacheMoved env

/-- MAINT_DESC (R326): a descriptor reaches a slice. -/
def execMaintDesc (slice idx : Nat) (s : State) : Out' :=
  onArrival slice idx s (fun env sl m => match m.body with
    | .maintDesc d => some (sl.applyMaint env d)
    | _ => none)

/-- Whether a descriptor's conditions hold on the slice (R69, R327). -/
def Slice.maintMet (env : Capstan) (sl : Slice) (d : MaintIn) : Bool :=
  d.scRegs.isEmpty && d.ncRegs.isEmpty && d.evicts.isEmpty && d.flushes.isEmpty &&
    !(sl.cache.lines.any (fun l => l.doomed && d.msg.ofCtx env l.ctx && d.msg.covers l.tag 256))

/-- The first descriptor whose conditions hold is acknowledged to its home (R326), with the record of locked lines (R328). -/
def Slice.ackMaint (env : Capstan) (sl : Slice) : Slice :=
  match sl.cache.maintIn.find? (sl.maintMet env) with
  | none => sl
  | some d =>
    let sl := { sl with cache := { sl.cache with maintIn := sl.cache.maintIn.erase d } }
    let sl := if d.locked = 0 then sl
      else sl.log env 0x6001 (toLe 2 d.msg.ctx ++ toLe 4 d.msg.batchId ++ toLe 4 d.locked) { tail := some (toLe 8 d.lockFirst) }
    sl.send env d.msg.home (.maintAck d.msg sl.id)

/-- MAINT_CONDITIONS_MET (R69). -/
def execMaintConditionsMet (slice : Nat) (s : State) : Out' := onLive slice s (fun env sl => sl.ackMaint env)

/-- A descriptor that every live slice has acknowledged lands (R178, R326, R506). -/
def Slice.maintLands (env : Capstan) (sl : Slice) (o : MaintOut) : Slice :=
  if (env.ids.filter env.isLive).all (fun i => decide (i ∈ o.acks)) then
    let sl := { sl with ing := { sl.ing with maintOut := sl.ing.maintOut.filter (fun x => x.msg != o.msg) } }
    match sl.batch? o.msg.handle with
    | none => sl
    | some b =>
      let f (r : QRes) : QRes := { r with ended := some 0 }
      (sl.setBatch { b with res := updateWhere (fun r => r.q = o.msg.qindex) f b.res }).queryDone env b.handle o.msg.qindex
  else sl

/-- A slice's acknowledgement is taken at the home. -/
def Slice.takeMaintAck (env : Capstan) (sl : Slice) (m : MaintMsg) (i : Nat) : Slice :=
  match sl.ing.maintOut.find? (fun o => o.msg = m) with
  | none => sl
  | some o =>
    let o : MaintOut := { o with acks := if i ∈ o.acks then o.acks else o.acks ++ [i] }
    ({ sl with ing := { sl.ing with maintOut := updateWhere (fun x => x.msg = m) (fun _ => o) sl.ing.maintOut } }).maintLands env o

/-- MAINT_ACK (R326): an acknowledgement reaches the home slice. -/
def execMaintAck (slice idx : Nat) (s : State) : Out' :=
  onArrival slice idx s (fun env sl m => match m.body with
    | .maintAck d i => some (sl.takeMaintAck env d i)
    | _ => none)

/-! ### Ways (R330 to R332) -/

def Cache.way (c : Cache) (w : Nat) : WayState := c.ways.getD w .gated

def Cache.setWay (c : Cache) (w : Nat) (st : WayState) : Cache := { c with ways := c.ways.set w st }

/-- SC_WAY_RESULT with an outcome (R355). -/
def wayResult (code way action : Nat) : Reg := BitVec.ofNat 64 (place code 8 0 + place way 4 8 + place action 2 12 + flag true 14)

def Cache.outcome (c : Cache) (code way action : Nat) : Cache := { c with result := wayResult code way action }

/-- Outcome codes of R330. -/
def wayDone : Nat := 0x01
def wayLocked : Nat := 0x02
def wayMinimum : Nat := 0x03
def wayBusy : Nat := 0x04
def wayState : Nat := 0x05
def wayAccepted : Nat := 0x06

/-- Whether another way drains or wakes. -/
def Cache.wayBusy (c : Cache) (w : Nat) : Bool :=
  (indexed c.ways).any (fun e => e.1 != w && (e.2 = .draining || e.2 = .waking))

/-- ACTIVE ways of a partition outside LOCK, without way `w`. -/
def Cache.waysLeft (env : Capstan) (c : Cache) (p : Part) (w : Nat) : Nat :=
  ((maskBits 16 (partMask env p)).filter (fun k => k != w && c.way k = .active && !bit (lockMask env) k)).length

/-- Bytes of a way (R307). -/
def wayBytes : Nat := 20480 * 256

/-- Whether gating a way breaks a minimum of R309, or a bound of R393, for its partition. -/
def Cache.breaksMinimum (env : Capstan) (c : Cache) (w : Nat) : Bool :=
  let left (p : Part) : Nat := c.waysLeft env p w
  let inPart (p : Part) : Bool := bit (partMask env p) w
  (inPart .tree && left .tree < 1) || (inPart .weight && left .weight < 4) || (inPart .stream && left .stream < 2) ||
    (inPart .weight && left .weight * wayBytes / 2 < 4096 * (poolOf env 0).1) ||
    (inPart .stream && left .stream * wayBytes / 2 < 4096 * (poolOf env 8).1)

/-- A GATE request (R330, R331): refused with the lowest code that applies, or the way leaves allocation (step 1). -/
def Slice.gateWay (env : Capstan) (sl : Slice) (w : Nat) : Slice :=
  let c := sl.cache
  let no (code : Nat) : Slice := { sl with cache := c.outcome code w 1 }
  if bit (lockMask env) w then no wayLocked
  else if c.breaksMinimum env w then no wayMinimum
  else if c.wayBusy w then no wayBusy
  else if c.way w != .active then no wayState
  else
    let ms := updateWhere (fun (m : ScMiss) => m.way = w) (fun m => { m with st := .noInstall }) c.misses
    { sl with cache := ({ (c.setWay w .draining) with misses := ms }).outcome wayAccepted w 1 }

/-- An UNGATE request (R330, R332); a way that self-test lost is held GATED (R514). -/
def Slice.ungateWay (sl : Slice) (w : Nat) : Slice :=
  let c := sl.cache
  let no (code : Nat) : Slice := { sl with cache := c.outcome code w 2 }
  if c.wayBusy w then no wayBusy
  else if c.way w != .gated || w ∈ c.lostWays then no wayState
  else { sl with cache := (c.setWay w .waking).outcome wayAccepted w 2 }

/-- The lines of a way are cleaned while the eviction buffer has room (R331 step 4). -/
def Cache.sweepWay (c : Cache) (w : Nat) : Cache :=
  (c.lines.filter (fun l => l.way = w && !l.held)).foldl (fun (c : Cache) l =>
    if c.canVacate l.set l.way then c.vacate l.set l.way else c) c

/-- The cleaning sweep of a draining way (R331 steps 2 to 4): once its fills and its reservations, and the stream buffers in it, have ended
(R366). -/
def Slice.sweep (env : Capstan) (sl : Slice) (w : Nat) : Slice :=
  let c := sl.cache
  if c.way w != .draining || c.misses.any (fun m => m.way = w) || c.lines.any (fun l => l.way = w && l.held) then sl
  else
    let c := c.sweepWay w
    let swept : Bool := !(c.lines.any (fun l => l.way = w))
    let c : Cache := { c with wayStep := if swept && !((w, 4) ∈ c.wayStep) then c.wayStep ++ [(w, 4)] else c.wayStep }
    ({ sl with cache := c }).cacheMoved env

/-- WAY_CLEAN_SWEEP (R331). -/
def execWayCleanSweep (slice way : Nat) (s : State) : Out' := onLive slice s (fun env sl => sl.sweep env way)

/-- The way is gated (R331 steps 5 and 6): once its entries of the eviction buffer are acknowledged. -/
def Slice.gated (sl : Slice) (w : Nat) : Slice :=
  let c := sl.cache
  if c.way w = .draining && decide ((w, 4) ∈ c.wayStep) && !(c.evict.any (fun e => e.way = some w)) then
    { sl with cache := ({ (c.setWay w .gated) with wayStep := c.wayStep.erase (w, 4) }).outcome wayDone w 1 }
  else sl

/-- WAY_GATED (R331). -/
def execWayGated (slice way : Nat) (s : State) : Out' := onLive slice s (fun _ sl => sl.gated way)

/-- A way that wakes is ACTIVE (R332). -/
def Slice.awake (env : Capstan) (sl : Slice) (w : Nat) : Slice :=
  if sl.cache.way w = .waking then ({ sl with cache := (sl.cache.setWay w .active).outcome wayDone w 2 }).cacheMoved env else sl

/-- WAY_AWAKE (R332). -/
def execWayAwake (slice way : Nat) (s : State) : Out' := onLive slice s (fun env sl => sl.awake env way)

end Sys2Proof.Machine
end

