-- ==== Sys2Proof/Machine/Bus.lean ====
section
/-!
DEFINITION. The register port (R15, R16, R565 to R570, R576, R599): how an access is decoded, what a write does, what a read clears, and
the commands that are register accesses.
-/

namespace Sys2Proof.Machine

/-! ### Decoding (R565, R568) -/

/-- What an access addresses: a register of the Capstan window or of a slice window, by its offset there. -/
inductive Target where
  | cap (off : Nat)
  | slice (i off : Nat)
  deriving DecidableEq, Repr

/-- The first region offset of a slice window (R565). -/
def sliceWindow : Nat := 0x00100000

/-- The register that an access addresses, or the lowest code of R568. -/
def State.decodeAccess (s : State) (off size : Nat) : Except Nat Target :=
  if size != 8 then .error 1
  else if off % 8 != 0 then .error 2
  else if off < 0x00040000 then 
    if (s.cap.reg? off).isNone then .error 3 else if s.cap.hl.failed && off ∈ s.cap.hl.lost then .error 6 else .ok (.cap off)
  else if off < sliceWindow || 0x00300000 ≤ off then .error 3
  else
    let i := (off - sliceWindow) / 0x10000
    let o := (off - sliceWindow) % 0x10000
    if ((resetSlice i).reg? s.cap o).isNone then .error 3
    else if s.cap.n ≤ i || s.slices.length ≤ i then .error 4
    else if s.cap.hl.slices.getD i .absent = .deadPass || s.cap.hl.slices.getD i .absent = .deadIsolated then .error 5
    else if off ∈ s.cap.hl.lost then .error 6
    else .ok (.slice i o)

/-- Whether an access is to the Capstan window. -/
def toCapstan (off : Nat) : Bool := off < 0x00040000

/-- CAP_REG_ERR captures an error response (R569, R576). -/
def State.captureError (s : State) (write mgt : Bool) (code off : Nat) : State :=
  s.onCap (fun c => { c with irq := { c.irq with
    regErr := fields [1, flag write 1, flag mgt 2, place code 8 8, place off 22 16] } })

/-! ### Writes of the Capstan window -/

/-- W1C bits of a register (R15). -/
def w1c (r v : Reg) (mask : Nat) : Reg := r &&& ~~~(v &&& reg mask)

/-- A write to CAP_IRQ_MASK (R578, R580): a class newly enabled whose bit is pending sends its message. -/
def Capstan.writeMask (c : Capstan) (v : Reg) : Capstan :=
  let old := c.irq.mask
  let new := field v.toNat 3 0
  let c := { c with irq := { c.irq with mask := new } }
  (List.range 4).foldl (fun c k => if bit new k && !bit old k && bit c.irq.pend k then c.message k else c) c

/-- A write to LOG_RSEL (R541, R561): the record is copied into the latch. -/
def Capstan.selectRecord (c : Capstan) (v : Reg) : Capstan :=
  let (r, bs) := c.log.select (bit v.toNat 32) (field v.toNat 31 0)
  { c with log := { c.log with rstat := r, word0 := reg (le bs 0 8), word1 := reg (le bs 8 8), word2 := reg (le bs 16 8)
                               word3 := reg (le bs 24 8) } }

/-- A write to LOG_MARK or LOG_THRESH (R543, R561). -/
def Capstan.writeMark (c : Capstan) (thresh : Bool) (v : Reg) : Capstan :=
  let log := { c.log with armed := true }
  Capstan.compareMark { c with log := if thresh then { log with thresh := min (field v.toNat 12 0) 7168 }
                                     else { log with mark := BitVec.ofNat 32 v.toNat } }

/-- A write to a register of the Capstan window. -/
def State.writeCap (s : State) (off : Nat) (v : Reg) : State :=
  if off = 0x0228 then s.command v.toNat
  else s.onCap (fun c =>
    if off = 0x0010 then { c with irq := { c.irq with regErr := w1c c.irq.regErr v 1 } }
    else if off = 0x0100 then c.writeMask v
    else if off = 0x0108 then { c with irq := { c.irq with pend := (w1c (reg c.irq.pend) v 0xF).toNat } }
    else if off = 0x0230 then { c with ctxResult := w1c c.ctxResult v 0x200 }
    else if off = 0x0328 then { c with hl := { c.hl with fault := w1c c.hl.fault v 1 } }
    else if off = 0x0340 then { c with hl := { c.hl with repairSel := field v.toNat 11 0 } }
    else if off = 0x0418 then c.writeMark false v
    else if off = 0x0420 then c.writeMark true v
    else if off = 0x0428 then c.selectRecord v
    else c)

/-! ### Writes of a slice window -/

/-- A write to SC_WAY_CTL (R330, R354). -/
def Slice.wayRequest (env : Capstan) (sl : Slice) (v : Nat) : Slice :=
  let a := field v 5 4
  if a = 1 then sl.gateWay env (field v 3 0) else if a = 2 then sl.ungateWay (field v 3 0) else sl

/-- A write to CNT_CAPT0 (R584): clearing VALID arms the capture. -/
def Counters.writeCapture (k : Counters) (v : Reg) : Counters :=
  if v.getLsbD 0 then { k with capt0 := w1c k.capt0 v 1, armed := true } else k

/-- The bits of CNT_SELk that a write sets (R586). -/
def selMask : Reg := 0x00000FFF1FFFFFFF

/-- A write to CNT_SELk (R586, R588): the counter is cleared. -/
def Counters.writeSel (k : Counters) (n : Nat) (v : Reg) : Counters :=
  { k with sels := k.sels.set n (v &&& selMask), vals := k.vals.set n 0 }

/-- A write to a register of a slice window; a stopped slice takes no request (R503). -/
def Slice.writeReg (env : Capstan) (sl : Slice) (off : Nat) (v : Reg) : Slice :=
  if off = 0x2008 then { sl with ing := { sl.ing with refuse := w1c sl.ing.refuse v 0x100 } }
  else if off = 0x2010 then { sl with ing := { sl.ing with unreach := w1c sl.ing.unreach v 3 } }
  else if off = 0x3010 then { sl with work := { sl.work with leafPoi := w1c sl.work.leafPoi v 1 } }
  else if off = 0x3818 then (if sl.stopped then sl else sl.wayRequest env v.toNat)
  else if off = 0x3820 then { sl with cache := { sl.cache with result := w1c sl.cache.result v 0x4000 } }
  else if off = 0x3C08 then { sl with store := { sl.store with diagSel := field v.toNat 18 0 } }
  else if off = 0x4018 then { sl with str := { sl.str with fault := w1c sl.str.fault v 1 } }
  else if off = 0x4420 then { sl with rope := { sl.rope with linkErr := w1c sl.rope.linkErr v 1 } }
  else if off = 0x4800 then { sl with pwr := { sl.pwr with result := w1c sl.pwr.result v 0x10000 } }
  else if off = 0x4808 then (if sl.stopped then sl else sl.powerRequest env v.toNat)
  else if off = 0x5000 then { sl with cnt := { sl.cnt with ctl := v &&& 0xFFFF } }
  else if off = 0x5040 then { sl with cnt := sl.cnt.writeCapture v }
  else match indexAt 0x5100 8 16 off with
    | some n => { sl with cnt := sl.cnt.writeSel n v }
    | none => sl

/-! ### Reads (R15) -/

/-- What a read clears: the RC fields. -/
def Slice.readReg (sl : Slice) (off : Nat) : Slice :=
  let k := sl.cnt
  if off = 0x3828 then { sl with cache := { sl.cache with lost := 0, overflow := 0 } }
  else if off = 0x5008 then { sl with cnt := { k with inv := 0 } }
  else if off = 0x5010 then { sl with cnt := { k with nan := 0 } }
  else if off = 0x5018 then { sl with cnt := { k with ovf := 0 } }
  else if off = 0x5020 then { sl with cnt := { k with sat := 0 } }
  else if off = 0x5028 then { sl with cnt := { k with ftz := 0 } }
  else match indexAt 0x5180 8 16 off with
    | some n => { sl with cnt := { k with vals := k.vals.set n 0 } }
    | none => sl

/-! ### Accesses -/

/-- A register is written. -/
def State.writeTarget (s : State) (t : Target) (v : Reg) : State :=
  match t with
  | .cap off => s.writeCap off v
  | .slice i off => s.atSlice i (fun env sl => sl.writeReg env off v)

/-- The value of a register. -/
def State.valueOf (s : State) (t : Target) : Reg :=
  match t with
  | .cap off => (s.cap.reg? off).getD 0
  | .slice i off => ((s.slices[i]?).bind (fun sl => sl.reg? s.cap off)).getD 0

/-- A register is read: its value, and the state with what the read clears. -/
def State.readTarget (s : State) (t : Target) : Reg × State :=
  (s.valueOf t, match t with
    | .cap _ => s
    | .slice i off => s.atSlice i (fun _ sl => sl.readReg off))

/-- The response on the register port (R568, R599). -/
def State.respond (s : State) (data : Reg) (code : Nat) : State :=
  s.onCap (fun c => { c with irq := { c.irq with respData := data, respError := code != 0, respCode := code } })

/-- A write at the register port is carried out: an error response, or the register's effect. -/
def State.doWrite (s : State) (off size : Nat) (v : Reg) : State :=
  match s.decodeAccess off size with
  | .error code => (s.captureError true false code off).respond 0 code
  | .ok t => deliverAll ((s.writeTarget t v).respond 0 0)

/-- A read at the register port is carried out. -/
def State.doRead (s : State) (off size : Nat) : State :=
  match s.decodeAccess off size with
  | .error code => (s.captureError false false code off).respond 0 code
  | .ok t => let r := s.readTarget t; r.2.respond r.1 0

/-- An access at the register port: to the Capstan window it waits while the Capstan restarts (R570). -/
def State.access (s : State) (a : HeldAccess) : State :=
  if s.cap.su.power != .running then s
  else if toCapstan a.off && s.cap.hl.restarting.isSome then
    s.onCap (fun c => { c with hl := { c.hl with accesses := c.hl.accesses ++ [a] } })
  else if a.write then s.doWrite a.off a.size a.value
  else s.doRead a.off a.size

def State.busWrite (s : State) (off : Nat) (v : Reg) : State := s.access { write := true, off := off, size := 8, value := v }
def State.busRead (s : State) (off : Nat) : State := s.access { write := false, off := off, size := 8, value := 0 }

/-! ### The commands that are register accesses -/

/-- A write to a slice register by its slice; for a slice that the engine does not have it is an access that has an error response
(R568). -/
def sliceWrite (slice off : Nat) (v : Reg) (s : State) : Out' := .next (s.busWrite (sliceWindow + 0x10000 * slice + off) v)

/-- REGISTER_WRITE (R15). -/
def execRegisterWrite (off size : Nat) (value : Reg) (s : State) : Out' :=
  .next (s.access { write := true, off := off, size := size, value := value })

/-- Whether a register has RC fields (R356, R583, R589). -/
def isRc (off : Nat) : Bool :=
  let o := (off - sliceWindow) % 0x10000
  sliceWindow ≤ off && (o = 0x3828 || (indexAt 0x5008 8 5 o).isSome || (indexAt 0x5180 8 16 o).isSome)

/-- READ_CLEAR (R15): a read of a register with RC fields. -/
def execReadClear (off : Nat) (s : State) : Out' := if isRc off then .next (s.busRead off) else .next s

/-- The storage of a slice register does not decode any more (R568). -/
def State.loseRegister (s : State) (off size : Nat) : State :=
  match s.decodeAccess off size with
  | .ok (.slice _ _) => s.onCap (fun c => { c with hl := { c.hl with lost := c.hl.lost ++ [off] } })
  | _ => s

/-- REGISTER_READ_ERROR (R568, R569): a read that receives an error response. -/
def execRegisterReadError (off size : Nat) (lost : Bool) (s : State) : Out' :=
  let s := if lost && s.cap.su.power = .running then s.loseRegister off size else s
  match s.decodeAccess off size with
  | .error _ => .next (s.access { write := false, off := off, size := size, value := 0 })
  | .ok _ => .next s

/-- GATE (R330, R331, R354). -/
def execGate (slice way : Nat) (s : State) : Out' := sliceWrite slice 0x3818 (fields [place way 4 0, place 1 2 4]) s

/-- UNGATE (R330, R332, R354). -/
def execUngate (slice way : Nat) (s : State) : Out' := sliceWrite slice 0x3818 (fields [place way 4 0, place 2 2 4]) s

/-- VALIDATE (R464, R477). -/
def execValidate (ctx : Nat) (s : State) : Out' := .next (s.busWrite 0x0228 (fields [place ctx 12 0, place 1 4 12]))

/-- INVALIDATE (R464, R477). -/
def execInvalidate (ctx : Nat) (s : State) : Out' := .next (s.busWrite 0x0228 (fields [place ctx 12 0, place 2 4 12]))

/-- STAGE (R464, R477). -/
def execStage (ctx : Nat) (withBoundary : Bool) (s : State) : Out' :=
  .next (s.busWrite 0x0228 (fields [place ctx 12 0, place 3 4 12, flag withBoundary 16]))

/-- BOUNDARY (R464, R477). -/
def execBoundary (ctx : Nat) (s : State) : Out' := .next (s.busWrite 0x0228 (fields [place ctx 12 0, place 4 4 12]))

/-- CLEAR_FAULT (R464, R477). -/
def execClearFault (ctx : Nat) (s : State) : Out' := .next (s.busWrite 0x0228 (fields [place ctx 12 0, place 5 4 12]))

/-- LOG_RSEL (R541): a record whose words do not decode is GONE from then on (R530). -/
def execLogRsel (value : Reg) (decodes : Bool) (s : State) : Out' :=
  let v := value.toNat
  let s := if decodes then s else s.onCap (fun c => { c with log := c.log.lose (bit v 32) (field v 31 0) })
  .next (s.busWrite 0x0428 value)

/-- LOG_MARK_WRITE (R543): a write to LOG_MARK or LOG_THRESH. -/
def execLogMarkWrite (thresh : Bool) (value : Reg) (s : State) : Out' := .next (s.busWrite (if thresh then 0x0420 else 0x0418) value)

/-- IRQ_ENABLE_WRITE (R578). -/
def execIrqEnableWrite (value : Reg) (s : State) : Out' := .next (s.busWrite 0x0100 value)

/-- CAP_REPAIR_SEL (R526). -/
def execCapRepairSel (value : Reg) (s : State) : Out' := .next (s.busWrite 0x0340 value)

/-- CNT_SEL_WRITE (R588): to CNT_SELk, k 0 to 15. -/
def execCntSelWrite (slice k : Nat) (value : Reg) (s : State) : Out' := sliceWrite slice (0x5100 + 8 * (k % 16)) value s

/-- CNT_CTL_WRITE (R590). -/
def execCntCtlWrite (slice : Nat) (value : Reg) (s : State) : Out' := sliceWrite slice 0x5000 value s

/-- CAPTURE_REARM (R585): VALID of CNT_CAPT0 is cleared. -/
def execCaptureRearm (slice : Nat) (s : State) : Out' := sliceWrite slice 0x5040 1 s

/-- QS_DIAG_SEL (R359). -/
def execQsDiagSel (slice : Nat) (value : Reg) (s : State) : Out' := sliceWrite slice 0x3C08 value s

/-- PWR_REQ_ON (R615, R620). -/
def execPwrReqOn (slice : Nat) (s : State) : Out' := sliceWrite slice 0x4808 0 s

/-- PWR_REQ_TRIM (R614, R620). -/
def execPwrReqTrim (slice lay : Nat) (s : State) : Out' := sliceWrite slice 0x4808 (fields [1, place lay 1 2]) s

/-- PWR_REQ_NAP (R616, R620). -/
def execPwrReqNap (slice : Nat) (s : State) : Out' := sliceWrite slice 0x4808 2 s

/-- The interrupt controller accepts the oldest message held (R600); the next one takes its place. -/
def Capstan.messageTaken (c : Capstan) : Capstan := Capstan.refillPort { c with irq := { c.irq with held := c.irq.held.drop 1 } }

/-- IRQ_MESSAGE_ACCEPTED (R600). -/
def execIrqMessageAccepted (s : State) : Out' :=
  if s.cap.su.power = .running then .next (s.onCap Capstan.messageTaken) else .next s

end Sys2Proof.Machine
end

