-- ==== Sys2Proof/Machine/Coalescer.lean ====
section
/-!
DEFINITION. The commands of the home coalescer (R183, R188, R190, R420, R494, R500, R501, R505): results arrive, writes are
acknowledged or refused, journal lines settle, a batch is released again.
-/

namespace Sys2Proof.Machine

/-- RESULT (R420): a RESULT message is taken by the home coalescer, with the words that its combining areas' lines meet (R482). -/
def execResult (slice idx : Nat) (s : State) (reads : Decodes := []) : Out' :=
  onArrival slice idx s (fun env sl m => match m.body with
    | .result r => some (sl.reading env reads (fun sl => sl.takeResult env r))
    | _ => none)

/-- The write with a number that is on its way. -/
def Slice.meshWrite? (sl : Slice) (id : Nat) (waiting : Bool) : Option MeshWrite :=
  sl.ing.meshOut.find? (fun w => w.id = id && w.waiting = waiting)

/-- RESULT_WRITE_ACK (R183), with the words that the combining areas' lines of a batch that goes on meet (R482). -/
def execResultWriteAck (slice id : Nat) (s : State) (reads : Decodes := []) : Out' :=
  onLive slice s (fun env sl => match sl.meshWrite? id false with
    | some w => sl.reading env reads (fun sl => (sl.meshAck env w).admitWaiting env)
    | none => sl)

/-- A refused write waits for the retry 1 µs later (R188, R190). -/
def Slice.holdWrite (sl : Slice) (id : Nat) : Slice :=
  let hold (x : MeshWrite) : MeshWrite := { x with waiting := true, retryAt := sl.time + 2000 }
  { sl with ing := { sl.ing with meshOut := updateWhere (fun x => x.id = id) hold sl.ing.meshOut } }

/-- BANK_UNAVAILABLE (R188, R190): the write waits for its retry; the answer to a retry counts as a failure. -/
def execBankUnavailable (slice id : Nat) (s : State) : Out' :=
  onLive slice s (fun env sl => match sl.meshWrite? id false with
    | some w => if w.retried then ((sl.holdWrite w.id).retryFailed env w).admitWaiting env else sl.holdWrite w.id
    | none => sl)

/-- The write is retried (R188, R190): refused again, it counts as a failure; else it is on its way again. -/
def Slice.retryWrite (env : Capstan) (sl : Slice) (w : MeshWrite) (refused : Bool) : Slice :=
  let sl := sl.count 0x606 0 (some w.ctx) 1
  let sent (x : MeshWrite) : MeshWrite := { x with waiting := false, retried := true }
  if refused then (sl.holdWrite w.id).retryFailed env w
  else { sl with ing := { sl.ing with meshOut := updateWhere (fun x => x.id = w.id) sent sl.ing.meshOut } }

/-- BANK_RETRY_TIMER (R188), 1 µs after the last answer: `refused` is local memory's answer to the retry where it comes at once. -/
def execBankRetryTimer (slice id : Nat) (refused : Bool) (s : State) : Out' :=
  onLive slice s (fun env sl => match sl.meshWrite? id true with
    | some w => if sl.time < w.retryAt then sl else (sl.retryWrite env w refused).admitWaiting env
    | none => sl)

/-! ### The journal (R500, R501) -/

/-- The buffer entry of a journal line leaves as its write is acknowledged (R323, R500), if it is still held. -/
def Slice.journalEntryGone (env : Capstan) (sl : Slice) (ctx addr : Nat) : Slice :=
  match (indexed sl.cache.evict).find? (fun e => e.2.ctx = ctx && e.2.addr = addr) with
  | none => sl
  | some e => sl.evictAck env e.1 .ok

/-- The oldest journal write is settled (R500, R501): the operation it records is settled; a FREE entry leaves the batch table. -/
def Slice.journalSettled (env : Capstan) (sl : Slice) : Slice :=
  match sl.ing.jwrites with
  | [] => sl
  | j :: rest =>
    let sl := ({ sl with ing := { sl.ing with jwrites := rest } }).journalEntryGone env j.ctx j.addr
    let sl := match j.settles with
      | some key => sl.settleTagged key
      | none => sl
    let sl := sl.count 0x707 0 none 1
    if j.jstate = .free then
      ({ sl with ing := { sl.ing with batches := sl.ing.batches.filter (fun b => some b.handle != j.handle) } }).adoptWaiting env
    else
      let mark (b : Batch) : Batch := { b with jstate := j.jstate }
      ({ sl with ing := { sl.ing with batches := updateWhere (fun b => some b.handle = j.handle) mark sl.ing.batches } }).adoptSettled env

/-- JOURNAL_WRITE_SETTLED (R500). -/
def execJournalWriteSettled (slice : Nat) (s : State) : Out' := onLive slice s (fun env sl => sl.journalSettled env)

/-! ### The release of a replay (R494) -/

/-- The old run has ended (R494 step 3): what was collected is discarded, the combining areas are zero; then the ledger is read (step 4). -/
def Slice.releaseReplay (env : Capstan) (sl : Slice) (b : Batch) (c : Ctx) : Slice :=
  let sl := sl.setBatch { b with res := b.res.map QRes.again, slots := [], ops := [], opGot := [], replaying := none, toWrite := []
                                 built := false, reading := some {} }
  let areas := b.items.filterMap (fun i => match i.use with
    | .area slot => some slot
    | _ => none)
  (areas.foldl (fun sl slot => sl.writeArea env b c slot []) sl).reread env b.handle

def Slice.replayReleased (env : Capstan) (sl : Slice) (h : Nat) : Slice :=
  match sl.batch? h with
  | none => sl
  | some b =>
    match env.ctx? b.desc.ctx with
    | none => sl
    | some c => if b.replaying = some [] then sl.releaseReplay env b c else sl

/-- Whether a message is a result of a batch on its way to its home. -/
def RopeMsg.resultOf (home handle : Nat) (m : RopeMsg) : Bool :=
  match m.body with
  | .result r => m.dest = home && r.handle = handle
  | _ => false

/-- Whether a result of a batch is on its way to its home: in flight, or not sent in full by its slice (R494 step 2, log entry 20). -/
def State.resultUnderway (s : State) (home handle : Nat) : Bool :=
  s.rope.any (RopeMsg.resultOf home handle) || s.slices.any (fun sl => sl.rope.sendq.any (fun e => e.1.resultOf home handle))

/-- REPLAY_RELEASE (R494): once every query of the old run has ended, and no part of it is on its way. `reads` are the words that the
coalescer's first reading of the ledger meets. -/
def execReplayRelease (slice batch : Nat) (reads : Decodes) (s : State) : Out' :=
  if s.resultUnderway slice batch then
    onLive slice s (fun _ sl => sl)
  else onLive slice s (fun env sl => (sl.decodeAll env reads).replayReleased env batch)

end Sys2Proof.Machine
end

