-- ==== Sys2Proof/Machine/Image.lean ====
section
/-!
DEFINITION. The Kiln image (R435 to R451): its header, its section table, its sections, every check of R450 in the order of the codes,
and the values that a sound image gives.
-/

namespace Sys2Proof.Machine

/-! ### Header and section table (R436, R437) -/

/-- A section-table entry: TYPE, OFFSET, LENGTH, CRC. -/
structure Section' where
  typ : Nat
  off : Nat
  len : Nat
  crc : Nat

/-- The number of sections. -/
def imageSections (bs : List Byte) : Nat := le bs 16 2

/-- The length of the image. -/
def imageLen (bs : List Byte) : Nat := le bs 8 4

/-- The section table. -/
def sectionTable (bs : List Byte) : List Section' :=
  (List.range (imageSections bs)).map (fun i =>
    let o := 64 + 16 * i
    { typ := le bs o 2, off := le bs (o + 4) 4, len := le bs (o + 8) 4, crc := le bs (o + 12) 4 })

/-- The first `n` bytes with bytes 20 to 27 taken as zero (R436). -/
def headerCrcBytes (bs : List Byte) (n : Nat) : List Byte := padTo n (bs.take 20 ++ List.replicate 8 0 ++ bs.drop 28)

/-- The first index of a list whose entry fails. -/
def firstBad {α : Type} (xs : List α) (bad : Nat → α → Bool) : Option Nat := ((indexed xs).find? (fun e => bad e.1 e.2)).map (·.1)

/-- Whether an entry breaks R437. -/
def badEntry (bs : List Byte) (es : List Section') (i : Nat) (e : Section') : Bool :=
  let before := es.take i
  !zeroBytes bs (64 + 16 * i + 2) 2 || e.off % 16 != 0 || e.off < 64 + 16 * imageSections bs || imageLen bs < e.off + e.len ||
    before.any (fun b => e.off < b.off + b.len || e.off ≤ b.off)

/-- Whether R439 allows a length for a type. -/
def lengthOk (e : Section') : Bool :=
  let recs (size most : Nat) : Bool := e.len % size = 0 && 1 ≤ e.len / size && e.len / size ≤ most
  if e.typ = 1 then e.len = 64 else if e.typ = 2 then e.len = 128 else if e.typ = 3 then e.len = 32
  else if e.typ = 4 then recs 4 256 else if e.typ = 5 then recs 16 256 else if e.typ = 6 then recs 48 4
  else if e.typ = 7 then recs 8 4096 else e.len = 64

/-- A failed check: its code and the section index, 0xFF where no section is concerned (R450). -/
abbrev Failure := Nat × Nat

/-- The first failure of a list of checks. -/
def firstFailure : List (Option Failure) → Option Failure
  | [] => none
  | some f :: _ => some f
  | none :: rest => firstFailure rest

/-- A check that concerns no section. -/
def whole (bad : Bool) (code : Nat) : Option Failure := if bad then some (code, 0xFF) else none

/-- A check whose section, by index, fails. -/
def atSection (i : Option Nat) (code : Nat) : Option Failure := i.map (fun i => (code, i))

/-- Whether the length fields break R436. -/
def badLength (bs : List Byte) (density : Nat) : Bool :=
  let n := imageSections bs
  let l := imageLen bs
  n = 0 || 64 < n || l % 16 != 0 || l < 64 + 16 * n || 16777216 < l || density < l

/-- The header checks made as soon as their bytes are there (R435): codes 0x03 to 0x07. -/
def headerFailure (bs : List Byte) (density : Nat) : Option Failure :=
  firstFailure [
    whole (le bs 0 4 != 0x4E4C494B) 0x03,
    whole (byteAt bs 4 != 1 || !(zeroBytes bs 18 2 && zeroBytes bs 28 36)) 0x04,
    whole (1 < byteAt bs 6 || (byteAt bs 6 = 1 && 0 < byteAt bs 7)) 0x05,
    whole (badLength bs density) 0x06,
    whole (decide ((crc32c (headerCrcBytes bs (64 + 16 * imageSections bs))).toNat != le bs 20 4)) 0x07]

/-- The checks of the section table: codes 0x08 to 0x0C. -/
def tableFailure (bs : List Byte) : Option Failure :=
  let es := sectionTable bs
  let typs := es.map (·.typ)
  firstFailure [
    atSection (firstBad es (badEntry bs es)) 0x08,
    atSection (firstBad es (fun _ e => e.typ = 0 || 8 < e.typ)) 0x09,
    atSection (firstBad es (fun i e => e.typ ∈ typs.take i)) 0x0A,
    whole (!((List.range 4).all (fun k => (k + 1) ∈ typs))) 0x0B,
    atSection (firstBad es (fun _ e => !lengthOk e)) 0x0C]

/-! ### Sections -/

/-- The index of the section of a type. -/
def sectionIndex (bs : List Byte) (typ : Nat) : Nat := ((firstBad (sectionTable bs) (fun _ e => e.typ = typ))).getD 0xFF

/-- The bytes of the section of a type, none where the image has none. -/
def sectionBytes (bs : List Byte) (typ : Nat) : List Byte :=
  match (sectionTable bs).find? (fun e => e.typ = typ) with
  | some e => (bs.drop e.off).take e.len
  | none => []

/-- The records of a section. -/
def recordsOf (bs : List Byte) (typ size : Nat) : List (List Byte) :=
  let s := sectionBytes bs typ
  chunks size s.length s

/-- Whether a reserved field of a TIMERS record is not zero, or its KIND is reserved (R444, R445). -/
def timerReserved (r : List Byte) : Bool :=
  let k := byteAt r 1
  k = 0 || 3 < k || (if k = 1 then le r 2 2 / 4096 != 0 else le r 2 2 != 0)

/-- The same of a HINTS record (R448). -/
def hintReserved (r : List Byte) : Bool :=
  let k := byteAt r 1
  let u := le r 2 2
  k = 0 || 6 < k || ((k = 1 || k = 2) && 32 ≤ u) || (k = 3 && 4 ≤ u) || (k = 6 && 16 ≤ u) || (k ≤ 3 && le r 4 4 != 0)

/-- Whether a reserved field of a section of a type is not zero (R450, code 0x0F). -/
def sectionReserved (bs : List Byte) (typ : Nat) : Bool :=
  let s := sectionBytes bs typ
  let any (size : Nat) (bad : List Byte → Bool) : Bool := (recordsOf bs typ size).any bad
  if typ = 1 then !(zeroBytes s 14 2 && zeroBytes s 19 1 && zeroBytes s 24 40) || 1 < byteAt s 18
  else if typ = 2 then any 16 (fun r => !(zeroBytes r 6 2 && zeroBytes r 12 4))
  else if typ = 3 then
    field (le s 0 8) 31 26 != 0 || field (le s 0 8) 63 48 != 0 || field (le s 8 8) 31 30 != 0 || field (le s 8 8) 63 44 != 0 ||
      !zeroBytes s 26 6
  else if typ = 4 then any 4 timerReserved
  else if typ = 5 then any 16 (fun r => !zeroBytes r 2 2 || field (le r 8 8) 62 60 != 0)
  else if typ = 6 then any 48 (fun r => !zeroBytes r 2 14 || 8 ≤ byteAt r 1)
  else if typ = 7 then any 8 hintReserved
  else any 16 (fun r => !(zeroBytes r 6 2 && zeroBytes r 12 4))

/-- Whether an ENGINE field lies outside R440. -/
def badEngine (n : Nat) (s : List Byte) : Bool :=
  let base := le s 8 6
  let count := le s 16 2
  let period := le s 20 4
  4095 < le s 0 2 || byteAt s 2 != n || base % 4096 != 0 || count = 0 || 4096 < count || 2 ^ 48 < base + 256 * count ||
    (if byteAt s 18 % 2 = 1 then period < 100 || 10000000 < period else period != 0)

/-- Whether SYNC_MODE or TICK_PERIOD breaks R441. -/
def badSync (s : List Byte) : Bool :=
  let m := byteAt s 3
  let p := le s 4 4
  let range : Bool := 1000 ≤ p && p ≤ 4000000000
  3 < m || (m ≤ 1 && p != 0) || (m = 2 && p != 0 && !range) || (m = 3 && !range)

/-- Whether a profile breaks R200. -/
def badProfile (r : List Byte) : Bool :=
  let out (v lo hi : Nat) : Bool := v < lo || hi < v
  out (byteAt r 0) 1 64 || out (byteAt r 1) 1 64 || out (le r 2 2) 16 16384 || out (le r 4 2) 1 2048 || out (le r 8 4) 256 1000000

/-- Ways of a mask outside LOCK and START_GATED. -/
def openWays (s : List Byte) (off : Nat) : Nat :=
  ((maskBits 16 (le s off 2)).filter (fun w => !bit (le s 22 2) w && !bit (le s 24 2) w)).length

/-- Whether STR breaks R392 or R393. -/
def badStream (s : List Byte) : Bool :=
  let v := le s 0 8
  let out (x lo hi : Nat) : Bool := x < lo || hi < x
  let pf := field v 12 0
  let buf := field v 25 13
  out pf 256 4096 || out buf 256 4096 || out (field v 39 32) 16 255 || out (field v 47 40) 16 255 || pf < 8 * field v 39 32 ||
    buf < 8 * field v 47 40 || openWays s 18 * wayBytes / 2 < 4096 * pf || openWays s 20 * wayBytes / 2 < 4096 * buf

/-- Whether ROPE breaks R426 or R396. -/
def badRope (n : Nat) (s : List Byte) : Bool :=
  let v := le s 8 8
  let out (x lo hi : Nat) : Bool := x < lo || hi < x
  out (field v 10 0) 384 1024 || out (field v 21 11) 128 1024 || out (field v 29 22) 16 255 || out (field v 37 32) 1 32 ||
    out (field v 43 38) 1 32 || field v 37 32 * field v 43 38 != n

/-- Whether the masks break R309. -/
def badWays (s : List Byte) : Bool :=
  let t := le s 16 2
  let w := le s 18 2
  let st := le s 20 2
  t &&& w != 0 || t &&& st != 0 || w &&& st != 0 || (t ||| w ||| st) != 0xFFFF || le s 22 2 &&& le s 24 2 != 0 || openWays s 16 < 1 ||
    openWays s 18 < 4 || openWays s 20 < 2

/-- Whether a PINS record fails, `before` those earlier in the section (R446, R357). -/
def badPin (n count : Nat) (before : List (List Byte)) (r : List Byte) : Bool :=
  let lo := le r 8 8
  n ≤ byteAt r 0 || 7 < byteAt r 1 || before.any (fun b => b.take 2 = r.take 2) || !bit lo 63 || le r 4 4 = 0 ||
    count ≤ field lo 59 48 || field lo 7 0 != 0 || 2 ^ 48 < field lo 47 0 + 256 * le r 4 4

/-- Whether the TIMERS records break R444 or R445 (codes 0x17, 0x18). -/
def timersOver (n : Nat) (rs : List (List Byte)) : Bool :=
  (List.range (max n 256)).any (fun i => 8 < rs.countP (fun r => byteAt r 0 = i))

def badTimers (n count : Nat) (rotate : Bool) (rs : List (List Byte)) : Bool :=
  let ctxs := (rs.filter (fun r => byteAt r 1 = 1)).map (fun r => le r 2 2)
  let per (i k : Nat) : Nat := rs.countP (fun r => byteAt r 0 = i && byteAt r 1 = k)
  rs.any (fun r => n ≤ byteAt r 0) || ctxs.any (fun c => count ≤ c) || ctxs.eraseDups.length != ctxs.length ||
    (List.range n).any (fun i => per i 2 != 1 || per i 3 != (if rotate then 1 else 0))

/-- Whether a KEYS record breaks R447. -/
def badKey (before : List (List Byte)) (r : List Byte) : Bool :=
  3 < byteAt r 0 || before.any (fun b => byteAt b 0 = byteAt r 0) || byteAt r 1 = 0 || zeroBytes r 16 32

/-- The rows, spare rows and spare columns of an SRAM instance (R513); zero where there is none of that number. -/
def sramRows (u : Nat) : Nat × Nat × Nat :=
  if u ≤ 0x10 then (20480, 20, 8) else if u = 0x11 then (64, 2, 4) else if u = 0x12 then (512, 2, 4)
  else if u = 0x13 then (98304, 96, 8) else if u ≤ 0x15 then (8192, 8, 8) else if u ≤ 0x17 then (32768, 32, 8)
  else if u ≤ 0x1F then (512, 2, 4) else if u = 0x20 then (1024, 2, 4) else if u = 0x21 then (64, 2, 4)
  else if u = 0x22 then (256, 2, 4) else if u ≤ 0x26 then (1536, 4, 4) else (0, 0, 0)

/-- Whether a HINTS record names what no slice has (R448, R513). -/
def badHint (n : Nat) (r : List Byte) : Bool :=
  let k := byteAt r 1
  let u := le r 2 2
  let i := le r 4 4
  n ≤ byteAt r 0 || (k = 1 && 8 < u % 16) || (k = 2 && 4 < u % 16) || (k = 4 && (sramRows u).1 ≤ i) ||
    (k = 5 && ((sramRows u).1 = 0 || 2304 ≤ i)) || (k = 6 && 68 ≤ i)

/-- Whether any record of a section fails a check that looks at those before it. -/
def anyRecord (rs : List (List Byte)) (bad : List (List Byte) → List Byte → Bool) : Bool :=
  (indexed rs).any (fun e => bad (rs.take e.1) e.2)

/-- The checks of the sections and of the whole image: codes 0x0D to 0x1B. -/
def bodyFailure (n : Nat) (bs : List Byte) : Option Failure :=
  let es := sectionTable bs
  let sec (typ : Nat) (bad : Bool) (code : Nat) : Option Failure := if bad then some (code, sectionIndex bs typ) else none
  let e := sectionBytes bs 1
  let s := sectionBytes bs 3
  let ts := recordsOf bs 4 4
  firstFailure [
    atSection (firstBad es (fun _ x => decide ((crc32c ((bs.drop x.off).take x.len)).toNat != x.crc))) 0x0D,
    whole (decide ((crc32c (headerCrcBytes bs (imageLen bs))).toNat != le bs 24 4)) 0x0E,
    atSection (firstBad es (fun _ x => sectionReserved bs x.typ)) 0x0F,
    sec 1 (badEngine n e) 0x10,
    sec 1 (badSync e) 0x11,
    sec 2 ((recordsOf bs 2 16).any badProfile) 0x12,
    sec 3 (badStream s) 0x13,
    sec 3 (badRope n s) 0x14,
    sec 3 (badWays s) 0x15,
    sec 5 (anyRecord (recordsOf bs 5 16) (badPin n (le e 16 2))) 0x16,
    sec 4 (timersOver n ts) 0x17,
    sec 4 (badTimers n (le e 16 2) (byteAt e 18 % 2 = 1) ts) 0x18,
    sec 6 (anyRecord (recordsOf bs 6 48) badKey) 0x19,
    sec 7 ((recordsOf bs 7 8).any (badHint n)) 0x1A,
    sec 8 ((recordsOf bs 8 16).any (fun r => le r 0 6 % 4 != 0)) 0x1B]

/-- Every check of R450 on an image. -/
def imageFailure (n density : Nat) (bs : List Byte) : Option Failure :=
  firstFailure [headerFailure bs density, tableFailure bs, bodyFailure n bs]

/-! ### The values (R436, R440 to R449) -/

/-- What a sound image gives. -/
def imageOf (bs : List Byte) : Image :=
  let e := sectionBytes bs 1
  let s := sectionBytes bs 3
  { bytes := [], headerIn := true, loaded := true, revision := le bs 12 4, length := imageLen bs, package := le e 0 2
    syncMode := byteAt e 3, tickPeriod := le e 4 4, ctxBase := le e 8 6, ctxCount := le e 16 2, rotate := byteAt e 18 % 2 = 1
    rotPeriod := le e 20 4, profiles := recordsOf bs 2 16, partMasks := (List.range 5).map (fun i => le s (16 + 2 * i) 2)
    pinWins := (recordsOf bs 5 16).map (fun r => (byteAt r 0, byteAt r 1, le r 8 8, le r 4 4))
    strCfg := le s 0 8, ropeCfg := le s 8 8, timers := (recordsOf bs 4 4).map (fun r => le r 0 4)
    irqs := (recordsOf bs 8 16).map (fun r => (le r 0 6, le r 8 4))
    keys := (recordsOf bs 6 48).map (fun r => (byteAt r 0, byteAt r 1, (r.drop 16).take 32))
    hints := (recordsOf bs 7 8).map (fun r => (byteAt r 0, byteAt r 1, le r 2 2, le r 4 4)) }

end Sys2Proof.Machine
end

