-- ==== Sys2Proof/Machine/Start.lean ====
section
/-!
DEFINITION. The start sequence (R430 to R456): power, discovery, the image, self-test and the repair map (R453, R513 to R515), the
load, Rope training (R400), engine time and ready; the resets (R612).
-/

namespace Sys2Proof.Machine

/-! ### Power and resets (R430, R612) -/

/-- The engine without power: every state is lost; the commands that wait and the free values are not the engine's. -/
def State.off (s : State) (power : Power) : State :=
  let c := resetCapstan s.cap.n
  { cap := { c with su := { c.su with power := power } }, slices := (List.range s.slices.length).map resetSlice, rope := []
    pending := s.pending, fresh := s.fresh }

/-- Step 1 of R430 at T0: clocks lock, the Capstan leaves reset; the start waits for the NVM port. -/
def State.begin (s : State) : State :=
  let s := s.off .running
  { s with cap := { s.cap with su := { s.cap.su with pwrGood := true, engResetN := true, svcRail := true, step := 1 } }
           slices := s.slices.map (fun (sl : Slice) => { sl with pwr := { sl.pwr with rail := true } }) }

/-- POWER_START (R430, R612). -/
def execPowerStart (s : State) : Out' := if s.cap.su.power = .off then .next s.begin else .next s

/-- POWER_LOSS (R612). -/
def execPowerLoss (s : State) : Out' := .next (s.off .off)

/-- ENGINE_RESET (R612): by ENG_RESET_N, or by SVC_RAIL_GOOD. -/
def execEngineReset (svcRail : Bool) (s : State) : Out' :=
  let su := s.cap.su
  if su.power = .off then .next s
  else
    let old (b : Bool) : Bool := if su.power = .inReset then b else true
    let s := s.off .inReset
    .next { s with cap := { s.cap with su := { s.cap.su with
      pwrGood := true, engResetN := old su.engResetN && svcRail, svcRail := old su.svcRail && !svcRail } } }

/-- ENGINE_RESET_RELEASE (R612): both are high again, which is T0. -/
def execEngineResetRelease (s : State) : Out' := if s.cap.su.power = .inReset then .next s.begin else .next s

/-- TEST_RESET (R612): the TAP or a wrapper only. -/
def execTestReset (wrapper : Bool) (s : State) : Out' :=
  .next (s.onCap (fun c => { c with su := if wrapper then { c.su with wrapReset := true } else { c.su with tapReset := true } }))

/-! ### The final state (R430, R452, R455, R456) -/

def Capstan.onStart (c : Capstan) (f : StartUp → StartUp) : Capstan := { c with su := f c.su }

/-- Microseconds since T0, saturating (R472). -/
def Capstan.sinceT0 (c : Capstan) : Nat := min (c.su.upTime / 2000) 0xFFFFFFFF

/-- The start ends without the engine ready (R452, R455): its state, FAULT_N low, its record. -/
def Capstan.endStart (c : Capstan) (st : StartState) : Capstan :=
  let c := c.onStart (fun u => { u with state := st, step := 9, startUs := c.sinceT0, faultLow := true })
  { c with img := noImage }.note 0x0002 (toLe 1 c.su.cause ++ toLe 1 c.su.section_)

/-- A start that fails: its cause and section; self-test runs to its end, or starts at once (R432, R452, R454). -/
def Capstan.failStart (c : Capstan) (f : Failure) : Capstan :=
  let c := c.onStart (fun u => { u with cause := f.1, section_ := f.2, testing := !u.selftest })
  if c.su.selftest then c.endStart .notReady else c

/-- No Rope link is trained in an engine that does not become ready (R452): modules that have trained already are out of use again. -/
def Slice.untrain (sl : Slice) : Slice :=
  let off (m : Module) : Module := if m.st = .up then { m with st := .unused } else m
  { sl with rope := { sl.rope with ports := sl.rope.ports.map (fun (p : Port) => { p with modules := p.modules.map off }) } }

/-- A start has failed, in what it means for the slices. -/
def State.settleStart (s : State) : State :=
  if s.cap.su.step = 9 && s.cap.su.state != .ready then { s with slices := s.slices.map Slice.untrain } else s

/-! ### Discovery and the image (R433 to R435, R450, R454) -/

/-- Whether the start is under way at a step, with nothing failed. -/
def Capstan.atStep (c : Capstan) (k : Nat) : Bool :=
  c.acts && c.su.state = .starting && c.su.step = k && c.su.cause = 0

/-- NVM_GRANT (R430, R433): step 2 begins. -/
def execNvmGrant (s : State) : Out' :=
  if s.cap.atStep 1 then .next (s.onCap (fun c => c.onStart (fun u => { u with step := 2 }))) else .next s

/-- The parameter header of the basic flash parameter table, of those that the SFDP header declares (R433, JESD216): eight bytes each from
byte 8 on, with the table's id 0xFF00. -/
def basicHeader (bs : List Byte) : Option (List Byte) :=
  ((List.range (byteAt bs 6 + 1)).map (fun i => (bs.drop (8 + 8 * i)).take 8)).find? (fun h =>
    h.length = 8 && byteAt h 0 = 0 && byteAt h 7 = 0xFF)

/-- The basic flash parameter table, as bytes (R433); none in the cases of NVM_NO_SFDP: another signature, no table declared, or one below 9
DWORDs. -/
def basicTable (bs : List Byte) : Option (List Byte) :=
  if le bs 0 4 != 0x50444653 then none
  else match basicHeader bs with
    | none => none
    | some h => if byteAt h 3 < 9 then none else some (padTo (4 * byteAt h 3) (bs.drop (le h 4 3)))

/-- DWORD `n` of a basic flash parameter table, counted from 1 as JESD216 counts them; zero beyond its end. -/
def dword (t : List Byte) (n : Nat) : Nat := le t (4 * (n - 1)) 4

/-- The density in bytes (R434): DWORD 2 holds the highest bit address, or with bit 31 set the power of two. -/
def densityOf (t : List Byte) : Nat :=
  let d := dword t 2
  if bit d 31 then 2 ^ (d % 2 ^ 31) / 8 else (d + 1) / 8

/-- Whether the table declares a volatile write of the status register (R434): DWORD 16, or in a table without it DWORD 1. -/
def volatileWrite (t : List Byte) : Bool := if 64 ≤ t.length then field (dword t 16) 3 1 != 0 else bit (dword t 1) 3

/-- What the Capstan takes from the table (R434): an address of 3 bytes wherever the table allows it, the 1-4-4 read with its mode and dummy
clocks, the quad-enable requirement. None in the cases of NVM_NO_QUAD: no 1-4-4 read; or the requirement names a bit that only a non-volatile
write sets. -/
def nvmMode (t : List Byte) : Option NvmMode :=
  let qer := field (dword t 15) 22 20
  if !bit (dword t 1) 21 || (qer != 0 && !volatileWrite t) then none
  else some { addrBytes := if field (dword t 1) 18 17 = 2 then 4 else 3, instr := field (dword t 3) 15 8, modeClocks := field (dword t 3) 7 5
              dummy := field (dword t 3) 4 0, quadEnable := qer, quadSet := qer != 0 }

/-- Step 2 ends (R433, R434): the image is read in DTR mode where the table declares DTR clocking. -/
def Capstan.discovered (c : Capstan) (bs : List Byte) : Capstan :=
  match basicTable bs with
  | none => c.failStart (0x01, 0xFF)
  | some t =>
    match nvmMode t with
    | none => c.failStart (0x02, 0xFF)
    | some m => c.onStart (fun u => { u with step := 3, dtr := bit (dword t 1) 19, density := densityOf t, nvm := some m })

/-- DISCOVERY_DONE (R434). -/
def execDiscoveryDone (sfdp : List Byte) (s : State) : Out' :=
  if s.cap.atStep 2 then .next (s.onCap (fun c => c.discovered sfdp)) else .next s

/-- Self-test starts (R454). -/
def Capstan.startTest (c : Capstan) : Capstan := c.onStart (fun u => { u with testing := !u.selftest })

/-- Whether self-test need not wait for hints: there is no HINTS section, or it ends beyond byte 49,152 (R454). -/
def hintsLate (bs : List Byte) : Bool :=
  match (sectionTable bs).find? (fun e => e.typ = 7) with
  | none => true
  | some e => 49152 < e.off + e.len

/-- The header and the section table are there (R450, R454). -/
def Capstan.headerIn (c : Capstan) (bs : List Byte) : Capstan :=
  let c := { c with img := { c.img with bytes := bs, headerIn := true } }
  match headerFailure bs c.su.density with
  | some f => c.failStart f
  | none => if hintsLate bs then c.startTest else c

/-- IMAGE_HEADER_ARRIVED (R435). -/
def execImageHeaderArrived (bytes : List Byte) (s : State) : Out' :=
  if s.cap.atStep 3 && !s.cap.img.headerIn then .next (s.onCap (fun c => c.headerIn bytes)) else .next s

/-- HINTS_ARRIVED (R454): with a sound section, or with its CRC already failed, self-test starts. -/
def execHintsArrived (_bytes : List Byte) (s : State) : Out' :=
  if s.cap.atStep 3 && s.cap.img.headerIn then .next (s.onCap Capstan.startTest) else .next s

/-! ### Self-test and the repair map (R453, R513 to R515, R21, R26) -/

/-- Whether a defect is beyond the spares, `before` the earlier ones of the slice: a row, a column or a lane that no spare covers;
any other defect retires its part. -/
def beyond (before : List (Nat × Nat × Nat)) (d : Nat × Nat × Nat) : Bool :=
  let same := before.countP (fun b => b.1 = d.1 && b.2.1 = d.2.1)
  let r := sramRows d.2.1
  if d.1 = 4 then r.2.1 ≤ same else if d.1 = 5 then r.2.2 ≤ same else if d.1 = 6 then 4 ≤ same else true

/-- A column of the query store runs through every row, so that no granule enters the free list (R514, log entry 89). -/
def Slice.dropStore (sl : Slice) : Slice := { sl with store := { sl.store with free := [] } }

/-- The effect of an SRAM instance lost (R514): a way held GATED, granules that never enter the free list, the lay that is retired, a port that is
DOWN, or the whole slice with `stopped`. -/
def Slice.loseInstance (sl : Slice) (kind u index : Nat) : Slice :=
  let lay (l : Nat) : Slice := { sl with work := { sl.work with layRetired := (sl.work.layRetired ++ [l]).eraseDups } }
  if u < 0x10 then { sl with cache := { sl.cache with lostWays := (sl.cache.lostWays ++ [u]).eraseDups, ways := sl.cache.ways.set u .gated } }
  else if u = 0x13 then if kind = 4 then sl.dropGranules index else sl.dropStore
  else if u = 0x14 || u = 0x16 then lay 0
  else if u = 0x15 || u = 0x17 then lay 1
  else if 0x18 ≤ u && u ≤ 0x1F then lay ((u - 0x18) / 4)
  else if 0x23 ≤ u && u ≤ 0x26 then
    { sl with rope := { sl.rope with ports := updateAt (fun p => { p with st := .down }) (u - 0x23) sl.rope.ports } }
  else { sl with stopped := true }

/-- One defect with its effect on the repair map. -/
def Slice.applyDefect (sl : Slice) (before : List (Nat × Nat × Nat)) (d : Nat × Nat × Nat) : Slice :=
  let (k, u, i) := d
  if k = 1 || k = 2 then { sl with work := sl.work.retire (u / 16 % 2) (k = 1) (u % 16) }
  else if k = 3 then { sl with work := { sl.work with ptuRetired := sl.work.ptuRetired ||| 2 ^ (u % 4) } }
  else if k = 7 then { sl with work := { sl.work with layRetired := (sl.work.layRetired ++ [u / 4 % 2]).eraseDups } }
  else if !beyond before d then
    if k = 4 && (u = 0x16 || u = 0x17) then
      { sl with work := if u = 0x16 then { sl.work with opRows0 := sl.work.opRows0 + 1 } else { sl.work with opRows1 := sl.work.opRows1 + 1 } }
    else sl
  else if k = 6 then
    let port (p : Port) : Port := { p with modules := updateAt (fun m => { m with st := .down }) (u / 4 % 4) p.modules }
    { sl with rope := { sl.rope with ports := updateAt port (u % 4) sl.rope.ports } }
  else sl.loseInstance k u i

/-- Good units take the logical positions in ascending order (R21). -/
def goodUnits (w : Work) (lay : Nat) (walkers : Bool) : List Nat :=
  ((List.range (unitCount walkers)).filter (fun k => !w.retired lay walkers k)).take (unitCount walkers - 1)

/-- The maps that self-test sets, and the lays without a unit of some kind (R21, R26). -/
def Work.mapUnits (w : Work) : Work :=
  let w := { w with walkMap0 := goodUnits w 0 true, walkMap1 := goodUnits w 1 true, arrMap0 := goodUnits w 0 false
                    arrMap1 := goodUnits w 1 false, ptuActive := 15 - w.ptuRetired % 16 }
  let bare (l : Nat) : Bool := (w.map l true).isEmpty || (w.map l false).isEmpty || field w.ptuActive (2 * l + 1) (2 * l) = 0
  { w with layRetired := (w.layRetired ++ [0, 1].filter bare).eraseDups }

/-- The defects of a slice as repair records, each with the earlier ones (R515, R526). -/
def repairOf (id : Nat) (before : List (Nat × Nat × Nat)) (d : Nat × Nat × Nat) : Repair :=
  { slice := id, kind := d.1, unit := d.2.1, index := d.2.2, retired := beyond before d, inService := false }

/-- The record of a repair (R515). -/
def Slice.logRepair (env : Capstan) (sl : Slice) (r : Repair) : Slice :=
  (sl.tell (.repair r)).log env 0x1001
    (toLe 1 r.slice ++ toLe 1 r.kind ++ toLe 2 r.unit ++ toLe 4 r.index ++ toLe 1 (flag r.retired 0) ++ toLe 1 0)

/-- Self-test of a slice: its defects in order, its maps, whether it starts dead (R453, R455). -/
def Slice.selfTest (env : Capstan) (sl : Slice) (ds : List (Nat × Nat × Nat)) : Slice :=
  let sl := (indexed ds).foldl (fun (sl : Slice) e =>
    (sl.applyDefect (ds.take e.1) e.2).logRepair env (repairOf sl.id (ds.take e.1) e.2)) sl
  let w := sl.work.mapUnits
  { sl with work := w, stopped := sl.stopped || 2 ≤ w.layRetired.length }

/-- What CAP_SLICE_STATE shows of a slice after self-test (R455, R522). -/
def startState (routers : List Nat) (sl : Slice) : SliceState :=
  if !sl.stopped then .live else if sl.id ∈ routers then .deadIsolated else .deadPass

/-- The states of all slices. -/
def State.setStates (s : State) (routers : List Nat) : State :=
  let isolated (i : Nat) : Bool := s.cap.hl.slices.getD i .absent = .deadIsolated
  s.onCap (fun c => { c with hl := { c.hl with
    slices := s.slices.map (fun sl => if isolated sl.id then .deadIsolated else startState routers sl) } })

/-- No slice survives (R455). -/
def State.noSlice (s : State) : Bool := s.cap.hl.slices.all (fun x => x != .live)

/-! ### The load (R430 step 6) -/

/-- The ways of a slice as the image and self-test set them (R331, R514). -/
def startWays (img : Image) (lost : List Nat) : List WayState :=
  (List.range 16).map (fun w => if bit (img.partMasks.getD 4 0) w || w ∈ lost then .gated else .active)

/-- Whether lost ways break R309 or R393 (R514). -/
def lostBreaks (env : Capstan) (c : Cache) : Bool :=
  let left (p : Part) : Nat := c.waysLeft env p 16
  !c.lostWays.isEmpty && (left .tree < 1 || left .weight < 4 || left .stream < 2 ||
    left .weight * wayBytes / 2 < 4096 * (poolOf env 0).1 || left .stream * wayBytes / 2 < 4096 * (poolOf env 8).1)

/-- Image values are loaded into a slice. -/
def Slice.load (env : Capstan) (sl : Slice) : Slice :=
  let sl := { sl with cache := { sl.cache with ways := startWays env.img sl.cache.lostWays } }
  { sl with stopped := sl.stopped || lostBreaks env sl.cache }

/-- Step 6, once the image has passed its checks and self-test has ended; in mode BOTH it is recorded (R441). -/
def State.load (s : State) : State :=
  if !(s.cap.atStep 5 && s.cap.su.selftest) then s
  else
    let s := s.onCap (fun c => { c with img := imageOf c.img.bytes }.onStart (fun u => { u with step := 6, waitFrom := u.upTime }))
    let s := (s.eachSlice (fun env sl => sl.load env)).setStates s.cap.su.badRouters
    if s.noSlice then s.onCap (fun c => (c.onStart (fun u => { u with cause := 0xF1, section_ := 0xFF })).endStart .failed)
    else if s.cap.img.syncMode = 3 then s.onCap (fun c => c.note 0x0005 (toLe 4 c.img.tickPeriod)) else s

/-- A row or column of a Capstan SRAM, which its own spares replace (R453, R513, R515): it has its record. The spec gives Capstan SRAMs no
numbers, so the slice and the unit that the record names are free values; the record's source is the Capstan (log entry 73). Its
package number is 0, as of every record before the image values are loaded (log entry 82). -/
def State.repairCapstan (s : State) (d : Nat × Nat) : State :=
  let x := (Config.freeBits s.fresh).toNat
  let r : Repair := { slice := x % 32, kind := d.1, unit := x / 32 % 65536, index := d.2, retired := false, inService := false }
  let data := toLe 1 r.slice ++ toLe 1 r.kind ++ toLe 2 r.unit ++ toLe 4 r.index ++ [0, 0]
  { (s.capTakes (.repair r)).onCap (fun c => c.note 0x1001 data) with fresh := s.fresh + 1 }

/-- SELFTEST_DONE (R453, R455): the repair map is set; the start goes on, or ends where it has failed. -/
def State.selfTested (s : State) (f : Selftest) : State :=
  let mine (i : Nat) : List (Nat × Nat × Nat) := (f.defects.filter (fun d => d.1 = i)).map (·.2)
  let s := f.capstan.foldl State.repairCapstan (deliverAll (s.eachSlice (fun env sl => sl.selfTest env (mine sl.id))))
  let s := (s.onCap (fun c => c.onStart (fun u => { u with testing := false, selftest := true, badRouters := f.deadRouters }))).setStates
    f.deadRouters
  let fail (code : Nat) : State := s.onCap (fun c => (c.onStart (fun u => { u with cause := code, section_ := 0xFF })).endStart .failed)
  if !f.capstanOk then fail 0xF0
  else if s.noSlice then fail 0xF1
  else if s.cap.su.cause != 0 then s.onCap (fun c => c.endStart .notReady)
  else s.load

/-- SELFTEST_DONE (R453). -/
def execSelftestDone (found : Selftest) (s : State) : Out' :=
  if s.cap.su.power = .running && s.cap.su.testing then .next (s.selfTested found).settleStart else .next s

/-- The whole image is there, its HINTS section with it (R454), and is checked (R450, R430 step 5). -/
def State.imageRead (s : State) (bs : List Byte) : State :=
  match imageFailure s.cap.n s.cap.su.density bs with
  | some f => s.onCap (fun c => c.failStart f)
  | none => (s.onCap (fun c => { c with img := { c.img with bytes := bs } }.startTest.onStart (fun u => { u with step := 5 }))).load

/-- IMAGE_READ_DONE (R450). -/
def execImageReadDone (bytes : List Byte) (s : State) : Out' :=
  if s.cap.atStep 3 && s.cap.img.headerIn then .next (s.imageRead bytes).settleStart else .next s

/-! ### Rope training (R400, R425, R455) -/

/-- A module after training. -/
def trainModule (up : Bool) (m : Module) : Module := if up && m.st != .down then { m with st := .up } else { m with st := .down }

/-- The modules of a slice that trained, as (slice, port, module). -/
def Slice.train (sl : Slice) (up : List (Nat × Nat × Nat)) : Slice :=
  let port (p : Nat) (x : Port) : Port :=
    { x with modules := (indexed x.modules).map (fun m => trainModule (decide ((sl.id, p, m.1) ∈ up) && x.st != .down) m.2) }
  { sl with rope := { sl.rope with ports := (indexed sl.rope.ports).map (fun e => port e.1 e.2) } }

/-- ROPE_TRAINING_DONE (R400): after self-test, unless the start has failed. -/
def execRopeTrainingDone (up : List (Nat × Nat × Nat)) (s : State) : Out' :=
  let su := s.cap.su
  if su.power = .running && su.state = .starting && su.selftest && su.cause = 0 && !su.trained then
    .next ((s.eachSlice (fun _ sl => sl.train up)).onCap (fun c => c.onStart (fun u => { u with trained := true, waitFrom := u.upTime })))
  else .next s

/-! ### Engine time, routes and ready (R430 steps 8 and 9, R416, R455, R456, R609) -/

/-- The configured credits of a port (R412, R426): flits of the migrate, return and maintenance buffers. -/
def Capstan.portCredits (c : Capstan) : List Nat :=
  [field c.img.ropeCfg 10 0, field c.img.ropeCfg 21 11, field c.img.ropeCfg 29 22]

/-- Whether module `m` of a port works at one end of its link. -/
def State.moduleUp (s : State) (i p m : Nat) : Bool :=
  match s.slices[i]? with
  | none => false
  | some sl => match sl.rope.ports[p]? with
    | none => false
    | some x => (x.modules[m]?).any (fun y => y.st = .up)

/-- The state of a port from its working modules (R410, R425). -/
def portStateOf (ms : List Module) : PortState :=
  let n := ms.countP (fun m => m.st = .up)
  if n = 4 then .up else if n = 0 then .down else .degraded

/-- A port at ready: UNUSED without a neighbour; a module works where both its ends trained. -/
def State.startPort (s : State) (i p : Nat) (x : Port) : Port :=
  match s.cap.neighbour i p with
  | none => { x with st := .unused, modules := x.modules.map (fun (m : Module) => { m with st := .unused }) }
  | some t =>
    let ms := (indexed x.modules).map (fun e => if s.moduleUp t (facing p) e.1 then e.2 else { e.2 with st := .down })
    { x with modules := ms, st := portStateOf ms, credits := s.cap.portCredits, stamp := none, buf := [], outOpen := [], openMsg := [] }

/-- The links that have no working module (R410). -/
def State.lostAtStart (s : State) : List (Nat × Nat) :=
  s.slices.flatMap (fun sl => (indexed sl.rope.ports).filterMap (fun e => if e.2.st = .down then some (sl.id, e.1) else none))

/-- Slices that no path reaches start dead and isolated (R416). -/
def State.isolateUnreached (s : State) : State :=
  let far := s.cap.unreachable
  let s := s.eachSlice (fun _ sl => if sl.id ∈ far then { sl with stopped := true } else sl)
  s.onCap (fun c => { c with hl := { c.hl with
    slices := (indexed c.hl.slices).map (fun (e : Nat × SliceState) => if e.1 ∈ far then SliceState.deadIsolated else e.2) } })

/-- A dead die has its proxy, which takes over the dies that the dead slice served; without one the class is NO_PROXY (R504, R508). -/
def Capstan.assignProxy (c : Capstan) (dead : Nat) : Capstan :=
  let others := c.hl.proxies.filter (fun x => x.1 != dead)
  match c.proxyFor dead with
  | some p => { c with hl := { c.hl with proxies := updateWhere (fun x => x.2 = dead) (fun x => (x.1, p)) others ++ [(dead, p)] } }
  | none => { c with hl := { c.hl with proxies := others.filter (fun x => x.2 != dead) } }.captureFault 0x0B dead false 0xFF dead

/-- The dead slices. -/
def Capstan.deadIds (c : Capstan) : List Nat :=
  c.ids.filter (fun i => c.hl.slices.getD i .absent = .deadPass || c.hl.slices.getD i .absent = .deadIsolated)

/-- The tables the Capstan writes (R398, R416), and what ROPE_STATUS shows of a dead slice. -/
def State.writeTables (s : State) : State :=
  let ts := s.cap.tables
  let detour := s.cap.detours
  s.eachSlice (fun env sl => { sl with rope := { sl.rope with
    routes := ts.getD sl.id sl.rope.routes, detour := detour
    passThrough := env.hl.slices.getD sl.id .absent = .deadPass } })

/-- A port that faces an isolated router is DOWN (R415 step 3, R455). -/
def State.shutIsolated (s : State) : State :=
  let faces (i p : Nat) : Bool := match s.cap.neighbour i p with
    | some t => s.cap.hl.slices.getD t .absent = .deadIsolated
    | none => false
  s.eachSlice (fun _ sl => { sl with rope := { sl.rope with
    ports := (indexed sl.rope.ports).map (fun (e : Nat × Port) => if faces sl.id e.1 then { e.2 with st := .down } else e.2) } })

/-- Step 8: the mesh as it trained, dead slices and their proxies, the tables. -/
def State.startMesh (s : State) : State :=
  let s := { s with slices := s.slices.map (fun (sl : Slice) => { sl with rope := { sl.rope with
    ports := (indexed sl.rope.ports).map (fun (e : Nat × Port) => s.startPort sl.id e.1 e.2) } }) }
  let s := s.onCap (fun c => { c with hl := { c.hl with lostLinks := s.lostAtStart } })
  let s := s.isolateUnreached.shutIsolated
  (s.onCap (fun c => c.deadIds.foldl (fun c d => c.assignProxy d) c)).writeTables

/-- M of a valid frame (R608). -/
def frameMs (bits : BitVec 128) (decodes : Bool) : Option Nat :=
  let m := bits.toNat % 2 ^ 64
  if decodes && bits.toNat / 2 ^ 64 = 2 ^ 64 - 1 - m then some m else none

/-- Engine time starts (R609): at the system time of a first valid frame, in ns, else at 0. -/
def Capstan.startTime (c : Capstan) (frame : Option Nat) : Capstan :=
  let based : Bool := 2 ≤ c.img.syncMode
  let (t, st) := match frame with
    | some t => if based then (2 * t, 2) else (0, 0)
    | none => if based then (0, 1) else (0, 0)
  { c with tb := { c.tb with time := t, on := true, state := st, frames := if st = 2 then 1 else 0, lastTick := some (t / 2)
                             lastFrame := if st = 2 then some t else none } }

/-- A slice as the engine reports ready (R456, R536, R502). -/
def Slice.ready (env : Capstan) (sl : Slice) : Slice :=
  { sl with time := env.tb.time, timeLow := 0, period := sclkPeriod, timeFix := 0, fixPhase := 0
            tokens := 256, tokenAt := env.tb.time, beatAt := env.tb.time, cnt := { sl.cnt with armed := true }
            pwr := { sl.pwr with idleSince := env.tb.time }, work := { sl.work with rotAt := env.tb.time } }

/-- Steps 8 and 9. -/
def State.becomeReady (s : State) (frame : Option Nat) : State :=
  let s := s.startMesh.onCap (fun c => c.startTime frame)
  let s := s.eachSlice (fun env sl => sl.ready env)
  s.onCap (fun c =>
    let c := { c with hl := { c.hl with beats := c.ids.map (fun i => (i, c.tb.time)) } }
    let c := c.onStart (fun u => { u with state := .ready, step := 9, startUs := c.sinceT0 })
    c.note 0x0001 (toLe 4 c.su.startUs ++ toLe 4 c.img.revision))

/-- Whether step 8 is under way: the values are loaded and training has ended. -/
def Capstan.awaitsTime (c : Capstan) : Bool := c.atStep 6 && c.su.trained

/-- The 1.2 ms for which step 8 waits for a frame, in half-nanoseconds (R609). -/
def frameWait : Nat := 2400000

/-- The system time now, by a frame that is valid and comes within the wait (R609): M milliseconds, and what has passed since the mark. -/
def Capstan.firstFrame (c : Capstan) (f : BitVec 128 × Bool × Nat) : Option Nat :=
  if c.su.upTime ≤ c.su.waitFrom + frameWait then (frameMs f.1 f.2.1).map (fun m => m * 1000000 + f.2.2) else none

/-- The end of step 8, or a frame of its wait (R608, R609): an invalid one is counted; engine time starts with the first valid one, with the end
of the wait, or at once where no frame is awaited. -/
def State.startTime (s : State) (frame : Option (BitVec 128 × Bool × Nat)) : State :=
  if s.cap.img.syncMode < 2 then s.becomeReady none
  else
    let bad : Bool := frame.any (fun f => (frameMs f.1 f.2.1).isNone)
    let s := if bad then s.onCap (fun c => { c with tb := { c.tb with bad := satAdd 0xFFF c.tb.bad 1 } }) else s
    match frame.bind s.cap.firstFrame with
    | some t => s.becomeReady (some t)
    | none => if s.cap.su.waitFrom + frameWait ≤ s.cap.su.upTime then s.becomeReady none else s

/-- ENGINE_TIME_START (R609): step 8, with the frame that ends now, if one does: its bits, whether they all decode, the nanoseconds since its
mark. -/
def execEngineTimeStart (frame : Option (BitVec 128 × Bool × Nat)) (s : State) : Out' :=
  if s.cap.awaitsTime then .next (deliverAll (s.startTime frame)) else .next s

end Sys2Proof.Machine
end

