-- ==== Sys2Proof/Machine/Death.lean ====
section
/-!
DEFINITION. Slice death (R502 to R508): heartbeats, the declaration, the router probe, the proxy and the journal; epoch changes (R414 to
R417, R506).
-/

namespace Sys2Proof.Machine

/-! ### Heartbeats (R502) -/

/-- HEARTBEAT (R502): each 1 us of engine time; none reaches a Capstan that restarts (R511). -/
def execHeartbeat (slice : Nat) (s : State) : Out' :=
  match s.slices[slice]? with
  | none => .next s
  | some sl =>
    if !(s.cap.tb.on && sl.works s.cap && sl.beatAt + 2000 ≤ sl.time) then .next s
    else
      let s := s.atSlice slice (fun _ sl => { sl with beatAt := sl.time })
      let beats := updateWhere (fun (b : Nat × Nat) => b.1 = slice) (fun b => (b.1, s.cap.tb.time)) s.cap.hl.beats
      .next (if s.cap.acts then s.onCap (fun c => { c with hl := { c.hl with beats := beats } }) else s)

/-! ### The declaration (R504) -/

/-- Steps 1, 2 and 4 of R504: the declaration, the fence requests, the epoch change. The router counts as isolated until its probe has
ended, and the slice's requests to the Capstan are void. A slice that reported its stop has had its capture (R489: SLICE_STOP), any
other is captured as SLICE_DEAD. -/
def Capstan.declareDead (c : Capstan) (i : Nat) (stopped probeDone : Bool) : Capstan :=
  let d : Death := { slice := i, probeDone := probeDone, fenced := false, begun := false, read := false, since := c.tb.time }
  let c := { c with hl := { c.hl with slices := c.hl.slices.set i .deadIsolated, deaths := c.hl.deaths ++ [d] }
                    loans := c.loans.filter (fun l => l.slice != i), actWait := c.actWait.filter (fun a => a.1 != i) }
  (if stopped then c else c.captureFault 0x05 i false 0xFF 0).startEpoch

/-! ### The proxy's duty begins (R505 step 1) -/

/-- A slice's cask takes in the units that another held. -/
def Cask.merge (k d : Cask) : Cask :=
  { k with free := d.free.foldl (fun f r => addRun r f) k.free, own := k.own ++ d.own, given := (k.given ++ d.given).eraseDups }

/-- The cask items of a slice's batches of a context. -/
def Slice.itemsIn (sl : Slice) (ctx : Nat) : List CaskItem :=
  (sl.ing.batches.filter (fun b => b.desc.ctx = ctx)).flatMap (·.items) ++ (sl.ing.pendq.filter (fun p => p.desc.ctx = ctx)).flatMap (·.items) ++
    (sl.ing.adopting.filter (fun a => a.entry.ctx = ctx)).flatMap (·.items)

/-- The owner map of a context names the proxy for every block that the dead slice held, but for the journal blocks (R505 step 1). -/
def State.moveOwners (s : State) (dead : Slice) (proxy : Nat) (k : Cask) : State :=
  match s.cap.ctx? k.ctx with
  | none => s
  | some c => (k.held s.cap.n c (dead.itemsIn k.ctx)).foldl (fun s b => s.moveOwner proxy c b proxy) s

/-- The proxy takes over the dead slice's cask blocks of every active context, with the owner maps that it had still to write (R505 step 1). -/
def State.takeCasks (s : State) (dead proxy : Nat) : State :=
  match s.slices[dead]? with
  | none => s
  | some x =>
    let mine := x.store.casks.filter (fun k => s.cap.isActive k.ctx)
    let s := s.atSlice dead (fun _ sl => { sl with store := { sl.store with
      casks := sl.store.casks.filter (fun k => !s.cap.isActive k.ctx), maps := [] } })
    let s := s.atSlice proxy (fun _ sl => { sl with store := { sl.store with maps := sl.store.maps ++ x.store.maps } })
    let s := s.atSlice proxy (fun _ sl => mine.foldl (fun sl k => sl.setCask ((sl.cask k.ctx).merge k)) sl)
    mine.foldl (fun s k => s.moveOwners x proxy k) s

/-- The duties that may begin now: the fences are confirmed and the proxy is known. -/
def Capstan.dueDuties (c : Capstan) : List (Nat × Nat) :=
  c.hl.proxies.filter (fun p => c.hl.deaths.any (fun d => d.slice = p.1 && d.fenced && d.probeDone && !d.begun))

def Capstan.onDeath (c : Capstan) (i : Nat) (f : Death → Death) : Capstan :=
  { c with hl := { c.hl with deaths := updateWhere (fun d => d.slice = i) f c.hl.deaths } }

/-- Duties begin as soon as they may. -/
def State.beginDuties (s : State) : State :=
  s.cap.dueDuties.foldl (fun s p =>
    (s.takeCasks p.1 p.2).onCap (fun c => c.onDeath p.1 (fun d => { d with begun := true }))) s

/-! ### The probe (R504 steps 3 and 5) -/

/-- The probe of a router has ended: the slice is in pass-through or isolated, and its proxy is chosen. -/
def Capstan.probed (c : Capstan) (i : Nat) (clean : Bool) : Capstan :=
  let c := { c with hl := { c.hl with slices := c.hl.slices.set i (if clean then .deadPass else .deadIsolated) } }
  (c.onDeath i (fun d => { d with probeDone := true })).assignProxy i

/-- A dead slice's router passes into pass-through (R415 step 4): what it holds is discarded, the rest of what it has received in part as it
arrives, and it sends nothing of its own. -/
def Slice.passThrough (sl : Slice) : Slice :=
  let clear (p : Port) : Port := { p with buf := [], cut := p.openMsg.map (fun o => (o.1, o.2.1)), outOpen := [], ptrq := [], leaving := [], owed := [0, 0, 0]
                                          owedSince := none, creditDue := false }
  { sl with rope := { sl.rope with ports := sl.rope.ports.map clear, sendq := [], through := [] } }

/-- ROUTER_PROBE_ANSWER (R504): an answer that comes later than 1 us counts as none. -/
def execRouterProbeAnswer (slice : Nat) (clean : Bool) (s : State) : Out' :=
  match s.cap.hl.deaths.find? (fun d => d.slice = slice && !d.probeDone) with
  | none => .next s
  | some d =>
    if s.cap.acts then
      let pass : Bool := clean && decide (s.cap.tb.time ≤ d.since + 2000)
      let s := if pass then s.atSlice slice (fun _ sl => sl.passThrough) else s
      .next (s.onCap (fun c => c.probed slice pass)).beginDuties
    else .next s

def State.hasStopped (s : State) (i : Nat) : Bool := (s.slices[i]?).any (fun sl => sl.stopped)

/-- The slices that a heartbeat check finds stopped, or silent for 4 us (R502). -/
def State.silent (s : State) : List Nat :=
  let late (i : Nat) : Bool := s.cap.hl.beats.any (fun b => b.1 = i && b.2 + 8000 ≤ s.cap.tb.time)
  s.cap.ids.filter (fun i => s.cap.isLive i && (late i || s.hasStopped i))

/-- The contexts whose passes may have ended with the state as it is. -/
def State.recheckPasses (s : State) : State := (s.cap.ctxs.map (fun (x : Ctx) => x.id)).foldl (fun s c => s.endReported c) s

/-- HEARTBEAT_CHECK (R502, R504): also ends the probes without an answer for 1 us. -/
def State.checkBeats (s : State) : State :=
  let unanswered := s.cap.hl.deaths.filter (fun d => !d.probeDone && d.since + 2000 ≤ s.cap.tb.time)
  let s := (s.onCap (fun c => unanswered.foldl (fun c d => c.probed d.slice false) c)).beginDuties
  (s.onCap (fun c => s.silent.foldl (fun c i => c.declareDead i (s.hasStopped i) false) c)).recheckPasses

/-- Whether engine time reaches a whole microsecond in this cycle of VCLK, which adds five half-nanoseconds (R606). -/
def TimeBase.wholeUs (t : TimeBase) : Bool := decide (t.time % 2000 < 5)

/-- HEARTBEAT_CHECK (R502): at each whole microsecond of engine time. -/
def execHeartbeatCheck (s : State) : Out' :=
  if s.cap.acts && s.cap.su.state = .ready && s.cap.tb.wholeUs then .next (deliverAll s.checkBeats) else .next s

/-- FENCE_REQ and FENCE_DIE (R504, R598): the die whose fence the Capstan requests, until both fences are confirmed. -/
def Capstan.fenceReq (c : Capstan) : Option Nat := (c.hl.deaths.find? (fun d => !d.fenced)).map (·.slice)

/-- REPRESENT_REQ with REPRESENT_DIE and REPRESENT_PROXY (R507, R598): the dies whose held submissions the mesh interface is to re-present, each
to the proxy that has begun its duty. -/
def Capstan.representReqs (c : Capstan) : List (Nat × Nat) :=
  c.hl.proxies.filter (fun p => c.hl.deaths.any (fun d => d.slice = p.1 && d.begun))

/-- An acknowledgement of a fence of a die: FENCE_ACK_MESH, FENCE_ACK_MEM (R598). -/
def Death.ack (d : Death) (mesh mem : Bool) : Death :=
  let d := { d with meshAck := d.meshAck || mesh, memAck := d.memAck || mem }
  { d with fenced := d.meshAck && d.memAck }

/-- FENCES_CONFIRMED (R505, R507): the mesh interface, the memory controllers, or both confirm the fence of a die. -/
def execFencesConfirmed (die : Nat) (s : State) (mesh : Bool := true) (mem : Bool := true) : Out' :=
  if s.cap.su.power != .running || s.cap.hl.failed then .next s
  else .next (s.onCap (fun c => c.onDeath die (fun d => d.ack mesh mem))).beginDuties

/-! ### The journal (R505) -/

/-- Whether a journal entry is that of a batch (R497, R498). -/
def journalSound (e : JournalRead) : Bool := e.jstate = 1 || e.jstate = 2 || e.jstate = 3

/-- JOURNAL_LOST for an entry whose line came poisoned, or whose state is reserved (R489, R491, R498). -/
def Slice.journalLost (die : Nat) (sl : Slice) (e : Option JournalRead) : Slice :=
  sl.tell (.fault die 0x0A 0xFF (e.map (·.batchId)))

/-- The batches of the journal in the order in which they are served: by context, then by entry index (R505). -/
def journalOrder (es : List JournalRead) : List JournalRead :=
  sortBy (fun a b => decide (a.ctx < b.ctx || (a.ctx = b.ctx && a.handle < b.handle))) es

/-- The cask items of a batch of a dead slice: its ledger as the journal's runs name it (R497), its spill slots and combining areas as the
dead slice had reserved them (log entry 6). -/
def Slice.itemsOf (sl : Slice) (e : JournalRead) : List CaskItem :=
  let mine : List CaskItem := match sl.ing.batches.find? (fun b => b.handle = e.handle && b.desc.ctx = e.ctx) with
    | some b => b.items
    | none =>
      match sl.ing.adopting.find? (fun a => a.handle = e.handle && a.entry.ctx = e.ctx) with
      | some a => a.items
      | none => ((sl.ing.pendq.find? (fun p => p.stage.holds && p.handle = e.handle && p.desc.ctx = e.ctx)).map
          (fun (p : Pend) => p.items)).getD []
  { use := .ledger, runs := e.runs } :: mine.filter (fun i => i.use != .ledger)

/-- The items of a dead slice's batches that its journal does not name; their units are free. -/
def Slice.freeItems (sl : Slice) (es : List JournalRead) : List (Nat × List CaskItem) :=
  let named (handle ctx : Nat) : Bool := es.any (fun e => e.handle = handle && e.ctx = ctx)
  (sl.ing.batches.filter (fun b => !named b.handle b.desc.ctx)).map (fun (b : Batch) => (b.desc.ctx, b.items)) ++
    (sl.ing.pendq.filter (fun p => !(p.stage.holds && named p.handle p.desc.ctx))).map (fun (p : Pend) => (p.desc.ctx, p.items))

/-- The proxy has read the journal (R505 steps 2 to 4). -/
def Slice.takeJournal (env : Capstan) (sl dead : Slice) (entries : List (Option JournalRead)) : Slice :=
  let bad := entries.filter (fun e => !(e.any (fun x => journalSound x || x.jstate = 0)))
  let es := journalOrder (entries.filterMap (fun e => e.filter journalSound))
  let sl := bad.foldl (fun sl e => sl.journalLost dead.id e) sl
  let sl := (dead.freeItems es).foldl (fun (sl : Slice) x =>
    if env.isActive x.1 && !x.2.isEmpty then sl.releaseItems x.1 x.2 else sl) sl
  let halfway := (dead.ing.adopting.filter (fun a => !es.any (fun e => e.handle = a.handle))).map (fun a => (a.dead, a.entry, a.items))
  let waiting := halfway ++ dead.ing.fromJournal ++ es.map (fun e => (dead.id, e, dead.itemsOf e))
  ({ sl with ing := { sl.ing with fromJournal := sl.ing.fromJournal ++ waiting } }).adoptWaiting env

/-- JOURNAL_READ_DONE (R505). -/
def execJournalReadDone (die : Nat) (entries : List (Option JournalRead)) (s : State) : Out' :=
  let due : Bool := s.cap.hl.deaths.any (fun d => d.slice = die && d.begun && !d.read)
  match s.slices[die]?, s.cap.hl.proxies.find? (fun p => p.1 = die) with
  | some dead, some p =>
    if !due || !(s.slices[p.2]?).any (fun sl => sl.works s.cap) then .next s
    else
      let s := s.onCap (fun c => (c.onDeath die (fun d => { d with read := true })))
      let s := s.onCap (fun c => { c with ctxs := c.ctxs.map (fun (x : Ctx) => { x with emptied := x.emptied.filter (· != p.2) }) })
      .next (deliverAll (s.atSlice p.2 (fun env sl => (sl.takeJournal env dead entries).awaken))).recheckPasses
  | _, _ => .next s

/-! ### Epoch changes at a slice (R414, R415 steps 2 to 7) -/

/-- Whether a port faces an isolated router or a lost link (R415 step 3). -/
def Capstan.portDown (c : Capstan) (i p : Nat) : Bool :=
  match c.neighbour i p with
  | none => false
  | some t => c.hl.slices.getD t .absent = .deadIsolated || decide ((i, p) ∈ c.hl.lostLinks) || decide ((t, facing p) ∈ c.hl.lostLinks)

/-- Whether a port faces a router in pass-through (R415 step 5). -/
def Capstan.portPass (c : Capstan) (i p : Nat) : Bool := (c.neighbour i p).any (fun t => c.hl.slices.getD t .absent = .deadPass)

/-- Whether a message that has begun to arrive has all its flits in the port's buffers by now. -/
def Port.wholeIn (p : Port) (m vc : Nat) : Bool := p.buf.any (fun a => a.module = m && a.flit.vc = vc && a.flit.last)

/-- The flits of messages that a port has received only in part are discarded (R415 step 6). -/
def Port.dropPartial (p : Port) : Port :=
  let whole (e : Nat × Arrived) : Bool := (p.buf.drop e.1).any (fun a => a.module = e.2.module && a.flit.vc = e.2.flit.vc && a.flit.last)
  { p with buf := ((indexed p.buf).filter whole).map (·.2), openMsg := [], cut := [] }

/-- A port at an epoch change: DOWN with nothing to send, or its credits restored by fiat (R415 steps 3, 5 and 6). -/
def Port.epochChange (c : Capstan) (i p : Nat) (x : Port) : Port :=
  if x.st = .unused then x
  else if c.portDown i p then
    { x.dropPartial with st := .down, owed := [0, 0, 0], owedSince := none, creditDue := false, outOpen := []
                         modules := x.modules.map (fun (m : Module) => { m with replay := [] }) }
  else if c.portPass i p then { x.dropPartial with credits := c.portCredits, stamp := some c.hl.epoch }
  else x

/-- Whether a message has been begun: its first flit has left. -/
def begun (e : RopeMsg × List Flit) : Bool := !e.2.any (fun f => f.first)

/-- The credits of MIGRATE messages that were not begun go back to their ports (R415, R418): HOLD keeps them from being begun, and what they
carry is lost to the change (R506). -/
def Slice.refund (sl : Slice) : Slice :=
  let idle (e : RopeMsg × List Flit) : Bool := e.1.vc = 0 && !begun e
  let back (ports : List Port) (e : RopeMsg × List Flit) : List Port :=
    updateAt (fun p => { p with credits := updateAt (· + e.2.length) 0 p.credits }) (sl.rope.routes.getD e.1.dest 0xF) ports
  { sl with rope := { sl.rope with ports := (sl.rope.sendq.filter idle).foldl back sl.rope.ports
                                   sendq := sl.rope.sendq.filter (fun e => !idle e) } }

/-- The messages that a router was forwarding from a changed port, or to a port that is DOWN, and that are cut (R415 steps 3 and 6), leave
their outgoing modules. -/
def Slice.cutThrough (env : Capstan) (sl : Slice) : Slice :=
  let changed (p : Nat) : Bool := env.portDown sl.id p || env.portPass sl.id p
  let cut (t : Through) : Bool := env.portDown sl.id t.outPort ||
    (changed t.inPort && !(sl.rope.ports[t.inPort]?).any (fun p => p.wholeIn t.inModule t.vc))
  let gone := sl.rope.through.filter cut
  let free (e : Nat × Port) : Port :=
    { e.2 with outOpen := e.2.outOpen.filter (fun o => !gone.any (fun t => t.outPort = e.1 && t.outModule = o.1 && t.vc = o.2)) }
  { sl with rope := { sl.rope with through := sl.rope.through.filter (fun t => !cut t), ports := (indexed sl.rope.ports).map free } }

/-- A slice receives the new epoch and the fault set (R415 steps 2 to 7). -/
def Slice.epochChange (env : Capstan) (sl : Slice) : Slice :=
  let sl := sl.refund.cutThrough env
  let cut (e : RopeMsg × List Flit) : Bool := begun e && env.portDown sl.id (sl.rope.routes.getD e.1.dest 0xF)
  let r := { sl.rope with epoch := env.hl.epoch, hold := true, drained := false, sendq := sl.rope.sendq.filter (fun e => !cut e)
                          ports := (indexed sl.rope.ports).map (fun (e : Nat × Port) => e.2.epochChange env sl.id e.1) }
  (({ sl with rope := r }).count 0x508 0 none 1).pump env

/-- EPOCH_CHANGE (R415): once the Capstan knows the fault set, which a router's probe belongs to. -/
def execEpochChange (slice : Nat) (s : State) : Out' :=
  onSlice deliver slice s (fun env sl =>
    if sl.works env && env.acts && env.hl.epochBusy && sl.rope.epoch != env.hl.epoch && env.hl.deaths.all (fun d => d.probeDone)
    then (sl.epochChange env).wake else sl)

/-! ### The end of an epoch change (R415 steps 8 and 9, R416) -/

/-- The slices a message passes on the routes as they stand; `fuel` bounds the hops. -/
def State.pathFrom (s : State) : (fuel : Nat) → Nat → Nat → List Nat
  | 0, i, _ => [i]
  | fuel + 1, i, dest =>
    if i = dest then [i]
    else match s.slices[i]? with
      | none => [i]
      | some sl => match s.cap.neighbour i (sl.rope.routes.getD dest 0xF) with
        | none => [i]
        | some t => i :: s.pathFrom fuel t dest

/-- Whether a hop of a path is lost: over a lost link, or into or out of a router that is dead. -/
def Capstan.cutHop (c : Capstan) (a b : Nat) : Bool :=
  let lost (p : Nat) : Bool := c.neighbour a p = some b && (decide ((a, p) ∈ c.hl.lostLinks) || decide ((b, facing p) ∈ c.hl.lostLinks))
  !c.isLive b || (!c.isLive a) || (List.range 4).any lost

/-- Whether a message in flight may be lost in this change: its path meets a fault (R415 steps 3 to 7). -/
def State.mayLose (s : State) (m : RopeMsg) : Bool :=
  let path := s.pathFrom s.cap.n m.src m.dest
  (path.zip (path.drop 1)).any (fun h => s.cap.cutHop h.1 h.2) || path.getLast? != some m.dest

/-- Whether a message of an older epoch is on its way. -/
def State.isOld (s : State) (m : RopeMsg) : Bool := m.src != m.dest && m.epoch != s.cap.hl.epoch

/-- Whether a slice holds nothing of the old epoch (R415 step 8). -/
def State.drainedAt (s : State) (sl : Slice) : Bool :=
  !(sl.rope.sendq.any begun) && !(sl.rope.ports.any (fun p => p.buf.any (fun a => a.flit.epoch != s.cap.hl.epoch))) &&
    !(s.rope.any (fun m => s.isOld m && !s.mayLose m && decide (sl.id ∈ s.pathFrom s.cap.n m.src m.dest)))

/-- Every live slice has reported (R415 step 9): what the change discarded is gone, the tables are written; a live slice that cannot be
reached is dead and isolated (R416), and a change that arose meanwhile follows. -/
def State.endEpoch (s : State) : State :=
  let s := { s with rope := s.rope.filter (fun m => !s.isOld m && s.cap.isLive m.dest) }
  let s := s.onCap (fun c => { c with hl := { c.hl with epochBusy := false, drained := [] } })
  let again := s.cap.hl.epochAgain
  let far := s.cap.unreachable
  let s := s.writeTables
  let s := s.onCap (fun c => if again then c.startEpoch else c)
  let s := s.eachSlice (fun _ sl => if sl.id ∈ far then { sl with stopped := true } else sl)
  (s.onCap (fun c => far.foldl (fun c i => (c.declareDead i false true).probed i false) c)).beginDuties

/-- The change ends once the Capstan has all reports. -/
def State.endIfDrained (s : State) : State :=
  if s.cap.acts && s.cap.hl.epochBusy && (s.cap.ids.filter s.cap.isLive).all (fun i => decide (i ∈ s.cap.hl.drained)) then s.endEpoch
  else s

/-- A slice's report is taken. -/
def State.reportDrained (s : State) (i : Nat) : State :=
  (s.atSlice i (fun _ sl => { sl with rope := { sl.rope with drained := true } })).onCap
    (fun c => { c with hl := { c.hl with drained := if i ∈ c.hl.drained then c.hl.drained else c.hl.drained ++ [i] } })

/-- EPOCH_DRAIN_REPORT (R415). -/
def execEpochDrainReport (slice : Nat) (s : State) : Out' :=
  match s.slices[slice]? with
  | none => .next s
  | some sl =>
    if sl.works s.cap && !s.cap.hl.failed && s.cap.hl.epochBusy && sl.rope.hold && sl.rope.epoch = s.cap.hl.epoch && s.drainedAt sl then
      .next (deliverAll (s.reportDrained slice).endIfDrained.recheckPasses)
    else .next s

/-! ### HOLD is cleared (R506) -/

/-- Guest queries, and the queries of other homes, are discarded with the results that wait for another home. -/
def Slice.discardOthers (env : Capstan) (sl : Slice) : Slice :=
  let keep (e : RopeMsg × List Flit) : Bool := env.isLive e.1.dest && (match e.1.body with
    | .result _ => false
    | .maintDesc _ => false
    | .maintAck _ _ => true
    | .migrate _ => false
    | .migratePtr _ => false)
  let (sl, _) := sl.removeQueries (fun q => q.home != sl.id)
  let sl := { sl with store := sl.store.drop (fun e => e.home != sl.id) }
  { sl with rope := { sl.rope with sendq := sl.rope.sendq.filter keep } }

/-- Whether a batch may have lost a message (R506): of a HOMED context, with a query that has not ended at the home. -/
def Batch.mayHaveLost (env : Capstan) (b : Batch) : Bool :=
  (env.ctx? b.desc.ctx).any (fun c => c.homed) && !b.desc.maint && b.phase != .closed && (b.replaying.isSome || !b.allEnded)

/-- A batch replay with every query of the old run already ended (R506). -/
def Slice.replayLost (sl : Slice) (h : Nat) : Slice :=
  let sl := sl.startReplay h []
  match sl.batch? h with
  | none => sl
  | some b => sl.setBatch { b with replaying := some [] }

/-- A maintenance descriptor is sent again to the live slices that have not acknowledged it (R506). -/
def Slice.resendMaint (env : Capstan) (sl : Slice) (o : MaintOut) : Slice :=
  let left := (env.ids.filter env.isLive).filter (fun i => !(i ∈ o.acks))
  (left.foldl (fun sl i => if i = sl.id then sl else sl.send env i (.maintDesc o.msg)) sl).maintLands env o

/-- What a slice does as its HOLD is cleared (R506). -/
def Slice.clearHold (env : Capstan) (sl : Slice) : Slice :=
  let sl := ({ sl with rope := { sl.rope with hold := false } }).discardOthers env
  let sl := ((sl.ing.batches.filter (Batch.mayHaveLost env)).map (·.handle)).foldl (fun sl h => sl.replayLost h) sl
  (sl.ing.maintOut.foldl (fun sl o => sl.resendMaint env o) sl).pump env

/-- HOLD_CLEARED (R415 step 9, R506): once the change of the slice's epoch has ended. -/
def execHoldCleared (slice : Nat) (s : State) : Out' :=
  match s.slices[slice]? with
  | none => .next s
  | some sl =>
    let ended : Bool := if s.cap.hl.epochBusy then sl.rope.epoch != s.cap.hl.epoch else sl.rope.epoch = s.cap.hl.epoch
    if sl.works s.cap && s.cap.acts && sl.rope.hold && ended then .next (deliverAll (s.atSlice slice (fun env sl => (sl.clearHold env).wake)).recheckPasses)
    else .next s

end Sys2Proof.Machine
end

