-- ==== Sys2Proof/Machine/Link.lean ====
section
/-!
DEFINITION. The link layer (R401 to R413): flits accepted or rejected, acknowledgement and replay, retraining, credits.
-/

namespace Sys2Proof.Machine

/-! ### Flits (R402 to R404, R408, R409) -/

/-- The channel an MTYPE belongs to (R403, R404). -/
def mtypeVc (t : Nat) : Option Nat :=
  if t = 0 || t = 6 then some 2 else if t = 1 || t = 2 then some 0 else if t = 3 then some 1 else if t = 4 || t = 5 then some 3 else none

/-- Whether FIRST and LAST are out of step with the messages open on a module (R404). A CREDIT is one flit. A message that an epoch change
has cut (R415) is open no more for one of a later epoch (log entry 57). -/
def Port.outOfStep (p : Port) (m : Nat) (f : Flit) : Bool :=
  let isOpen := decide ((m, f.vc, f.epoch) ∈ p.openMsg)
  if f.mtype = 0 then false else if f.mtype = 6 then !(f.first && f.last) else f.first = isOpen

/-- Whether a flit is malformed (R404). -/
def malformed (n : Nat) (p : Port) (m : Nat) (f : Flit) : Bool :=
  mtypeVc f.mtype != some f.vc || 6 < f.words || p.outOfStep m f || n ≤ f.dest

/-- Kinds of a link error (R428). -/
def kindUncorrectable : Nat := 1
def kindFrame : Nat := 2
def kindRetrain : Nat := 3
def kindModuleDown : Nat := 4
def kindMalformed : Nat := 5

/-- What is wrong with a flit apart from its sequence number (R408), as a kind of R428. -/
def flitError (n : Nat) (p : Port) (m : Nat) (f : Flit) : Option Nat :=
  if !f.wordsOk then some kindUncorrectable
  else if f.frameMark != frameMark || f.frameSeq != f.seq then some kindFrame
  else if malformed n p m f then some kindMalformed
  else none

/-- A command at a slice's router, which may be that of a dead slice in pass-through (R415). -/
def onRouter (i : Nat) (s : State) (f : Capstan → Slice → Slice) : Out' :=
  onSlice deliver i s (fun env sl => if sl.works env then (f env sl).awaken else if sl.routes env then f env sl else sl)

/-- The capture of a link error with its record (R428). -/
def Slice.linkError (env : Capstan) (sl : Slice) (port m kind : Nat) : Slice :=
  let r := fields [1, place port 2 1, place m 2 3, place kind 3 5, place sl.rope.epoch 16 16]
  ({ sl with rope := { sl.rope with linkErr := r } }).log env 0x8001 (toLe 8 r.toNat)

/-! ### Changes of a module and a port -/

def Port.onModule (p : Port) (m : Nat) (f : Module → Module) : Port := { p with modules := updateAt f m p.modules }

/-- The state of a port from its modules (R410, R425); one that retrains is not lost; a port that is DOWN stays so (R415). -/
def Port.judge (p : Port) : Port :=
  if p.st = .unused || p.st = .down then p
  else if p.modules.all (fun m => m.st = .up) then { p with st := .up }
  else if p.modules.all (fun m => m.st = .down) then { p with st := .down }
  else { p with st := .degraded }

/-- Qualifier form P of R591. -/
def portQual (port m : Nat) : Nat := port + 4 * m

/-- Flits of modules that are DOWN are sent again on the lowest-numbered working one, as far as its replay buffer has room (R408, R410). The
first part counts them. -/
def Port.moveKept (p : Port) : Nat × Port :=
  match p.lowest with
  | none => (0, p)
  | some t =>
    (List.range 4).foldl (fun (acc : Nat × Port) m =>
      match acc.2.modules[m]?, acc.2.modules[t]? with
      | some x, some y =>
        if x.st != .down then acc
        else
          let ks := x.replay.take (128 - y.replay.length)
          let p := acc.2.onModule m (fun x => { x with replay := x.replay.drop ks.length })
          (acc.1 + ks.length, p.onModule t (fun y => ks.foldl Module.push y))
      | _, _ => acc) (0, p)

def Slice.moveKept (sl : Slice) (port : Nat) : Slice :=
  match sl.rope.ports[port]? with
  | none => sl
  | some p => let r := p.moveKept; (sl.onPort port (fun _ => r.2)).count 0x503 (portQual port (r.2.lowest.getD 0)) none r.1

/-! ### Acknowledgement and replay (R408, R409) -/

/-- An acknowledged flit leaves the replay buffer, with those before it. -/
def Module.acked (m : Module) (ack : Nat) : Module :=
  if m.replay.any (fun k => k.seq = ack) then { m with replay := ((m.replay.dropWhile (fun k => k.seq != ack)).drop 1) } else m

/-- Whether NAK starts a replay (R409): none is under way, which takes one LCLK cycle, half a nanosecond, for each flit (R401). -/
def Module.replays (m : Module) (now : Nat) (nak : Bool) : Bool := nak && !m.replay.isEmpty && m.replayEnd ≤ now

/-- What a sound flit says of the flits that this module has sent: ACK, and a replay where NAK asks for it. -/
def Slice.takeAck (env : Capstan) (sl : Slice) (port m : Nat) (f : Flit) : Slice :=
  let sl := sl.onPort port (fun p => p.onModule m (fun x => x.acked f.ack))
  let x := (sl.rope.ports[port]?).bind (fun p => p.modules[m]?)
  let sl := if x.any (fun x => x.replays sl.time f.nak) then
      let k := (x.map (fun x => x.replay.length)).getD 0
      (sl.onPort port (fun p => p.onModule m (fun x => { x.resend with replayEnd := sl.time + k }))).count 0x503 (portQual port m) none k
    else sl
  (sl.moveKept port).pump env

/-! ### Credits (R412 to R414) -/

/-- CREDIT_RETURN_TIMER (R413): 64 LCLK cycles after the port first came to owe a credit. -/
def execCreditReturnTimer (slice port : Nat) (s : State) : Out' :=
  onRouter slice s (fun env sl =>
    (sl.onPort port (fun p => if p.owedSince.isSome then { p with creditDue := true } else p)).pump env)

/-- Returned credits are added (R413, R414), but not those of another epoch on a port whose credits were restored by fiat (R415). -/
def Slice.addCredits (env : Capstan) (sl : Slice) (port : Nat) (mig ret mnt epoch : Nat) : Slice :=
  match sl.rope.ports[port]? with
  | none => sl
  | some p =>
    if p.st = .unused || p.st = .down || p.stamp.any (· != epoch) then sl
    else
      let add (c : List Nat) : List Nat := [c.getD 0 0 + mig % 4096, c.getD 1 0 + ret % 4096, c.getD 2 0 + mnt % 4096]
      (sl.onPort port (fun p => { p with credits := add p.credits })).pump env

/-- CREDIT (R413): a CREDIT flit arrives; its credits are 12-bit counts (R405). -/
def execCredit (slice port mig ret mnt epoch : Nat) (s : State) : Out' :=
  onRouter slice s (fun env sl => sl.addCredits env port mig ret mnt epoch)

/-! ### Acceptance and rejection (R408, R409) -/

/-- A flit is accepted (R408): its message goes on or ends; it enters the receive buffer of its channel (R412), and leaves it as it is
delivered, forwarded or discarded (R413); the rest of a message that was cut is discarded as it arrives (R415). A CREDIT flit is consumed as
it arrives: the command CREDIT says what it returns. -/
def Slice.acceptFlit (env : Capstan) (sl : Slice) (port m : Nat) (f : Flit) : Slice :=
  let track (p : Port) : Port :=
    let p := p.onModule m (fun x => { x with expect := (f.seq + 1) % 256, lastOk := f.seq % 256, nak := false })
    if f.vc = 2 then p
    else
      let rest := p.openMsg.filter (fun o => !(o.1 = m && o.2.1 = f.vc))
      let p : Port := { p with openMsg := if f.last then rest else rest ++ [(m, f.vc, f.epoch)] }
      if !f.first && p.cut.contains (m, f.vc) then
        ({ p with cut := if f.last then p.cut.filter (· != (m, f.vc)) else p.cut }).owe sl.time f.vc
      else { p with cut := p.cut.filter (· != (m, f.vc)), buf := p.buf ++ [{ module := m, flit := f }] }
  ((sl.onPort port track).count 0x502 (port + 4 * f.vc) none 1).pump env

/-- A flit is rejected (R409): NAK is set, the rejection counted with its time, and captured unless a gap caused it. -/
def Slice.rejectFlit (env : Capstan) (sl : Slice) (port m : Nat) (err : Option Nat) : Slice :=
  let note (x : Module) : Module := { x with nak := true, rejects := x.rejects.filter (fun t => sl.time ≤ t + 20000) ++ [sl.time] }
  let sl := sl.onPort port (fun p => p.onModule m note)
  match err with
  | some k => sl.linkError env port m k
  | none => sl

/-- Wrong frame marks are counted while they follow each other (R410). -/
def Module.mark (f : Flit) (x : Module) : Module := { x with badMarks := if f.frameMark = frameMark then 0 else x.badMarks + 1 }

/-- A flit at a module that works. After a rejected flit the later ones are discarded until the replay arrives (R409): those whose SEQ can be
read and is not the one expected; one whose header cannot be trusted is rejected as any other (log entry 57). -/
def Slice.takeFlit (env : Capstan) (sl : Slice) (port m : Nat) (f : Flit) (p : Port) (x : Module) : Slice :=
  let err := flitError env.n p m f
  let sl := (sl.onPort port (fun p => p.onModule m (Module.mark f))).count 0x504 (portQual port m) none f.corrected
  let sl := if err.isNone then sl.takeAck env port m f else sl
  if err.isNone && f.mtype = 0 then sl
  else if err.isNone && f.seq = x.expect then sl.acceptFlit env port m f
  else if x.nak && (err.isNone || err = some kindMalformed) && f.seq != x.expect then sl
  else sl.rejectFlit env port m err

/-- Whether a module retrains (R410). -/
def Module.mustRetrain (x : Module) : Bool := x.st = .up && (16 ≤ x.rejects.length || 2 ≤ x.badMarks)

/-- A module of a slice. -/
def State.moduleAt (s : State) (i p m : Nat) : Option Module :=
  (s.slices[i]?).bind (fun sl => (sl.rope.ports[p]?).bind (fun x => x.modules[m]?))

/-- A module at both ends of its link. -/
def State.onLink (s : State) (i p m : Nat) (f : Module → Module) : State :=
  let one (s : State) (i p : Nat) : State := s.atSlice i (fun _ sl => sl.onPort p (fun x => (x.onModule m f).judge))
  let s := one s i p
  match s.cap.neighbour i p with
  | some t => one s t (facing p)
  | none => s

/-- Retraining begins, at both ends of the module (R410). -/
def State.beginRetrain (s : State) (i p m : Nat) : State :=
  if (s.moduleAt i p m).any Module.mustRetrain then
    let s := s.atSlice i (fun env sl => (sl.count 0x505 (portQual p m) none 1).linkError env p m kindRetrain)
    s.onLink i p m (fun x => { x with st := .retraining, rejects := [], badMarks := 0, nak := false })
  else s

/-- FLIT_RECEIVED (R408). -/
def execFlitReceived (slice port module : Nat) (flit : Flit) (s : State) : Out' :=
  match s.slices[slice]? with
  | none => .next s
  | some sl =>
    match sl.rope.ports[port]?, s.moduleAt slice port module with
    | some p, some x =>
      if !sl.routes s.cap || x.st != .up || p.st = .down then .next s
      else
        let s := s.atSlice slice (fun env sl => sl.takeFlit env port module flit p x)
        .next (deliverAll (s.beginRetrain slice port module))
    | _, _ => .next s

/-! ### The end of a retraining (R410) -/

/-- The module works again: its unacknowledged flits are sent again. -/
def State.retrained (s : State) (i p m : Nat) : State :=
  let again (s : State) (i p : Nat) : State :=
    s.atSlice i (fun env sl =>
      let kept := ((sl.rope.ports[p]?).bind (fun x => x.modules[m]?)).map (fun x => x.replay.length)
      let sl := sl.onPort p (fun x => x.onModule m Module.resend)
      ((sl.count 0x503 (portQual p m) none (kept.getD 0)).moveKept p).pump env)
  let s := again (s.onLink i p m (fun x => { x with st := .up })) i p
  match s.cap.neighbour i p with
  | some t => again s t (facing p)
  | none => s

/-- Messages that were begun on a module now DOWN go on, on both sides of it, on module `low` (R410). -/
def Slice.rekeySent (sl : Slice) (p m low : Nat) : Slice :=
  let via (e : RopeMsg × List Flit) : RopeMsg × List Flit :=
    if e.1.via = some m && sl.rope.routes.getD e.1.dest 0xF = p then ({ e.1 with via := some low }, e.2) else e
  let thr (x : Through) : Through :=
    let x := if x.outPort = p && x.outModule = m then { x with outModule := low } else x
    if x.inPort = p && x.inModule = m then { x with inModule := low } else x
  { sl with rope := { sl.rope with sendq := sl.rope.sendq.map via, through := sl.rope.through.map thr } }

/-- The module is DOWN: its flits move to another module; a link without a working module is lost. -/
def State.moduleLost (s : State) (i p m : Nat) : State :=
  let s := s.onLink i p m (fun x => { x with st := .down })
  let move (s : State) (i p : Nat) : State := s.atSlice i (fun env sl =>
    let rekey (x : Port) : Port := match x.lowest with
      | some t => { x with openMsg := x.openMsg.map (fun o => if o.1 = m then (t, o.2) else o)
                           cut := x.cut.map (fun o => if o.1 = m then (t, o.2) else o)
                           outOpen := x.outOpen.map (fun o => if o.1 = m then (t, o.2) else o)
                           buf := x.buf.map (fun a => if a.module = m then { a with module := t } else a) }
      | none => x
    let low := ((sl.rope.ports[p]?).bind Port.lowest).getD m
    (((sl.onPort p rekey).rekeySent p m low).moveKept p).pump env)
  let s := move (s.atSlice i (fun env sl => sl.linkError env p m kindModuleDown)) i p
  let s := match s.cap.neighbour i p with
    | some t => move s t (facing p)
    | none => s
  if ((s.slices[i]?).bind (fun sl => sl.rope.ports[p]?)).any (fun x => x.st = .down) then
    s.atSlice i (fun _ sl => sl.tell (.linkLost i p))
  else s

/-- RETRAIN_DONE (R410). -/
def execRetrainDone (slice port module : Nat) (ok : Bool) (s : State) : Out' :=
  match s.slices[slice]? with
  | none => .next s
  | some sl =>
    if sl.routes s.cap && (s.moduleAt slice port module).any (fun x => x.st = .retraining) then
      .next (deliverAll (if ok then s.retrained slice port module else s.moduleLost slice port module))
    else .next s

end Sys2Proof.Machine
end

