-- ==== Sys2Proof/Machine/Time.lean ====
section
/-!
DEFINITION. Engine time in operation: the slices' copies (R606), the timebase frames on SYNC_IN and HOLDOVER (R608, R610, R611).
-/

namespace Sys2Proof.Machine

/-! ### The copies of the slices (R606) -/

/-- What a copy is to gain, or to skip, against the Capstan's value: nothing where it differs by 1 ns or less (R606). -/
def timeGap (t copy : Nat) : Int :=
  let d : Int := t - copy
  if -2 ≤ d && d ≤ 2 then 0 else d

/-- A slice receives the Capstan's value (R606): a copy that differs by more than 1 ns is corrected from then on, never backwards. -/
def Slice.sync (t : Nat) (sl : Slice) : Slice := { sl with timeFix := timeGap t sl.time }

/-- ENGINE_TIME_SYNC (R606): each 1 us the Capstan sends its value. -/
def execEngineTimeSync (slice : Nat) (s : State) : Out' :=
  onSlice deliver slice s (fun env sl =>
    if env.acts && env.tb.on && !sl.stopped then sl.sync env.tb.time else sl)

/-! ### Timebase frames (R608, R610) -/

/-- e in 32 bits, saturating (R611). -/
def errorCode (e : Int) : BitVec 32 := BitVec.ofInt 32 (max (-2147483648) (min 2147483647 e))

/-- A change of STATE has its record (R610). -/
def Capstan.setTimeState (c : Capstan) (st : Nat) (e : BitVec 32) : Capstan :=
  if c.tb.state = st then c
  else { c with tb := { c.tb with state := st } }.note 0x0006 (toLe 1 st ++ toLe 1 c.tb.state ++ toLe 4 e.toNat)

/-- Engine time steps forward (R610); a silence is not lengthened by it (R502). -/
def Capstan.stepTime (c : Capstan) (ns : Nat) : Capstan :=
  { c with tb := { c.tb with time := c.tb.time + 2 * ns, slew := 0 }
           hl := { c.hl with beats := c.hl.beats.map (fun b => (b.1, b.2 + 2 * ns))
                             deaths := c.hl.deaths.map (fun (d : Death) => { d with since := d.since + 2 * ns }) } }

/-- A valid frame while engine time is aligned (R610). -/
def Capstan.alignTime (c : Capstan) (m sinceMark : Nat) : Capstan :=
  let e : Int := (c.now : Int) - sinceMark - m * 1000000
  let c := { c with tb := { c.tb with error := errorCode e } }
  if e < -50000 then (c.stepTime (-e).toNat).setTimeState 2 (errorCode e)
  else
    let c := { c with tb := { c.tb with slew := 2 * e } }
    c.setTimeState (if 50000 < e then 4 else 2) (errorCode e)

/-- A frame after a mark (R608 to R610). -/
def Capstan.timeFrame (c : Capstan) (bits : BitVec 128) (decodes : Bool) (sinceMark : Nat) : Capstan :=
  match frameMs bits decodes with
  | none => { c with tb := { c.tb with bad := satAdd 0xFFF c.tb.bad 1 } }
  | some m =>
    let c := { c with tb := { c.tb with frames := satAdd 0xFFFF c.tb.frames 1 } }
    let c := if 2 ≤ c.tb.state then c.alignTime m sinceMark else c
    { c with tb := { c.tb with lastFrame := some c.tb.time } }

/-- A frame in operation: where it steps engine time forward the copies step with it, so that they stay within 4 ns (R606, R610, log entry 56). -/
def State.takeFrame (s : State) (bits : BitVec 128) (decodes : Bool) (sinceMark : Nat) : State :=
  let c := s.cap.timeFrame bits decodes sinceMark
  let step := c.tb.time - s.cap.tb.time
  let s := { s with cap := c }
  if step = 0 then s else s.eachSlice (fun _ sl => if sl.stopped then sl else { sl with time := sl.time + step })

/-- TIMEBASE_FRAME (R610): in modes TIMEBASE and BOTH; before engine time runs it is a frame of the wait of step 8 (R608, R609). -/
def execTimebaseFrame (bits : BitVec 128) (decodes : Bool) (sinceMark : Nat) (s : State) : Out' :=
  if s.cap.acts && s.cap.tb.on && 2 ≤ s.cap.img.syncMode then .next (s.takeFrame bits decodes sinceMark)
  else if s.cap.awaitsTime && 2 ≤ s.cap.img.syncMode then .next (deliverAll (s.startTime (some (bits, decodes, sinceMark))))
  else .next s

/-- Whether 3 ms have passed without a valid frame. -/
def TimeBase.silent (t : TimeBase) : Bool := t.lastFrame.any (fun l => l + 6000000 ≤ t.time)

/-- TIMEBASE_HOLDOVER (R610): engine time runs free. -/
def execTimebaseHoldover (s : State) : Out' :=
  let t := s.cap.tb
  if s.cap.acts && (t.state = 2 || t.state = 4) && t.silent then
    .next (s.onCap (fun c => { c with tb := { c.tb with slew := 0 } }.setTimeState 3 0))
  else .next s

end Sys2Proof.Machine
end

