-- ==== Sys2Proof/Machine/Restart.lean ====
section
/-!
DEFINITION. The restart of the Capstan and its failure (R510 to R512, R570); records on their way from the slices (R535 to R538).
-/

namespace Sys2Proof.Machine

/-! ### Sessions end (R553) -/

/-- A management session ends with its record (R553); the challenge in progress stays. -/
def Capstan.endSession (c : Capstan) (reason : Nat) : Capstan :=
  match c.mgt.session with
  | none => c
  | some x =>
    { c with mgt := { c.mgt with session := none } }.note 0xA003 (toLe 1 x.key ++ toLe 4 x.number ++ toLe 1 reason)

/-! ### A lockstep mismatch (R510 to R512) -/

/-- The restart begins: the fault is captured, its interrupt message waits for the end (R490, R511). -/
def Capstan.beginRestart (c : Capstan) : Capstan :=
  { c with hl := { c.hl with restarting := some c.tb.time } }.captureFault 0x07 0 true 0xFF 0

/-- Whether a register holds a word of the Logline (R558 to R562). -/
def ofLogline (off : Nat) : Bool := 0x0400 ≤ off && off < 0x0458

/-- The restart fails (R512): the fault is captured, its message sent once and none after it, and no Capstan function goes on, a context
command in progress among them; the word that is lost
answers POISON (R570), and where it is one of the Logline the fault has no record. -/
def Capstan.fail (c : Capstan) (off : Nat) : Capstan :=
  let pending := bit c.irq.pend 2
  let log := c.log
  let c := c.captureFault 0x0C 0 true 0xFF 0
  let c := if ofLogline off then { c with log := log } else c
  let c := if pending && bit c.irq.mask 2 then c.message 2 else c
  let c := { c with irq := { c.irq with closed := true } }.endSession 0x04
  { c with hl := { c.hl with failed := true, lost := c.hl.lost ++ [off] }, cmd := none, mgt := { c.mgt with challenge := none } }

/-- LOCKSTEP_MISMATCH (R510): `lost` names the register whose word of protected state is uncorrectable in both halves, if one is. -/
def execLockstepMismatch (lost : Option Nat) (s : State) : Out' :=
  if s.cap.acts then .next (s.onCap (fun c => match lost with
    | some off => c.fail off
    | none => c.beginRestart)) else .next s

/-! ### The end of a restart (R510, R511, R537, R570) -/

/-- A slice at the end of a restart: its copy of engine time is aligned, and a DROPPED record follows its held ones if it dropped any. -/
def Slice.afterRestart (env : Capstan) (sl : Slice) : Slice :=
  let t := env.tb.time
  let sl := { sl with time := max sl.time t, timeFix := timeGap t (max sl.time t) }
  if sl.heldLoss = 0 then sl
  else
    let d : OutRec := { head := some (sl.rec' false 0x0004 (droppedData sl.heldLoss sl.heldFirst 1)), tail := none, irq := none, arith := none }
    { sl with outbox := sl.outbox ++ [d], heldLoss := 0, heldFirst := 0 }

/-- CAP_RESTART after a restart (R525), the heartbeat windows fresh (R511). -/
def Capstan.endRestart (c : Capstan) (since : Nat) : Capstan :=
  let recent := c.hl.recent.filter (fun t => c.now ≤ t + 1000000000)
  { c with hl := { c.hl with restarting := none, restartCount := satAdd 0xFFFF c.hl.restartCount 1, lastRestart := ns (c.tb.time - since)
                             recent := recent ++ [c.now], beats := c.hl.beats.map (fun b => (b.1, c.tb.time)) } }

/-- What waited for the Capstan: the notices of the slices, the messages due, the accesses to its window, the frame ticks, each in their
order. -/
def State.resume (s : State) : State :=
  let ns := s.cap.hl.waiting
  let as := s.cap.hl.accesses
  let s := s.onCap (fun c => { c with hl := { c.hl with waiting := [], accesses := [] } })
  let s := (ns.foldl State.notify s).onCap Capstan.refillPort
  let s := as.foldl State.access s
  let ts := s.cap.tb.heldTicks
  ts.foldl State.tickAll (s.onCap (fun c => { c with tb := { c.tb with heldTicks := [] } }))

/-- CAPSTAN_RESTART_DONE (R510). -/
def execCapstanRestartDone (s : State) : Out' :=
  if s.cap.su.power != .running then .next s
  else match s.cap.hl.restarting with
  | none => .next s
  | some since =>
    let s := s.onCap (fun c => c.endRestart since)
    let s := (s.eachSlice (fun env sl => sl.afterRestart env)).resume
    .next (deliverAll s.endIfDrained.admitAll).recheckPasses

/-! ### Records (R273, R535, R536) -/

/-- Whether an offer of an arithmetic event is the first of its context's pass (R273). -/
def Capstan.offered (c : Capstan) (a : Nat × Nat) : Bool := (c.ctx? a.1).any (fun x => decide (a.2 ∈ x.arithDone))

/-- A record reaches the Capstan: it is written, its offer noted, its interrupt event raised. -/
def Capstan.takeRecord (c : Capstan) (o : OutRec) : Capstan :=
  let late : Bool := o.arith.any c.offered
  let c := match o.arith with
    | some a => if late then c else c.onCtx a.1 (fun x => { x with arithDone := x.arithDone ++ [a.2] })
    | none => c
  let c := match o.head with
    | some r => if late then c else c.record r o.tail
    | none => c
  match o.irq with
  | some i => c.event i
  | none => c

/-- LOGLINE_RECORD_ARRIVAL (R535): the slice's oldest record reaches the Capstan. -/
def execLoglineRecordArrival (slice : Nat) (s : State) : Out' :=
  match s.slices[slice]? with
  | none => .next s
  | some sl =>
    match sl.outbox with
    | [] => .next s
    | o :: rest =>
      if s.cap.acts then .next ((s.atSlice slice (fun _ sl => { sl with outbox := rest })).onCap (fun c => c.takeRecord o)) else .next s

/-- RATE_LIMITER_TOKEN (R536): one token for each microsecond of engine time, at most 256. -/
def execRateLimiterToken (slice : Nat) (s : State) : Out' :=
  onSlice deliver slice s (fun env sl =>
    if env.su.power = .running && env.tb.on && !sl.stopped && sl.tokenAt + 2000 ≤ sl.time then
      { sl with tokens := satAdd 256 sl.tokens 1, tokenAt := sl.tokenAt + 2000 }
    else sl)

end Sys2Proof.Machine
end

