-- ==== Sys2Proof/Machine/Mgmt.lean ====
section
/-!
DEFINITION. The management port (R544 to R556): Rentil frames, sessions, challenges and lockout, the commands, the CCCs of I3C.
-/

namespace Sys2Proof.Machine

def Capstan.onMgt (c : Capstan) (f : Mgmt → Mgmt) : Capstan := { c with mgt := f c.mgt }

/-! ### Frames (R547 to R549) -/

/-- STATUS codes (R549). -/
def stOk : Nat := 0x00
def stBadFrame : Nat := 0x01
def stUnknownCmd : Nat := 0x02
def stBadBody : Nat := 0x03
def stNoSession : Nat := 0x04
def stBadMac : Nat := 0x05
def stNoRight : Nat := 0x06
def stUnconfigured : Nat := 0x07
def stNoKey : Nat := 0x08
def stOpenFailed : Nat := 0x09
def stLockedOut : Nat := 0x0A
def stSessionOpen : Nat := 0x0B
def stBadRegister : Nat := 0x0C

/-- The bytes of a frame from 0 to the end of its body (R547, R548): `first` is CMD or STATUS. -/
def frameBytes (first tag cnt : Nat) (body : List Byte) : List Byte :=
  toLe 1 first ++ toLe 1 tag ++ toLe 2 body.length ++ toLe 4 cnt ++ body

/-- A frame with its CRC. -/
def withCrc (bs : List Byte) : List Byte := bs ++ toLe 4 (crc32c bs).toNat

/-- The first 16 bytes of the MAC of a frame under a session key (R552). -/
def frameMac (ks bs : List Byte) : List Byte := (hmac ks bs).take 16

/-- A response without MAC; a refusal has no body (R548). -/
def plainResp (status tag cnt : Nat) (body : List Byte) : List Byte :=
  withCrc (frameBytes status tag cnt (if status = stOk then body else []))

/-- A response within a session (R548, R552). -/
def sessionResp (ks : List Byte) (status tag cnt : Nat) (body : List Byte) : List Byte :=
  if status = stOk then
    let bs := frameBytes status tag cnt body
    withCrc (bs ++ frameMac ks bs)
  else plainResp status tag cnt []

/-- The response stands ready, in place of one not read yet (R546). -/
def Capstan.answer (c : Capstan) (bs : List Byte) : Capstan := c.onMgt (fun m => { m with resp := some bs })

/-! ### Whether the port answers (R546) -/

/-- Whether the port takes a private transfer: addressed, with power, no restart under way. -/
def Capstan.reached (c : Capstan) : Bool := c.su.power = .running && c.hl.restarting.isNone && c.mgt.addr.isSome

/-- Whether every command but GET_STATUS is refused with UNCONFIGURED. -/
def Capstan.unconfigured (c : Capstan) : Bool :=
  c.su.state = .notReady || c.su.state = .failed || c.hl.failed || c.img.keys.isEmpty

/-! ### Expiries (R551, R553, R554) -/

/-- Half-nanoseconds of a second. -/
def oneSecond : Nat := 2000000000

/-- A challenge expires 1 s after it is issued (R551). -/
def Capstan.expireChallenge (c : Capstan) : Capstan :=
  if c.mgt.challenge.any (fun x => x.since + oneSecond ≤ c.tb.time) then c.onMgt (fun m => { m with challenge := none }) else c

/-- The lockout ends (R554). -/
def Capstan.expireLockout (c : Capstan) : Capstan :=
  if c.mgt.lockout.any (fun t => t ≤ c.tb.time) then c.onMgt (fun m => { m with lockout := none }) else c

/-- A session without an accepted request for 10 s ends (R553). -/
def Capstan.expireSession (c : Capstan) : Capstan :=
  if c.mgt.session.any (fun x => x.since + 10 * oneSecond ≤ c.tb.time) then c.endSession 0x02 else c

/-- What has expired by now is over. -/
def Capstan.expire (c : Capstan) : Capstan := c.expireChallenge.expireLockout.expireSession

/-- SESSION_IDLE_TIMEOUT (R553). -/
def execSessionIdleTimeout (s : State) : Out' := .next (if s.cap.acts then s.onCap Capstan.expireSession else s)

/-- CHALLENGE_EXPIRY (R551). -/
def execChallengeExpiry (s : State) : Out' := .next (if s.cap.acts then s.onCap Capstan.expireChallenge else s)

/-- LOCKOUT_EXPIRY (R554). -/
def execLockoutExpiry (s : State) : Out' := .next (if s.cap.acts then s.onCap Capstan.expireLockout else s)

/-! ### Commands without a session (R550, R551, R554) -/

/-- A command without a session: what has expired is over, the port answers as it is configured (R546). -/
def State.plainCmd (s : State) (tag cnt : Nat) (f : State → Nat × List Byte × State) : State :=
  if !s.cap.reached then s
  else
    let s := s.onCap Capstan.expire
    if s.cap.unconfigured then s.onCap (fun c => c.answer (plainResp stUnconfigured tag cnt []))
    else
      let r := f s
      r.2.2.onCap (fun c => c.answer (plainResp r.1 tag cnt r.2.1))

/-- Engine time as CAP_TIME shows it (R575). -/
def Capstan.timeReg (c : Capstan) : Reg := reg (if c.tb.on then c.now else 0)

/-- GET_STATUS (R550): answered also where every other command is refused. -/
def execGetStatus (tag cnt : Nat) (body : List Byte) (s : State) : Out' :=
  if !s.cap.reached then .next s
  else
    let s := s.onCap Capstan.expire
    let c := s.cap
    let regs := [c.idReg, c.startReg, c.timeReg, c.log.headReg, c.mgtReg]
    let st := if body.isEmpty then stOk else stBadBody
    .next (s.onCap (fun c => c.answer (plainResp st tag cnt (regs.flatMap (fun r => toLe 8 r.toNat)))))

/-- A key of the KEYS section (R447). -/
def Capstan.key? (c : Capstan) (id : Nat) : Option (Nat × Nat × List Byte) := c.img.keys.find? (fun k => k.1 = id)

/-- A challenge is issued (R551): 24 bytes of the random source, and the count of challenges. -/
def State.issueChallenge (s : State) (key : Nat) : Nat × List Byte × State :=
  let n := s.cap.mgt.challenges + 1
  let nt := toLe 24 (Config.freeBits s.fresh).toNat ++ toLe 8 n
  let ch : Challenge := { key := key, nt := nt, since := s.cap.tb.time }
  (stOk, nt, { s with fresh := s.fresh + 1, cap := s.cap.onMgt (fun m => { m with challenge := some ch, challenges := n }) })

/-- OPEN_CHALLENGE (R551, R554). -/
def execOpenChallenge (tag cnt : Nat) (body : List Byte) (s : State) : Out' :=
  .next (s.plainCmd tag cnt (fun s =>
    let key := byteAt body 0
    if body.length != 4 || !zeroBytes body 1 3 then (stBadBody, [], s)
    else if s.cap.mgt.lockout.isSome then (stLockedOut, [], s)
    else if (s.cap.key? key).isNone then (stNoKey, [], s)
    else if s.cap.mgt.session.isSome then (stSessionOpen, [], s)
    else s.issueChallenge key))

def rnt1 : List Byte := [0x52, 0x4E, 0x54, 0x31]
def rnt2 : List Byte := [0x52, 0x4E, 0x54, 0x32]
def rnts : List Byte := [0x52, 0x4E, 0x54, 0x53]

/-- A refused OPEN_RESPONSE is counted, whatever the STATUS (R564). -/
def Capstan.countRefusal (c : Capstan) : Capstan := c.onMgt (fun m => { m with fails := satAdd 0xFFFF m.fails 1 })

/-- A refused OPEN_RESPONSE (R554): its record, the count of refusals, and after four with OPEN_FAILED in a row the lockout. -/
def Capstan.refuseOpen (c : Capstan) (key status : Nat) : Capstan :=
  let c := (c.note 0xA002 (toLe 1 key ++ toLe 1 status)).countRefusal
  if status != stOpenFailed then c
  else if 4 ≤ c.mgt.failRun + 1 then c.onMgt (fun m => { m with failRun := 0, lockout := some (c.tb.time + oneSecond) })
  else c.onMgt (fun m => { m with failRun := m.failRun + 1 })

/-- A session is opened (R551 step 3). -/
def Capstan.openSession (c : Capstan) (key : Nat) (k nt nh : List Byte) : Capstan × List Byte :=
  let n := c.mgt.sessions + 1
  let x : Session := { key := key, number := n, ks := hmac k (rnts ++ nt ++ nh), last := 0, lastReq := [], lastResp := [], since := c.tb.time }
  ((c.onMgt (fun m => { m with session := some x, sessions := n, failRun := 0 })).note 0xA001 (toLe 1 key ++ toLe 4 n),
   toLe 4 n ++ hmac k (rnt2 ++ toLe 1 key ++ nh ++ nt))

/-- The answer to an OPEN_RESPONSE, which consumes the challenge (R551, R554). -/
def State.openResponse (s : State) (key : Nat) (nh p : List Byte) : Nat × List Byte × State :=
  let ch := s.cap.mgt.challenge
  let s := s.onCap (fun c => c.onMgt (fun m => { m with challenge := none }))
  let refuse (st : Nat) : Nat × List Byte × State := (st, [], s.onCap (fun c => c.refuseOpen key st))
  if s.cap.mgt.lockout.isSome then refuse stLockedOut
  else match s.cap.key? key, ch with
    | none, _ => refuse stNoKey
    | some _, none => refuse stOpenFailed
    | some (_, _, k), some x =>
      if x.key != key || p != hmac k (rnt1 ++ toLe 1 key ++ x.nt ++ nh) then refuse stOpenFailed
      else
        let r := s.cap.openSession key k x.nt nh
        (stOk, r.2, s.onCap (fun _ => r.1))

/-- OPEN_RESPONSE (R551, R554); one refused with UNCONFIGURED or BAD_BODY is counted and has no record (R554, R564). -/
def execOpenResponse (tag cnt : Nat) (body : List Byte) (s : State) : Out' :=
  let s := if s.cap.reached && s.cap.unconfigured then s.onCap Capstan.countRefusal else s
  .next (s.plainCmd tag cnt (fun s =>
    if body.length != 68 || !zeroBytes body 1 3 then
      (stBadBody, [], s.onCap (fun c => c.countRefusal.onMgt (fun m => { m with challenge := none })))
    else s.openResponse (byteAt body 0) ((body.drop 4).take 32) ((body.drop 36).take 32)))

/-! ### Commands within a session (R550, R552) -/

/-- Rights as bits of R447: none beyond a session for CLOSE. -/
def rightNone : Nat := 0
def rightRead : Nat := 1
def rightOperate : Nat := 2
def rightClear : Nat := 4

/-- Whether a session's key has a right. -/
def Capstan.hasRight (c : Capstan) (x : Session) (right : Nat) : Bool :=
  right = rightNone || ((c.key? x.key).map (·.2.1)).getD 0 &&& right != 0

/-- The last accepted request of the open session with its response. -/
def Capstan.keepResp (c : Capstan) (req resp : List Byte) : Capstan :=
  (c.onMgt (fun m => { m with session := m.session.map (fun (y : Session) => { y with lastReq := req, lastResp := resp }) })).answer resp

/-- An accepted request is carried out, unless the key lacks the right: its status, its body, the state after it. -/
def State.accept (s : State) (x : Session) (cmd tag cnt right : Nat) (body mac : List Byte) (f : State → Session → Nat × List Byte × State) :
    State :=
  let s := s.onCap (fun c => c.onMgt (fun m => { m with session := some { x with last := cnt, since := c.tb.time } }))
  let r := if s.cap.hasRight x right then f s x else (stNoRight, [], s)
  r.2.2.onCap (fun c => c.keepResp (frameBytes cmd tag cnt body ++ mac) (sessionResp x.ks r.1 tag cnt r.2.1))

/-- A command within a session (R552): the last request again has the stored response; one whose CNT or MAC is wrong is refused. -/
def State.sessionCmd (s : State) (cmd tag cnt right : Nat) (body mac : List Byte) (f : State → Session → Nat × List Byte × State) : State :=
  if !s.cap.reached then s
  else
    let s := s.onCap Capstan.expire
    let refuse (st : Nat) : State := s.onCap (fun c => c.answer (plainResp st tag cnt []))
    if s.cap.unconfigured then refuse stUnconfigured
    else match s.cap.mgt.session with
      | none => refuse stNoSession
      | some x =>
        let bs := frameBytes cmd tag cnt body
        if cnt = x.last && !x.lastReq.isEmpty && bs ++ mac = x.lastReq then s.onCap (fun c => c.answer x.lastResp)
        else if cnt != (x.last + 1) % 2 ^ 32 || mac != frameMac x.ks bs then refuse stBadMac
        else s.accept x cmd tag cnt right body mac f

/-- CLOSE (R553). -/
def execClose (tag cnt : Nat) (body mac : List Byte) (s : State) : Out' :=
  .next (s.sessionCmd 0x04 tag cnt rightNone body mac (fun s _ =>
    if body.isEmpty then (stOk, [], s.onCap (fun c => c.endSession 0x01)) else (stBadBody, [], s)))

/-- LOG_HEAD (R550). -/
def execLogHead (tag cnt : Nat) (body mac : List Byte) (s : State) : Out' :=
  .next (s.sessionCmd 0x10 tag cnt rightRead body mac (fun s _ =>
    let l := s.cap.log
    if body.isEmpty then (stOk, toLe 8 l.headReg.toNat ++ toLe 8 l.lastReg.toNat ++ toLe 8 l.dropReg.toNat, s) else (stBadBody, [], s)))

/-- Records from `start` on, at most `n`, up to the first that is not FOUND, with REASON (R550). -/
def Logline.readFrom (l : Logline) (area : Bool) : (n : Nat) → Nat → Nat × List (List Byte)
  | 0, _ => (0, [])
  | n + 1, start =>
    match l.select area start with
    | (1, bs) => let r := l.readFrom area n ((start + 1) % 2 ^ 32); (r.1, bs :: r.2)
    | (2, _) => (1, [])
    | _ => (2, [])

/-- LOG_READ (R550); a record of `lost` whose words do not decode is GONE from then on (R530, R541). -/
def execLogRead (tag cnt : Nat) (body mac : List Byte) (lost : List Nat) (s : State) : Out' :=
  .next (s.sessionCmd 0x11 tag cnt rightRead body mac (fun s _ =>
    let n := byteAt body 1
    if body.length != 8 || 1 < byteAt body 0 || n < 1 || 7 < n || !zeroBytes body 2 2 then (stBadBody, [], s)
    else
      let area : Bool := byteAt body 0 = 1
      let s := s.onCap (fun c => { c with log := lost.foldl (fun l i => l.lose area i) c.log })
      let r := s.cap.log.readFrom area n (le body 4 4)
      (stOk, toLe 1 r.2.length ++ toLe 1 r.1 ++ [0, 0] ++ r.2.flatten, s)))

/-- REG_READ (R555, R569): as a driver's read. -/
def execRegRead (tag cnt : Nat) (body mac : List Byte) (s : State) : Out' :=
  .next (s.sessionCmd 0x12 tag cnt rightRead body mac (fun s _ =>
    if body.length != 8 || !zeroBytes body 4 4 then (stBadBody, [], s)
    else match s.decodeAccess (le body 0 4) 8 with
      | .error code => (stBadRegister, [], s.captureError false true code (le body 0 4))
      | .ok t => let r := s.readTarget t; (stOk, toLe 8 r.1.toNat, r.2)))

/-- Registers of the Capstan window that REG_WRITE may write: RW, W1C or WO, but for the driver's own (R555). -/
def mgtWritesCap (off : Nat) : Bool := off ∈ [0x0010, 0x0100, 0x0108, 0x0230, 0x0328]

/-- Registers of a slice window that REG_WRITE may write. -/
def mgtWritesSlice (off : Nat) : Bool :=
  off ∈ [0x2008, 0x2010, 0x3010, 0x3818, 0x3820, 0x4018, 0x4420, 0x4800, 0x4808, 0x5000, 0x5040] || (indexAt 0x5100 8 16 off).isSome

def Target.mgtWrites : Target → Bool
  | .cap off => mgtWritesCap off
  | .slice _ off => mgtWritesSlice off

/-- REG_WRITE (R555, R569): as a driver's write of a register that it may write. -/
def execRegWrite (tag cnt : Nat) (body mac : List Byte) (s : State) : Out' :=
  .next (s.sessionCmd 0x20 tag cnt rightOperate body mac (fun s _ =>
    if body.length != 16 || !zeroBytes body 4 4 then (stBadBody, [], s)
    else match s.decodeAccess (le body 0 4) 8 with
      | .error code => (stBadRegister, [], s.captureError true true code (le body 0 4))
      | .ok t => if t.mgtWrites then (stOk, [], deliverAll (s.writeTarget t (reg (le body 8 8)))) else (stBadRegister, [], s)))

/-- LOG_CLEAR empties the last runnings, or both areas, and writes its record (R556). -/
def Capstan.clearLog (c : Capstan) (key scope : Nat) : Capstan × Nat :=
  let l := c.log
  let first := if l.last.isEmpty then 0xFFFFFFFF else l.oldest.toNat
  let fr := if scope = 2 then l.first.length else 0
  let seq := l.next.toNat
  let c := { c with log := { l with last := [], first := if scope = 2 then [] else l.first } }
  let c := c.note 0xA004 (toLe 1 key ++ toLe 1 scope ++ toLe 4 first ++ toLe 2 l.last.length ++ toLe 2 fr)
  ({ c with log := { c.log with clears := satAdd 255 c.log.clears 1 } }, seq)

/-- LOG_CLEAR (R556). -/
def execLogClear (tag cnt : Nat) (body mac : List Byte) (s : State) : Out' :=
  .next (s.sessionCmd 0x30 tag cnt rightClear body mac (fun s x =>
    let scope := byteAt body 0
    if body.length != 4 || !(scope = 1 || scope = 2) || !zeroBytes body 1 3 then (stBadBody, [], s)
    else let r := s.cap.clearLog x.key scope; (stOk, toLe 4 r.2, s.onCap (fun _ => r.1))))

/-! ### Frames that are refused at once, responses (R546, R549) -/

/-- The commands of R550. -/
def knownCmd (c : Nat) : Bool := c ∈ [0x01, 0x02, 0x03, 0x04, 0x10, 0x11, 0x12, 0x20, 0x30]

/-- Whether a command needs a session, and so a MAC (R547, R550). -/
def needsMac (c : Nat) : Bool := c ∈ [0x04, 0x10, 0x11, 0x12, 0x20, 0x30]

/-- Whether a frame is bad (R549): too long, its CRC wrong, or its LEN inconsistent with its length. -/
def badFrame (f : List Byte) : Bool :=
  let n := f.length
  let size := 12 + le f 2 2
  256 < n || n < 12 || le f (n - 4) 4 != (crc32c (f.take (n - 4))).toNat ||
    (if knownCmd (byteAt f 0) then n != size + (if needsMac (byteAt f 0) then 16 else 0) else n != size && n != size + 16)

/-- A sound frame's command, by its CMD byte (R547, R550). -/
def execCmd (frame : List Byte) (s : State) : Out' :=
  let tag := byteAt frame 1
  let cnt := le frame 4 4
  let body := (frame.drop 8).take (le frame 2 2)
  let mac := (frame.drop (8 + le frame 2 2)).take 16
  match byteAt frame 0 with
  | 0x01 => execGetStatus tag cnt body s
  | 0x02 => execOpenChallenge tag cnt body s
  | 0x03 => execOpenResponse tag cnt body s
  | 0x04 => execClose tag cnt body mac s
  | 0x10 => execLogHead tag cnt body mac s
  | 0x11 => execLogRead tag cnt body mac [] s
  | 0x12 => execRegRead tag cnt body mac s
  | 0x20 => execRegWrite tag cnt body mac s
  | 0x30 => execLogClear tag cnt body mac s
  | _ => .next s

/-- BAD_FRAME (R549): a frame that is bad, or whose CMD is reserved; one that is neither is the command of its CMD byte (R550). -/
def execBadFrame (frame : List Byte) (s : State) : Out' :=
  let refuse (st : Nat) : State := s.onCap (fun c => c.answer (plainResp st (byteAt frame 1) (le frame 4 4) []))
  if !s.cap.reached then .next s
  else if badFrame frame then .next (refuse stBadFrame)
  else if knownCmd (byteAt frame 0) then execCmd frame s
  else .next (refuse (if s.cap.unconfigured then stUnconfigured else stUnknownCmd))

/-- What the port gives on the bus. -/
def Capstan.give (c : Capstan) (bs : Option (List Byte)) : Capstan := c.onMgt (fun m => { m with out := bs })

/-- RESPONSE_READ (R546, R547): the response that is ready, or no acknowledgement. -/
def execResponseRead (s : State) : Out' :=
  if s.cap.reached then .next (s.onCap (fun c => (c.give c.mgt.resp).onMgt (fun m => { m with resp := none })))
  else .next (s.onCap (fun c => c.give none))

/-! ### CCCs (R544, R545, R553) -/

/-- The provisional ID (R545), highest byte first. -/
def Capstan.pid (c : Capstan) : List Byte :=
  toBe 6 (place 0x2B4D 15 33 + place 0x4E52 16 16 + place c.img.package 12 0)

/-- ENTDAA (R544): the port takes part while it has no dynamic address, and gives its ID, BCR and DCR. -/
def execEntdaa (addr : BitVec 7) (s : State) : Out' :=
  if s.cap.su.power = .running && s.cap.mgt.addr.isNone then
    .next (s.onCap (fun c => (c.give (some (c.pid ++ [0, 0]))).onMgt (fun m => { m with addr := some addr.toNat })))
  else .next s

/-- RSTDAA (R544, R553): the address is gone, and with it any session. -/
def execRstdaa (s : State) : Out' :=
  if s.cap.su.power = .running then .next (s.onCap (fun c => (c.endSession 0x03).onMgt (fun m => { m with addr := none }))) else .next s

/-- A CCC that asks an addressed target for bytes. -/
def State.ccc (s : State) (bs : List Byte) : State :=
  s.onCap (fun c => c.give (if c.su.power = .running && c.mgt.addr.isSome then some bs else none))

/-- GETPID (R545). -/
def execGetpid (s : State) : Out' := .next (s.ccc s.cap.pid)

/-- GETBCR (R544): 0x00. -/
def execGetbcr (s : State) : Out' := .next (s.ccc [0])

/-- GETDCR (R544): 0x00. -/
def execGetdcr (s : State) : Out' := .next (s.ccc [0])

/-- GETSTATUS (R544): two bytes whose bits the spec does not give, a free value. -/
def execGetstatusCcc (s : State) : Out' :=
  .next { s.ccc (toBe 2 ((Config.freeBits s.fresh).toNat % 65536)) with fresh := s.fresh + 1 }

/-- GETMWL (R544): 256. -/
def execGetmwl (s : State) : Out' := .next (s.ccc (toBe 2 256))

/-- GETMRL (R544): 256. -/
def execGetmrl (s : State) : Out' := .next (s.ccc (toBe 2 256))

/-- ENEC (R544): accepted, and changes nothing. -/
def execEnec (_events : Nat) (s : State) : Out' := .next s

/-- DISEC (R544): accepted, and changes nothing. -/
def execDisec (_events : Nat) (s : State) : Out' := .next s

/-- UNSUPPORTED_CCC (R544): not supported, without effect. -/
def execUnsupportedCcc (_code : Nat) (s : State) : Out' := .next s

end Sys2Proof.Machine
end

