-- ==== Sys2Proof/Machine/Dispatch.lean ====
section
/-!
DEFINITION. One arm per command: a direct call of its meaning.
-/

namespace Sys2Proof.Machine

def exec (i : Instr) (s : State) : Host.Outcome State Fault Refusal :=
  match i with
  | .nsub die core off => Sys2Proof.Machine.execNsub die core off s
  | .nsubG die core off mask => Sys2Proof.Machine.execNsubG die core off mask s
  | .submissionRePresented die core off isG mask batchId => Sys2Proof.Machine.execSubmissionRePresented die core off isG mask batchId s
  | .descriptorReadDone slice idx desc => Sys2Proof.Machine.execDescriptorReadDone slice idx desc s
  | .activationGranted reads => Sys2Proof.Machine.execActivationGranted reads s
  | .activationEnd ctx => Sys2Proof.Machine.execActivationEnd ctx s
  | .indexReadDone slice idx entries detect => Sys2Proof.Machine.execIndexReadDone slice idx entries detect s
  | .caskBlockGiven slice block => Sys2Proof.Machine.execCaskBlockGiven slice block s
  | .reservationsGranted slice idx => Sys2Proof.Machine.execReservationsGranted slice idx s
  | .recordsReadDone slice idx recs detect => Sys2Proof.Machine.execRecordsReadDone slice idx recs detect s
  | .ledgerAcknowledged slice idx => Sys2Proof.Machine.execLedgerAcknowledged slice idx s
  | .binFlushAge slice bin => Sys2Proof.Machine.execBinFlushAge slice bin s
  | .overflowBinMove slice lay bank => Sys2Proof.Machine.execOverflowBinMove slice lay bank s
  | .gatherAge slice gather => Sys2Proof.Machine.execGatherAge slice gather s
  | .binRelease slice lay reads => Sys2Proof.Machine.execBinRelease slice lay s reads
  | .boxNodeVisit slice lay walker reads => Sys2Proof.Machine.execBoxNodeVisit slice lay walker s reads
  | .nodeCacheFill slice lay reg reads => Sys2Proof.Machine.execNodeCacheFill slice lay reg s reads
  | .primitiveTest slice lay walker reads => Sys2Proof.Machine.execPrimitiveTest slice lay walker s reads
  | .tileReservationComplete slice lay job tile => Sys2Proof.Machine.execTileReservationComplete slice lay job tile s
  | .tileStep slice lay job tile reads => Sys2Proof.Machine.execTileStep slice lay job tile reads s
  | .tileComplete slice lay job tile reads => Sys2Proof.Machine.execTileComplete slice lay job tile reads s
  | .gatherRun slice lay reads => Sys2Proof.Machine.execGatherRun slice lay s reads
  | .pointerQueueSend slice port read => Sys2Proof.Machine.execPointerQueueSend slice port s read
  | .migrate slice idx read => Sys2Proof.Machine.execMigrate slice idx s read
  | .migratePtr slice idx read => Sys2Proof.Machine.execMigratePtr slice idx s read
  | .result slice idx reads => Sys2Proof.Machine.execResult slice idx s reads
  | .resultWriteAck slice id reads => Sys2Proof.Machine.execResultWriteAck slice id s reads
  | .bankUnavailable slice id => Sys2Proof.Machine.execBankUnavailable slice id s
  | .bankRetryTimer slice id refused => Sys2Proof.Machine.execBankRetryTimer slice id refused s
  | .journalWriteSettled slice => Sys2Proof.Machine.execJournalWriteSettled slice s
  | .maintDesc slice idx => Sys2Proof.Machine.execMaintDesc slice idx s
  | .maintConditionsMet slice => Sys2Proof.Machine.execMaintConditionsMet slice s
  | .maintAck slice idx => Sys2Proof.Machine.execMaintAck slice idx s
  | .fillSectorArrival slice reg sector data poison port reads => Sys2Proof.Machine.execFillSectorArrival slice reg sector data poison s port reads
  | .evictionWriteAck slice idx read => Sys2Proof.Machine.execEvictionWriteAck slice idx s read
  | .gate slice way => Sys2Proof.Machine.execGate slice way s
  | .ungate slice way => Sys2Proof.Machine.execUngate slice way s
  | .wayCleanSweep slice way => Sys2Proof.Machine.execWayCleanSweep slice way s
  | .wayGated slice way => Sys2Proof.Machine.execWayGated slice way s
  | .wayAwake slice way => Sys2Proof.Machine.execWayAwake slice way s
  | .streamBlockIssue slice stream reads mesh => Sys2Proof.Machine.execStreamBlockIssue slice stream s reads mesh
  | .streamBurstFetch slice stream => Sys2Proof.Machine.execStreamBurstFetch slice stream s
  | .streamTransferComplete slice stream block => Sys2Proof.Machine.execStreamTransferComplete slice stream block s
  | .creditReturn slice stream block reads => Sys2Proof.Machine.execCreditReturn slice stream block s reads
  | .translationResponse slice access answer => Sys2Proof.Machine.execTranslationResponse slice access answer s
  | .pageResponse asid page ok => Sys2Proof.Machine.execPageResponse asid page ok s
  | .pageTimeout asid page => Sys2Proof.Machine.execPageTimeout asid page s
  | .hitchRefetchDone slice addr outcome => Sys2Proof.Machine.execHitchRefetchDone slice addr outcome s
  | .replayRelease slice batch reads => Sys2Proof.Machine.execReplayRelease slice batch reads s
  | .scrub slice row outcome => Sys2Proof.Machine.execScrub slice row outcome s
  | .rotationStep slice => Sys2Proof.Machine.execRotationStep slice s
  | .rotationTestDone slice lay pass => Sys2Proof.Machine.execRotationTestDone slice lay pass s
  | .frameTick => Sys2Proof.Machine.execFrameTick s
  | .slicePassEmpty slice ctx => Sys2Proof.Machine.execSlicePassEmpty slice ctx s
  | .passStart ctx reads maps => Sys2Proof.Machine.execPassStart ctx reads maps s
  | .deadlineMissed ctx => Sys2Proof.Machine.execDeadlineMissed ctx s
  | .validate ctx => Sys2Proof.Machine.execValidate ctx s
  | .invalidate ctx => Sys2Proof.Machine.execInvalidate ctx s
  | .stage ctx withBoundary => Sys2Proof.Machine.execStage ctx withBoundary s
  | .boundary ctx => Sys2Proof.Machine.execBoundary ctx s
  | .clearFault ctx => Sys2Proof.Machine.execClearFault ctx s
  | .powerStart => Sys2Proof.Machine.execPowerStart s
  | .nvmGrant => Sys2Proof.Machine.execNvmGrant s
  | .discoveryDone sfdp => Sys2Proof.Machine.execDiscoveryDone sfdp s
  | .imageHeaderArrived bytes => Sys2Proof.Machine.execImageHeaderArrived bytes s
  | .hintsArrived bytes => Sys2Proof.Machine.execHintsArrived bytes s
  | .imageReadDone bytes => Sys2Proof.Machine.execImageReadDone bytes s
  | .selftestDone found => Sys2Proof.Machine.execSelftestDone found s
  | .ropeTrainingDone up => Sys2Proof.Machine.execRopeTrainingDone up s
  | .engineTimeStart frame => Sys2Proof.Machine.execEngineTimeStart frame s
  | .engineTimeSync slice => Sys2Proof.Machine.execEngineTimeSync slice s
  | .timebaseFrame bits decodes sinceMark => Sys2Proof.Machine.execTimebaseFrame bits decodes sinceMark s
  | .timebaseHoldover => Sys2Proof.Machine.execTimebaseHoldover s
  | .heartbeat slice => Sys2Proof.Machine.execHeartbeat slice s
  | .heartbeatCheck => Sys2Proof.Machine.execHeartbeatCheck s
  | .routerProbeAnswer slice clean => Sys2Proof.Machine.execRouterProbeAnswer slice clean s
  | .fencesConfirmed die mesh mem => Sys2Proof.Machine.execFencesConfirmed die s mesh mem
  | .journalReadDone die entries => Sys2Proof.Machine.execJournalReadDone die entries s
  | .epochChange slice => Sys2Proof.Machine.execEpochChange slice s
  | .epochDrainReport slice => Sys2Proof.Machine.execEpochDrainReport slice s
  | .holdCleared slice => Sys2Proof.Machine.execHoldCleared slice s
  | .flitReceived slice port module flit => Sys2Proof.Machine.execFlitReceived slice port module flit s
  | .credit slice port mig ret mnt epoch => Sys2Proof.Machine.execCredit slice port mig ret mnt epoch s
  | .creditReturnTimer slice port => Sys2Proof.Machine.execCreditReturnTimer slice port s
  | .retrainDone slice port module ok => Sys2Proof.Machine.execRetrainDone slice port module ok s
  | .lockstepMismatch lost => Sys2Proof.Machine.execLockstepMismatch lost s
  | .capstanRestartDone => Sys2Proof.Machine.execCapstanRestartDone s
  | .loglineRecordArrival slice => Sys2Proof.Machine.execLoglineRecordArrival slice s
  | .rateLimiterToken slice => Sys2Proof.Machine.execRateLimiterToken slice s
  | .logRsel value decodes => Sys2Proof.Machine.execLogRsel value decodes s
  | .logMarkWrite thresh value => Sys2Proof.Machine.execLogMarkWrite thresh value s
  | .irqEnableWrite value => Sys2Proof.Machine.execIrqEnableWrite value s
  | .cntSelWrite slice k value => Sys2Proof.Machine.execCntSelWrite slice k value s
  | .cntCtlWrite slice value => Sys2Proof.Machine.execCntCtlWrite slice value s
  | .captureRearm slice => Sys2Proof.Machine.execCaptureRearm slice s
  | .qsDiagSel slice value => Sys2Proof.Machine.execQsDiagSel slice value s
  | .capRepairSel value => Sys2Proof.Machine.execCapRepairSel value s
  | .readClear off => Sys2Proof.Machine.execReadClear off s
  | .registerWrite off size value => Sys2Proof.Machine.execRegisterWrite off size value s
  | .pwrReqOn slice => Sys2Proof.Machine.execPwrReqOn slice s
  | .pwrReqTrim slice lay => Sys2Proof.Machine.execPwrReqTrim slice lay s
  | .pwrReqNap slice => Sys2Proof.Machine.execPwrReqNap slice s
  | .trimDrained slice => Sys2Proof.Machine.execTrimDrained slice s
  | .layPoweredOn slice => Sys2Proof.Machine.execLayPoweredOn slice s
  | .napIdleTimer slice => Sys2Proof.Machine.execNapIdleTimer slice s
  | .napWake slice => Sys2Proof.Machine.execNapWake slice s
  | .stretchWarnRise slice droop => Sys2Proof.Machine.execStretchWarnRise slice droop s
  | .stretchWarnFall slice droop => Sys2Proof.Machine.execStretchWarnFall slice droop s
  | .stretchRestore slice => Sys2Proof.Machine.execStretchRestore slice s
  | .slicePowerLoss slice trip => Sys2Proof.Machine.execSlicePowerLoss slice trip s
  | .powerLoss => Sys2Proof.Machine.execPowerLoss s
  | .engineReset svcRail => Sys2Proof.Machine.execEngineReset svcRail s
  | .testReset wrapper => Sys2Proof.Machine.execTestReset wrapper s
  | .getStatus tag cnt body => Sys2Proof.Machine.execGetStatus tag cnt body s
  | .openChallenge tag cnt body => Sys2Proof.Machine.execOpenChallenge tag cnt body s
  | .openResponse tag cnt body => Sys2Proof.Machine.execOpenResponse tag cnt body s
  | .close tag cnt body mac => Sys2Proof.Machine.execClose tag cnt body mac s
  | .logHead tag cnt body mac => Sys2Proof.Machine.execLogHead tag cnt body mac s
  | .logRead tag cnt body mac lost => Sys2Proof.Machine.execLogRead tag cnt body mac lost s
  | .regRead tag cnt body mac => Sys2Proof.Machine.execRegRead tag cnt body mac s
  | .regWrite tag cnt body mac => Sys2Proof.Machine.execRegWrite tag cnt body mac s
  | .logClear tag cnt body mac => Sys2Proof.Machine.execLogClear tag cnt body mac s
  | .responseRead => Sys2Proof.Machine.execResponseRead s
  | .sessionIdleTimeout => Sys2Proof.Machine.execSessionIdleTimeout s
  | .challengeExpiry => Sys2Proof.Machine.execChallengeExpiry s
  | .lockoutExpiry => Sys2Proof.Machine.execLockoutExpiry s
  | .entdaa addr => Sys2Proof.Machine.execEntdaa addr s
  | .rstdaa => Sys2Proof.Machine.execRstdaa s
  | .getpid => Sys2Proof.Machine.execGetpid s
  | .getbcr => Sys2Proof.Machine.execGetbcr s
  | .getdcr => Sys2Proof.Machine.execGetdcr s
  | .getstatusCcc => Sys2Proof.Machine.execGetstatusCcc s
  | .getmwl => Sys2Proof.Machine.execGetmwl s
  | .getmrl => Sys2Proof.Machine.execGetmrl s
  | .enec events => Sys2Proof.Machine.execEnec events s
  | .disec events => Sys2Proof.Machine.execDisec events s
  | .contextEntryRead entry poison => Sys2Proof.Machine.execContextEntryRead entry poison s
  | .engineResetRelease => Sys2Proof.Machine.execEngineResetRelease s
  | .badFrame frame => Sys2Proof.Machine.execBadFrame frame s
  | .unsupportedCcc code => Sys2Proof.Machine.execUnsupportedCcc code s
  | .irqMessageAccepted => Sys2Proof.Machine.execIrqMessageAccepted s
  | .registerReadError off size lost => Sys2Proof.Machine.execRegisterReadError off size lost s

end Sys2Proof.Machine
end

