-- ==== Sys2Proof/WellFormed.lean ====
section
/-!
DEFINITION. Well-formed commands: the operands within the widths of the fields they stand for. Slice ids lie below 32 (R2), context ids
below 4,096 (R458), CORE in 9 bits (R497), write ids in 8 (R594), queries, offsets and ids in the widths of their fields; a descriptor has 64 bytes (R133), a
sector 32 (R316), a context entry 256 (R457), a MAC 16 (R552), a frame at most 256 (R547). The meanings are total on every command.
-/

namespace Sys2Proof

/-- Sizes of an access at the register port, in bytes (R565). -/
def isSize (n : Nat) : Bool := n = 1 || n = 2 || n = 4 || n = 8

/-- Whether an answer's page size and page lie within their fields (R596). -/
def Xlate.fits : Xlate → Bool
  | .translated size page => decide (size < 4) && decide (page < 2 ^ 36)
  | .needsPage | .failed | .reserved => true

/-- Whether a command's operands are within their widths. -/
def Instr.wellFormed (i : Instr) : Bool :=
  match i with
  | .nsub die core off => decide (die < 32) && decide (core < 512) && decide (off < 2 ^ 64)
  | .nsubG die core off _ => decide (die < 32) && decide (core < 512) && decide (off < 2 ^ 64)
  | .submissionRePresented die core off _ _ batchId => decide (die < 32) && decide (core < 512) && decide (off < 2 ^ 64) && decide (batchId < 2 ^ 32)
  | .descriptorReadDone slice _ desc => decide (slice < 32) && decide (desc.length = 64)
  | .activationGranted _ => true
  | .activationEnd ctx => decide (ctx < 4096)
  | .indexReadDone slice _ _ _ => decide (slice < 32)
  | .caskBlockGiven slice _ => decide (slice < 32)
  | .reservationsGranted slice _ => decide (slice < 32)
  | .recordsReadDone slice _ _ _ => decide (slice < 32)
  | .ledgerAcknowledged slice _ => decide (slice < 32)
  | .binFlushAge slice _ => decide (slice < 32)
  | .overflowBinMove slice lay bank => decide (slice < 32) && decide (lay < 2) && decide (bank < 4)
  | .gatherAge slice _ => decide (slice < 32)
  | .binRelease slice lay _ => decide (slice < 32) && decide (lay < 2)
  | .boxNodeVisit slice lay walker _ => decide (slice < 32) && decide (lay < 2) && decide (walker < 8)
  | .nodeCacheFill slice lay _ _ => decide (slice < 32) && decide (lay < 2)
  | .primitiveTest slice lay walker _ => decide (slice < 32) && decide (lay < 2) && decide (walker < 8)
  | .tileReservationComplete slice lay _ _ => decide (slice < 32) && decide (lay < 2)
  | .tileStep slice lay _ _ _ => decide (slice < 32) && decide (lay < 2)
  | .tileComplete slice lay _ _ _ => decide (slice < 32) && decide (lay < 2)
  | .gatherRun slice lay _ => decide (slice < 32) && decide (lay < 2)
  | .pointerQueueSend slice port _ => decide (slice < 32) && decide (port < 4)
  | .migrate slice _ read => decide (slice < 32) && read.all (fun r => decide (r.1 < 4))
  | .migratePtr slice _ read => decide (slice < 32) && read.all (fun r => decide (r.1 < 4))
  | .result slice _ _ => decide (slice < 32)
  | .resultWriteAck slice id _ => decide (slice < 32) && decide (id < 256)
  | .bankUnavailable slice id => decide (slice < 32) && decide (id < 256)
  | .bankRetryTimer slice id _ => decide (slice < 32) && decide (id < 256)
  | .journalWriteSettled slice => decide (slice < 32)
  | .maintDesc slice _ => decide (slice < 32)
  | .maintConditionsMet slice => decide (slice < 32)
  | .maintAck slice _ => decide (slice < 32)
  | .fillSectorArrival slice _ sector data _ _ _ => decide (slice < 32) && decide (sector < 8) && decide (data.length = 32)
  | .evictionWriteAck slice _ _ => decide (slice < 32)
  | .gate slice way => decide (slice < 32) && decide (way < 16)
  | .ungate slice way => decide (slice < 32) && decide (way < 16)
  | .wayCleanSweep slice way => decide (slice < 32) && decide (way < 16)
  | .wayGated slice way => decide (slice < 32) && decide (way < 16)
  | .wayAwake slice way => decide (slice < 32) && decide (way < 16)
  | .streamBlockIssue slice stream _ _ => decide (slice < 32) && decide (stream < 16)
  | .streamBurstFetch slice stream => decide (slice < 32) && decide (stream < 16)
  | .streamTransferComplete slice stream _ => decide (slice < 32) && decide (stream < 16)
  | .creditReturn slice stream _ _ => decide (slice < 32) && decide (stream < 16)
  | .translationResponse slice _ answer => decide (slice < 32) && answer.fits
  | .pageResponse asid _ _ => decide (asid < 65536)
  | .pageTimeout asid _ => decide (asid < 65536)
  | .hitchRefetchDone slice _ _ => decide (slice < 32)
  | .replayRelease slice _ _ => decide (slice < 32)
  | .scrub slice _ _ => decide (slice < 32)
  | .rotationStep slice => decide (slice < 32)
  | .rotationTestDone slice lay _ => decide (slice < 32) && decide (lay < 2)
  | .frameTick => true
  | .slicePassEmpty slice ctx => decide (slice < 32) && decide (ctx < 4096)
  | .passStart ctx _ _ => decide (ctx < 4096)
  | .deadlineMissed ctx => decide (ctx < 4096)
  | .validate ctx => decide (ctx < 4096)
  | .invalidate ctx => decide (ctx < 4096)
  | .stage ctx _ => decide (ctx < 4096)
  | .boundary ctx => decide (ctx < 4096)
  | .clearFault ctx => decide (ctx < 4096)
  | .powerStart => true
  | .nvmGrant => true
  | .discoveryDone _ => true
  | .imageHeaderArrived _ => true
  | .hintsArrived _ => true
  | .imageReadDone _ => true
  | .selftestDone _ => true
  | .ropeTrainingDone _ => true
  | .engineTimeStart _ => true
  | .engineTimeSync slice => decide (slice < 32)
  | .timebaseFrame _ _ _ => true
  | .timebaseHoldover => true
  | .heartbeat slice => decide (slice < 32)
  | .heartbeatCheck => true
  | .routerProbeAnswer slice _ => decide (slice < 32)
  | .fencesConfirmed die _ _ => decide (die < 32)
  | .journalReadDone die _ => decide (die < 32)
  | .epochChange slice => decide (slice < 32)
  | .epochDrainReport slice => decide (slice < 32)
  | .holdCleared slice => decide (slice < 32)
  | .flitReceived slice port module _ => decide (slice < 32) && decide (port < 4) && decide (module < 4)
  | .credit slice port mig ret mnt epoch => decide (slice < 32) && decide (port < 4) && decide (mig < 4096) && decide (ret < 4096) && decide (mnt < 4096) && decide (epoch < 65536)
  | .creditReturnTimer slice port => decide (slice < 32) && decide (port < 4)
  | .retrainDone slice port module _ => decide (slice < 32) && decide (port < 4) && decide (module < 4)
  | .lockstepMismatch _ => true
  | .capstanRestartDone => true
  | .loglineRecordArrival slice => decide (slice < 32)
  | .rateLimiterToken slice => decide (slice < 32)
  | .logRsel _ _ => true
  | .logMarkWrite _ _ => true
  | .irqEnableWrite _ => true
  | .cntSelWrite slice k _ => decide (slice < 32) && decide (k < 16)
  | .cntCtlWrite slice _ => decide (slice < 32)
  | .captureRearm slice => decide (slice < 32)
  | .qsDiagSel slice _ => decide (slice < 32)
  | .capRepairSel _ => true
  | .readClear off => decide (off < 2 ^ 22)
  | .registerWrite off size _ => decide (off < 2 ^ 22) && isSize size
  | .pwrReqOn slice => decide (slice < 32)
  | .pwrReqTrim slice lay => decide (slice < 32) && decide (lay < 2)
  | .pwrReqNap slice => decide (slice < 32)
  | .trimDrained slice => decide (slice < 32)
  | .layPoweredOn slice => decide (slice < 32)
  | .napIdleTimer slice => decide (slice < 32)
  | .napWake slice => decide (slice < 32)
  | .stretchWarnRise slice _ => decide (slice < 32)
  | .stretchWarnFall slice _ => decide (slice < 32)
  | .stretchRestore slice => decide (slice < 32)
  | .slicePowerLoss slice _ => decide (slice < 32)
  | .powerLoss => true
  | .engineReset _ => true
  | .testReset _ => true
  | .getStatus tag cnt body => decide (tag < 256) && decide (cnt < 2 ^ 32) && decide (body.length ≤ 228)
  | .openChallenge tag cnt body => decide (tag < 256) && decide (cnt < 2 ^ 32) && decide (body.length ≤ 228)
  | .openResponse tag cnt body => decide (tag < 256) && decide (cnt < 2 ^ 32) && decide (body.length ≤ 228)
  | .close tag cnt body mac => decide (tag < 256) && decide (cnt < 2 ^ 32) && decide (body.length ≤ 228) && decide (mac.length = 16)
  | .logHead tag cnt body mac => decide (tag < 256) && decide (cnt < 2 ^ 32) && decide (body.length ≤ 228) && decide (mac.length = 16)
  | .logRead tag cnt body mac _ => decide (tag < 256) && decide (cnt < 2 ^ 32) && decide (body.length ≤ 228) && decide (mac.length = 16)
  | .regRead tag cnt body mac => decide (tag < 256) && decide (cnt < 2 ^ 32) && decide (body.length ≤ 228) && decide (mac.length = 16)
  | .regWrite tag cnt body mac => decide (tag < 256) && decide (cnt < 2 ^ 32) && decide (body.length ≤ 228) && decide (mac.length = 16)
  | .logClear tag cnt body mac => decide (tag < 256) && decide (cnt < 2 ^ 32) && decide (body.length ≤ 228) && decide (mac.length = 16)
  | .responseRead => true
  | .sessionIdleTimeout => true
  | .challengeExpiry => true
  | .lockoutExpiry => true
  | .entdaa _ => true
  | .rstdaa => true
  | .getpid => true
  | .getbcr => true
  | .getdcr => true
  | .getstatusCcc => true
  | .getmwl => true
  | .getmrl => true
  | .enec events => decide (events < 256)
  | .disec events => decide (events < 256)
  | .contextEntryRead entry _ => decide (entry.length = 256)
  | .engineResetRelease => true
  | .badFrame _ => true
  | .unsupportedCcc code => decide (code < 256)
  | .irqMessageAccepted => true
  | .registerReadError off size _ => decide (off < 2 ^ 22) && isSize size

end Sys2Proof
end

