-- ==== Sys2Proof/Safety.lean ====
section
/-!
DEFINITION. The terms in which statements speak of a state: a slice put in its place, a state in which nothing waits to be told, a slice
at work, and the invariants that every step keeps.
-/

namespace Sys2Proof.Machine

/-- Slice `i` replaced. -/
def State.put (s : State) (i : Nat) (sl : Slice) : State := { s with slices := s.slices.set i sl }

/-- The Capstan replaced. -/
def State.withCap (s : State) (c : Capstan) : State := { s with cap := c }

/-- Between commands no slice has mail for the Capstan, and no overrun record is due (log entry 8). -/
abbrev State.settled (s : State) : Prop := (∀ x ∈ s.slices, x.mail = []) ∧ ∀ c ∈ s.cap.ctxs, c.overrunFrom = none

/-- Slice `i`, which is `sl`, takes part in the engine's work and does not nap (R503, R616). -/
abbrev State.working (s : State) (i : Nat) (sl : Slice) : Prop :=
  s.slices[i]? = some sl ∧ sl.works s.cap = true ∧ sl.pwr.napping = false ∧ s.settled

/-- Nothing of the slice waits for a place in its slice cache, for a buffer, for room on a list or for its ledger to be in memory: a change
of the cache or of a list sets nothing else going. -/
abbrev Slice.calm (sl : Slice) : Prop :=
  sl.cache.waiting = [] ∧ sl.work.runs = [] ∧ sl.str.queued = [] ∧ sl.store.maps = [] ∧ (∀ p ∈ sl.rope.ports, p.leaving = []) ∧
    (∀ p ∈ sl.ing.pendq, p.stage ≠ .ledger) ∧
    (∀ a ∈ sl.ing.adopting, a.reading = none) ∧ ∀ b ∈ sl.ing.batches, b.toWrite = [] ∧ b.ops = [] ∧ b.reading = none

/-- Nothing of the slice waits to pass a link: no message in a send queue or a port's buffer, no CREDIT flit due (R411 to R413). -/
abbrev Slice.linksIdle (sl : Slice) : Prop :=
  sl.rope.sendq = [] ∧ ∀ p ∈ sl.rope.ports, p.buf = [] ∧ p.creditDue = false ∧ ∀ n ∈ p.owed, n < 32

/-- The query stands in the Mash: in a bin, in a gather, or on a list that waits for a descriptor (R196, R204). -/
abbrev Slice.hasQuery (sl : Slice) (q : Query) : Prop :=
  (∃ b ∈ sl.mash.bins, q ∈ b.members) ∨ (∃ g ∈ sl.mash.gathers, q ∈ g.members) ∨ q ∈ sl.mash.gatherWait ∨
    ∃ b ∈ sl.mash.overflow, q ∈ b.2.2

/-- The RESULT message number `k` in flight brings `r` to slice `i`, which holds its batch `b` (R420). -/
abbrev State.brings (s : State) (i k : Nat) (sl : Slice) (r : ResMsg) (b : Batch) : Prop :=
  s.working i sl ∧ sl.rope.hold = false ∧ (s.rope[k]?).map (fun m => (m.dest, m.body)) = some (i, RopeBody.result r) ∧
    sl.batch? r.handle = some b

/-- A batch that runs holds the result `x` of the query of `r`, and nothing of it waits to be written or added (R407). -/
abbrev State.awaits (s : State) (sl : Slice) (r : ResMsg) (b : Batch) (x : QRes) (c : Ctx) : Prop :=
  b.replaying = none ∧ b.res.find? (fun y => y.q = r.qindex) = some x ∧ (sl.view s.cap).ctx? b.desc.ctx = some c ∧ b.toWrite = [] ∧ b.ops = []

/-- The batch's result of the query of `r` becomes `x`. -/
def Slice.resultIs (sl : Slice) (r : ResMsg) (b : Batch) (x : QRes) : Slice :=
  sl.setBatch { b with res := updateWhere (fun y => y.q = r.qindex) (fun _ => x) b.res }

/-- Slice `i`, which is `sl`, has power and has not stopped (R503). -/
abbrev State.powered (s : State) (i : Nat) (sl : Slice) : Prop :=
  s.slices[i]? = some sl ∧ s.cap.su.power = .running ∧ sl.stopped = false ∧ s.settled

/-- Slice `i`, which is `sl`, answers at the register port: the engine has power, the slice is live, the storage of its registers decodes
(R565, R568). -/
abbrev State.answers (s : State) (i : Nat) (sl : Slice) : Prop :=
  s.slices[i]? = some sl ∧ s.cap.su.power = .running ∧ i < 32 ∧ i < s.cap.n ∧ s.cap.hl.slices.getD i .absent = .live ∧
    (∀ o ∈ s.cap.hl.lost, o < 0x100000 + 0x10000 * i ∨ 0x110000 + 0x10000 * i ≤ o) ∧ s.settled

/-- The Capstan takes decisions: the engine runs, no restart is under way and none has failed (R28, R511, R512). -/
abbrev State.decides (s : State) : Prop :=
  s.cap.su.power = .running ∧ s.cap.hl.restarting = none ∧ s.cap.hl.failed = false

/-- The management port takes a request, and nothing it keeps has expired (R546, R551, R553, R554). -/
abbrev State.managed (s : State) : Prop := s.cap.reached = true ∧ s.cap.expire = s.cap

/-- A request of the open session `x` that is in sequence, carries its MAC, and for which its key has the right (R552). -/
abbrev State.accepts (s : State) (x : Session) (cmd right tag cnt : Nat) (body mac : List Byte) : Prop :=
  s.managed ∧ s.cap.unconfigured = false ∧ s.cap.mgt.session = some x ∧ cnt = (x.last + 1) % 2 ^ 32 ∧
    mac = frameMac x.ks (frameBytes cmd tag cnt body) ∧ s.cap.hasRight x right = true

/-- A query opens a bin of its own: none stands for it, and its bank has a descriptor (R196, R204). -/
abbrev Slice.opensBin (sl : Slice) (q : Query) : Prop :=
  sl.mash.bins.any (·.isFor (sl.layOf q.next.addr) q) = false ∧
    (sl.mash.bins.filter (fun b => b.lay = sl.layOf q.next.addr && b.bank = bankOf q.next.addr)).length < 2048

/-- The bin that a query of context `c` opens (R196 to R198). -/
def Slice.newBin (env : Capstan) (sl : Slice) (c : Ctx) (q : Query) : Bin :=
  { ctx := q.ctx, obj := q.next.addr, octant := q.octant, lay := sl.layOf q.next.addr, bank := bankOf q.next.addr
    ready := readyNow none c.drains 1 (fillOf env c), members := [q] }

/-- The areas of the Logline keep within their sizes (R530), the last runnings empty until the first are full (R532, R533). -/
def Logline.bounded (l : Logline) : Prop :=
  l.first.length ≤ 1024 ∧ l.last.length ≤ 7168 ∧ (l.last = [] ∨ l.first.length = 1024)

/-- The records stand in consecutive SEQ up to the next one (R528): those of the last runnings, and those of the first while they fill. -/
def Logline.numbered (l : Logline) : Prop :=
  (∀ (k : Nat) (r : Stored), l.last[k]? = some r → r.seq = l.next - BitVec.ofNat 32 (l.last.length - k)) ∧
  (l.first.length < 1024 →
    ∀ (k : Nat) (r : Stored), l.first[k]? = some r → r.seq = l.next - BitVec.ofNat 32 (l.first.length - k))

def Logline.sound (l : Logline) : Prop := l.bounded ∧ l.numbered

/-- The invariant of the block: its slices are counted; the Logline is sound; the interrupt port holds at most 16 messages (R600) and the
repair list at most 4,096 records (R525); every activation slot in use is one of 64, and in use once (R469); the context table lists
each context once, in rising order. -/
structure State.Inv (s : State) : Prop where
  slices : s.slices.length = s.cap.n ∧ s.cap.hl.slices.length = s.cap.n
  logline : s.cap.log.sound
  port : s.cap.irq.held.length ≤ 16
  repairs : s.cap.hl.repairs.length ≤ 4096
  active : (∀ a ∈ s.cap.active, a.1 < 64) ∧ s.cap.active.Pairwise (fun a b => a.1 ≠ b.1)
  contexts : s.cap.ctxs.Pairwise (fun a b => a.id < b.id)

end Sys2Proof.Machine
end

