-- ==== Sys2Proof/Certificates/Slice0/Obligations.lean ====
section
/-!
DEFINITION. The statements for the provers. Each says what commands do: `exec` answers a next state under conditions on the state and the
operands alone, and an equation for that state says at once what changes and that nothing else does.
-/

open Sys2Proof Sys2Proof.Machine

/-! ### The step and reset -/

/-- A step runs the command at the front of the queue on the state with the queue's rest; on an empty queue one cycle of the service
clock passes (the model's choice, log entry 3). -/
def Obligations.StepRunsFrontCommand : Prop :=
  (∀ (c : Instr) (rest : List Instr) (s : State), s.pending = c :: rest → step s = exec c { s with pending := rest }) ∧
  ∀ s : State, s.pending = [] → step s = .next (tick s)

/-- No command changes the queue of the commands that wait, and none takes back a free value. Both the queue and the counter of the free values
are the model's own, no state of the engine: the counter is log entry 2, its choice. -/
def Obligations.CommandsKeepTheQueue : Prop :=
  ∀ (c : Instr) (s t : State), exec c s = .next t → t.pending = s.pending ∧ s.fresh ≤ t.fresh

/-! ### Power and clocks of a slice -/

/-- The slice's clocks stretch while a warning is high (R604): the stretch is counted once, at the rise (R621); after the fall it is held 1
us for DROOP_WARN and 100 us for THERM_WARN, and it ends when that time has passed. A slice whose requested state is NAP naps after 10
us idle, while no other change of power is under way; a wake ends the nap and the idle time starts again (R616). Where the spec leaves a
point open, the statement has the model's choice: log entry 47. -/
def Obligations.ClocksStretchAndSlicesNap : Prop :=
  ((∀ (s : State) (i : Nat) (sl : Slice), s.powered i sl → sl.pwr.droopNow = false →
     exec (.stretchWarnRise i true) s = .next (s.put i { sl with pwr := { sl.pwr with
       droopNow := true, droopHold := none, droops := min 65535 (sl.pwr.droops + 1) } })) ∧
   (∀ (s : State) (i : Nat) (sl : Slice), s.powered i sl → sl.pwr.thermNow = false →
     exec (.stretchWarnRise i false) s = .next (s.put i { sl with pwr := { sl.pwr with
       thermNow := true, thermHold := none, heats := min 65535 (sl.pwr.heats + 1) } })) ∧
   (∀ (s : State) (i : Nat) (sl : Slice), s.powered i sl → sl.pwr.droopNow = true →
     exec (.stretchWarnFall i true) s = .next (s.put i { sl with pwr := { sl.pwr with
       droopNow := false, droopHold := some (sl.time + 2000) } })) ∧
   (∀ (s : State) (i : Nat) (sl : Slice), s.powered i sl → sl.pwr.thermNow = true →
     exec (.stretchWarnFall i false) s = .next (s.put i { sl with pwr := { sl.pwr with
       thermNow := false, thermHold := some (sl.time + 200000) } })) ∧
   (∀ (s : State) (i : Nat) (sl : Slice) (d h : Nat), s.powered i sl → sl.pwr.droopHold = some d → sl.pwr.thermHold = some h →
     exec (.stretchRestore i) s = .next (s.put i { sl with pwr := { sl.pwr with
       droopHold := if sl.time < d then some d else none, thermHold := if sl.time < h then some h else none } }))) ∧
  ((∀ (s : State) (i : Nat) (sl : Slice), s.powered i sl → sl.pwr.state = 2 → sl.pwr.pendingOp = none → sl.idle = true →
     sl.pwr.idleSince + 20000 ≤ sl.time →
     exec (.napIdleTimer i) s = .next (s.put i { sl with pwr := { sl.pwr with napping := true } })) ∧
   (∀ (s : State) (i : Nat) (sl : Slice), s.powered i sl → sl.pwr.napping = true →
     exec (.napWake i) s = .next (s.put i { sl with pwr := { sl.pwr with napping := false, idleSince := sl.time } })) ∧
   ∀ (s : State) (i : Nat) (sl : Slice), s.powered i sl →
     (sl.pwr.state ≠ 2 ∨ sl.pwr.pendingOp ≠ none ∨ sl.idle = false ∨ sl.time < sl.pwr.idleSince + 20000) → exec (.napIdleTimer i) s = .next s)

/-- A request to PWR_REQ is answered in PWR_STATUS with RESULT and VALID (R617): ON and NAP are DONE at once where no lay has to be powered,
TRIM is ACCEPTED and the lay begins to drain (R614, R615, R616). Where the spec leaves a point open, the statement has the model's
choice: log entries 42 and 47. -/
def Obligations.PowerRequestsAreAnswered : Prop :=
  (∀ (s : State) (i : Nat) (sl : Slice), s.answers i sl → sl.stopped = false → sl.pwr.napping = false → sl.pwr.pendingOp = none →
    sl.work.layOff = none → sl.pwr.state ≠ 0 →
    exec (.pwrReqOn i) s = .next ((s.put i { sl with pwr := { sl.pwr with state := 0, result := 0x10100 } }).respond 0 0)) ∧
  (∀ (s : State) (i lay : Nat) (sl : Slice), s.answers i sl → sl.stopped = false → sl.pwr.napping = false → sl.pwr.pendingOp = none →
    sl.work.layOff = some lay →
    exec (.pwrReqOn i) s = .next ((s.put i { sl with pwr := { sl.pwr with pendingOp := some 0, result := 0x10200 } }).respond 0 0)) ∧
  (∀ (s : State) (i : Nat) (sl : Slice), s.answers i sl → sl.stopped = false → sl.pwr.napping = false → sl.pwr.pendingOp = none →
    sl.pwr.state ≠ 2 →
    exec (.pwrReqNap i) s =
      .next ((s.put i { sl with pwr := { sl.pwr with state := 2, idleSince := sl.time, result := 0x10100 } }).respond 0 0)) ∧
  (∀ (s : State) (i lay : Nat) (sl : Slice), s.answers i sl → sl.stopped = false → sl.pwr.napping = false → sl.pwr.pendingOp = none →
    sl.work.layOff = none → lay < 2 → ¬ (1 - lay) ∈ sl.work.layRetired → (sl.walkers lay).length = 8 →
    ∃ t sl', exec (.pwrReqTrim i lay) s = .next t ∧ t.slices[i]? = some sl' ∧ sl'.pwr.pendingOp = some 1 ∧ sl'.pwr.trimLay = lay ∧
      sl'.work.layOff = some lay ∧ sl'.pwr.result = 0x10200 ∧ (∀ w ∈ sl'.walkers lay, w.work = none ∧ w.parked = []) ∧
      t.cap.hl = s.cap.hl ∧ t.cap.log = s.cap.log ∧ t.rope = s.rope) ∧
  ∀ (s : State) (i lay : Nat) (sl : Slice) (op : Nat), s.answers i sl → sl.stopped = false → sl.pwr.napping = false →
    sl.pwr.pendingOp = some op → lay < 2 →
    let busy : Host.Outcome State Fault Refusal := .next ((s.put i { sl with pwr := { sl.pwr with result := 0x10300 } }).respond 0 0)
    exec (.pwrReqOn i) s = busy ∧ exec (.pwrReqTrim i lay) s = busy ∧ exec (.pwrReqNap i) s = busy

/-- A lay that has drained is off: its node cache and its miss registers are empty, and the request is DONE (R614). A lay that has power
again takes its bins and gathers back, and the request is DONE (R615): every query that waited in a bin still does, in a bin of the lay
that the object belongs to now, or, where its bank there has no descriptor left, in the bank's overflow bin. Where the spec leaves a point
open, the statement has the model's choice: log entries 47 and 65. -/
def Obligations.LayTrimsAndReturns : Prop :=
  (∀ (s : State) (i : Nat) (sl : Slice), s.powered i sl → sl.pwr.pendingOp = some 1 → sl.jobs sl.pwr.trimLay = [] →
    exec (.trimDrained i) s = .next (s.put i { sl with
      cache := sl.cache.dropLay sl.pwr.trimLay, pwr := { sl.pwr with pendingOp := none, state := 1, result := 0x10100 } })) ∧
  (∀ (c : Cache) (lay : Nat), lay < 2 → (c.dropLay lay).node lay = [] ∧ (c.dropLay lay).nodeMiss lay = [] ∧
    (c.dropLay lay).node (1 - lay) = c.node (1 - lay) ∧ (c.dropLay lay).lines = c.lines) ∧
  ∀ (s : State) (i : Nat) (sl : Slice), s.powered i sl → sl.pwr.pendingOp = some 0 → sl.pwr.napping = false →
    ∃ sl', exec (.layPoweredOn i) s = .next (s.put i sl') ∧ sl'.work = { sl.work with layOff := none } ∧
      sl'.pwr = { sl.pwr with pendingOp := none, state := 0, result := 0x10100 } ∧ sl'.cache = sl.cache ∧ sl'.store = sl.store ∧
      sl'.mash.gathers.map (·.members) = sl.mash.gathers.map (·.members) ∧
      (∀ b ∈ sl'.mash.bins, b.lay = sl'.layOf b.obj) ∧ (∀ g ∈ sl'.mash.gathers, g.lay = sl'.layOf g.leaf) ∧
      (∀ q, ((∃ b ∈ sl'.mash.bins, q ∈ b.members) ∨ ∃ o ∈ sl'.mash.overflow, q ∈ o.2.2) ↔
        ((∃ b ∈ sl.mash.bins, q ∈ b.members) ∨ ∃ o ∈ sl.mash.overflow, q ∈ o.2.2)) ∧
      (sl.mash.overflow = [] → sl.mash.bins.length ≤ 2048 →
        sl'.mash.overflow = [] ∧ sl'.mash.bins.map (·.members) = sl.mash.bins.map (·.members))

/-- A slice whose rail is lost, or whose THERM_TRIP rises, stops, and the Capstan has its SLICE_STOP in CAP_FAULT, with its record in the
Logline and its fault notice counted, whatever the slice does (R503, R612); from then on the commands of its own work change nothing. Where
the spec leaves a point open, the statement has the model's choice: log entry 47. -/
def Obligations.SliceStopsOnPowerLoss : Prop :=
  (∀ (s : State) (i : Nat) (sl : Slice) (trip : Bool), s.powered i sl → s.decides →
    ∃ t sl', exec (.slicePowerLoss i trip) s = .next t ∧ t.slices[i]? = some sl' ∧ sl'.stopped = true ∧
      sl'.pwr.rail = (sl.pwr.rail && trip) ∧ sl'.pwr.tripped = (sl.pwr.tripped || trip) ∧ sl'.cnt = sl.cnt ∧ sl'.cache = sl.cache ∧
      t.cap.hl.fault.getLsbD 0 = true ∧ t.cap.hl.fault.toNat / 2 ^ 8 % 2 ^ 8 = 4 ∧ t.cap.hl.fault.toNat / 2 ^ 16 % 2 ^ 5 = sl.id % 32 ∧
      t.cap.log.next = s.cap.log.next + 1 ∧ t.cap.irq.counts[2]? = (s.cap.irq.counts[2]?).map (fun n => min 0xFFFF (n + 1)) ∧
      t.rope = s.rope) ∧
  ∀ (s : State) (i : Nat) (sl : Slice) (lay n : Nat) (reads : Decodes) (mesh : WordCode), s.slices[i]? = some sl → sl.stopped = true → s.settled →
    exec (.binFlushAge i n) s = .next s ∧ exec (.gatherAge i n) s = .next s ∧ exec (.binRelease i lay reads) s = .next s ∧
    exec (.boxNodeVisit i lay n reads) s = .next s ∧ exec (.primitiveTest i lay n reads) s = .next s ∧
    exec (.gatherRun i lay reads) s = .next s ∧ exec (.streamBurstFetch i n) s = .next s ∧
    exec (.streamBlockIssue i n reads mesh) s = .next s ∧ exec (.heartbeat i) s = .next s

/-! ### The register port -/

/-- Writes to a slice's counter and diagnosis registers change what the register map says and no more: CNT_CTL its 16 enables (R590),
CNT_SELk its selection, the counter cleared (R588), CNT_CAPT0 its VALID, which arms the capture (R584, R585), QS_DIAG_SEL its number
(R359). Each has a response without error (R599). -/
def Obligations.CounterRegistersAreWritten : Prop :=
  (∀ (s : State) (i : Nat) (sl : Slice) (v : Reg), s.answers i sl →
    exec (.cntCtlWrite i v) s = .next ((s.put i { sl with cnt := { sl.cnt with ctl := v &&& 0xFFFF } }).respond 0 0)) ∧
  (∀ (s : State) (i k : Nat) (sl : Slice) (v : Reg), s.answers i sl → k < 16 →
    exec (.cntSelWrite i k v) s = .next ((s.put i { sl with cnt := { sl.cnt with
      sels := sl.cnt.sels.set k (v &&& 0x00000FFF1FFFFFFF), vals := sl.cnt.vals.set k 0 } }).respond 0 0)) ∧
  (∀ (s : State) (i : Nat) (sl : Slice), s.answers i sl →
    exec (.captureRearm i) s = .next ((s.put i { sl with cnt := { sl.cnt with
      capt0 := sl.cnt.capt0 &&& ~~~1, armed := true } }).respond 0 0)) ∧
  ∀ (s : State) (i : Nat) (sl : Slice) (v : Reg), s.answers i sl →
    exec (.qsDiagSel i v) s = .next ((s.put i { sl with store := { sl.store with diagSel := v.toNat % 2 ^ 19 } }).respond 0 0)

/-- A read of a register with RC fields answers its value and clears it (R15): the event counters of a slice, the five conversion counters,
and SC_LOCK_LOSS with its two counts, of the locked lines lost to maintenance and of the pinned fills installed unlocked (R356). -/
def Obligations.ReadsClearCounters : Prop :=
  (∀ (s : State) (i k : Nat) (sl : Slice), s.answers i sl → k < 16 →
    exec (.readClear (0x100000 + 0x10000 * i + 0x5180 + 8 * k)) s =
      .next ((s.put i { sl with cnt := { sl.cnt with vals := sl.cnt.vals.set k 0 } }).respond (sl.cnt.vals.getD k 0) 0)) ∧
  (∀ (s : State) (i : Nat) (sl : Slice), s.answers i sl →
    exec (.readClear (0x100000 + 0x10000 * i + 0x5008)) s =
      .next ((s.put i { sl with cnt := { sl.cnt with inv := 0 } }).respond sl.cnt.inv 0)) ∧
  (∀ (s : State) (i : Nat) (sl : Slice), s.answers i sl →
    exec (.readClear (0x100000 + 0x10000 * i + 0x5028)) s =
      .next ((s.put i { sl with cnt := { sl.cnt with ftz := 0 } }).respond sl.cnt.ftz 0)) ∧
  (∀ (s : State) (i : Nat) (sl : Slice), s.answers i sl →
    exec (.readClear (0x100000 + 0x10000 * i + 0x5010)) s =
      .next ((s.put i { sl with cnt := { sl.cnt with nan := 0 } }).respond sl.cnt.nan 0) ∧
    exec (.readClear (0x100000 + 0x10000 * i + 0x5018)) s =
      .next ((s.put i { sl with cnt := { sl.cnt with ovf := 0 } }).respond sl.cnt.ovf 0) ∧
    exec (.readClear (0x100000 + 0x10000 * i + 0x5020)) s =
      .next ((s.put i { sl with cnt := { sl.cnt with sat := 0 } }).respond sl.cnt.sat 0)) ∧
  ∀ (s : State) (i : Nat) (sl : Slice), s.answers i sl → sl.cache.lost < 2 ^ 32 → sl.cache.overflow < 2 ^ 32 →
    exec (.readClear (0x100000 + 0x10000 * i + 0x3828)) s =
      .next ((s.put i { sl with cache := { sl.cache with lost := 0, overflow := 0 } }).respond
        (BitVec.ofNat 64 (sl.cache.lost + 2 ^ 32 * sl.cache.overflow)) 0)

/-- A write to a register of the Capstan window has its effect: W1C bits are cleared where a one is written (R15), a repair record is
selected (R526); a register with no writable field keeps its value. While the Capstan restarts an access to its window waits, and
nothing else changes (R570). -/
def Obligations.CapstanRegistersAreWritten : Prop :=
  ((∀ (s : State) (v : Reg), s.decides → s.settled →
     exec (.capRepairSel v) s = .next ((s.withCap { s.cap with hl := { s.cap.hl with repairSel := v.toNat % 4096 } }).respond 0 0)) ∧
   (∀ (s : State) (v : Reg), s.decides → s.settled →
     exec (.registerWrite 0x0328 8 v) s =
       .next ((s.withCap { s.cap with hl := { s.cap.hl with fault := s.cap.hl.fault &&& ~~~(v &&& 1) } }).respond 0 0)) ∧
   (∀ (s : State) (v : Reg), s.decides → s.settled →
     exec (.registerWrite 0x0010 8 v) s =
       .next ((s.withCap { s.cap with irq := { s.cap.irq with regErr := s.cap.irq.regErr &&& ~~~(v &&& 1) } }).respond 0 0)) ∧
   (∀ (s : State) (v : Reg), s.decides → s.settled → exec (.registerWrite 0x0400 8 v) s = .next (s.respond 0 0)) ∧
   ∀ (s : State) (i : Nat) (sl : Slice) (v : Reg), s.answers i sl →
     exec (.registerWrite (0x100000 + 0x10000 * i + 0x4420) 8 v) s =
       .next ((s.put i { sl with rope := { sl.rope with linkErr := sl.rope.linkErr &&& ~~~(v &&& 1) } }).respond 0 0)) ∧
  (∀ (s : State) (since off size : Nat) (v : Reg), s.cap.su.power = .running → s.cap.hl.restarting = some since → off < 0x40000 →
     exec (.registerWrite off size v) s = .next (s.withCap { s.cap with hl := { s.cap.hl with
       accesses := s.cap.hl.accesses ++ [{ write := true, off := off, size := size, value := v }] } }))

/-- An access that the port cannot serve has an error response with the lowest code that applies, changes no register, and is captured in
CAP_REG_ERR with its direction and offset; a register whose word is lost answers POISON (R568, R569, R570, R576). Where the spec leaves
a point open, the statement has the model's choice: log entry 36. -/
def Obligations.BadAccessesAreCaptured : Prop :=
  let failed (s : State) (write : Bool) (code off : Nat) : Host.Outcome State Fault Refusal :=
    .next ((s.withCap { s.cap with irq := { s.cap.irq with
      regErr := BitVec.ofNat 64 (1 + (if write then 2 else 0) + code * 256 + off % 2 ^ 22 * 65536) } }).respond 0 code)
  (∀ (s : State) (off size : Nat) (v : Reg) (lost : Bool), s.decides → size ≠ 8 →
    exec (.registerWrite off size v) s = failed s true 1 off ∧ exec (.registerReadError off size lost) s = failed s false 1 off) ∧
  (∀ (s : State) (off : Nat) (v : Reg) (lost : Bool), s.decides → off % 8 ≠ 0 →
    exec (.registerWrite off 8 v) s = failed s true 2 off ∧ exec (.registerReadError off 8 lost) s = failed s false 2 off) ∧
  (∀ (s : State) (off : Nat) (v : Reg) (lost : Bool), s.decides → off % 8 = 0 → 0x40000 ≤ off → off < 0x100000 ∨ 0x300000 ≤ off →
    exec (.registerWrite off 8 v) s = failed s true 3 off ∧ exec (.registerReadError off 8 lost) s = failed s false 3 off) ∧
  (∀ (s : State) (i : Nat) (v : Reg) (lost : Bool), s.decides → i < 32 → s.cap.n ≤ i →
    exec (.registerWrite (0x100000 + 0x10000 * i + 0x5000) 8 v) s = failed s true 4 (0x100000 + 0x10000 * i + 0x5000) ∧
    exec (.registerReadError (0x100000 + 0x10000 * i + 0x5000) 8 lost) s = failed s false 4 (0x100000 + 0x10000 * i + 0x5000)) ∧
  (∀ (s : State) (i : Nat) (sl : Slice), s.answers i sl →
    exec (.registerReadError (0x100000 + 0x10000 * i + 0x5000) 8 true) s =
      failed (s.withCap { s.cap with hl := { s.cap.hl with lost := s.cap.hl.lost ++ [0x100000 + 0x10000 * i + 0x5000] } }) false 6
        (0x100000 + 0x10000 * i + 0x5000)) ∧
  (∀ (s : State) (v : Reg) (lost : Bool), s.cap.su.power = .running → s.cap.hl.restarting = none → s.cap.hl.failed = true → 0x0100 ∈ s.cap.hl.lost →
    exec (.registerWrite 0x0100 8 v) s = failed s true 6 0x0100 ∧ exec (.registerReadError 0x0100 8 lost) s = failed s false 6 0x0100) ∧
  ∀ (s : State) (i : Nat) (v : Reg) (lost : Bool), s.decides → i < 32 → i < s.cap.n → i < s.slices.length →
    (s.cap.hl.slices.getD i .absent = .deadPass ∨ s.cap.hl.slices.getD i .absent = .deadIsolated) →
    exec (.registerWrite (0x100000 + 0x10000 * i + 0x5000) 8 v) s = failed s true 5 (0x100000 + 0x10000 * i + 0x5000) ∧
    exec (.registerReadError (0x100000 + 0x10000 * i + 0x5000) 8 lost) s = failed s false 5 (0x100000 + 0x10000 * i + 0x5000)

/-! ### Interrupts -/

/-- CAP_IRQ_MASK holds the four enables; a class that is newly enabled while its event is pending sends its message, which joins the port
where fewer than 16 are held (R578, R600). A message that the interrupt controller accepts leaves the port, and the oldest that wait
take its place (R600). -/
def Obligations.InterruptMessagesAreSent : Prop :=
  ((∀ (s : State) (v : Reg), s.decides → s.settled →
     (∀ k < 4, v.getLsbD k = true → s.cap.irq.mask.testBit k = true ∨ s.cap.irq.pend.testBit k = false) →
     exec (.irqEnableWrite v) s = .next ((s.withCap { s.cap with irq := { s.cap.irq with mask := v.toNat % 16 } }).respond 0 0)) ∧
   ∀ (s : State) (k addr data : Nat), s.decides → s.settled → k < 4 → s.cap.irq.mask = 0 → s.cap.irq.pend.testBit k = true →
     s.cap.img.irqs.getD k (0, 0) = (addr, data) → addr ≠ 0 → s.cap.maySend = true → s.cap.irq.wait = [] → s.cap.irq.held.length < 16 →
     exec (.irqEnableWrite (BitVec.ofNat 64 (2 ^ k))) s = .next ((s.withCap { s.cap with irq := { s.cap.irq with
       mask := 2 ^ k, held := s.cap.irq.held ++ [(addr, data)] } }).respond 0 0)) ∧
  (∀ (s : State) (m : Nat × Nat) (rest : List (Nat × Nat)), s.decides → s.cap.irq.held = m :: rest →
     exec .irqMessageAccepted s = .next (s.withCap { s.cap with irq := { s.cap.irq with
       held := rest ++ s.cap.irq.wait.take (16 - rest.length), wait := s.cap.irq.wait.drop (16 - rest.length) } }))

/-! ### The Logline -/

/-- LOG_RSEL copies the record it selects into the latch, by its index in the first runnings or by its SEQ in the last runnings, and
LOG_RSTAT says whether it was found; nothing of the Logline itself changes; a record whose words do not decode is GONE (R530, R541,
R561). A write to LOG_MARK arms the threshold; where the records after the mark have reached LOG_THRESH already, the event of the class
LOGLINE_THRESHOLD is counted and pending at once, and once (R543). Where the spec leaves a point open, the statement has the model's
choice: log entry 36. -/
def Obligations.LoglineRegistersAct : Prop :=
  ((∀ (s : State) (v : Reg), s.decides → s.settled → ∃ t : State, exec (.logRsel v true) s = .next (t.respond 0 0) ∧
     t.cap.log.rstat = (s.cap.log.select (v.getLsbD 32) (v.toNat % 2 ^ 32)).1 ∧ t.cap.log.first = s.cap.log.first ∧
     t.cap.log.last = s.cap.log.last ∧ t.cap.log.next = s.cap.log.next ∧ t.slices = s.slices ∧ t.cap.irq = s.cap.irq) ∧
   (∀ (s : State) (k : Nat) (r : Stored), s.decides → s.settled → k < 1024 → s.cap.log.first[k]? = some r →
     exec (.logRsel (BitVec.ofNat 64 (2 ^ 32 + k)) false) s = .next ((s.withCap { s.cap with log := { s.cap.log with
       first := s.cap.log.first.set k { r with lost := true }, rstat := 2, word0 := 0, word1 := 0, word2 := 0, word3 := 0 } }).respond 0 0)) ∧
   ∀ (s : State) (k : Nat) (r : Stored), s.decides → s.settled → k < 1024 → s.cap.log.first[k]? = some r → r.lost = false →
     exec (.logRsel (BitVec.ofNat 64 (2 ^ 32 + k)) true) s = .next ((s.withCap { s.cap with log := { s.cap.log with
       rstat := 1, word0 := BitVec.ofNat 64 (le r.bytes 0 8), word1 := BitVec.ofNat 64 (le r.bytes 8 8),
       word2 := BitVec.ofNat 64 (le r.bytes 16 8), word3 := BitVec.ofNat 64 (le r.bytes 24 8) } }).respond 0 0)) ∧
  ((∀ (s : State) (v : Reg), s.decides → s.settled →
     (s.cap.log.thresh = 0 ∨ (s.cap.log.next - BitVec.ofNat 32 v.toNat).toNat < s.cap.log.thresh) →
     exec (.logMarkWrite false v) s = .next ((s.withCap { s.cap with log := { s.cap.log with
       mark := BitVec.ofNat 32 v.toNat, armed := true } }).respond 0 0)) ∧
   (∀ (s : State) (v : Reg), s.decides → s.settled → s.cap.log.thresh ≠ 0 → s.cap.irq.mask.testBit 3 = false →
     s.cap.log.thresh ≤ (s.cap.log.next - BitVec.ofNat 32 v.toNat).toNat →
     exec (.logMarkWrite false v) s = .next ((s.withCap { s.cap with
       log := { s.cap.log with mark := BitVec.ofNat 32 v.toNat, armed := false }
       irq := { s.cap.irq with pend := s.cap.irq.pend ||| 8,
                               counts := updateAt (fun n => min 0xFFFF (n + 1)) 3 s.cap.irq.counts } }).respond 0 0)) ∧
   ∀ (s : State) (v : Reg), s.decides → s.settled → v.toNat % 2 ^ 13 = 0 →
     exec (.logMarkWrite true v) s = .next ((s.withCap { s.cap with log := { s.cap.log with thresh := 0, armed := true } }).respond 0 0))

/-- A record that leaves a slice reaches the Logline with the next SEQ, in the first runnings while they have room; the slice's other
records stay in their order (R528, R532, R535). The limiter of a slice gains one token for each microsecond of engine time, and never
holds more than 256 (R536). The grid of the tokens, on the slice's own copy of engine time, and that a token into a full limiter is gone,
are the model's choice: log entry 60. -/
def Obligations.RecordsArriveAndLimitersFill : Prop :=
  (∀ (s : State) (i : Nat) (sl : Slice) (r : LogRec) (rest : List OutRec), s.decides → s.slices[i]? = some sl →
     sl.outbox = { head := some r, tail := none, irq := none, arith := none } :: rest → s.cap.log.thresh = 0 →
     s.cap.log.first.length < 1024 →
     exec (.loglineRecordArrival i) s = .next ((s.put i { sl with outbox := rest }).withCap { s.cap with log := { s.cap.log with
       next := s.cap.log.next + 1,
       first := s.cap.log.first ++
         [{ seq := s.cap.log.next, bytes := r.bytes s.cap.log.next.toNat s.cap.img.package, isHead := false }] } })) ∧
  ((∀ (s : State) (i : Nat) (sl : Slice), s.powered i sl → s.cap.tb.on = true → sl.tokenAt + 2000 ≤ sl.time →
     exec (.rateLimiterToken i) s = .next (s.put i { sl with tokens := min 256 (sl.tokens + 1), tokenAt := sl.tokenAt + 2000 })) ∧
   ∀ (s : State) (i : Nat) (sl : Slice), s.powered i sl → sl.time < sl.tokenAt + 2000 → exec (.rateLimiterToken i) s = .next s)

/-! ### Engine time -/

/-- The Capstan's value reaches a slice's copy of engine time: nothing is to be corrected where they differ by 1 ns or less, else the copy gains
what it lacks, or skips what it has too much (R606). Each SCLK cycle adds the period of SCLK to the copy; while it is to be corrected one
cycle in 64 adds it twice, or not at all, so that a copy never goes backwards (R606). A frame on SYNC_IN: one that does not decode, or
whose second half is not the complement of its first, counts in BAD and is ignored, also while the start still waits for its first frame;
a valid one counts in FRAMES. While engine time is based on a frame, `e` is engine time at the mark less the frame's milliseconds: it is
slewed away, the state is SLIPPED where `e` is above 50 us and LOCKED else, and a change has its record; where it is below -50 us engine
time steps forward by it, with the copies of the slices; it never steps back (R608, R610, R611). After 3 ms without a valid frame engine
time that was aligned runs free: the state is HOLDOVER, and the change has its record (R610). CAP_TIMEBASE has its fields (R611). Where
the spec leaves a point open, the statement has the model's choice: log entries 3 and 56. -/
def Obligations.EngineTimeFollowsItsSources : Prop :=
  ((∀ (s : State) (i : Nat) (sl : Slice) (d : Int), s.powered i sl → s.decides → s.cap.tb.on = true →
     d = (s.cap.tb.time : Int) - sl.time →
     exec (.engineTimeSync i) s = .next (s.put i { sl with timeFix := if -2 ≤ d ∧ d ≤ 2 then 0 else d })) ∧
   ∀ (s : State) (i n : Nat) (sl : Slice), s.pending = [] → s.cap.su.power = .running → s.cap.tb.on = true → s.slices[i]? = some sl →
     sl.store.spilling = false →
     n = (if sl.timeFix = 0 ∨ sl.fixPhase + 5 < 64 then 5 else if 0 < sl.timeFix then 6 else 4) →
     ∃ t sl', step s = .next t ∧ t.slices[i]? = some sl' ∧ sl.time ≤ sl'.time ∧ sl'.timeLow < 2 ^ 31 ∧
       sl'.time * 2 ^ 31 + sl'.timeLow = sl.time * 2 ^ 31 + sl.timeLow + n * sl.period ∧ sl'.period = sl.period ∧
       sl'.timeFix = sl.timeFix + 5 - n ∧ sl'.fixPhase = (sl.fixPhase + 5) % 64) ∧
  (∀ c : Capstan, c.reg? 0x0600 = some c.timebaseReg ∧ c.timebaseReg.toNat % 8 = c.tb.state % 8 ∧ c.timebaseReg.toNat / 8 % 2 = 0 ∧
    c.timebaseReg.toNat / 2 ^ 4 % 2 ^ 32 = c.tb.error.toNat ∧ c.timebaseReg.toNat / 2 ^ 36 % 2 ^ 16 = min c.tb.frames 0xFFFF ∧
    c.timebaseReg.toNat / 2 ^ 52 = min c.tb.bad 0xFFF) ∧
  (((∀ (s : State) (bits : BitVec 128) (since : Nat) (d : Bool), s.decides → s.cap.tb.on = true → 2 ≤ s.cap.img.syncMode →
      (d = false ∨ bits.toNat / 2 ^ 64 ≠ 2 ^ 64 - 1 - bits.toNat % 2 ^ 64) →
      exec (.timebaseFrame bits d since) s =
        .next (s.withCap { s.cap with tb := { s.cap.tb with bad := min 0xFFF (s.cap.tb.bad + 1) } })) ∧
    (∀ (s : State) (bits : BitVec 128) (since : Nat) (d : Bool), s.cap.atStep 6 = true → s.cap.su.trained = true → s.cap.tb.on = false →
      s.settled → 2 ≤ s.cap.img.syncMode → s.cap.su.upTime < s.cap.su.waitFrom + 2400000 →
      (d = false ∨ bits.toNat / 2 ^ 64 ≠ 2 ^ 64 - 1 - bits.toNat % 2 ^ 64) →
      exec (.timebaseFrame bits d since) s =
        .next (s.withCap { s.cap with tb := { s.cap.tb with bad := min 0xFFF (s.cap.tb.bad + 1) } })) ∧
    (∀ (s : State) (bits : BitVec 128) (since : Nat), s.decides → s.cap.tb.on = true → 2 ≤ s.cap.img.syncMode →
      bits.toNat / 2 ^ 64 = 2 ^ 64 - 1 - bits.toNat % 2 ^ 64 → s.cap.tb.state < 2 →
      exec (.timebaseFrame bits true since) s = .next (s.withCap { s.cap with tb := { s.cap.tb with
        frames := min 0xFFFF (s.cap.tb.frames + 1), lastFrame := some s.cap.tb.time } })) ∧
    (∀ (s : State) (bits : BitVec 128) (since : Nat) (e : Int), s.decides → s.cap.tb.on = true → 2 ≤ s.cap.img.syncMode →
      bits.toNat / 2 ^ 64 = 2 ^ 64 - 1 - bits.toNat % 2 ^ 64 → s.cap.tb.state = 2 →
      e = (s.cap.tb.time / 2 : Nat) - since - (bits.toNat % 2 ^ 64 : Nat) * 1000000 → -50000 ≤ e → e ≤ 50000 →
      exec (.timebaseFrame bits true since) s = .next (s.withCap { s.cap with tb := { s.cap.tb with
        frames := min 0xFFFF (s.cap.tb.frames + 1), lastFrame := some s.cap.tb.time, slew := 2 * e, error := BitVec.ofInt 32 e } })) ∧
    (∀ (s : State) (bits : BitVec 128) (since st : Nat) (e : Int), s.decides → s.cap.tb.on = true → 2 ≤ s.cap.img.syncMode →
      bits.toNat / 2 ^ 64 = 2 ^ 64 - 1 - bits.toNat % 2 ^ 64 → 2 ≤ s.cap.tb.state →
      e = (s.cap.tb.time / 2 : Nat) - since - (bits.toNat % 2 ^ 64 : Nat) * 1000000 → -50000 ≤ e → st = (if 50000 < e then 4 else 2) →
      ∃ t, exec (.timebaseFrame bits true since) s = .next t ∧ t.slices = s.slices ∧ t.cap.tb = { s.cap.tb with
        frames := min 0xFFFF (s.cap.tb.frames + 1), lastFrame := some s.cap.tb.time, slew := 2 * e, state := st
        error := BitVec.ofInt 32 (max (-2147483648) (min 2147483647 e)) } ∧
        t.cap.log.next = s.cap.log.next + (if s.cap.tb.state = st then 0 else 1)) ∧
    ∀ (s : State) (bits : BitVec 128) (since : Nat) (e : Int), s.decides → s.cap.tb.on = true → 2 ≤ s.cap.img.syncMode →
      bits.toNat / 2 ^ 64 = 2 ^ 64 - 1 - bits.toNat % 2 ^ 64 → s.cap.tb.state = 2 →
      e = (s.cap.tb.time / 2 : Nat) - since - (bits.toNat % 2 ^ 64 : Nat) * 1000000 → e < -50000 →
      ∃ t, exec (.timebaseFrame bits true since) s = .next t ∧ t.cap.tb.time = s.cap.tb.time + 2 * (-e).toNat ∧ t.cap.tb.slew = 0 ∧
        t.cap.tb.frames = min 0xFFFF (s.cap.tb.frames + 1) ∧ t.cap.log = s.cap.log ∧
        t.slices = s.slices.map (fun sl => if sl.stopped then sl else { sl with time := sl.time + 2 * (-e).toNat })) ∧
   (∀ (s : State) (l : Nat), s.decides → (s.cap.tb.state = 2 ∨ s.cap.tb.state = 4) → s.cap.tb.lastFrame = some l →
      l + 6000000 ≤ s.cap.tb.time →
      ∃ t, exec .timebaseHoldover s = .next t ∧ t.cap.tb = { s.cap.tb with slew := 0, state := 3 } ∧ t.slices = s.slices ∧
        t.cap.log.next = s.cap.log.next + 1 ∧ t.cap.ctxs = s.cap.ctxs))

/-! ### Power, reset and the start -/

/-- What the engine is at T0: every state of the engine is that of reset, the rails are good and the start waits for the NVM port at its
step 1. The queue of commands and the counter of the free values are not the engine's (log entry 2). Loss of power, and ENG_RESET_N or
SVC_RAIL_GOOD low, return every state of the engine to its reset value (R612); the two resets of test logic reach nothing but test logic. An
engine without power does nothing: every command of its work, its ports and its start changes nothing. Where the spec gives a state no reset
value, or a pin no level, the statement has the model's choice: log entry 1. -/
def Obligations.PowerAndResets : Prop :=
  ((let began (s : State) : State :=
      { cap := { resetCapstan s.cap.n with su := { (resetCapstan s.cap.n).su with
          power := .running, pwrGood := true, engResetN := true, svcRail := true, step := 1 } }
        slices := (List.range s.slices.length).map (fun i => { resetSlice i with pwr := { (resetSlice i).pwr with rail := true } })
        rope := [], pending := s.pending, fresh := s.fresh }
    (∀ s : State, s.cap.su.power = .off → exec .powerStart s = .next (began s)) ∧
    (∀ s : State, s.cap.su.power = .inReset → exec .engineResetRelease s = .next (began s)) ∧
    ∀ s : State, (s.cap.su.power ≠ .off → exec .powerStart s = .next s) ∧ (s.cap.su.power ≠ .inReset → exec .engineResetRelease s = .next s)) ∧
   ((∀ s : State, exec .powerLoss s = .next
      { cap := resetCapstan s.cap.n, slices := (List.range s.slices.length).map resetSlice, rope := [], pending := s.pending
        fresh := s.fresh }) ∧
    (∀ (s : State) (svc : Bool), s.cap.su.power = .running →
      exec (.engineReset svc) s = .next
        { cap := { resetCapstan s.cap.n with su := { (resetCapstan s.cap.n).su with
            power := .inReset, pwrGood := true, engResetN := svc, svcRail := !svc } }
          slices := (List.range s.slices.length).map resetSlice, rope := [], pending := s.pending, fresh := s.fresh }) ∧
    ∀ s : State,
      exec (.testReset false) s = .next (s.withCap { s.cap with su := { s.cap.su with tapReset := true } }) ∧
      exec (.testReset true) s = .next (s.withCap { s.cap with su := { s.cap.su with wrapReset := true } }))) ∧
  (∀ (c : Instr) (s t : State), s.cap.su.power ≠ .running → s.settled → exec c s = .next t →
     c ≠ .powerStart → c ≠ .powerLoss → (∀ b, c ≠ .engineReset b) → c ≠ .engineResetRelease → (∀ b, c ≠ .testReset b) →
     t.slices = s.slices ∧ t.rope = s.rope ∧ t.cap.su = s.cap.su ∧ t.cap.log = s.cap.log ∧ t.cap.ctxs = s.cap.ctxs ∧
       t.cap.hl = s.cap.hl ∧ t.cap.irq = s.cap.irq ∧ t.cap.tb = s.cap.tb)

/-- The steps of the start (R430): the grant of the NVM port, discovery with the density it finds (R434), the header (R435), the image
(R450); each advances the start and changes nothing else, while nothing has failed. A start that fails before self-test has run keeps
the cause and the section of its failure and runs self-test to its end (R432, R452, R454); then the engine is NOT_READY with that cause,
FAULT_N low and the record of the failure. Where self-test finds the Capstan itself unsound the start is FAILED with the cause 0xF0,
whatever failed before (R455). Where the spec leaves a point open, the statement has the model's choice: log entries 48 and 72. -/
def Obligations.StartsAdvanceOrFail : Prop :=
  ((∀ s : State, s.cap.atStep 1 = true → exec .nvmGrant s = .next (s.withCap { s.cap with su := { s.cap.su with step := 2 } })) ∧
   (∀ (s : State) (x table : List Byte) (m : NvmMode), s.cap.atStep 2 = true → basicTable x = some table → nvmMode table = some m →
     exec (.discoveryDone x) s = .next (s.withCap { s.cap with su := { s.cap.su with
       step := 3, dtr := bit (dword table 1) 19, density := densityOf table, nvm := some m } })) ∧
   (∀ (s : State) (bs : List Byte), s.cap.atStep 3 = true → s.cap.img.headerIn = false → headerFailure bs s.cap.su.density = none →
     exec (.imageHeaderArrived bs) s = .next (s.withCap { s.cap with
       img := { s.cap.img with bytes := bs, headerIn := true }
       su := { s.cap.su with testing := if hintsLate bs then !s.cap.su.selftest else s.cap.su.testing } })) ∧
   (∀ (s : State) (bs : List Byte), s.cap.atStep 3 = true → s.cap.img.headerIn = true →
     exec (.hintsArrived bs) s = .next (s.withCap { s.cap with su := { s.cap.su with testing := !s.cap.su.selftest } })) ∧
   ∀ (s : State) (bs : List Byte), s.cap.atStep 3 = true → s.cap.img.headerIn = true → s.cap.su.selftest = false →
     imageFailure s.cap.n s.cap.su.density bs = none →
     exec (.imageReadDone bs) s = .next (s.withCap { s.cap with 
       img := { s.cap.img with bytes := bs }, su := { s.cap.su with step := 5, testing := true } })) ∧
  ((∀ (s : State) (x : List Byte), s.cap.atStep 2 = true → s.cap.su.selftest = false → basicTable x = none →
     exec (.discoveryDone x) s = .next (s.withCap { s.cap with su := { s.cap.su with cause := 0x01, section_ := 0xFF, testing := true } })) ∧
   (∀ (s : State) (x table : List Byte), s.cap.atStep 2 = true → s.cap.su.selftest = false → basicTable x = some table →
     nvmMode table = none →
     exec (.discoveryDone x) s = .next (s.withCap { s.cap with su := { s.cap.su with cause := 0x02, section_ := 0xFF, testing := true } })) ∧
   (∀ (s : State) (bs : List Byte) (f : Failure), s.cap.atStep 3 = true → s.cap.img.headerIn = true → s.cap.su.selftest = false →
     imageFailure s.cap.n s.cap.su.density bs = some f →
     exec (.imageReadDone bs) s = .next (s.withCap { s.cap with su := { s.cap.su with cause := f.1, section_ := f.2, testing := true } })) ∧
   ∀ (s : State) (found : Selftest), s.cap.su.power = .running → s.cap.su.testing = true → s.settled → s.cap.hl.restarting = none →
     s.cap.hl.failed = false → found.defects = [] → found.capstan = [] → found.capstanOk = false →
     ∃ t, exec (.selftestDone found) s = .next t ∧ t.cap.su.state = .failed ∧ t.cap.su.cause = 0xF0 ∧ t.cap.su.section_ = 0xFF ∧
       t.cap.su.faultLow = true ∧ t.cap.log.next = s.cap.log.next + 1) ∧
  ∀ (s : State) (found : Selftest), s.cap.su.power = .running → s.cap.su.testing = true → s.settled → s.cap.su.cause ≠ 0 →
    found.defects = [] → found.capstan = [] → found.capstanOk = true → found.deadRouters = [] →
    (∃ sl ∈ s.slices, sl.stopped = false ∧ sl.work.mapUnits.layRetired.length < 2 ∧ s.cap.hl.slices.getD sl.id .absent ≠ .deadIsolated) →
    ∃ t, exec (.selftestDone found) s = .next t ∧ t.cap.su.state = .notReady ∧ t.cap.su.cause = s.cap.su.cause ∧
      t.cap.su.section_ = s.cap.su.section_ ∧ t.cap.su.step = 9 ∧ t.cap.su.faultLow = true ∧ t.cap.su.selftest = true ∧
      t.cap.log.next = s.cap.log.next + 1

/-- Self-test without a defect maps the good units of each kind to the logical positions, and every slice that is whole starts live (R21,
R453); Rope training sets each module of each port (R400). Engine time starts at the system time of the first valid frame in the modes
TIMEBASE and BOTH, where it comes within 1.2 ms, as its milliseconds with what has passed since its mark; at 0 where none comes in that
time, for which the start waits, and in the other modes; the engine reports ready, its slices copy engine time, their limiters are full and
their captures armed (R456, R536, R584, R609). Where the spec leaves a point open, the statement has the model's choice: log entries 49 and
50. -/
def Obligations.TheEngineBecomesReady : Prop :=
  ((∀ (s : State) (found : Selftest), s.cap.su.power = .running → s.cap.su.testing = true → s.settled → s.cap.su.step = 3 →
     s.cap.su.cause = 0 → found.defects = [] → found.capstan = [] → found.capstanOk = true → found.deadRouters = [] →
     (∃ sl ∈ s.slices, sl.stopped = false ∧ sl.work.mapUnits.layRetired.length < 2 ∧ s.cap.hl.slices.getD sl.id .absent ≠ .deadIsolated) →
     ∃ t, exec (.selftestDone found) s = .next t ∧ t.cap.su = { s.cap.su with testing := false, selftest := true, badRouters := [] } ∧
       t.slices = s.slices.map (fun sl => { sl with
         work := sl.work.mapUnits, stopped := sl.stopped || decide (2 ≤ sl.work.mapUnits.layRetired.length) }) ∧
       t.cap.hl.slices = t.slices.map (fun sl => if s.cap.hl.slices.getD sl.id .absent = .deadIsolated then .deadIsolated
         else if sl.stopped then .deadPass else .live)) ∧
   ∀ (s : State) (up : List (Nat × Nat × Nat)), s.cap.su.power = .running → s.cap.su.state = .starting → s.cap.su.selftest = true →
     s.cap.su.cause = 0 → s.cap.su.trained = false →
     exec (.ropeTrainingDone up) s = .next { s with
       cap := { s.cap with su := { s.cap.su with trained := true, waitFrom := s.cap.su.upTime } }, slices := s.slices.map (fun sl => sl.train up) }) ∧
  (let begins (s : State) (frame : Option (BitVec 128 × Bool × Nat)) (time state : Nat) : Prop :=
     ∃ t, exec (.engineTimeStart frame) s = .next t ∧ t.cap.su.state = .ready ∧ t.cap.su.step = 9 ∧ t.cap.tb.on = true ∧
       t.cap.tb.time = time ∧ t.cap.tb.state = state ∧ t.slices.length = s.slices.length ∧
       ∀ sl ∈ t.slices, sl.time = time ∧ sl.timeFix = 0 ∧ sl.tokens = 256 ∧ sl.tokenAt = time ∧ sl.cnt.armed = true
   (∀ (s : State) (frame : Option (BitVec 128 × Bool × Nat)), s.cap.atStep 6 = true → s.cap.su.trained = true → s.settled →
      s.cap.img.syncMode < 2 → begins s frame 0 0) ∧
   (∀ (s : State) (bits : BitVec 128) (since : Nat), s.cap.atStep 6 = true → s.cap.su.trained = true → s.settled →
      2 ≤ s.cap.img.syncMode → s.cap.su.upTime ≤ s.cap.su.waitFrom + 2400000 → bits.toNat / 2 ^ 64 = 2 ^ 64 - 1 - bits.toNat % 2 ^ 64 →
      begins s (some (bits, true, since)) (2 * (bits.toNat % 2 ^ 64 * 1000000 + since)) 2) ∧
   ∀ s : State, s.cap.atStep 6 = true → s.cap.su.trained = true → s.settled → 2 ≤ s.cap.img.syncMode →
     (s.cap.su.waitFrom + 2400000 ≤ s.cap.su.upTime → begins s none 0 1) ∧
     (s.cap.su.upTime < s.cap.su.waitFrom + 2400000 → exec (.engineTimeStart none) s = .next s))

/-! ### The management port -/

/-- The management port answers GET_STATUS outside any session, also where every other command is refused: CAP_ID, CAP_START, CAP_TIME,
LOG_HEAD and CAP_MGT, with the tag of the request and a CRC (R546, R548, R550). A body is refused with BAD_BODY. A frame with a wrong
length or CRC has BAD_FRAME, one with a reserved command UNKNOWN_CMD (R549), a sound one is the command that its CMD byte names, with the
fields of its frame (R547, R550); a response is given once, and a read without one is not acknowledged (R546, R547). Where the spec leaves
a point open, the order of the refusals and when a response is ready among them, the statement has the model's choice: log entries 42 and
43. -/
def Obligations.RequestsWithoutSessionAreAnswered : Prop :=
  ((∀ (s : State) (tag cnt : Nat), s.managed →
     let c := s.cap
     let regs := [c.idReg, c.startReg, c.timeReg, c.log.headReg, c.mgtReg]
     exec (.getStatus tag cnt []) s = .next (s.withCap (c.answer
       (withCrc (frameBytes 0 tag cnt (regs.flatMap (fun r => toLe 8 r.toNat))))))) ∧
   ∀ (s : State) (tag cnt : Nat) (b : Byte) (bs : List Byte), s.managed →
     exec (.getStatus tag cnt (b :: bs)) s = .next (s.withCap (s.cap.answer (withCrc (frameBytes 0x03 tag cnt []))))) ∧
  ((∀ (s : State) (f : List Byte), s.managed → badFrame f = true →
     exec (.badFrame f) s = .next (s.withCap (s.cap.answer (withCrc (frameBytes 0x01 (byteAt f 1) (le f 4 4) []))))) ∧
   (∀ (s : State) (f : List Byte), s.managed → s.cap.unconfigured = false → badFrame f = false → knownCmd (byteAt f 0) = false →
     exec (.badFrame f) s = .next (s.withCap (s.cap.answer (withCrc (frameBytes 0x02 (byteAt f 1) (le f 4 4) []))))) ∧
   (∀ (s : State) (f body mac : List Byte) (tag cnt : Nat), s.managed → badFrame f = false → tag = byteAt f 1 → cnt = le f 4 4 →
      body = (f.drop 8).take (le f 2 2) → mac = (f.drop (8 + le f 2 2)).take 16 →
      (byteAt f 0 = 0x01 → exec (.badFrame f) s = exec (.getStatus tag cnt body) s) ∧
      (byteAt f 0 = 0x02 → exec (.badFrame f) s = exec (.openChallenge tag cnt body) s) ∧
      (byteAt f 0 = 0x03 → exec (.badFrame f) s = exec (.openResponse tag cnt body) s) ∧
      (byteAt f 0 = 0x04 → exec (.badFrame f) s = exec (.close tag cnt body mac) s) ∧
      (byteAt f 0 = 0x10 → exec (.badFrame f) s = exec (.logHead tag cnt body mac) s) ∧
      (byteAt f 0 = 0x11 → exec (.badFrame f) s = exec (.logRead tag cnt body mac []) s) ∧
      (byteAt f 0 = 0x12 → exec (.badFrame f) s = exec (.regRead tag cnt body mac) s) ∧
      (byteAt f 0 = 0x20 → exec (.badFrame f) s = exec (.regWrite tag cnt body mac) s) ∧
      (byteAt f 0 = 0x30 → exec (.badFrame f) s = exec (.logClear tag cnt body mac) s)) ∧
   (∀ s : State, s.managed → exec .responseRead s = .next (s.withCap { s.cap with mgt := { s.cap.mgt with out := s.cap.mgt.resp, resp := none } })) ∧
   ∀ s : State, s.cap.mgt.addr = none → exec .responseRead s = .next (s.withCap { s.cap with mgt := { s.cap.mgt with out := none } }))

/-- A challenge is issued for a key of the image while no session is open and none is locked out (R551): 24 bytes of the random source,
whatever they are, and the count of challenges; it replaces the one before. The answer to a challenge opens a session where its proof is
the HMAC of R551 under the key: the session key is derived, the count of sessions goes on, the run of failures ends, the challenge is
spent. Any other answer spends the challenge too, counts as a failure, and the fourth in a row locks the port for 1 s (R554). Where the
spec leaves a point open, the statement has the model's choice: log entries 7 and 42. -/
def Obligations.ChallengesOpenSessions : Prop :=
  (∀ (s : State) (tag cnt : Nat) (key : Byte) (k : Nat × Nat × List Byte), s.managed → s.cap.unconfigured = false →
     s.cap.mgt.lockout = none → s.cap.key? key.toNat = some k → s.cap.mgt.session = none →
     ∃ random : List Byte, random.length = 24 ∧
       let nt := random ++ toLe 8 (s.cap.mgt.challenges + 1)
       exec (.openChallenge tag cnt [key, 0, 0, 0]) s = .next { s with
         fresh := s.fresh + 1
         cap := { s.cap with mgt := { s.cap.mgt with
           challenge := some { key := key.toNat, nt := nt, since := s.cap.tb.time }, challenges := s.cap.mgt.challenges + 1,
           resp := some (withCrc (frameBytes 0 tag cnt nt)) } } }) ∧
  ((∀ (s : State) (tag cnt id rights : Nat) (key : Byte) (k nh p : List Byte) (x : Challenge), s.managed → s.cap.unconfigured = false →
     s.cap.mgt.lockout = none → s.cap.key? key.toNat = some (id, rights, k) → s.cap.mgt.challenge = some x → x.key = key.toNat →
     nh.length = 32 → p.length = 32 → p = hmac k ([0x52, 0x4E, 0x54, 0x31] ++ [key] ++ x.nt ++ nh) →
     ∃ t y, exec (.openResponse tag cnt ([key, 0, 0, 0] ++ nh ++ p)) s = .next t ∧ t.cap.mgt.session = some y ∧ y.key = key.toNat ∧
       y.number = s.cap.mgt.sessions + 1 ∧ y.ks = hmac k ([0x52, 0x4E, 0x54, 0x53] ++ x.nt ++ nh) ∧ y.last = 0 ∧
       t.cap.mgt.sessions = s.cap.mgt.sessions + 1 ∧ t.cap.mgt.failRun = 0 ∧ t.cap.mgt.challenge = none ∧
       t.cap.log.next = s.cap.log.next + 1 ∧ t.slices = s.slices) ∧
   ∀ (s : State) (tag cnt id rights : Nat) (key : Byte) (k nh p : List Byte) (x : Challenge), s.managed → s.cap.unconfigured = false →
     s.cap.mgt.lockout = none → s.cap.key? key.toNat = some (id, rights, k) → s.cap.mgt.challenge = some x →
     nh.length = 32 → p.length = 32 → (x.key ≠ key.toNat ∨ p ≠ hmac k ([0x52, 0x4E, 0x54, 0x31] ++ [key] ++ x.nt ++ nh)) →
     ∃ t, exec (.openResponse tag cnt ([key, 0, 0, 0] ++ nh ++ p)) s = .next t ∧ t.cap.mgt.session = s.cap.mgt.session ∧
       t.cap.mgt.challenge = none ∧ t.cap.mgt.fails = min 0xFFFF (s.cap.mgt.fails + 1) ∧
       t.cap.mgt.resp = some (withCrc (frameBytes 0x09 tag cnt [])) ∧
       (if 3 ≤ s.cap.mgt.failRun then t.cap.mgt.lockout = some (s.cap.tb.time + 2000000000) ∧ t.cap.mgt.failRun = 0
        else t.cap.mgt.lockout = none ∧ t.cap.mgt.failRun = s.cap.mgt.failRun + 1))

/-- Requests of a session that are in sequence and carry its MAC are carried out (R550, R552): the answers carry the registers and the
records they ask for under the session's MAC, a write reaches the register (R555), LOG_CLEAR empties the last runnings and keeps the
first (R556), CLOSE ends the session (R553). Where the spec leaves a point open, the statement has the model's choice: log entries 7 and
43. -/
def Obligations.SessionRequestsAreCarriedOut : Prop :=
  (∀ (s : State) (x : Session) (tag cnt : Nat) (mac : List Byte), s.accepts x 0x04 0 tag cnt [] mac →
    ∃ t, exec (.close tag cnt [] mac) s = .next t ∧ t.cap.mgt.session = none ∧
      t.cap.mgt.resp = some (sessionResp x.ks 0 tag cnt []) ∧ t.cap.log.next = s.cap.log.next + 1 ∧ t.slices = s.slices) ∧
  (∀ (s : State) (x : Session) (tag cnt : Nat) (mac : List Byte), s.accepts x 0x10 1 tag cnt [] mac →
    ∃ t, exec (.logHead tag cnt [] mac) s = .next t ∧ t.cap.log = s.cap.log ∧ t.slices = s.slices ∧
      t.cap.mgt.resp = some (sessionResp x.ks 0 tag cnt (toLe 8 s.cap.log.headReg.toNat ++ toLe 8 s.cap.log.lastReg.toNat ++
        toLe 8 s.cap.log.dropReg.toNat)) ∧ t.cap.mgt.session.map (·.last) = some cnt) ∧
  (∀ (s : State) (x : Session) (tag cnt k : Nat) (r : Stored) (mac : List Byte), k < 1024 → s.cap.log.first[k]? = some r → r.lost = false →
    s.accepts x 0x11 1 tag cnt ([1, 1, 0, 0] ++ toLe 4 k) mac →
    ∃ t, exec (.logRead tag cnt ([1, 1, 0, 0] ++ toLe 4 k) mac []) s = .next t ∧ t.cap.log = s.cap.log ∧ t.slices = s.slices ∧
      t.cap.mgt.resp = some (sessionResp x.ks 0 tag cnt ([1, 0, 0, 0] ++ r.bytes))) ∧
  (∀ (s : State) (x : Session) (tag cnt i : Nat) (sl : Slice) (mac : List Byte), s.answers i sl →
    s.accepts x 0x12 1 tag cnt (toLe 4 (0x100000 + 0x10000 * i + 0x5000) ++ [0, 0, 0, 0]) mac →
    ∃ t, exec (.regRead tag cnt (toLe 4 (0x100000 + 0x10000 * i + 0x5000) ++ [0, 0, 0, 0]) mac) s = .next t ∧ t.slices = s.slices ∧
      t.cap.mgt.resp = some (sessionResp x.ks 0 tag cnt (toLe 8 sl.cnt.ctl.toNat)) ∧ t.cap.irq = s.cap.irq) ∧
  (∀ (s : State) (x : Session) (tag cnt i v : Nat) (sl : Slice) (mac : List Byte), s.answers i sl → v < 2 ^ 64 →
    s.accepts x 0x20 2 tag cnt (toLe 4 (0x100000 + 0x10000 * i + 0x5000) ++ [0, 0, 0, 0] ++ toLe 8 v) mac →
    ∃ t, exec (.regWrite tag cnt (toLe 4 (0x100000 + 0x10000 * i + 0x5000) ++ [0, 0, 0, 0] ++ toLe 8 v) mac) s = .next t ∧
      t.slices = s.slices.set i { sl with cnt := { sl.cnt with ctl := BitVec.ofNat 64 v &&& 0xFFFF } } ∧
      t.cap.mgt.resp = some (sessionResp x.ks 0 tag cnt [])) ∧
  ∀ (s : State) (x : Session) (tag cnt : Nat) (mac : List Byte), s.accepts x 0x30 4 tag cnt [1, 0, 0, 0] mac → s.cap.log.thresh = 0 →
    s.cap.log.first.length = 1024 →
    ∃ t r, exec (.logClear tag cnt [1, 0, 0, 0] mac) s = .next t ∧ t.cap.log.first = s.cap.log.first ∧ t.cap.log.last = [r] ∧
      r.seq = s.cap.log.next ∧ t.cap.log.clears = min 255 (s.cap.log.clears + 1) ∧ t.cap.log.next = s.cap.log.next + 1 ∧
      t.cap.mgt.resp = some (sessionResp x.ks 0 tag cnt (toLe 4 s.cap.log.next.toNat))

/-- A request of a session that is out of sequence or whose MAC is wrong has BAD_MAC and no effect; the last accepted request again has its
stored response and no further effect; without a session the status is NO_SESSION (R549, R552). Where the spec leaves a point open, the
statement has the model's choice: log entries 7 and 42. -/
def Obligations.SessionRequestsAreRefused : Prop :=
  (∀ (s : State) (x : Session) (tag cnt : Nat) (body mac : List Byte), s.managed → s.cap.unconfigured = false →
    s.cap.mgt.session = some x → cnt ≠ x.last →
    (cnt ≠ (x.last + 1) % 2 ^ 32 ∨ mac ≠ frameMac x.ks (frameBytes 0x20 tag cnt body)) →
    exec (.regWrite tag cnt body mac) s = .next (s.withCap (s.cap.answer (withCrc (frameBytes 0x05 tag cnt []))))) ∧
  (∀ (s : State) (x : Session) (tag cnt : Nat) (body mac : List Byte), s.managed → s.cap.unconfigured = false →
    s.cap.mgt.session = some x → cnt = x.last → frameBytes 0x20 tag cnt body ++ mac = x.lastReq →
    exec (.regWrite tag cnt body mac) s = .next (s.withCap (s.cap.answer x.lastResp))) ∧
  ∀ (s : State) (tag cnt : Nat) (body mac : List Byte) (lost : List Nat), s.managed → s.cap.unconfigured = false →
    s.cap.mgt.session = none →
    let refused : Host.Outcome State Fault Refusal := .next (s.withCap (s.cap.answer (withCrc (frameBytes 0x04 tag cnt []))))
    exec (.close tag cnt body mac) s = refused ∧ exec (.logHead tag cnt body mac) s = refused ∧ exec (.logRead tag cnt body mac lost) s = refused ∧
    exec (.regRead tag cnt body mac) s = refused ∧ exec (.regWrite tag cnt body mac) s = refused ∧ exec (.logClear tag cnt body mac) s = refused

/-- A session ends 10 s after its last accepted request, with its record (R553); a challenge expires 1 s after its issue (R551); the lockout
ends at its time (R554). None of them ends earlier. Where the spec leaves a point open, the statement has the model's choice: log entry
43. -/
def Obligations.SessionsChallengesAndLockoutsExpire : Prop :=
  (∀ (s : State) (x : Session), s.decides → s.cap.mgt.session = some x → x.since + 20000000000 ≤ s.cap.tb.time →
    ∃ t, exec .sessionIdleTimeout s = .next t ∧ t.cap.mgt = { s.cap.mgt with session := none } ∧ t.cap.log.next = s.cap.log.next + 1 ∧
      t.slices = s.slices) ∧
  (∀ (s : State) (x : Challenge), s.decides → s.cap.mgt.challenge = some x → x.since + 2000000000 ≤ s.cap.tb.time →
    exec .challengeExpiry s = .next (s.withCap { s.cap with mgt := { s.cap.mgt with challenge := none } })) ∧
  (∀ (s : State) (l : Nat), s.decides → s.cap.mgt.lockout = some l → l ≤ s.cap.tb.time →
    exec .lockoutExpiry s = .next (s.withCap { s.cap with mgt := { s.cap.mgt with lockout := none } })) ∧
  ∀ (s : State) (x : Session) (ch : Challenge) (l : Nat), s.cap.mgt.session = some x → s.cap.mgt.challenge = some ch →
    s.cap.mgt.lockout = some l → s.cap.tb.time < x.since + 20000000000 → s.cap.tb.time < ch.since + 2000000000 → s.cap.tb.time < l →
    exec .sessionIdleTimeout s = .next s ∧ exec .challengeExpiry s = .next s ∧ exec .lockoutExpiry s = .next s

/-- The common command codes of the management port (R544, R545): ENTDAA gives an unaddressed port its address, RSTDAA takes it and ends the
session with its record (R553), the reads give the provisional ID, BCR, DCR, 256 for both maximum lengths, and two status bytes, whatever
they are; ENEC, DISEC and codes that the port does not support change nothing. Where the spec leaves a point open, the statement has the
model's choice: log entry 26. -/
def Obligations.CommonCommandCodes : Prop :=
  (∀ (s : State) (a : BitVec 7), s.cap.su.power = .running → s.cap.mgt.addr = none →
    exec (.entdaa a) s = .next (s.withCap { s.cap with mgt := { s.cap.mgt with addr := some a.toNat, out := some (s.cap.pid ++ [0, 0]) } })) ∧
  (∀ s : State, s.cap.su.power = .running → s.cap.mgt.session = none →
    exec .rstdaa s = .next (s.withCap { s.cap with mgt := { s.cap.mgt with addr := none } })) ∧
  (∀ (s : State) (x : Session), s.cap.su.power = .running → s.cap.mgt.session = some x →
    ∃ t, exec .rstdaa s = .next t ∧ t.cap.mgt = { s.cap.mgt with session := none, addr := none } ∧
      t.cap.log.next = s.cap.log.next + 1 ∧ t.slices = s.slices) ∧
  (∀ s : State, s.cap.su.power = .running → s.cap.mgt.addr.isSome = true →
    exec .getpid s = .next (s.withCap (s.cap.give (some s.cap.pid))) ∧ exec .getbcr s = .next (s.withCap (s.cap.give (some [0]))) ∧
    exec .getdcr s = .next (s.withCap (s.cap.give (some [0]))) ∧ exec .getmwl s = .next (s.withCap (s.cap.give (some [1, 0]))) ∧
    exec .getmrl s = .next (s.withCap (s.cap.give (some [1, 0]))) ∧
    ∃ b c : Byte, exec .getstatusCcc s = .next { s with fresh := s.fresh + 1, cap := s.cap.give (some [b, c]) }) ∧
  ∀ (s : State) (n : Nat), exec (.enec n) s = .next s ∧ exec (.disec n) s = .next s ∧ exec (.unsupportedCcc n) s = .next s

/-! ### Heartbeats, death, epochs -/

/-- A slice's heartbeat is noted at the Capstan with the time of its arrival, and the next one is due 1 us later (R502). A check, which takes
place as engine time reaches a whole microsecond and at no other moment, finds the
slices that have been silent for 4 us, or have stopped, and no others (R502): each is declared dead, its fences are asked for, and the
epoch changes (R504). A live slice whose heartbeats come in time is left alone. Where the spec leaves a point open, the statement has
the model's choice: log entries 52 and 54. -/
def Obligations.HeartbeatsAreWatched : Prop :=
  (∀ (s : State) (i : Nat) (sl : Slice), s.slices[i]? = some sl → sl.works s.cap = true → s.decides → s.cap.tb.on = true →
     sl.beatAt + 2000 ≤ sl.time →
     exec (.heartbeat i) s = .next ((s.put i { sl with beatAt := sl.time }).withCap { s.cap with hl := { s.cap.hl with
       beats := s.cap.hl.beats.map (fun b => if b.1 = i then (b.1, s.cap.tb.time) else b) } })) ∧
  (∀ s : State, 5 ≤ s.cap.tb.time % 2000 → exec .heartbeatCheck s = .next s) ∧
  ((∀ (s : State) (i : Nat), s.decides → s.cap.su.state = .ready → s.cap.tb.time % 2000 < 5 → s.settled →
     (∀ c ∈ s.cap.ctxs, c.pass ≠ .draining) → s.cap.hl.deaths = [] → s.silent = [i] → s.cap.hl.epochBusy = false → i < s.cap.hl.slices.length →
     ∃ t d, exec .heartbeatCheck s = .next t ∧ t.cap.hl.slices = s.cap.hl.slices.set i .deadIsolated ∧ t.cap.hl.deaths = [d] ∧
       d.slice = i ∧ d.probeDone = false ∧ d.fenced = false ∧ d.since = s.cap.tb.time ∧ t.cap.hl.epochBusy = true ∧
       t.cap.hl.epoch = (s.cap.hl.epoch + 1) % 65536 ∧ t.slices = s.slices ∧
       (s.hasStopped i = false → t.cap.hl.fault.toNat / 256 % 256 = 5)) ∧
   (∀ s : State, s.decides → s.cap.su.state = .ready → s.cap.tb.time % 2000 < 5 → s.settled → (∀ c ∈ s.cap.ctxs, c.pass ≠ .draining) →
     (∀ d ∈ s.cap.hl.deaths, d.probeDone = true) → s.silent = [] → (∀ d ∈ s.cap.hl.deaths, d.begun = true) →
     exec .heartbeatCheck s = .next s) ∧
   ∀ (s : State) (i : Nat), i ∈ s.silent ↔ i < s.cap.n ∧ s.cap.hl.slices.getD i .absent = .live ∧
     ((∃ b ∈ s.cap.hl.beats, b.1 = i ∧ b.2 + 8000 ≤ s.cap.tb.time) ∨ ∃ sl, s.slices[i]? = some sl ∧ sl.stopped = true))

/-- A clean answer of the router within 1 us leaves the dead slice in pass-through; any other answer, or a later one, isolates it; its proxy
is a live slice (R504, R508). The fences of its die are confirmed each once, the mesh interface's and the memory controllers' (R505, R598),
and the proxy's duty begins when both are and the probe has ended. The proxy
reads the journal of the dead slice's die once its duty has begun: the journal is read; an entry whose line came poisoned is captured as
JOURNAL_LOST, for its batch cannot be completed (R489, R491, R505). Where the spec leaves a point open, the statement has the model's
choice: log entry 52. -/
def Obligations.ProbesFencesAndJournalsEnd : Prop :=
  ((∀ (s : State) (i : Nat) (d : Death) (clean : Bool), s.decides → s.cap.hl.deaths = [d] → d.slice = i → d.probeDone = false →
     d.fenced = false →
     ∃ t, exec (.routerProbeAnswer i clean) s = .next t ∧
       t.slices = (if clean && decide (s.cap.tb.time ≤ d.since + 2000) then updateAt Slice.passThrough i s.slices else s.slices) ∧
       t.cap.hl.deaths = [{ d with probeDone := true }] ∧
       t.cap.hl.slices = s.cap.hl.slices.set i (if clean && decide (s.cap.tb.time ≤ d.since + 2000) then .deadPass else .deadIsolated) ∧
       ∀ p, (i, p) ∈ t.cap.hl.proxies → t.cap.hl.slices.getD p .absent = .live) ∧
   (∀ (s : State) (i : Nat) (d : Death), s.cap.su.power = .running → s.cap.hl.failed = false → s.cap.hl.deaths = [d] → d.slice = i →
     d.probeDone = false →
     exec (.fencesConfirmed i) s = .next (s.withCap { s.cap with hl := { s.cap.hl with
       deaths := [{ d with meshAck := true, memAck := true, fenced := true }] } })) ∧
   (∀ (s : State) (i : Nat) (d : Death) (mesh : Bool), s.cap.su.power = .running → s.cap.hl.failed = false → s.cap.hl.deaths = [d] →
     d.slice = i → d.fenced = false → (if mesh then d.memAck else d.meshAck) = false →
     exec (.fencesConfirmed i mesh (!mesh)) s = .next (s.withCap { s.cap with hl := { s.cap.hl with
       deaths := [{ d with meshAck := d.meshAck || mesh, memAck := d.memAck || !mesh }] } })) ∧
   ∀ (s : State) (i p : Nat) (d : Death) (sl : Slice), s.cap.su.power = .running → s.cap.hl.failed = false → s.cap.hl.deaths = [d] →
     d.slice = i → d.probeDone = true → d.begun = false → s.cap.hl.proxies = [(i, p)] → s.slices[i]? = some sl → sl.store.casks = [] → sl.store.maps = [] →
     exec (.fencesConfirmed i) s = .next (s.withCap { s.cap with hl := { s.cap.hl with
       deaths := [{ d with meshAck := true, memAck := true, fenced := true, begun := true }] } })) ∧
  ((∀ (s : State) (die p : Nat) (d : Death) (dead sl : Slice), s.settled → s.decides → s.cap.hl.deaths = [d] → d.slice = die →
     d.begun = true → d.read = false → s.cap.hl.proxies = [(die, p)] → die ≠ p → s.slices[die]? = some dead → s.working p sl →
     dead.ing.batches = [] → dead.ing.pendq = [] → dead.ing.fromJournal = [] → dead.ing.adopting = [] →
     sl.ing.fromJournal = [] →
     (∀ c ∈ s.cap.ctxs, c.pass ≠ .draining) →
     ∃ t, exec (.journalReadDone die []) s = .next t ∧ t.cap.hl.deaths = [{ d with read := true }] ∧ t.slices = s.slices ∧
       t.cap.hl.fault = s.cap.hl.fault) ∧
   ∀ (s : State) (die p : Nat) (d : Death) (dead sl : Slice), s.settled → s.decides → s.cap.hl.deaths = [d] → d.slice = die →
     d.begun = true → d.read = false → s.cap.hl.proxies = [(die, p)] → die ≠ p → s.slices[die]? = some dead → s.working p sl →
     dead.id = die → dead.ing.batches = [] → dead.ing.pendq = [] → dead.ing.fromJournal = [] → dead.ing.adopting = [] →
     sl.ing.fromJournal = [] →
     (∀ c ∈ s.cap.ctxs, c.pass ≠ .draining) →
     ∃ t, exec (.journalReadDone die [none]) s = .next t ∧ t.cap.hl.deaths = [{ d with read := true }] ∧
       t.cap.hl.fault.toNat / 256 % 256 = 0x0A ∧ t.cap.su.faultLow = true)

/-- A slice that receives a new epoch holds its new messages and stamps the epoch (R415 steps 2 to 6); it reports once nothing of the old
epoch is left with it (step 8), and after the last report the change has ended (step 9). HOLD is cleared at a slice once the change of
its epoch has ended; queries of other homes are discarded there, for their homes replay them (R506). Where the spec leaves a point open,
the statement has the model's choice: log entries 21 and 52. -/
def Obligations.EpochsChangeAndEnd : Prop :=
  ((∀ (s : State) (i : Nat) (sl : Slice), s.working i sl → s.decides → s.cap.hl.epochBusy = true → sl.rope.epoch ≠ s.cap.hl.epoch →
     (∀ d ∈ s.cap.hl.deaths, d.probeDone = true) → sl.linksIdle →
     ∃ sl', exec (.epochChange i) s = .next (s.put i sl') ∧ sl'.rope.epoch = s.cap.hl.epoch ∧ sl'.rope.hold = true ∧
       sl'.rope.drained = false ∧ sl'.rope.routes = sl.rope.routes ∧ sl'.mash = sl.mash ∧ sl'.work = sl.work ∧ sl'.ing = sl.ing ∧
       sl'.store = sl.store ∧ sl'.cache = sl.cache ∧ sl'.str = sl.str) ∧
   (∀ (s : State) (i j : Nat) (sl : Slice), s.working i sl → s.cap.hl.failed = false → s.cap.hl.epochBusy = true → sl.rope.hold = true →
     sl.rope.epoch = s.cap.hl.epoch → s.drainedAt sl = true → (∀ c ∈ s.cap.ctxs, c.pass ≠ .draining) → ¬ i ∈ s.cap.hl.drained →
     j < s.cap.n → s.cap.hl.slices.getD j .absent = .live → j ≠ i → ¬ j ∈ s.cap.hl.drained →
     exec (.epochDrainReport i) s = .next ((s.put i { sl with rope := { sl.rope with drained := true } }).withCap
       { s.cap with hl := { s.cap.hl with drained := s.cap.hl.drained ++ [i] } })) ∧
   ∀ (s : State) (i : Nat) (sl : Slice), s.working i sl → s.decides → s.cap.hl.epochBusy = true → s.cap.hl.epochAgain = false →
     sl.rope.hold = true → sl.rope.epoch = s.cap.hl.epoch → s.drainedAt sl = true → (∀ c ∈ s.cap.ctxs, c.pass ≠ .draining) →
     (∀ j < s.cap.n, s.cap.hl.slices.getD j .absent = .live → j = i ∨ j ∈ s.cap.hl.drained) → s.cap.unreachable = [] →
     s.cap.hl.deaths = [] →
     ∃ t, exec (.epochDrainReport i) s = .next t ∧ t.cap.hl.epochBusy = false ∧ t.cap.hl.drained = [] ∧
       t.cap.hl.epoch = s.cap.hl.epoch ∧ t.slices.length = s.slices.length ∧ (∀ m ∈ t.rope, m.src = m.dest ∨ m.epoch = s.cap.hl.epoch)) ∧
  (∀ (s : State) (i : Nat) (sl : Slice), s.working i sl → s.decides → sl.id = i → sl.rope.hold = true → s.cap.hl.epochBusy = false →
     sl.rope.epoch = s.cap.hl.epoch → sl.ing.batches = [] → sl.ing.maintOut = [] → sl.linksIdle →
     (∀ c ∈ s.cap.ctxs, c.pass ≠ .draining) →
     ∃ t sl', exec (.holdCleared i) s = .next t ∧ t.slices[i]? = some sl' ∧ sl'.rope.hold = false ∧
       (∀ q ∈ sl'.queries, q.home = i) ∧ (∀ e ∈ sl'.store.entries, e.home = i) ∧ sl'.cache = sl.cache ∧ t.cap.hl = s.cap.hl)

/-! ### The Capstan's restart -/

/-- A lockstep mismatch restarts the Capstan, which the slices' state outlives (R510, R511); where protected state is lost in both halves it
fails for good: its session, its messages and a context command in progress end, and the register of the lost word answers POISON from then
on (R512, R570). At the end of a restart the Capstan decides again; CAP_RESTART counts it with its length, every heartbeat window is fresh,
and no slice's copy of engine time lies behind (R510, R511, R525, R606). Where the spec leaves a point open, the statement has the model's
choice: log entries 54 and 55. -/
def Obligations.TheCapstanRestarts : Prop :=
  ((∀ s : State, s.decides →
     ∃ t, exec (.lockstepMismatch none) s = .next t ∧ t.cap.hl.restarting = some s.cap.tb.time ∧ t.cap.hl.failed = false ∧
       t.cap.hl.fault.toNat / 256 % 256 = 7 ∧ t.cap.hl.fault.getLsbD 21 = true ∧ t.slices = s.slices ∧ t.cap.ctxs = s.cap.ctxs) ∧
   ∀ (s : State) (off : Nat), s.decides →
     ∃ t, exec (.lockstepMismatch (some off)) s = .next t ∧ t.cap.hl.failed = true ∧ t.cap.hl.lost = s.cap.hl.lost ++ [off] ∧ t.cap.irq.closed = true ∧
       t.cap.mgt.session = none ∧ t.cap.mgt.challenge = none ∧ t.cap.cmd = none ∧ t.cap.hl.fault.toNat / 256 % 256 = 0x0C ∧ t.cap.su.faultLow = true ∧ t.slices = s.slices) ∧
  (∀ (s : State) (since : Nat), s.cap.su.power = .running → s.cap.hl.restarting = some since → s.cap.hl.waiting = [] →
     s.cap.hl.accesses = [] → s.cap.hl.epochBusy = false → s.settled → (∀ c ∈ s.cap.ctxs, c.pass ≠ .draining) →
     (∀ sl ∈ s.slices, sl.ing.pendq = []) → s.cap.tb.heldTicks = [] →
     ∃ t, exec .capstanRestartDone s = .next t ∧ t.cap.hl.restarting = none ∧
       t.cap.hl.restartCount = min 0xFFFF (s.cap.hl.restartCount + 1) ∧ t.cap.hl.lastRestart = (s.cap.tb.time - since) / 2 ∧
       (∀ b ∈ t.cap.hl.beats, b.2 = s.cap.tb.time) ∧ (∀ sl ∈ t.slices, s.cap.tb.time ≤ sl.time) ∧ t.slices.length = s.slices.length)

/-! ### Links -/

/-- A sound flit in sequence is accepted: its number is expected no longer, NAK is clear (R408), and where it has reached its slice it leaves the
receive buffer and its channel's credit is owed (R413), to be returned at once where 32 are. A
flit with a bad word is rejected: NAK is set, nothing is expected anew, and LINK_ERR captures it (R409, R428). Where the spec leaves a
point open, the statement has the model's choice: log entry 57. A message leaves as flits of 96 body bytes each, FIRST on the first alone
and LAST on the last alone, and a flit's words, FRAME_SEQ and FRAME_MARK stand at their bits (R401, R402). -/
def Obligations.FlitsAreAcceptedInSequence : Prop :=
  (∀ (env : Capstan) (m : RopeMsg), (m.flits env).flatMap (·.body) = bodyOf env m ∧
    (m.flits env).length = max 1 (((bodyOf env m).length + 95) / 96)) ∧
  (∀ (env : Capstan) (m : RopeMsg) (k : Nat) (f : Flit), (m.flits env)[k]? = some f →
    f.body.length ≤ 96 ∧ f.first = decide (k = 0) ∧
      f.last = decide (k + 1 = (m.flits env).length) ∧ f.words ≤ 6 ∧ f.vc = m.vc ∧ f.dest = m.dest ∧ f.src = m.src ∧
      f.mhdr = (if k = 0 then m.mhdr (bodyOf env m).length else 0)) ∧
  (∀ f : Flit, (∀ w < 7, flitBits f / 2 ^ (144 * w) % 2 ^ 128 = flitWord f w % 2 ^ 128) ∧
    flitBits f / 2 ^ 1008 % 2 ^ 8 = f.frameSeq % 2 ^ 8 ∧ flitBits f / 2 ^ 1016 = f.frameMark % 2 ^ 8 ∧
    flitHeader f % 4 = f.vc % 4 ∧ flitHeader f / 2 ^ 8 % 2 ^ 8 = f.seq % 2 ^ 8 ∧ flitHeader f / 2 ^ 16 % 2 ^ 8 = f.ack % 2 ^ 8 ∧
    flitHeader f / 2 ^ 26 % 2 ^ 5 = f.dest % 2 ^ 5 ∧ flitHeader f / 2 ^ 31 % 2 ^ 5 = f.src % 2 ^ 5 ∧
    flitHeader f / 2 ^ 40 % 2 ^ 16 = f.epoch % 2 ^ 16 ∧ flitHeader f / 2 ^ 64 = f.mhdr % 2 ^ 64) ∧
  (∀ (s : State) (i port m : Nat) (sl : Slice) (p : Port) (x : Module) (f : Flit), s.working i sl → sl.rope.ports[port]? = some p →
    p.modules[m]? = some x → x.st = .up → p.st ≠ .down → flitError s.cap.n p m f = none → f.mtype ≠ 0 → f.seq = x.expect →
    f.seq < 256 → x.rejects.length < 16 → sl.linksIdle →
    ∃ t sl' p' x', exec (.flitReceived i port m f) s = .next t ∧ t.slices[i]? = some sl' ∧ sl'.rope.ports[port]? = some p' ∧
      p'.modules[m]? = some x' ∧ x'.expect = (f.seq + 1) % 256 ∧ x'.lastOk = f.seq ∧ x'.nak = false ∧ t.cap = s.cap ∧
      (f.dest = sl.id → f.vc ≠ 2 → (∀ n ∈ p.owed, n < 31) →
        p'.buf = [] ∧ p'.owed = updateAt (· + 1) (vcIndex f.vc) p.owed ∧ p'.owedSince.isSome = true)) ∧
  ∀ (s : State) (i port m : Nat) (sl : Slice) (p : Port) (x : Module) (f : Flit), s.working i sl → sl.rope.ports[port]? = some p →
    p.modules[m]? = some x → x.st = .up → p.st ≠ .down → f.wordsOk = false → f.frameMark = 0xB4 → x.rejects.length < 15 →
    ∃ t sl' p' x', exec (.flitReceived i port m f) s = .next t ∧ t.slices[i]? = some sl' ∧ sl'.rope.ports[port]? = some p' ∧
      p'.modules[m]? = some x' ∧ x'.expect = x.expect ∧ x'.nak = true ∧ x'.replay = x.replay ∧ sl'.rope.linkErr.getLsbD 0 = true ∧
      sl'.rope.linkErr.toNat / 8 % 4 = m % 4 ∧ sl'.rope.linkErr.toNat / 32 % 8 = 1

/-- A CREDIT flit that arrives adds its counts to the port's credits (R413); the timer returns all that the port owes in one CREDIT flit,
which takes a place in the replay buffer (R408, R411, R413). Retraining that succeeds puts the module back to work at both ends of its
link; one that fails leaves it DOWN at both ends, and the loss is captured in LINK_ERR (R410, R428). The link itself is not lost while
another module of it works. Where the spec leaves a point open, the statement has the model's choice: log entry 57. -/
def Obligations.CreditsReturnAndLinksRetrain : Prop :=
  ((∀ (s : State) (i port a b c e x y z : Nat) (sl : Slice) (p : Port), s.working i sl → sl.rope.ports[port]? = some p → p.st = .up →
     p.stamp = none → p.credits = [x, y, z] → sl.linksIdle →
     exec (.credit i port a b c e) s = .next (s.put i { sl with rope := { sl.rope with
       ports := sl.rope.ports.set port { p with credits := [x + a % 4096, y + b % 4096, z + c % 4096] } } })) ∧
   ∀ (s : State) (i port m since : Nat) (sl : Slice) (p : Port) (x : Module), s.working i sl → port < 4 →
     sl.rope.ports[port]? = some p → sl.linksIdle → p.lowest = some m → p.modules[m]? = some x → x.replay.length < 128 → p.owedSince = some since →
     ∃ sl' p' x', exec (.creditReturnTimer i port) s = .next (s.put i sl') ∧ sl'.rope.ports[port]? = some p' ∧ p'.owed = [0, 0, 0] ∧
       p'.owedSince = none ∧ p'.credits = p.credits ∧ p'.modules[m]? = some x' ∧ x'.nextSeq = (x.nextSeq + 1) % 256 ∧
       x'.replay = x.replay ++
         [x.stamp x.nextSeq (creditFlit sl.id ((s.cap.neighbour sl.id port).getD sl.id) sl.rope.epoch p.owed)] ∧
       sl'.rope.sendq = sl.rope.sendq) ∧
  ((∀ (s : State) (i j port m : Nat) (sl sr : Slice) (p q : Port) (x y : Module), s.working i sl → sl.rope.ports[port]? = some p →
     p.modules[m]? = some x → x.st = .retraining → s.cap.neighbour i port = some j → j ≠ i → s.slices[j]? = some sr →
     sr.rope.ports[facing port]? = some q → q.modules[m]? = some y → sl.linksIdle → sr.linksIdle →
     (∀ z ∈ p.modules ++ q.modules, z.st ≠ .down) →
     ∃ t sl' sr' p' q' x' y', exec (.retrainDone i port m true) s = .next t ∧ t.slices[i]? = some sl' ∧ t.slices[j]? = some sr' ∧
       sl'.rope.ports[port]? = some p' ∧ sr'.rope.ports[facing port]? = some q' ∧ p'.modules[m]? = some x' ∧ q'.modules[m]? = some y' ∧
       x'.st = .up ∧ y'.st = .up ∧ x'.replay = x.resend.replay ∧ y'.replay = y.resend.replay ∧ t.cap = s.cap ∧ t.rope = s.rope) ∧
   ∀ (s : State) (i j port m k : Nat) (sl sr : Slice) (p q : Port) (x y z : Module), s.working i sl → sl.rope.ports[port]? = some p →
     p.modules[m]? = some x → x.st = .retraining → s.cap.neighbour i port = some j → j ≠ i → s.slices[j]? = some sr →
     sr.rope.ports[facing port]? = some q → q.modules[m]? = some y → sl.linksIdle → sr.linksIdle → x.replay = [] →
     y.replay = [] → p.st ≠ .unused → p.st ≠ .down → k ≠ m → p.modules[k]? = some z → z.st = .up → (∀ z ∈ p.modules ++ q.modules, z.st ≠ .down) →
     ∃ t sl' sr' p' q' x' y', exec (.retrainDone i port m false) s = .next t ∧ t.slices[i]? = some sl' ∧ t.slices[j]? = some sr' ∧
       sl'.rope.ports[port]? = some p' ∧ sr'.rope.ports[facing port]? = some q' ∧ p'.modules[m]? = some x' ∧ q'.modules[m]? = some y' ∧
       x'.st = .down ∧ y'.st = .down ∧ sl'.rope.linkErr.getLsbD 0 = true ∧ sl'.rope.linkErr.toNat / 32 % 8 = 4 ∧
       t.cap.hl.lostLinks = s.cap.hl.lostLinks ∧ t.rope = s.rope)

/-! ### Streams and pages -/

/-- A burst moves up to 8 descriptors from a stream's list to its window (R364); an invalid one among them stops the slice (R363). A stream
issues its next block with credits of its reserve, or of the shared part of its pool: a FETCH block whose lines are present, or a result
write, which is on its way at the mesh port under a free one of the 256 IDs (R363, R366, R367, R369, R594). Where the spec leaves a point
open, the statement has the model's choice: log entries 17 and 22. -/
def Obligations.BlocksAreFetchedAndIssued : Prop :=
  ((∀ (s : State) (i k : Nat) (sl : Slice) (st : Stream), s.working i sl → sl.str.streams[k]? = some st → st.window.length ≤ 8 →
     st.ring ≠ [] → (∀ b ∈ st.ring.take 8, b.bad = false) → sl.calm →
     ∃ v, exec (.streamBurstFetch i k) s = .next (s.put i { sl with
       cnt := { sl.cnt with vals := v }
       str := { sl.str with streams := sl.str.streams.set k { st with ring := st.ring.drop 8, window := st.window ++ st.ring.take 8 } } })) ∧
   ∀ (s : State) (i k : Nat) (sl : Slice) (st : Stream) (b : Block), s.working i sl → s.decides → sl.str.streams[k]? = some st →
     st.window.length ≤ 8 → b ∈ st.ring.take 8 → b.bad = true →
     ∃ t sl', exec (.streamBurstFetch i k) s = .next t ∧ t.slices[i]? = some sl' ∧ sl'.stopped = true ∧
       t.cap.hl.fault.toNat / 256 % 256 = 4 ∧ t.cap.hl.fault.toNat / 2 ^ 24 % 256 = 0x12) ∧
  ((∀ (s : State) (i k lay job : Nat) (sl : Slice) (st : Stream) (b : Block) (rest : List Block) (reserve : Bool), s.working i sl → k < 8 →
     sl.str.streams[k]? = some st → st.resume = none → st.starved = false → st.outstanding < 8 → st.window = b :: rest →
     b.use = .fetch lay job → sl.str.grant s.cap k b.need st = some reserve →
     (∀ a ∈ b.lines, (sl.cache.find (sl.view s.cap) b.part b.ctx a).isSome = true) →
     ∃ sl', exec (.streamBlockIssue i k) s = .next (s.put i sl') ∧ sl'.cache.misses = sl.cache.misses ∧ sl'.ing = sl.ing ∧
       sl'.str = { sl.str with streams := sl.str.streams.set k { st with
         window := rest, next := (st.next + 1) % 2 ^ 32
         transfers := st.transfers ++ [{ index := st.next, block := b, credits := b.need, reserve := reserve, handles := [], done := false }]
         heldReserve := st.heldReserve + (if reserve then b.need else 0), heldShared := st.heldShared + (if reserve then 0 else b.need) } }) ∧
   ∀ (s : State) (i k id : Nat) (sl : Slice) (st : Stream) (b : Block) (rest : List Block) (w : MeshWrite) (reserve : Bool), s.working i sl →
     8 ≤ k → k < 12 → sl.str.streams[k]? = some st → st.resume = none → st.starved = false → st.outstanding < 8 →
     st.window = b :: rest → b.use = .result w → w.op = .write → sl.ing.meshWait = [] →
     sl.mayLeave [] { w with block := some (k, st.next) } = true → sl.ing.freeId = some id → sl.str.grant s.cap k b.need st = some reserve →
     ∃ sl' st', exec (.streamBlockIssue i k) s = .next (s.put i sl') ∧ sl'.cache = sl.cache ∧ sl'.str.streams[k]? = some st' ∧
       st'.window = rest ∧ st'.next = (st.next + 1) % 2 ^ 32 ∧
       sl'.str.queue (spliceOf k) = (sl.str.queue (spliceOf k)).drop b.need ∧ sl'.ing = { sl.ing with
         meshOut := sl.ing.meshOut ++ [{ w with block := some (k, st.next), id := id, waiting := false }]
         nextId := (id + 1) % 256 })

/-- A stream's transfers complete, are delivered in block order, and give their credits back to the part they came from (R365, R368). Where
the spec leaves a point open, the statement has the model's choice: log entries 22 and 23. -/
def Obligations.TransfersCompleteAndRepay : Prop :=
  (∀ (s : State) (i k : Nat) (sl : Slice) (st : Stream) (x : Transfer), s.working i sl → k < 8 → sl.str.streams[k]? = some st →
    st.transfers = [x] → x.done = false → x.index = st.delivered → st.delivered < 2 ^ 32 → x.credits ≠ 0 → sl.awaited k x.index = false →
    ∃ sl', exec (.streamTransferComplete i k x.index) s = .next (s.put i sl') ∧ sl'.cache = sl.cache ∧
      sl'.str = { sl.str with streams := sl.str.streams.set k { st with
        transfers := [{ x with done := true }], delivered := (st.delivered + 1) % 2 ^ 32 } }) ∧
  (∀ (s : State) (i k : Nat) (sl : Slice) (st : Stream) (x : Transfer), s.working i sl → k < 8 → sl.str.streams[k]? = some st →
    st.transfers = [x] → st.isDelivered x.index = true → x.credits ≠ 0 → sl.work.jobs0 = [] → sl.work.jobs1 = [] →
    exec (.creditReturn i k x.index) s = .next (s.put i { sl with str := { sl.str with streams := sl.str.streams.set k { st with
      transfers := [], heldReserve := st.heldReserve - (if x.reserve then x.credits else 0)
      heldShared := st.heldShared - (if x.reserve then 0 else x.credits), starved := st.starved && !x.reserve } } })) ∧
  ∀ (s : State) (i k : Nat) (sl : Slice) (st : Stream) (x : Transfer), s.working i sl → 12 ≤ k → k < 15 → sl.str.streams[k]? = some st →
    st.transfers = [x] → st.isDelivered x.index = true → x.credits ≠ 0 → sl.unplaced x.block = false → sl.calm →
    exec (.creditReturn i k x.index) s = .next (s.put i { sl with
      cache := sl.cache.freeBuffers (x.handles.map handleBuf)
      str := { sl.str with streams := sl.str.streams.set k { st with
        transfers := [], heldReserve := st.heldReserve - (if x.reserve then x.credits else 0)
        heldShared := st.heldShared - (if x.reserve then 0 else x.credits), starved := st.starved && !x.reserve } } })

/-- An access that was translated goes on at its physical address, of which the page gives the high bits (R595, R596); one that needs a page
gives up its miss register, is captured in STR_FAULT, and its page is asked for once (R375, R394). A page that is there resumes the streams
that faulted on it at their RESUME index, and what the RESTORE stream delivered as poison and its consumer has not taken is read again
(R378); a request without an answer ends after 10 ms of engine time and not before (R379). Where the spec leaves a point open, the statement
has the model's choice: log entries 24, 41 and 51. -/
def Obligations.AccessesNeedPages : Prop :=
  ((∀ (s : State) (i r size page : Nat) (sl : Slice), s.working i sl → (∀ m ∈ sl.cache.misses, m.reg = r → m.got ≠ []) →
     exec (.translationResponse i (.miss r) (.translated size page)) s = .next s) ∧
   (∀ (s : State) (i size n page : Nat) (sl : Slice) (m : ScMiss), s.working i sl → sl.cache.misses = [m] → m.got = [] →
     (size, n) ∈ [(0, 4096), (1, 65536), (2, 2097152), (3, 1073741824)] → page < 2 ^ 36 →
     exec (.translationResponse i (.miss m.reg) (.translated size page)) s = .next (s.put i { sl with cache := { sl.cache with
       misses := [{ m with phys := some ((page * 4096 / n * n + m.addr % n) / 256 * 256) }] } })) ∧
   ∀ (s : State) (i : Nat) (sl : Slice) (m : ScMiss) (c : Ctx), s.working i sl → sl.cache.misses = [m] → m.got = [] → m.part ≠ .stream →
     m.waiters = [] → sl.calm → (sl.view s.cap).ctx? m.ctx = some c → sl.tokens ≠ 0 → s.cap.hl.restarting = none → sl.dropped = 0 →
     ∃ t sl', exec (.translationResponse i (.miss m.reg) .needsPage) s = .next t ∧ t.slices[i]? = some sl' ∧ sl'.cache.misses = [] ∧
       sl'.str.fault.getLsbD 0 = true ∧ sl'.str.fault.getLsbD 6 = false ∧ sl'.str.faultAddr.toNat = m.addr % 2 ^ 48 ∧
       { ctx := m.ctx, addr := m.addr, source := 17, resume := 0 } ∈ sl'.str.awaiting ∧
       (∃ p ∈ t.cap.hl.pages, p.asid = c.asid ∧ p.page = m.addr / 4096) ∧ t.cap.ctxs = s.cap.ctxs) ∧
  (let without (s : State) (asid page : Nat) : Capstan :=
     { s.cap with hl := { s.cap.hl with pages := s.cap.hl.pages.filter (fun p => !(p.asid = asid && p.page = page)) } }
   let lapsed (sl : Slice) (asid page : Nat) (h : Reg) : Bool := (sl.str.streams[15]?).any (fun x => x.onPage asid page &&
     x.transfers.any (fun t => t.index = handleBlock h && t.credits = 0 && x.resume.any (fun j => !indexBefore t.index j)))
   (∀ (s : State) (asid page : Nat) (p : PageReq), s.cap.su.power = .running → s.settled → s.pageReq asid page = some p →
     (∀ sl ∈ s.slices, sl.work.hitched = []) →
     exec (.pageResponse asid page true) s = .next { s with
       cap := without s asid page
       slices := s.slices.map (fun sl => if sl.works s.cap then
         { sl with str := { sl.str.setQueue 7 ((sl.str.queue 7).filter (fun h => !lapsed sl asid page h)) with
           streams := sl.str.streams.map (fun x => if x.onPage asid page then x.resumed else x)
           fed := sl.str.fed.filter (fun f =>
             !((f.1, f.2.1) ∈ (sl.str.streams.filter (fun x => x.onPage asid page)).flatMap Stream.refetched))
           awaiting := sl.str.awaiting.filter (fun a => !a.onPage (sl.view s.cap) asid page) } } else sl) }) ∧
   (∀ (s : State) (asid page : Nat) (p : PageReq), s.cap.su.power = .running → s.settled → s.pageReq asid page = some p →
     (∀ sl ∈ s.slices, sl.work.hitched = [] ∧ (∀ x ∈ sl.str.streams, x.onPage asid page = false) ∧
       ∀ a ∈ sl.str.awaiting, a.onPage (sl.view s.cap) asid page = false) → p.since + 20000000 ≤ s.cap.tb.time →
     exec (.pageTimeout asid page) s = .next (s.withCap (without s asid page))) ∧
   (∀ (s : State) (asid page : Nat) (p : PageReq), s.pageReq asid page = some p → s.cap.tb.time < p.since + 20000000 →
     exec (.pageTimeout asid page) s = .next s) ∧
   ∀ (x : Stream) (j : Nat), x.resume = some j → x.resumed.next = j ∧ x.resumed.resume = none ∧ x.resumed.window = x.window ∧
     x.resumed.ring = x.ring ∧ x.resumed.delivered = (if 2 ^ 31 ≤ wrapSub 32 x.delivered j then x.delivered else j))

/-! ### Caches -/

/-- The sectors of a line fill its miss register; with the last the line is installed, clean and unreserved, with its eight sectors in
order, and the register is FREE (R312, R313, R316). A node-cache line whose register is PENDING and of the current generation is installed,
and its register is FREE (R324, R325). A node-cache register that waits has its half of the line as soon as the four sectors of it are there
(R316), and a READ block has each sector as it arrives (R316, R363). An acknowledged write frees its entry of the eviction buffer, the first
of its line; one that is not the first stays (R323). Where the spec leaves a point open, the statement has the model's choice: log entry 15.
-/
def Obligations.FillsAndEvictionsEnd : Prop :=
  (((∀ (s : State) (i k : Nat) (sl : Slice) (m : ScMiss) (data : List Byte), s.working i sl → sl.cache.misses = [m] → m.got.length < 7 →
      k = (m.first + m.got.length) % 8 → data.length = 32 → sl.work.runs = [] →
      m.waiters.all (fun r => match r with
        | .node _ _ => false
        | .run _ _ => false
        | .comb _ => false
        | .ledger _ => false
        | .stream j _ => j != 15
        | _ => true) = true →
      exec (.fillSectorArrival i m.reg k data false) s = .next (s.put i { sl with cache := { sl.cache with
        misses := [{ m with got := m.got ++ [(k, data)] }] } })) ∧
    (∀ (s : State) (i k j : Nat) (sl : Slice) (m : ScMiss) (st : Stream) (t : Transfer) (data : List Byte), s.working i sl →
      sl.cache.misses = [m] → m.got.length < 7 → k = (m.first + m.got.length) % 8 → data.length = 32 → sl.work.runs = [] →
      m.waiters = [.stream 15 j] → m.poisoned = [] → m.lost = [] → sl.str.streams[15]? = some st → st.transfers = [t] → t.index = j →
      t.got = m.got.map (fun g => (m.addr + 32 * g.1, g.2)) → (∀ g ∈ m.got, g.1 ≠ k) →
      exec (.fillSectorArrival i m.reg k data false) s = .next (s.put i { sl with
        cache := { sl.cache with misses := [{ m with got := m.got ++ [(k, data)] }] }
        str := { sl.str with streams := sl.str.streams.set 15 { st with
          transfers := [{ t with got := t.got ++ [(m.addr + 32 * k, data)] }] } } })) ∧
    ∀ (s : State) (i : Nat) (sl : Slice) (m : ScMiss) (d0 d1 d2 d3 d4 d5 d6 d7 : List Byte), s.working i sl → sl.cache.misses = [m] →
      m.first = 7 → m.got = [(7, d7), (0, d0), (1, d1), (2, d2), (3, d3), (4, d4), (5, d5)] → d6.length = 32 → m.poisoned = [] →
      m.lost = [] → m.waiters = [] → sl.calm → m.installs (sl.view s.cap) (sl.cache.freeReg m.reg) = true →
      ∃ sl', exec (.fillSectorArrival i m.reg 6 d6 false) s = .next (s.put i sl') ∧ sl'.cache.misses = [] ∧
        sl'.cache.lines = sl.cache.lines ++ [{ set := m.set, way := m.way, ctx := m.ctx, gen := m.gen, tag := m.addr, dirty := false
                                               lock := m.lock, doomed := false, rsv := 0
                                               data := d0 ++ d1 ++ d2 ++ d3 ++ d4 ++ d5 ++ d6 ++ d7 }] ∧
        sl'.cache.overflow = (if m.pin && !m.lock then satAdd 0xFFFFFFFF sl.cache.overflow 1 else sl.cache.overflow) ∧
        sl'.mash = sl.mash ∧ sl'.work = sl.work) ∧
   (∀ (s : State) (i lay w : Nat) (sl : Slice) (m : NcMiss) (d : List Byte), s.working i sl → lay < 2 → sl.cache.nodeMiss lay = [m] →
      m.ready = some d → m.st = .pending → m.gen = genOf (sl.view s.cap) m.ctx → (∀ w ∈ sl.walkers lay, w.parked = []) →
      w < 8 → ¬ (lay, nodeSet m.addr, w) ∈ sl.cache.badNode →
      ∃ sl', exec (.nodeCacheFill i lay m.reg) s = .next (s.put i sl') ∧ sl'.cache.nodeMiss lay = [] ∧
        (∃ v : Nat, { way := v, addr := m.addr, ctx := m.ctx, gen := m.gen, data := d } ∈ sl'.cache.node lay) ∧ sl'.cache.lines = sl.cache.lines ∧
        sl'.work = sl.work ∧ sl'.mash = sl.mash)) ∧
  ((∀ (s : State) (i k : Nat) (sl : Slice) (e : Evict), s.working i sl → sl.cache.evict[k]? = some e → e.poison = [] → sl.calm →
     (∀ x ∈ sl.cache.evict.take k, ¬ (x.ctx = e.ctx ∧ x.addr = e.addr)) →
     ∃ sl', exec (.evictionWriteAck i k) s = .next (s.put i sl') ∧ sl'.cache.evict = sl.cache.evict.eraseIdx k ∧
       sl'.cache.lines = sl.cache.lines ∧ sl'.cache.misses = sl.cache.misses ∧ sl'.mash = sl.mash ∧ sl'.store = sl.store) ∧
   (∀ (s : State) (i k : Nat) (sl : Slice) (e x : Evict) (read : WordCode), s.working i sl → sl.cache.evict[k]? = some e →
     x ∈ sl.cache.evict.take k → x.ctx = e.ctx → x.addr = e.addr → exec (.evictionWriteAck i k read) s = .next s) ∧
   ∀ (s : State) (i k : Nat) (sl : Slice) (m : ScMiss) (x : NcMiss) (data d : List Byte), s.working i sl → sl.cache.misses = [m] →
     m.got.length < 7 → k = (m.first + m.got.length) % 8 → data.length = 32 → m.waiters = [.node 0 x.reg] →
     sl.cache.nodeMiss0 = [x] → lineAddr x.addr = m.addr → x.ctx = m.ctx →
     ({ m with got := m.got ++ [(k, data)] } : ScMiss).half x.addr = some d →
     exec (.fillSectorArrival i m.reg k data false) s = .next (s.put i { sl with cache := { sl.cache with
       nodeMiss0 := [{ x with ready := some d }], misses := [{ m with got := m.got ++ [(k, data)], waiters := [] }] } }))

/-- A way that may be gated is ACCEPTED, drains, and its fills are not installed; a way in LOCK is refused with LOCKED whatever else holds
(R330, R331, R354, R355). A gated way that is asked for wakes (R332). A draining way is swept once its fills and reservations have
ended; swept, and with its entries of the eviction buffer acknowledged, it is GATED and the request DONE; a waking way is ACTIVE (R331,
R332). Where the spec leaves a point open, the statement has the model's choice: log entry 42. -/
def Obligations.WaysGateAndWake : Prop :=
  ((∀ (s : State) (i w : Nat) (sl : Slice), s.answers i sl → sl.stopped = false → w < 16 → bit (lockMask s.cap) w = false →
     sl.cache.breaksMinimum s.cap w = false → sl.cache.wayBusy w = false → sl.cache.way w = .active →
     exec (.gate i w) s = .next ((s.put i { sl with cache := { sl.cache with
       ways := sl.cache.ways.set w .draining
       misses := sl.cache.misses.map (fun m => if m.way = w then { m with st := .noInstall } else m)
       result := BitVec.ofNat 64 (0x5006 + 256 * w) } }).respond 0 0)) ∧
   (∀ (s : State) (i w : Nat) (sl : Slice), s.answers i sl → sl.stopped = false → w < 16 → bit (lockMask s.cap) w = true →
     exec (.gate i w) s = .next ((s.put i { sl with cache := { sl.cache with
       result := BitVec.ofNat 64 (0x5002 + 256 * w) } }).respond 0 0)) ∧
   ∀ (s : State) (i w : Nat) (sl : Slice), s.answers i sl → sl.stopped = false → w < 16 → sl.cache.wayBusy w = false →
     sl.cache.way w = .gated → ¬ w ∈ sl.cache.lostWays →
     exec (.ungate i w) s = .next ((s.put i { sl with cache := { sl.cache with
       ways := sl.cache.ways.set w .waking, result := BitVec.ofNat 64 (0x6006 + 256 * w) } }).respond 0 0)) ∧
  ((∀ (s : State) (i w : Nat) (sl : Slice), s.working i sl → sl.cache.way w = .draining → (∀ m ∈ sl.cache.misses, m.way ≠ w) →
     (∀ l ∈ sl.cache.lines, l.way = w → l.rsv = 0 ∧ l.buf = none ∧ l.dirty = false) → sl.calm → ¬ (w, 4) ∈ sl.cache.wayStep →
     ∃ sl', exec (.wayCleanSweep i w) s = .next (s.put i sl') ∧ (∀ l ∈ sl'.cache.lines, l.way ≠ w) ∧
       (∀ l ∈ sl.cache.lines, l.way ≠ w → l ∈ sl'.cache.lines) ∧ sl'.cache.evict = sl.cache.evict ∧
       sl'.cache.wayStep = sl.cache.wayStep ++ [(w, 4)] ∧ sl'.cache.ways = sl.cache.ways) ∧
   (∀ (s : State) (i w : Nat) (sl : Slice), s.working i sl → w < 16 → sl.cache.way w = .draining → (w, 4) ∈ sl.cache.wayStep →
     (∀ e ∈ sl.cache.evict, e.way ≠ some w) →
     exec (.wayGated i w) s = .next (s.put i { sl with cache := { sl.cache with
       ways := sl.cache.ways.set w .gated, wayStep := sl.cache.wayStep.erase (w, 4), result := BitVec.ofNat 64 (0x5001 + 256 * w) } })) ∧
   ∀ (s : State) (i w : Nat) (sl : Slice), s.working i sl → w < 16 → sl.cache.way w = .waking → sl.calm →
     exec (.wayAwake i w) s = .next (s.put i { sl with cache := { sl.cache with
       ways := sl.cache.ways.set w .active, result := BitVec.ofNat 64 (0x6001 + 256 * w) } }))

/-- A maintenance descriptor that reaches a slice leaves no usable line of its range: what is left of it is doomed and reserved (R326, R327). It
is acknowledged to its home once its conditions hold (R69), and the home notes which slices have acknowledged it. The list of the messages in
flight, and that the first of a path arrives first, are the model's choice: log entry 20. -/
def Obligations.MaintenanceIsApplied : Prop :=
  (∀ (s : State) (i k : Nat) (sl : Slice) (m : RopeMsg) (d : MaintMsg), s.working i sl → sl.rope.hold = false → s.rope[k]? = some m →
    s.firstOfPath k m = true → m.dest = i → m.body = .maintDesc d → sl.calm →
    (d.clean = true → (sl.cache.lines.filter (fun l => l.dirty)).length + sl.cache.evict.length ≤ 64) →
    ∃ t sl', exec (.maintDesc i k) s = .next t ∧ t.rope = s.rope.eraseIdx k ∧ t.slices[i]? = some sl' ∧
      (∃ j, sl'.cache.maintIn = sl.cache.maintIn ++ [j] ∧ j.msg = d) ∧
      (∀ l ∈ sl'.cache.lines, d.ofCtx (sl.view s.cap) l.ctx = true → d.covers l.tag 256 = true → l.doomed = true ∧ l.rsv ≠ 0) ∧
      (∀ lay < 2, ∀ l ∈ sl'.cache.node lay, d.ofCtx (sl.view s.cap) l.ctx = true → d.covers l.addr 128 = false) ∧ t.cap = s.cap) ∧
  (∀ (s : State) (i : Nat) (sl : Slice) (d : MaintIn), s.working i sl → sl.id = i → sl.cache.maintIn = [d] → sl.maintMet (sl.view s.cap) d = true →
    d.locked = 0 → d.msg.home = i →
    exec (.maintConditionsMet i) s = .next { s.put i { sl with cache := { sl.cache with maintIn := [] } } with
      rope := s.rope ++ [{ src := i, dest := i, epoch := sl.rope.epoch, body := .maintAck d.msg i }] }) ∧
  (∀ (s : State) (i : Nat) (sl : Slice), s.working i sl → (∀ d ∈ sl.cache.maintIn, sl.maintMet (sl.view s.cap) d = false) →
    exec (.maintConditionsMet i) s = .next s) ∧
  ∀ (s : State) (i j k n : Nat) (sl : Slice) (m : RopeMsg) (o : MaintOut), s.working i sl → sl.rope.hold = false → s.rope[k]? = some m →
    s.firstOfPath k m = true → m.dest = i → sl.ing.maintOut = [o] → m.body = .maintAck o.msg n → ¬ n ∈ o.acks → j < s.cap.n →
    s.cap.hl.slices.getD j .absent = .live → j ≠ n → ¬ j ∈ o.acks →
    exec (.maintAck i k) s = .next { s.put i { sl with ing := { sl.ing with maintOut := [{ o with acks := o.acks ++ [n] }] } } with
      rope := s.rope.eraseIdx k }

/-! ### Submissions and admission -/

/-- A submission whose descriptor lies in local memory joins the pending queue of the slice that serves its die, with all ones as its mask
or with the mask it carries (R137, R138, R152, R155); one whose address is bad is refused unread, with its cause in ING_REFUSE (R152,
R193). A core's submission that a proxy has taken from the journal already is discarded when it is presented again, another joins the
proxy's queue (R505). Where the spec leaves a point open, the statement has the model's choice: log entry 19. -/
def Obligations.SubmissionsJoinThePendingQueue : Prop :=
  let waits (core die off : Nat) (isG : Bool) (mask : Nat) : Pend :=
    { core := core, die := die, off := off, isG := isG, mask := mask, stage := .descriptor, raw := [], desc := descOf [], index := []
      items := [], handle := 0, admitted := [], maint := [] }
  (∀ (s : State) (die core off : Nat) (sl : Slice) (mask : BitVec 64), s.working die sl → s.cap.isLive die = true → off % 16 = 0 →
    off + 64 ≤ 524288 → sl.ing.pendq.length < 256 →
    exec (.nsub die core off) s = .next (s.put die { sl with ing := { sl.ing with
      pendq := sl.ing.pendq ++ [waits core die off false (2 ^ 64 - 1)] } }) ∧
    exec (.nsubG die core off mask) s = .next (s.put die { sl with ing := { sl.ing with
      pendq := sl.ing.pendq ++ [waits core die off true mask.toNat] } })) ∧
  (∀ (s : State) (die core off : Nat) (sl : Slice), s.working die sl → s.cap.isLive die = true → (off % 16 ≠ 0 ∨ 524288 < off + 64) →
    sl.ing.pendq.length < 256 → sl.tokens ≠ 0 → s.cap.hl.restarting = none →
    ∃ sl', exec (.nsub die core off) s = .next (s.put die sl') ∧ sl'.ing = { sl.ing with
      refuse := refuseReg 0x01 core (descOf []).ctx (descOf []).batchId, takenOut := sl.ing.takenOut ++ [(die, core, 0)] }) ∧
  (∀ (s : State) (die core off i b : Nat) (sl : Slice) (mask : BitVec 64), die < s.slices.length → s.cap.isLive die = false →
    s.cap.ingressOf die = some i → s.working i sl → sl.ing.fromJournal = [] → sl.ing.adopting = [] → off % 16 = 0 → off + 64 ≤ 524288 →
    sl.ing.pendq.length < 256 →
    exec (.submissionRePresented die core off false mask b) s = (if (die, core, b) ∈ sl.ing.adopted then .next s else
      .next (s.put i { sl with ing := { sl.ing with pendq := sl.ing.pendq ++ [waits core die off false (2 ^ 64 - 1)] } }))) ∧
  ∀ (s : State) (die core off b : Nat) (isG : Bool) (mask : BitVec 64), die < s.slices.length → s.cap.isLive die = true →
    exec (.submissionRePresented die core off isG mask b) s = .next s

/-- A descriptor that passes the checks waits for its context's pass, one that fails a check is refused: the cause stands in ING_REFUSE and its
completion block has the cause and DETAIL written (R150, R152, R157, R193). In a running pass of an active context a descriptor with an index
has that read next (R150). An index whose entries all lie below ACC_SLOTS gives each active query, in ascending order, its result slot,
and the batch goes on to its reservations; the first entry that is not below ACC_SLOTS refuses the batch with cause 0x08, a detection on
an entry before that with cause 0x0A, and the query of the entry is the DETAIL written (R150, R152, R159, R162). Where the spec leaves a
point open, the statement has the model's choice: log entries 90 and 40. -/
def Obligations.DescriptorsAndIndexesAreChecked : Prop :=
  let refused (e : Host.Outcome State Fault Refusal) (s : State) (i cause detail : Nat) (sl : Slice) (p : Pend) (d : Desc) : Prop :=
    ∃ sl' w₁ w₂ n, e = .next (s.put i sl') ∧ sl'.ing = { sl.ing with
      pendq := [], refuse := refuseReg cause p.core d.ctx d.batchId, nextId := n, meshOut := sl.ing.meshOut ++ [w₁, w₂] } ∧
      w₁.op = .write ∧ w₁.core = p.core ∧ w₁.die = p.die ∧ w₁.off = d.compl + 9 ∧ w₁.data = toLe 1 cause ∧ w₁.id < 256 ∧
      w₂.op = .write ∧ w₂.core = p.core ∧ w₂.die = p.die ∧ w₂.off = d.compl + 12 ∧ w₂.data = toLe 4 detail ∧ w₂.id < 256 ∧ w₁.id ≠ w₂.id
  (∀ (s : State) (i : Nat) (sl : Slice) (p : Pend) (c : Ctx) (bs : List Byte), s.working i sl → sl.ing.pendq = [p] → p.stage = .descriptor →
    bs.length = 64 → descCause (sl.view s.cap) p.off p.isG bs = none → (sl.view s.cap).ctx? (descOf bs).ctx = some c →
    (c.pass ≠ .running →
      exec (.descriptorReadDone i 0 bs) s = .next (s.put i { sl with ing := { sl.ing with
        pendq := [{ p with raw := bs, desc := descOf bs, stage := .waiting }] } })) ∧
    (c.pass = .running → s.cap.isActive c.id = true → (descOf bs).accMapped = true → p.index = [] →
      activeOf (descOf bs) p.isG p.mask ≠ [] →
      exec (.descriptorReadDone i 0 bs) s = .next (s.put i { sl with ing := { sl.ing with
        pendq := [{ p with raw := bs, desc := descOf bs, stage := .index }] } }))) ∧
  (∀ (s : State) (i cause : Nat) (sl : Slice) (p : Pend) (bs : List Byte), s.working i sl → sl.ing.pendq = [p] → p.stage = .descriptor →
    p.items = [] → bs.length = 64 → descCause (sl.view s.cap) p.off p.isG bs = some cause → complAddressable (descOf bs) = true →
    sl.ing.meshWait = [] → sl.ing.meshOut.length ≤ 254 → sl.tokens ≠ 0 → s.cap.hl.restarting = none →
    refused (exec (.descriptorReadDone i 0 bs) s) s i cause 0 sl p (descOf bs)) ∧
  (∀ (s : State) (i : Nat) (sl : Slice) (p : Pend) (c : Ctx) (es act : List Nat) (detect : Option Nat) (ix : List (Nat × Nat)),
    s.working i sl → sl.ing.pendq = [p] → p.stage = .index → act = activeOf p.desc p.isG p.mask → act ≠ [] →
    (∀ q ∈ act, detect ≠ some q) → (∀ k < act.length, es.getD k 0 < p.desc.accSlots) →
    ix = (indexed act).map (fun e => (e.2, es.getD e.1 0)) →
    (sl.view s.cap).ctx? p.desc.ctx = some c → c.cstate = .valid → c.pass = .running → s.cap.isActive c.id = true →
    caskTooSmall s.cap sl.id c (caskItems p.desc c ix) = false → sl.missingBlocks s.cap c (caskItems p.desc c ix) = 0 →
    exec (.indexReadDone i 0 es detect) s = .next (s.put i { sl with ing := { sl.ing with
      pendq := [{ p with index := ix, stage := .reserve }] } })) ∧
  ∀ (s : State) (i k q : Nat) (sl : Slice) (p : Pend) (es act : List Nat) (detect : Option Nat), s.working i sl → sl.ing.pendq = [p] →
    p.stage = .index → p.items = [] → act = activeOf p.desc p.isG p.mask → act[k]? = some q →
    (∀ j < k, es.getD j 0 < p.desc.accSlots ∧ detect ≠ act[j]?) → (detect = some q ∨ p.desc.accSlots ≤ es.getD k 0) →
    complAddressable p.desc = true → sl.ing.meshWait = [] → sl.ing.meshOut.length ≤ 254 → sl.tokens ≠ 0 → s.cap.hl.restarting = none →
    refused (exec (.indexReadDone i 0 es detect) s) s i (if detect = some q then 0x0A else 0x08) q sl p p.desc

/-- A batch whose cask units, table entry and granules are free is granted them together (R154, R155, R338); its records are read and
checked, and its ledger is written (R150, R347); as the last write of the ledger is acknowledged, its four journal lines are written
LEDGERED (R500); once they have settled the batch is taken: its entry, the batch-taken report, and a MAINT batch's descriptor on its way
to every live slice (R142, R150, R326). Where the spec leaves a point open, the statement has the model's choice: log entries 20, 31, 40,
45, 78 and 81. -/
def Obligations.BatchesAreAdmitted : Prop :=
  (∀ (s : State) (i h : Nat) (sl sl₁ : Slice) (p : Pend) (c : Ctx) (items : List CaskItem), s.working i sl → s.decides →
    sl.ing.pendq = [p] → p.stage = .reserve → (sl.view s.cap).ctx? p.desc.ctx = some c → sl.ing.fromJournal = [] →
    sl.freeHandle = some h → sl.reserveCask s.cap.n c (caskItems p.desc c p.index) = some (items, sl₁) →
    24576 + granulesEach p.desc c * p.index.length ≤ sl.store.freeCount → sl.store.spilling = false → s.cap.loans = [] →
    ∃ t sl', exec (.reservationsGranted i 0) s = .next t ∧ t.slices[i]? = some sl' ∧
      sl'.ing = { sl.ing with pendq := [{ p with stage := .records, items := items, handle := h }] } ∧ t.cap = s.cap ∧ t.rope = s.rope ∧
      sl'.store = (sl₁.takeEntries c { p with items := items, handle := h }).1.store ∧ sl'.store.casks = sl₁.store.casks) ∧
  (∀ (s : State) (i : Nat) (sl : Slice) (p : Pend) (c : Ctx) (recs : List (List Byte × List Byte)) (detect : Option Nat)
    (qs : List Query) (ms : List (Nat × List Byte)), s.working i sl → sl.ing.pendq = [p] → p.stage = .records →
    (sl.view s.cap).ctx? p.desc.ctx = some c → readRecords sl.id p.handle p.desc c detect (p.index.map (·.1)) recs = .ok (qs, ms) →
    ∃ sl', exec (.recordsReadDone i 0 recs detect) s = .next (s.put i sl') ∧
      sl' = ({ sl with ing := { sl.ing with pendq := [{ p with stage := .ledger, admitted := qs, maint := ms }] } }).writeLedger
        (sl.view s.cap) c p.handle p.items (ledgerBytes p.raw p.desc c p.mask p.index recs) ∧
      sl'.ing = { sl.ing with pendq := [{ p with stage := .ledger, admitted := qs, maint := ms }] } ∧ sl'.store = sl.store ∧
      sl'.mash = sl.mash) ∧
  (∀ (s : State) (i : Nat) (sl : Slice) (p : Pend) (c : Ctx) (e : Evict), s.working i sl → sl.ing.pendq = [p] → p.stage = .ledger →
    (sl.view s.cap).ctx? p.desc.ctx = some c → sl.cache.evict = [e] → e.poison = [] → sl.cache.waiting = [] → sl.cache.misses = [] →
    sl.work.runs = [] → sl.str.queued = [] → sl.str.underway (ledgerStream p.handle) (Block.ledgers p.handle) = false →
    sl.store.maps = [] → sl.ing.batches = [] → (∀ a ∈ sl.ing.adopting, a.reading = none) → (∀ x ∈ sl.rope.ports, x.leaving = []) →
    let line (k : Nat) : JWrite :=
      { ctx := c.id, addr := journalAddr s.cap.n sl.id c p.handle k, handle := some p.handle, jstate := .ledgered, acked := 0, settles := none }
    ∃ sl', exec (.evictionWriteAck i 0) s = .next (s.put i sl') ∧
      sl'.ing = { sl.ing with pendq := [{ p with stage := .journal }], jwrites := sl.ing.jwrites ++ (List.range 4).map line } ∧
      sl'.store = sl.store ∧ sl'.mash = sl.mash) ∧
  ∀ (s : State) (i q : Nat) (sl : Slice) (p : Pend) (c : Ctx) (bs : List Byte), s.working i sl → sl.id = i → sl.ing.pendq = [p] →
    p.stage = .journal → p.admitted = [] → p.maint = [(q, bs)] → (sl.view s.cap).ctx? p.desc.ctx = some c → c.faulted = false →
    s.cap.ids.filter s.cap.isLive = [i] → sl.unsettledLine p.handle = false →
    ∃ t sl' b, exec (.ledgerAcknowledged i 0) s = .next t ∧ t.slices[i]? = some sl' ∧ sl'.ing.pendq = [] ∧
      sl'.ing.takenOut = sl.ing.takenOut ++ [(p.die, p.core, p.desc.batchId)] ∧ sl'.ing.batches = sl.ing.batches ++ [b] ∧ b.handle = p.handle ∧
      b.desc = p.desc ∧ b.phase = .walking ∧ b.takenAcked = false ∧
      t.rope = s.rope ++ [{ src := i, dest := i, epoch := sl.rope.epoch, body := .maintDesc (maintMsg i p.handle p.desc (q, bs)) }] ∧
      t.cap = s.cap

/-- The oldest request for an activation slot has the lowest free one (R469), and a context of which no slice holds anything gives its slot
back (R469); a slice that lends cask blocks gives one to the slice whose loan waits longest, and the loan ends with its last block; the
block's byte in the owner map names its new holder, rewritten by the giver, or by the slice that has still to write the map's line (R343).
A napping slice wakes for either (R616). Where the spec leaves a point open, the statement has the model's choice: log entries 38, 45, 46
and 78. -/
def Obligations.ActivationSlotsAndCaskBlocksChangeHands : Prop :=
  (∀ (s : State) (slice ctx slot : Nat) (rest : List (Nat × Nat)) (reads : List EntryRead), s.cap.acts = true → s.settled →
    s.cap.actWait = (slice, ctx) :: rest → s.cap.freeSlot = some slot → (∀ a ∈ s.cap.active, a.2 ≠ ctx) → s.readPoison reads = false →
    (∀ sl ∈ s.slices, sl.ing.pendq = []) →
    ∃ t, exec (.activationGranted reads) s = .next t ∧ t.rope = s.rope ∧
      t.cap = { s.cap with
        active := s.cap.active ++ [(slot, ctx)], actWait := ((slice, ctx) :: rest).filter (fun a => a.2 != ctx) } ∧
      t.slices = s.slices.map (fun sl => if sl.works s.cap then Slice.wake { sl with cctx := { sl.cctx with
        slots := sl.cctx.slots.filter (fun x => x.slot != slot) ++ [
          { slot := slot, ctx := ctx, fixed := (s.cap.readEntry ctx (reads.getD sl.id {})).take 64
            live := ((s.cap.readEntry ctx (reads.getD sl.id {})).drop 64).take 48 }] } } else sl)) ∧
  (∀ (s : State) (ctx : Nat), s.cap.acts = true → s.holdsCtx ctx = false →
    exec (.activationEnd ctx) s = .next { s with
      cap := { s.cap with active := s.cap.active.filter (fun a => a.2 != ctx) }
      slices := s.slices.map (fun sl => { sl with cctx := { sl.cctx with
        slots := sl.cctx.slots.filter (fun x => x.ctx != ctx) } }) }) ∧
  (∀ (s : State) (ctx : Nat), s.holdsCtx ctx = true → exec (.activationEnd ctx) s = .next s) ∧
  ∀ (s : State) (i j b : Nat) (sl sl₂ : Slice) (l : Loan) (c : Ctx), s.slices[i]? = some sl → sl.works s.cap = true →
    s.cap.hl.restarting = none → s.cap.hl.failed = false → s.slices[j]? = some sl₂ → i ≠ j → l.slice = j → l.missing = 1 →
    s.cap.loans = [l] → loanFor s.cap sl b = some (l, c) →
    let due (m : OwnerMap) : Bool := m.ctx = c.id && decide (256 * m.next ≤ b)
    let given := (sl.setCask ((sl.cask c.id).give b)).wake
    (∀ x ∈ s.slices, ∀ m ∈ x.store.maps, due m = false) ∨ (sl.store.maps.any due = true ∧ sl₂.store.maps = []) →
    ∃ t, exec (.caskBlockGiven i b) s = .next t ∧ t.slices[i]? = some (if sl.store.maps.any due then
        { given with store := { given.store with
          maps := given.store.maps.map (fun m => if due m then { m with moved := (b, j) :: m.moved } else m) } }
        else given.writeOwner (sl.view s.cap) c b j) ∧
      t.slices[j]? = some (sl₂.setCask ((sl₂.cask c.id).receive b)) ∧ t.cap = { s.cap with loans := [] } ∧ t.rope = s.rope

/-! ### The Mash and the walkers -/

/-- A bin and a gather become ready by age at their flush age less 8 ns, and not earlier (R198, R202); the first member of an overflow bin
moves to its own bin once its bank has a descriptor (R423). Where the spec leaves a point open, the statement has the model's choice:
log entry 12. -/
def Obligations.BinsAndGathersBecomeReady : Prop :=
  (∀ (s : State) (i k : Nat) (sl : Slice) (b : Bin) (c : Ctx), s.working i sl → sl.mash.bins[k]? = some b → (sl.view s.cap).ctx? b.ctx = some c →
    exec (.binFlushAge i k) s = (if flushAgeOf s.cap c ≤ (sl.time - oldest b.members) / 2 + 8 then
      .next (s.put i { sl with mash := { sl.mash with bins := sl.mash.bins.set k { b with ready := some .age } } }) else .next s)) ∧
  (∀ (s : State) (i k : Nat) (sl : Slice) (g : Gather) (c : Ctx), s.working i sl → sl.mash.gathers[k]? = some g →
    (sl.view s.cap).ctx? g.ctx = some c →
    exec (.gatherAge i k) s = (if gatherAgeOf s.cap c ≤ (sl.time - oldest g.members) / 2 + 8 then
      .next (s.put i { sl with mash := { sl.mash with gathers := sl.mash.gathers.set k { g with ready := some .age } } }) else .next s)) ∧
  ∀ (s : State) (i lay bank : Nat) (sl : Slice) (q : Query) (rest : List Query) (c : Ctx), s.working i sl →
    sl.mash.overflow = [(lay, bank, q :: rest)] → (sl.view s.cap).ctx? q.ctx = some c → lay = sl.layOf q.next.addr → bank = bankOf q.next.addr →
    sl.opensBin q →
    exec (.overflowBinMove i lay bank) s = .next (s.put i { sl with mash := { sl.mash with
      overflow := if rest.isEmpty then [] else [(lay, bank, rest)], bins := sl.mash.bins ++ [sl.newBin s.cap c q] } })

/-- A free walker takes the members of the bin at the head of its lay's ready queue as its packet, and the bin leaves (R198, R203). At a box
node a ray that goes on to a triangle leaf enters that leaf's bin (R213, R196); a ray whose walk ends there, or at a triangle leaf,
sends its end message home, and the walker is free (R208, R213, R222, R232, R407). Where the spec leaves a point open, the statement has
the model's choice: log entries 12, 13 and 64. -/
def Obligations.PacketsAreTakenAndVisit : Prop :=
  (∀ (s : State) (i lay w : Nat) (sl : Slice) (b : Bin) (c : Ctx) (p : Packet) (bs : List Byte), s.working i sl → lay < 2 →
    sl.layRuns lay = true → sl.freeWalker lay = some w → sl.headBin (sl.view s.cap) lay = (some b, []) → b.members ≠ [] → b.members.length ≤ 64 →
    (∀ q ∈ b.members, q.entered < sl.time) →
    (sl.view s.cap).ctx? b.ctx = some c → unreadable c.tree 1 b.obj 128 = none →
    p = { ctx := b.ctx, obj := b.obj, miss := 0, reg := 0, members := b.members } →
    sl.nodeBytes (sl.view s.cap) lay p b.obj 128 = .ok bs → byteAt bs 0 % 16 = 1 →
    (∀ q ∈ b.members, q.first (rootRef s.cap c) = none ∧ q.next.ckind = 1 ∧ sl.migratesTo (sl.view s.cap) q = none) →
    ∃ sl', exec (.binRelease i lay) s = .next (s.put i sl') ∧ ((sl'.walkers lay)[w]?).bind (·.work) = some p ∧
      sl'.mash = { sl.mash with bins := sl.mash.bins.filter (fun x => !(x.ctx = b.ctx && x.obj = b.obj && x.octant = b.octant &&
        x.lay = b.lay)) } ∧ sl'.store = sl.store ∧ sl'.cache = sl.cache) ∧
  (∀ (s : State) (i lay w : Nat) (sl : Slice) (p : Packet) (q q' : Query) (c : Ctx) (bs : List Byte), s.working i sl → lay < 2 →
    (sl.walkers lay)[w]? = some { work := some p, parked := [] } → p.members = [q] → q.next.ckind = 1 →
    (sl.view s.cap).ctx? p.ctx = some c → sl.nodeBytes (sl.view s.cap) lay p p.obj 128 = .ok bs →
    visitBox c.tree (rootRef s.cap c) bs q = .go q' → q'.next.ckind = 4 → (sl.view s.cap).ctx? q'.ctx = some c →
    sl.migratesTo (sl.view s.cap) q' = none → sl.replaying q' = false → sl.opensBin q' →
    ∃ sl', exec (.boxNodeVisit i lay w) s = .next (s.put i sl') ∧ (sl'.walkers lay)[w]? = some { work := none, parked := [] } ∧
      sl'.mash = { sl.mash with bins :=
        sl.mash.bins ++ [sl.newBin s.cap c { q' with entered := sl.time }] } ∧
      sl'.store = sl.store ∧ sl'.cache = (sl.nodeUsed (sl.view s.cap) lay p.ctx p.obj 128).cache) ∧
  (∀ (s : State) (i lay w : Nat) (sl : Slice) (p : Packet) (q q' : Query) (c : Ctx) (bs : List Byte), s.working i sl → lay < 2 →
    (sl.walkers lay)[w]? = some { work := some p, parked := [] } → p.members = [q] → q.next.ckind = 1 →
    (sl.view s.cap).ctx? p.ctx = some c → sl.nodeBytes (sl.view s.cap) lay p p.obj 128 = .ok bs →
    visitBox c.tree (rootRef s.cap c) bs q = .ended q' → q'.home = sl.id → q'.guest = false → sl.replaying q' = false →
    ∃ sl', exec (.boxNodeVisit i lay w) s = .next { s.put i sl' with
        rope := s.rope ++ [{ src := sl.id, dest := sl.id, epoch := sl.rope.epoch, body := .result (endMsg q') }] } ∧
      (sl'.walkers lay)[w]? = some { work := none, parked := [] } ∧ sl'.mash = sl.mash ∧ sl'.store = sl.store ∧
      sl'.cache = (sl.nodeUsed (sl.view s.cap) lay p.ctx p.obj 128).cache) ∧
  ∀ (s : State) (i lay w : Nat) (sl : Slice) (p : Packet) (q q' : Query) (c : Ctx) (head bs : List Byte), s.working i sl → lay < 2 →
    (sl.walkers lay)[w]? = some { work := some p, parked := [] } → p.members = [q] → q.next.ckind = 4 →
    (sl.view s.cap).ctx? p.ctx = some c → sl.nodeBytes (sl.view s.cap) lay p p.obj 128 = .ok head →
    sl.nodeBytes (sl.view s.cap) lay p p.obj (objectBytes c.tree 4 p.obj head) = .ok bs →
    (visitTriangles c.tree (rootRef s.cap c) bs q).1 = .ended q' → q'.home = sl.id → q'.guest = false → sl.replaying q' = false →
    ∃ sl', exec (.primitiveTest i lay w) s = .next { s.put i sl' with
        rope := s.rope ++ [{ src := sl.id, dest := sl.id, epoch := sl.rope.epoch, body := .result (endMsg q') }] } ∧
      (sl'.walkers lay)[w]? = some { work := none, parked := [] } ∧ sl'.mash = sl.mash ∧ sl'.store = sl.store ∧
      sl'.cache = (sl.nodeUsed (sl.view s.cap) lay p.ctx p.obj (objectBytes c.tree 4 p.obj head)).cache

/-- A ready gather gives the leaf sequencer its members as a run, which asks for the leaf's line where the slice cache does not hold it
(R202, R280, R293). A tile with all its lines is reserved (R295, R318), begins on a free array, computes a step at a time (R296), and at
its end drops its reservations (R298, R318). Where the spec leaves a point open, the statement has the model's choice: log entries 28
and 84. -/
def Obligations.RunsAndTilesGoOn : Prop :=
  (∀ (s : State) (i lay : Nat) (sl : Slice) (g : Gather) (c : Ctx), s.working i sl → sl.layRuns lay = true →
    sl.headGather (sl.view s.cap) lay = (some g, []) → (sl.view s.cap).ctx? g.ctx = some c → g.members ≠ [] →
    g.members.length ≤ gatherOf s.cap c →
    (∀ q ∈ g.members, q.first (rootRef s.cap c) = none ∧ sl.migratesTo (sl.view s.cap) q = none) → sl.mash.gatherWait = [] →
    unreadable c.tree 6 g.leaf 128 = none → linesOf g.leaf 128 = [lineAddr g.leaf] →
    sl.cache.seen (sl.view s.cap) .tree g.ctx (lineAddr g.leaf) = none → sl.cache.arrived .tree g.ctx (lineAddr g.leaf) = [] →
    ∃ sl', exec (.gatherRun i lay) s = .next (s.put i sl') ∧ sl'.work = { sl.work with
        nextJob := sl.work.nextJob + 1, runs := sl.work.runs ++ [{ lay := lay, id := sl.work.nextJob, gather := g, got := [] }] } ∧
      sl'.mash = { sl.mash with gathers := sl.mash.gathers.filter (fun x => !(x.ctx = g.ctx && x.leaf = g.leaf)) } ∧
      sl'.store = sl.store ∧
      ((∃ m ∈ sl'.cache.misses, m.ctx = g.ctx ∧ m.addr = lineAddr g.leaf ∧ Requester.run lay sl.work.nextJob ∈ m.waiters) ∨
        ∃ w ∈ sl'.cache.waiting, w.ctx = g.ctx ∧ w.addr = lineAddr g.leaf ∧ w.who = .run lay sl.work.nextJob)) ∧
  (∀ (s : State) (i lay : Nat) (sl : Slice) (j : Job) (t : Tile), s.working i sl → lay < 2 → sl.jobs lay = [j] → sl.jobs (1 - lay) = [] →
    j.tiles = [t] → t.st = .reserving → (∀ a ∈ sl.linesAsked lay j t, ∃ l ∈ t.lines, l.1 = a) → sl.work.reserving = some (lay, j.id, 0) →
    ∃ sl', exec (.tileReservationComplete i lay j.id 0) s = .next (s.put i sl') ∧ sl'.jobs lay = [{ j with tiles := [{ t with st := .reserved }] }] ∧
      sl'.jobs (1 - lay) = [] ∧ sl'.work.reserving = none ∧ sl'.cache = sl.cache ∧ sl'.mash = sl.mash ∧ sl'.store = sl.store) ∧
  (∀ (s : State) (i lay k a : Nat) (sl : Slice) (j : Job) (t : Tile), s.working i sl → sl.job? lay j.id = some j → j.tiles[k]? = some t →
    t.st = .reserved → j.inTurn k = true → sl.freeArray lay j [] = some a → 0 < j.steps t.layer → sl.badLines lay j t = [] →
    (sl.opBuf lay).job = some j.id → sl.work.rotDue lay = false →
    let pf := pfmtOf (sl.view s.cap) j.ctx
    let t₀ : Tile := { t with
      st := .running 0, arrs := [a], chain := min (j.chainOver (sl.arrays lay)) (max (j.steps t.layer) 1)
      accs := j.emptyAccs (j.inputFmt pf t.layer) t }
    ∃ sl', exec (.tileStep i lay j.id k []) s = .next (s.put i sl') ∧
      sl'.work = (sl.setJob lay { j with tiles := j.tiles.set k (j.runStep (sl.opBuf lay).input sl.cache [] pf t₀ 0) }).work ∧
      sl'.cache = sl.cache ∧ sl'.mash = sl.mash ∧ sl'.store = sl.store) ∧
  (∀ (s : State) (i lay k n : Nat) (sl : Slice) (j : Job) (t t' : Tile), s.working i sl → sl.job? lay j.id = some j →
    j.tiles[k]? = some t → t.st = .running n → n < j.steps t.layer → sl.onSegment lay j t n = some t' → sl.badLines lay j t = [] →
    (sl.opBuf lay).job = some j.id → sl.work.rotDue lay = false →
    ∃ sl', exec (.tileStep i lay j.id k []) s = .next (s.put i sl') ∧
      sl'.work = (sl.setJob lay { j with
        tiles := j.tiles.set k (j.runStep (sl.opBuf lay).input sl.cache [] (pfmtOf (sl.view s.cap) j.ctx) t' n) }).work ∧
      sl'.cache = sl.cache ∧ sl'.mash = sl.mash ∧ sl'.store = sl.store) ∧
  ∀ (s : State) (i lay : Nat) (sl : Slice) (j : Job) (t u : Tile), s.working i sl → lay < 2 → sl.jobs lay = [j] → sl.jobs (1 - lay) = [] →
    j.tiles = [t, u] → t.st = .running (j.steps t.layer) → u.st = .running 0 → sl.badLines lay j t = [] → sl.work.reserving = none →
    sl.calm →
    let done : Tile := { t with
      bias := j.readBias sl.cache t, st := .finished, lines := [], merged := []
      accs := j.markEnd [] t (j.readBias sl.cache t) (mergeStates t.merged t.accs) }
    ∃ sl', exec (.tileComplete i lay j.id 0 []) s = .next (s.put i sl') ∧
      sl'.jobs lay = [(sl.tileFormed (sl.view s.cap) j 0 done).2] ∧
      sl'.cache = sl.cache.unreserve (t.lines.map (·.2)) ∧ sl'.mash = sl.mash ∧ sl'.store = sl.store

/-! ### Queries on the Rope -/

/-- A query that arrives with its state takes granules and enters the bin or gather of its next object at the moment of its arrival (R419);
one that comes as a pointer enters it as a spilled member (R419, R340); a pointer at the head of a port's queue is sent when a migrate
credit is free (R418). Where the spec leaves a point open, the statement has the model's choice: log entries 16 and 20. -/
def Obligations.QueriesMigrate : Prop :=
  (∀ (s : State) (i k : Nat) (sl : Slice) (m : RopeMsg) (q : Query), s.working i sl → sl.rope.hold = false →
    s.rope[k]? = some m → m.dest = i → m.body = .migrate q → q.poison = [] → sl.replaying q = false → sl.store.spilling = false →
    24576 + entryGranules (q.payloadBytes (sl.view s.cap)) ≤ sl.store.freeCount →
    ∃ sl' e, exec (.migrate i k) s = .next { s.put i sl' with rope := s.rope.eraseIdx k } ∧
      sl'.hasQuery { q with spilled := false, entry := e, entered := sl.time } ∧ sl'.ing = sl.ing ∧ sl'.rope = sl.rope) ∧
  (∀ (s : State) (i k : Nat) (sl : Slice) (m : RopeMsg) (q : Query), s.working i sl → sl.rope.hold = false →
    s.rope[k]? = some m → m.dest = i → m.body = .migratePtr q → q.poison = [] → sl.replaying q = false →
    ∃ sl', exec (.migratePtr i k) s = .next { s.put i sl' with rope := s.rope.eraseIdx k } ∧
      sl'.hasQuery { q with spilled := true, entered := sl.time } ∧ sl'.store = sl.store.addSpilled q ∧ sl'.ing = sl.ing ∧
      sl'.cache = sl.cache ∧ sl'.rope = sl.rope) ∧
  (∀ (s : State) (i port : Nat) (sl : Slice) (p x : Port) (m : RopeMsg) (rest : List RopeMsg), s.working i sl → sl.rope.hold = false →
    sl.rope.ports[port]? = some p → p.ptrq = m :: rest →
    (({ m with epoch := sl.rope.epoch }).flits (sl.view s.cap)).head?.bind p.sendOne = some x →
    ∃ sl' p' more, exec (.pointerQueueSend i port) s = .next { s.put i sl' with
        rope := s.rope ++ [{ m with epoch := sl.rope.epoch }] } ∧
      sl'.rope.ports[port]? = some p' ∧ p'.ptrq = rest ++ more ∧ p'.credits = x.credits ∧ sl'.mash = sl.mash ∧ sl'.ing = sl.ing) ∧
  (∀ (s : State) (i k first : Nat) (sl : Slice) (m : RopeMsg) (q : Query) (c : Ctx) (st : Store), s.working i sl → sl.rope.hold = false →
    s.rope[k]? = some m → m.dest = i → m.body = .migrate q → q.poison = [] → sl.replaying q = false →
    (sl.view s.cap).ctx? q.ctx = some c → q.slot = [] →
    sl.store.entries.find? q.owns = none →
    sl.store.place (entryGranules (q.payloadBytes (sl.view s.cap))) (kindCode q.kind) q.home q.batch q.qindex q.guest = some (first, st) →
    24576 ≤ st.freeCount → st.spilling = false → q.next.ckind ≠ 6 → sl.opensBin q →
    exec (.migrate i k) s = .next { s.put i { sl with
        store := st
        mash := { sl.mash with bins :=
          sl.mash.bins ++ [sl.newBin (sl.view s.cap) c { q with spilled := false, entry := first, entered := sl.time }] } } with
        rope := s.rope.eraseIdx k }) ∧
  (∀ (s : State) (i k : Nat) (sl : Slice) (m : RopeMsg) (q : Query) (c : Ctx), s.working i sl → sl.rope.hold = false →
    s.rope[k]? = some m → m.dest = i → m.body = .migratePtr q → q.poison = [] → sl.replaying q = false →
    (sl.view s.cap).ctx? q.ctx = some c →
    q.next.ckind ≠ 6 → sl.opensBin q →
    exec (.migratePtr i k) s = .next { s.put i { sl with
        store := sl.store.addSpilled q
        mash := { sl.mash with bins :=
          sl.mash.bins ++ [sl.newBin (sl.view s.cap) c { q with spilled := true, entered := sl.time }] } } with
        rope := s.rope.eraseIdx k }) ∧
  (∀ (s : State) (i port : Nat) (sl : Slice) (p x : Port) (m : RopeMsg) (q : Query) (rest : List RopeMsg), s.working i sl →
    sl.rope.hold = false → sl.rope.ports[port]? = some p → p.ptrq = m :: rest → m.body = .migratePtr q →
    (({ m with epoch := sl.rope.epoch }).flits (sl.view s.cap)).head?.bind p.sendOne = some x →
    q.home = sl.id → (∀ y ∈ sl.rope.ports, y.leaving = []) →
    ∃ sl', exec (.pointerQueueSend i port) s = .next { s.put i sl' with rope := s.rope ++ [{ m with epoch := sl.rope.epoch }] } ∧
      sl'.rope.ports = sl.rope.ports.set port { x with ptrq := rest } ∧ sl'.mash = sl.mash ∧ sl'.store = sl.store) ∧
  ∀ (s : State) (i port : Nat) (sl : Slice) (p : Port), s.working i sl → sl.rope.ports[port]? = some p → p.ptrq = [] →
    exec (.pointerQueueSend i port) s = .next s

/-! ### The home coalescer -/

/-- The home coalescer takes what a RESULT message holds of its query (R407, R420): a report joins the hits and counts as a part, an end
names the parts to wait for; a query that is lost keeps nothing of them, and a contribution that comes after the loss joins no combining
area (R179, R492); in an EVAL_ACCUM batch a loss after a contribution starts a replay (R492), and during a replay nothing of the old run
counts (R494). Where the spec leaves a point open, the statement has the model's choice: log entry 20. -/
def Obligations.ResultsAreTaken : Prop :=
  (∀ (s : State) (i k : Nat) (sl : Slice) (r : ResMsg) (b : Batch) (x : QRes) (c : Ctx), s.brings i k sl r b → s.awaits sl r b x c →
    x.ended = none → x.stat = .ok → r.rkind = .hostReport →
    exec (.result i k) s = .next { s.put i (sl.resultIs r b { x with
      got := x.got + 1, hits := x.hits ++ r.hits, flags := x.flags.or r.flags }) with rope := s.rope.eraseIdx k }) ∧
  (∀ (s : State) (i k : Nat) (sl : Slice) (r : ResMsg) (b : Batch) (x : QRes) (c : Ctx), s.brings i k sl r b → s.awaits sl r b x c →
    x.got < r.parts → r.rkind = .rayEnd →
    exec (.result i k) s = .next { s.put i (sl.resultIs r b { x with
      ended := some r.parts, tmax := r.tmax, hits := x.hits ++ r.hits, flags := x.flags.or r.flags }) with rope := s.rope.eraseIdx k }) ∧
  (∀ (s : State) (i k : Nat) (sl : Slice) (r : ResMsg) (b : Batch) (x : QRes) (c : Ctx), s.brings i k sl r b → s.awaits sl r b x c →
    x.got < r.parts → r.rkind = .lost → b.mode c ≠ 6 ∨ x.branches = 0 →
    exec (.result i k) s = .next { s.put i (sl.resultIs r b { x with
      ended := some r.parts, stat := .dataLost, hits := [], best := [], flags := x.flags.or r.flags }) with rope := s.rope.eraseIdx k }) ∧
  (∀ (s : State) (i k p : Nat) (sl : Slice) (r : ResMsg) (b : Batch) (x : QRes) (c : Ctx), s.brings i k sl r b → s.awaits sl r b x c →
    x.stat = .dataLost → x.ended = some p → x.got + 1 < p → r.rkind = .contrib →
    exec (.result i k) s = .next { s.put i (sl.resultIs r b { x with got := x.got + 1, flags := x.flags.or r.flags }) with
      rope := s.rope.eraseIdx k }) ∧
  (∀ (s : State) (i k : Nat) (sl : Slice) (r : ResMsg) (b : Batch) (x : QRes) (c : Ctx), s.brings i k sl r b → s.awaits sl r b x c →
    r.rkind = .lost → b.mode c = 6 → x.branches ≠ 0 →
    ∃ sl' b', exec (.result i k) s = .next { s.put i sl' with rope := s.rope.eraseIdx k } ∧ sl'.batch? r.handle = some b' ∧
      b'.replaying.isSome = true ∧ b'.toWrite = [] ∧ b'.ops = [] ∧ ∀ q ∈ sl'.queries, ¬ (q.home = sl.id ∧ q.batch = r.handle)) ∧
  ∀ (s : State) (i k : Nat) (sl : Slice) (r : ResMsg) (b : Batch), s.brings i k sl r b → b.replaying.isSome = true →
    r.rkind.ends = false → exec (.result i k) s = .next { s with rope := s.rope.eraseIdx k }

/-- An acknowledged result write leaves the port and ends the run of failures of its batch (R183, R188); a refused one waits 1 µs for its
retry; a retry sends it again, and counts a failure where it is refused again, whether at once or by a later answer; at the 64th failure
the batch fails with the query as DETAIL (R188). Where the spec leaves a point open, the statement has the model's choice: log entry 18. -/
def Obligations.ResultWritesAreAcknowledgedAndRetried : Prop :=
  (∀ (s : State) (i id h : Nat) (sl : Slice) (w : MeshWrite) (b : Batch), s.working i sl → sl.ing.pendq = [] → sl.ing.meshWait = [] →
    sl.calm → sl.meshWrite? id false = some w → w.isResult = true → w.handle = some h → sl.batch? h = some b → b.allEnded = false →
    ∃ sl', exec (.resultWriteAck i id) s = .next (s.put i sl') ∧ sl'.ing.meshOut = sl.ing.meshOut.filter (fun x => x.id != w.id) ∧
      (sl'.batch? h).map (·.budget) = some 0 ∧ (∀ k, k ≠ h → sl'.batch? k = sl.batch? k) ∧ sl'.mash = sl.mash ∧ sl'.work = sl.work) ∧
  (∀ (s : State) (i id h : Nat) (sl : Slice) (w : MeshWrite) (b : Batch), s.working i sl → sl.ing.pendq = [] → sl.ing.meshWait = [] →
    sl.calm → sl.meshWrite? id false = some w → w.kind = .taken → w.handle = some h → sl.batch? h = some b → b.allEnded = false →
    ∃ sl', exec (.resultWriteAck i id) s = .next (s.put i sl') ∧ sl'.batch? h = some { b with takenAcked := true } ∧
      (∀ x ∈ sl'.ing.meshOut, x.id ≠ w.id) ∧ sl'.mash = sl.mash ∧ sl'.work = sl.work) ∧
  (∀ (s : State) (i k : Nat) (sl : Slice) (w : MeshWrite), s.working i sl → sl.meshWrite? k false = some w → w.retried = false →
    exec (.bankUnavailable i k) s = .next (s.put i { sl with ing := { sl.ing with
      meshOut := updateWhere (fun x => x.id = w.id) (fun x => { x with waiting := true, retryAt := sl.time + 2000 }) sl.ing.meshOut } })) ∧
  (∀ (s : State) (i k h : Nat) (sl : Slice) (w : MeshWrite) (b : Batch), s.working i sl → sl.ing.pendq = [] →
    sl.meshWrite? k false = some w → w.retried = true → w.isResult = true → w.handle = some h → sl.batch? h = some b → b.budget < 63 →
    exec (.bankUnavailable i k) s = .next (s.put i { sl with ing := { sl.ing with
      meshOut := updateWhere (fun x => x.id = w.id) (fun x => { x with waiting := true, retryAt := sl.time + 2000 }) sl.ing.meshOut
      batches := updateWhere (fun x => x.handle = b.handle) (fun _ => { b with budget := b.budget + 1 }) sl.ing.batches } })) ∧
  (∀ (s : State) (i k : Nat) (sl : Slice) (w : MeshWrite), s.working i sl → sl.ing.pendq = [] → sl.meshWrite? k true = some w →
    w.retryAt ≤ sl.time →
    ∃ sl', exec (.bankRetryTimer i k false) s = .next (s.put i sl') ∧ sl'.ing = { sl.ing with
      meshOut := updateWhere (fun x => x.id = w.id) (fun x => { x with waiting := false, retried := true }) sl.ing.meshOut } ∧
      sl'.mash = sl.mash ∧ sl'.work = sl.work ∧ sl'.cache = sl.cache) ∧
  (∀ (s : State) (i k : Nat) (sl : Slice) (w : MeshWrite) (r : Bool), s.working i sl → sl.meshWrite? k true = some w → sl.time < w.retryAt →
    exec (.bankRetryTimer i k r) s = .next s) ∧
  (∀ (s : State) (i k h : Nat) (sl : Slice) (w : MeshWrite) (b : Batch), s.working i sl → sl.ing.pendq = [] →
    sl.meshWrite? k true = some w → w.retryAt ≤ sl.time → w.isResult = true → w.handle = some h → sl.batch? h = some b → b.budget < 63 →
    ∃ sl', exec (.bankRetryTimer i k true) s = .next (s.put i sl') ∧ sl'.ing = { sl.ing with
      meshOut := updateWhere (fun x => x.id = w.id) (fun x => { x with waiting := true, retryAt := sl.time + 2000 }) sl.ing.meshOut
      batches := updateWhere (fun x => x.handle = b.handle) (fun _ => { b with budget := b.budget + 1 }) sl.ing.batches } ∧
      sl'.mash = sl.mash ∧ sl'.work = sl.work ∧ sl'.cache = sl.cache) ∧
  ∀ (s : State) (i q : Nat) (sl : Slice) (w : MeshWrite) (b : Batch), s.working i sl → sl.ing.pendq = [] → sl.ing.meshOut = [w] →
    sl.ing.meshWait = [] → sl.calm → w.waiting = true → w.retryAt ≤ sl.time → w.handle = some b.handle → w.kind = .slot q →
    w.block = none → w.op = .write → sl.ing.batches = [b] → b.budget = 63 → b.replaying = none → b.allEnded = false →
    ∃ sl', exec (.bankRetryTimer i w.id true) s = .next (s.put i sl') ∧ sl'.ing.meshOut = [] ∧
      sl'.ing.batches = [{ b with budget := 0, phase := .failed, failDetail := some q, toWrite := [], ops := [], opGot := [] }]

/-- A journal write that settles gives its batch the state it recorded, and with FREE the batch leaves the table (R500). A replay whose old
run has ended, with no part of it on its way, discards the results and reads the ledger through the slice cache (R348, R494): the lines
that are not there are asked for, and with all of them there the queries are released again. Where the spec leaves a point open, the
statement has the model's choice: log entries 20, 32 and 40. -/
def Obligations.JournalWritesSettleAndReplaysRun : Prop :=
  (∀ (s : State) (i : Nat) (sl : Slice) (j : JWrite) (rest : List JWrite), s.working i sl → sl.ing.jwrites = j :: rest →
    sl.ing.fromJournal = [] → sl.ing.adopting = [] → sl.calm →
    ∃ sl', exec (.journalWriteSettled i) s = .next (s.put i sl') ∧ sl'.ing.jwrites = rest ∧
      sl'.ing.batches = (if j.jstate = .free then sl.ing.batches.filter (fun b => some b.handle != j.handle)
          else updateWhere (fun b => some b.handle = j.handle) (fun b => { b with jstate := j.jstate }) sl.ing.batches) ∧
      sl'.store = sl.store ∧ sl'.mash = sl.mash ∧ sl'.work = sl.work) ∧
  (∀ (s : State) (i : Nat) (sl : Slice) (j : JWrite) (rest : List JWrite), s.working i sl → sl.ing.jwrites = j :: rest →
    j.settles = none → sl.cache.evict = [] → sl.ing.fromJournal = [] → sl.ing.adopting = [] →
    ∃ sl', exec (.journalWriteSettled i) s = .next (s.put i sl') ∧ sl'.ing = { sl.ing with
        jwrites := rest
        batches := if j.jstate = .free then sl.ing.batches.filter (fun b => some b.handle != j.handle)
          else updateWhere (fun b => some b.handle = j.handle) (fun b => { b with jstate := j.jstate }) sl.ing.batches } ∧
      sl'.cache = sl.cache ∧ sl'.store = sl.store ∧ sl'.mash = sl.mash) ∧
  (∀ (s : State) (i h a : Nat) (sl : Slice) (b : Batch) (c : Ctx), s.working i sl → sl.batch? h = some b →
    (sl.view s.cap).ctx? b.desc.ctx = some c → b.replaying = some [] → s.resultUnderway i h = false →
    (∀ x ∈ b.items, x.use = .ledger) → a ∈ ledgerLines c b.items → sl.cache.seen (sl.view s.cap) .stream c.id a = none →
    sl.cache.arrived .stream c.id a = [] →
    ∃ sl' b', exec (.replayRelease i h []) s = .next (s.put i sl') ∧ sl'.batch? h = some b' ∧ b'.reading.isSome = true ∧
      b' = { b with res := b.res.map QRes.again, slots := [], ops := [], opGot := [], replaying := none, toWrite := [], built := false
                    reading := b'.reading } ∧
      ((∃ m ∈ sl'.cache.misses, m.ctx = c.id ∧ m.addr = a ∧ Requester.ledger h ∈ m.waiters) ∨
        ∃ w ∈ sl'.cache.waiting, w.ctx = c.id ∧ w.addr = a ∧ w.who = .ledger h) ∧
      sl'.mash = sl.mash ∧ sl'.store = sl.store ∧ sl'.work = sl.work ∧ sl'.rope = sl.rope) ∧
  (∀ (s : State) (i : Nat) (ls : List (List Byte)) (sl : Slice) (b : Batch) (c : Ctx) (q : Query) (x : QRes) (e : QEntry), s.working i sl →
    sl.ing.batches = [b] → (sl.view s.cap).ctx? b.desc.ctx = some c → b.replaying = some [] → (∀ y ∈ b.items, y.use = .ledger) →
    (ledgerLines c b.items).map (sl.cache.seen (sl.view s.cap) .stream c.id) = ls.map (fun bs => some (bs, [])) →
    (∀ bs ∈ ls, bs.length = 256) → b.res = [x] → x.stat = .ok → s.resultUnderway i b.handle = false →
    ledgerQueries sl.id b.handle b.desc c b.items [x.q] ls.flatten = ([q], []) → sl.store.entries.find? q.owns = some e → (sl.view s.cap).ctx? q.ctx = some c →
    let q' := ({ q with entry := e.first, spilled := e.spilled }).atRoot (rootRef (sl.view s.cap) c)
    q'.next.ckind ≠ 6 → sl.opensBin q' →
    ∃ sl', exec (.replayRelease i b.handle []) s = .next (s.put i sl') ∧
      sl'.store = sl.store.markHitched q.owns false ∧
      sl'.ing = { sl.ing with batches := [{ b with
        res := [x.again], slots := [], ops := [], opGot := [], replaying := none, toWrite := [], built := false, reading := none }] } ∧
      sl'.mash = { sl.mash with bins := sl.mash.bins ++ [sl.newBin (sl.view s.cap) c { q' with entered := sl.time }] } ∧
      (e.spilled = false → sl'.cache =
        (ledgerLines c b.items).foldl (fun k a => k.used (sl.view s.cap) .stream c.id a) sl.cache) ∧ sl'.work = sl.work ∧ sl'.rope = sl.rope) ∧
  ∀ (s : State) (i h : Nat) (sl : Slice) (reads : Decodes), s.working i sl → s.resultUnderway i h = true →
    exec (.replayRelease i h reads) s = .next s

/-- A hitched query whose refetch has brought its line is replayed: it enters the bin of its replay point's object, hitched no more (R493).
A scrubbed row without error changes counters alone, a corrected one too (R485). Rotation takes the next unit out for test at its next
bound, where the spare takes its position; a unit that passes is the spare, one that fails is retired, with its repair record and its fault
(R516, R517, R525). Where the spec leaves a point open, the statement has the model's choice: log entries 58 and 87. -/
def Obligations.RefetchesScrubsAndRotationEnd : Prop :=
  (∀ (s : State) (i addr : Nat) (sl : Slice), s.working i sl → sl.cache.refetching addr = false →
    ∃ sl', exec (.hitchRefetchDone i addr .installed) s = .next (s.put i sl') ∧
      sl'.work = { sl.work with hitched := sl.work.hitched.filter (fun q => !q.awaitsRefetch addr) } ∧
      (∀ q ∈ sl.work.hitched, q.awaitsRefetch addr = true → sl'.hasQuery { q with hitch := none, entered := sl.time }) ∧
      sl'.cache = sl.cache ∧ sl'.ing = sl.ing ∧ sl'.rope = sl.rope) ∧
  (∀ (s : State) (i : Nat) (sl : Slice) (q : Query) (h : Hitch) (c : Ctx), s.working i sl → sl.work.hitched = [q] → q.hitch = some h →
    h.cause = .refetch → sl.cache.refetching h.addr = false → q.next.ckind ≠ 6 → (sl.view s.cap).ctx? q.ctx = some c → sl.opensBin q →
    ∃ sl', exec (.hitchRefetchDone i h.addr .installed) s = .next (s.put i sl') ∧ sl'.work = { sl.work with hitched := [] } ∧
      sl'.store = sl.store.markHitched q.owns false ∧ sl'.cache = sl.cache ∧ sl'.mash = { sl.mash with bins :=
        sl.mash.bins ++ [sl.newBin (sl.view s.cap) c { q with hitch := none, entered := sl.time }] }) ∧
  (∀ (s : State) (i : Nat) (sl : Slice) (r : ScrubRow), s.working i sl →
    (∃ v, exec (.scrub i r .ok) s = .next (s.put i { sl with cnt := { sl.cnt with vals := v } })) ∧
    ∃ v, exec (.scrub i r .corrected) s = .next (s.put i { sl with cnt := { sl.cnt with vals := v } })) ∧
  (∀ (s : State) (i : Nat) (sl : Slice), s.working i sl →
    s.cap.img.rotate = false ∨ sl.pwr.napping = true ∨ sl.time < sl.work.rotAt + 2000 * s.cap.img.rotPeriod →
    exec (.rotationStep i) s = .next s) ∧
  (∀ (s : State) (i x p : Nat) (sl : Slice), s.working i sl → s.cap.img.rotate = true → sl.pwr.napping = false →
    sl.work.rotAt + 2000 * s.cap.img.rotPeriod ≤ sl.time → sl.work.layRetired = [1] → sl.work.layOff = none →
    sl.work.rotUnit0 = none → sl.work.rotStep0 = 0 → sl.work.retired 0 true 0 = false → sl.work.spare 0 true = some x → x ≠ 0 →
    sl.work.walkMap0[p]? = some 0 → (∀ k < p, sl.work.walkMap0[k]? ≠ some 0) →
    ∃ sl', exec (.rotationStep i) s = .next (s.put i sl') ∧ sl'.work = { sl.work with
      walkMap0 := if sl.atBound 0 true p then sl.work.walkMap0.set p x else sl.work.walkMap0
      rotUnit0 := some 0, rotDue0 := !sl.atBound 0 true p, rotStep0 := 1
      rotAt := sl.work.rotAt + (sl.time - sl.work.rotAt) / (2000 * s.cap.img.rotPeriod) * (2000 * s.cap.img.rotPeriod) } ∧
      sl'.mash = sl.mash ∧ sl'.cache = sl.cache ∧ sl'.store = sl.store) ∧
  (∀ (s : State) (i u : Nat) (sl : Slice), s.working i sl → sl.work.rotUnit0 = some u → sl.work.rotDue0 = false →
    exec (.rotationTestDone i 0 true) s = .next (s.put i { sl with work := { sl.work with rotUnit0 := none } })) ∧
  ∀ (s : State) (i u : Nat) (sl : Slice), s.working i sl → s.decides → sl.work.rotUnit0 = some u → sl.work.rotDue0 = false → u < 9 → sl.work.walkMap0 ≠ [] →
    s.cap.hl.repairs.length < 4096 → sl.tokens ≠ 0 → sl.dropped = 0 →
    ∃ t sl', exec (.rotationTestDone i 0 false) s = .next t ∧ t.slices[i]? = some sl' ∧ sl'.work = { sl.work with
      rotUnit0 := none, walkRetired := sl.work.walkRetired ||| 2 ^ u } ∧ t.cap.hl.repairs.length = s.cap.hl.repairs.length + 1 ∧
      t.cap.hl.fault.getLsbD 0 = true ∧ t.cap.ctxs = s.cap.ctxs

/-! ### Passes and contexts -/

/-- A pass that is due starts: it RUNS, at its start time, with its next pass id (R384, R466); poison in a slice's read of the entry halts it
(R468). While it drains the slices report that it is empty, and it is over, its next one due, once every live slice has reported it
(R383). A change of a context writes its live block and its status block, 48 bytes with their fields (R457, R460). Where the spec leaves a
point open, the statement has the model's choice: log entry 46. -/
def Obligations.PassesStartAndEnd : Prop :=
  (∀ (s : State) (ctx : Nat) (m : List MapRead) (x : Ctx), s.cap.acts = true → s.settled → s.cap.ctx? ctx = some x → x.awaitStart = true →
    x.cstate = .valid → x.homed = false → s.cap.cmd = none →
    (∀ sl ∈ s.slices, sl.ing.pendq = [] ∧ sl.calm ∧ ∀ e ∈ sl.cctx.slots, e.ctx = ctx → byteAt e.fixed 14 ≠ 1) →
    ∃ t y, exec (.passStart ctx [] m) s = .next t ∧ t.cap.ctx? ctx = some y ∧ y.pass = .running ∧ y.awaitStart = false ∧
      y.passId = (if x.pass = .none then x.passId else (x.passId + 1) % 2 ^ 32) ∧ y.passStart = s.cap.now ∧ y.missedNow = false ∧
      y.live = (match x.pend with | some b => if x.late then x.live else b | none => x.live) ∧ y.fixed = x.fixed ∧
      (∀ k, k ≠ ctx → t.cap.ctx? k = s.cap.ctx? k) ∧ t.slices.length = s.slices.length ∧ t.rope = s.rope) ∧
  (∀ (s : State) (ctx : Nat) (r : List EntryRead) (m : List MapRead) (x : Ctx), s.cap.acts = true → s.settled →
    s.cap.ctx? ctx = some x → x.awaitStart = true → x.cstate = .valid → x.pass ≠ .running → s.cap.cmd = none →
    (∀ sl ∈ s.slices, sl.ing.pendq = []) → s.readPoison r = true →
    ∃ t y, exec (.passStart ctx r m) s = .next t ∧ t.cap.ctx? ctx = some y ∧ y.pass = .halted ∧ y.cstate = .fault ∧
      y.awaitStart = false ∧ t.rope = s.rope) ∧
  (∀ (s : State) (i j ctx : Nat) (sl : Slice) (x : Ctx), s.slices[i]? = some sl → sl.works s.cap = true → s.settled →
    s.cap.ctx? ctx = some x → x.pass = .draining → x.awaitStart = false → sl.holdsPass ctx = false → ¬ i ∈ x.emptied → j < s.cap.n →
    s.cap.isLive j = true → j ≠ i → ¬ j ∈ x.emptied →
    ∃ sl', exec (.slicePassEmpty i ctx) s = .next ((s.put i sl').withCap
        (s.cap.onCtx ctx (fun y => { y with emptied := y.emptied ++ [i] }))) ∧
      sl'.cnt.ctl = sl.cnt.ctl ∧ sl'.ing = sl.ing ∧ sl'.mash = sl.mash ∧ sl'.work = sl.work) ∧
  (∀ (s : State) (i ctx : Nat) (sl : Slice), s.slices[i]? = some sl → sl.holdsPass ctx = true →
    exec (.slicePassEmpty i ctx) s = .next s) ∧
  (∀ (s : State) (i ctx : Nat) (sl : Slice) (x : Ctx), s.slices[i]? = some sl → sl.works s.cap = true → s.settled →
    s.cap.ctx? ctx = some x → x.pass = .draining → x.awaitStart = false → sl.holdsPass ctx = false → x.toInvalid = false →
    x.faulted = false → s.cap.acts = true → (∀ j < s.cap.n, s.cap.isLive j = true → j = i ∨ j ∈ x.emptied) → s.passEmpty ctx = true →
    ∃ t y, exec (.slicePassEmpty i ctx) s = .next t ∧ t.cap.ctx? ctx = some y ∧
      y = { x with missedLast := x.missedNow, emptied := [], awaitStart := true } ∧ t.rope = s.rope ∧ t.cap.log = s.cap.log) ∧
  ∀ (c : Capstan) (ctx : Nat) (f : Ctx → Ctx) (x : Ctx), c.ctx? ctx = some x → (f x).id = x.id →
    ∃ e, (c.onCtx ctx f).table.find? (fun e => e.ctx = ctx) = some e ∧ e.live = (f x).live ∧ e.status = (f x).status ∧
      e.status.length = 48 ∧ le e.status 1 1 = (f x).fclass % 256 ∧ le e.status 4 4 = (f x).passId % 2 ^ 32 ∧
      le e.status 8 4 = (f x).fbatch % 2 ^ 32 ∧ le e.status 16 8 = (f x).faddr % 2 ^ 48 ∧ le e.status 28 4 = (f x).misses % 2 ^ 32 ∧
      le e.status 32 8 = (f x).passStart % 2 ^ 64

/-- A frame tick requests a boundary of every context in FRAME mode (R382): the running pass drains, with the time of the tick as the
reference of the next; a tick that comes while the Capstan restarts is kept for the end of the restart (R510); a rising edge of SYNC_IN less
than 10 us after the last is ignored and counted (R607). A pass that reaches its deadline, not quiet, has missed it (R387): MISSES goes on,
the record is written, the event is raised; while it is quiet nothing is missed, and before the time nothing happens. Where the spec leaves
a point open, the statement has the model's choice: log entries 35, 46 and 75. -/
def Obligations.TicksAndDeadlinesHappen : Prop :=
  (∀ (s : State) (x : Ctx), s.cap.acts = true → s.cap.tb.on = true → s.settled → s.cap.img.syncMode = 2 → s.cap.img.tickPeriod ≠ 0 →
    s.cap.ctxs = [x] → x.frame = true → x.cstate = .valid → x.pass = .running → x.toInvalid = false → s.cap.tb.lastTick = none →
    ∃ t y, exec .frameTick s = .next t ∧ t.cap.ctxs = [y] ∧ y.pass = .draining ∧ y.id = x.id ∧
      y.tick = some (s.cap.now / s.cap.img.tickPeriod * s.cap.img.tickPeriod) ∧
      t.cap.tb = { s.cap.tb with lastTick := some (s.cap.now / s.cap.img.tickPeriod * s.cap.img.tickPeriod) }) ∧
  (∀ (s : State) (k : Nat), s.cap.su.power = .running → s.cap.hl.restarting = some k → s.cap.hl.failed = false → s.cap.tb.on = true → s.settled →
    s.cap.img.syncMode = 2 → s.cap.img.tickPeriod ≠ 0 → s.cap.tb.lastTick = none →
    let t := s.cap.now / s.cap.img.tickPeriod * s.cap.img.tickPeriod
    exec .frameTick s = .next (s.withCap { s.cap with tb := { s.cap.tb with lastTick := some t, heldTicks := s.cap.tb.heldTicks ++ [t] } })) ∧
  (∀ (s : State) (e : Nat), s.cap.acts = true → s.cap.tb.on = true → s.settled → s.cap.img.syncMode = 1 → s.cap.tb.lastEdge = some e →
    s.cap.tb.time < e + 20000 →
    exec .frameTick s = .next (s.withCap { s.cap with tb := { s.cap.tb with bad := min 0xFFF (s.cap.tb.bad + 1) } })) ∧
  (∀ (s : State) (ctx : Nat) (x : Ctx), s.cap.acts = true → s.settled → s.cap.ctx? ctx = some x → x.deadlineArmed = true →
    x.tref + x.deadline ≤ s.cap.now → s.quiet ctx = false → s.cap.log.first.length ≠ 1023 →
    ∃ t, exec (.deadlineMissed ctx) s = .next t ∧ t.cap.ctx? ctx = some { x with
        deadlineArmed := false, missedNow := true, misses := min 0xFFFFFFFF (x.misses + 1), overrunFrom := some (x.tref + x.deadline) } ∧
      t.cap.log.next = s.cap.log.next + 2 ∧ t.cap.irq.pend.testBit 1 = true ∧
      t.cap.irq.counts[1]? = (s.cap.irq.counts[1]?).map (fun n => min 0xFFFF (n + 1)) ∧ t.slices = s.slices ∧ t.rope = s.rope) ∧
  (∀ (s : State) (ctx : Nat) (x : Ctx), s.cap.acts = true → s.settled → s.cap.ctx? ctx = some x → x.deadlineArmed = true →
    x.tref + x.deadline ≤ s.cap.now → s.quiet ctx = true →
    exec (.deadlineMissed ctx) s = .next (s.withCap (s.cap.onCtx ctx (fun y => { y with deadlineArmed := false })))) ∧
  ∀ (s : State) (ctx : Nat) (x : Ctx), s.cap.ctx? ctx = some x → s.cap.now < x.tref + x.deadline →
    exec (.deadlineMissed ctx) s = .next s

/-- Context commands (R463, R464): VALIDATE and STAGE wait for the entry, INVALIDATE and BOUNDARY make a running pass drain, CLEAR_FAULT
clears the fault fields of a halted context, whose next pass is then due; a command that its context does not allow is refused with its
record and changes nothing else. The entry of a VALIDATE that passes its checks makes the context valid with its pass 0 due; the entry
of a STAGE is pending; a check that fails ends the command with its code and DETAIL (R465); poison ends it with 0x09 (R468). Where the
spec leaves a point open, the statement has the model's choice: log entry 46. -/
def Obligations.ContextCommandsAreHandled : Prop :=
  let begun (s : State) (op : CtxOp) (ctx : Nat) (wb : Bool) : Capstan := { s.cap with
    cmd := some { op := op, ctx := ctx, withBoundary := wb, after := false }
    ctxResult := resultReg 0x02 true op.code ctx 0 }
  (∀ (s : State) (ctx : Nat), s.decides → s.settled → s.cap.cmd = none → s.cap.su.state = .ready → ctx < 4096 → ctx < s.cap.img.ctxCount →
    s.cap.ctx? ctx = none → exec (.validate ctx) s = .next ((s.withCap (begun s .validate ctx false)).respond 0 0)) ∧
  (∀ (s : State) (ctx : Nat) (x : Ctx), s.decides → s.settled → s.cap.cmd = none → s.cap.su.state = .ready → ctx < 4096 →
    ctx < s.cap.img.ctxCount → s.cap.ctx? ctx = some x → x.awaitStart = false → x.cstate ≠ .invalid →
    exec (.stage ctx false) s = .next ((s.withCap (begun s .stage ctx false)).respond 0 0)) ∧
  (∀ (s : State) (ctx : Nat) (x : Ctx), s.decides → s.settled → s.cap.cmd = none → s.cap.su.state = .ready → ctx < 4096 →
    ctx < s.cap.img.ctxCount → s.cap.ctx? ctx = some x → x.awaitStart = false → x.cstate = .valid → x.pass = .running →
    s.passEmpty ctx = false →
    ∃ t : State, exec (.invalidate ctx) s = .next (t.respond 0 0) ∧ t.cap = (begun s .invalidate ctx false).onCtx ctx (fun y =>
      { y with pass := .draining, toInvalid := true, emptied := [], tick := none })) ∧
  (∀ (s : State) (ctx : Nat) (x : Ctx), s.decides → s.settled → s.cap.cmd = none → s.cap.su.state = .ready → ctx < 4096 →
    ctx < s.cap.img.ctxCount → s.cap.ctx? ctx = some x → x.awaitStart = false → x.cstate = .valid → x.pass = .running →
    x.frame = false → s.passEmpty ctx = false →
    ∃ t : State, exec (.boundary ctx) s = .next (t.respond 0 0) ∧ t.cap = { s.cap.onCtx ctx (fun y =>
      { y with pass := .draining, emptied := [], tick := none }) with ctxResult := resultReg 0x01 false 4 ctx 0 }) ∧
  (∀ (s : State) (ctx : Nat) (x : Ctx), s.decides → s.settled → s.cap.cmd = none → s.cap.su.state = .ready → ctx < 4096 →
    ctx < s.cap.img.ctxCount → s.cap.ctx? ctx = some x → x.awaitStart = false → x.cstate = .fault → x.pass = .halted →
    exec (.clearFault ctx) s =
      .next ((s.withCap ((begun s .clearFault ctx false).onCtx ctx Ctx.clearFault)).broadcast.respond 0 0)) ∧
  (∀ (s : State) (ctx : Nat) (x : Ctx), s.decides → s.settled → s.cap.cmd = none → s.cap.su.state = .ready → ctx < 4096 →
    ctx < s.cap.img.ctxCount → s.cap.ctx? ctx = some x → x.awaitStart = false → x.cstate ≠ .invalid →
    ∃ t : State, exec (.validate ctx) s = .next (t.respond 0 0) ∧ t.cap.ctxResult = resultReg 0x04 false 1 ctx 0 ∧ t.cap.cmd = none ∧
      t.cap.ctxs = s.cap.ctxs ∧ t.slices = s.slices ∧ t.cap.log.next = s.cap.log.next + 1) ∧
  (∀ (s : State) (k : CtxCmd) (entry : List Byte), s.cap.acts = true → s.settled → s.cap.cmd = some k → k.after = false → k.op = .validate →
    (s.cap.ctxOr k.ctx).awaitStart = false → entry.length = 256 →
    entryFails s.cap true k.ctx (entry.take 64) ((entry.drop 112).take 48) = none →
    ∃ (t : State) (x : Ctx), exec (.contextEntryRead entry false) s = .next t ∧ t.cap.ctx? k.ctx = some x ∧ x.cstate = .valid ∧ x.pass = .none ∧
      x.awaitStart = true ∧ x.fixed = entry.take 64 ∧ x.live = (entry.drop 112).take 48 ∧ t.cap.cmd = some k ∧ t.cap.log = s.cap.log) ∧
  (∀ (s : State) (k : CtxCmd) (x : Ctx) (entry : List Byte), s.cap.acts = true → s.settled → s.cap.cmd = some k → k.after = false →
    k.op = .stage → k.withBoundary = false → s.cap.ctx? k.ctx = some x → entry.length = 256 →
    entryFails s.cap false k.ctx x.fixed ((entry.drop 112).take 48) = none →
    exec (.contextEntryRead entry false) s = .next (s.withCap { s.cap.onCtx k.ctx (fun y =>
      { y with pend := some ((entry.drop 112).take 48), late := y.awaitStart }) with
        cmd := none, ctxResult := resultReg 0x01 false 3 k.ctx 0 })) ∧
  (∀ (s : State) (k : CtxCmd) (entry : List Byte) (code d : Nat), s.cap.acts = true → s.settled → s.cap.cmd = some k → k.after = false →
    k.op = .validate → (s.cap.ctxOr k.ctx).awaitStart = false → entry.length = 256 →
    entryFails s.cap true k.ctx (entry.take 64) ((entry.drop 112).take 48) = some (code, d) →
    ∃ t, exec (.contextEntryRead entry false) s = .next t ∧ t.cap.ctxResult = resultReg code false 1 k.ctx d ∧ t.cap.cmd = none ∧
      t.cap.ctxs = s.cap.ctxs ∧ t.slices = s.slices ∧ t.cap.log.next = s.cap.log.next + 1) ∧
  ∀ (s : State) (k : CtxCmd) (entry : List Byte), s.cap.acts = true → s.settled → s.cap.cmd = some k → k.after = false →
    k.op = .validate → (s.cap.ctxOr k.ctx).awaitStart = false →
    ∃ t, exec (.contextEntryRead entry true) s = .next t ∧ t.cap.ctxResult = resultReg 0x09 false 1 k.ctx 0 ∧ t.cap.cmd = none ∧
      t.cap.ctxs = s.cap.ctxs ∧ t.slices = s.slices ∧ t.cap.log.next = s.cap.log.next + 2

/-! ### What holds in every state a run reaches, and what holds whatever the data -/

/-- The invariant holds at reset: no record, no message, no activation, no context yet (R469, R528, R530, R600). -/
def Obligations.ResetHoldsTheInvariant : Prop := State.reset.Inv

/-- Every step from a state with the invariant answers a state with it: the block keeps its slices; the first runnings hold at most 1,024
records and the last runnings 7,168, in consecutive SEQ up to the next, the last runnings filled only once the first are full (R528, R530,
R532, R533); the interrupt port holds at most 16 messages (R600); the repair list at most 4,096 (R525); each of the 64 activation slots
is in use once (R469); the context table lists each context once. -/
def Obligations.EveryStepKeepsTheInvariant : Prop :=
  ∀ s t : State, s.Inv → step s = .next t → t.Inv

/-- In a Logline with the invariant a record of the last runnings is found by its SEQ while its words decode, a SEQ not yet written is
NOT_YET, and one that has left them is GONE (R528, R541, R562). -/
def Obligations.RecordsAreFoundBySeq : Prop :=
  ∀ l : Logline, l.sound →
    (∀ (k : Nat) (r : Stored), l.last[k]? = some r →
      l.select false r.seq.toNat = if r.lost then (2, []) else (1, r.bytes)) ∧
    (∀ i : BitVec 32, (i - l.next).toNat < 2 ^ 31 → l.select false i.toNat = (3, [])) ∧
    ∀ i : BitVec 32, 2 ^ 31 ≤ (i - l.next).toNat → l.last.length ≤ (i - l.oldest).toNat → l.select false i.toNat = (2, [])

/-- Combination does not depend on the order of the contributions (R177, R260): of one element, and of the vectors of a slot. -/
def Obligations.CombinationIsOrderFree : Prop :=
  (∀ (b : Comb) (x y : Code), addContrib (addContrib b x) y = addContrib (addContrib b y) x) ∧
  ∀ (cs : List Comb) (v w : List Code), combine (combine cs v) w = combine (combine cs w) v

/-- Granules are neither lost nor made (R334, R337): an entry takes as many as it is asked for, from the free ones alone, and what is given back
is free again. -/
def Obligations.GranulesAreConserved : Prop :=
  (∀ (n : Nat) (free got rest : List (Nat × Nat)), takeRuns n free = some (got, rest) →
    (got.map (·.2)).sum = n ∧ (got.map (·.2)).sum + (rest.map (·.2)).sum = (free.map (·.2)).sum) ∧
  (∀ (st st' : Store) (n kind home batch q first : Nat) (guest : Bool), st.place n kind home batch q guest = some (first, st') →
    st'.freeCount + n = st.freeCount ∧ st'.entries.length = st.entries.length + 1 ∧ st'.bad = st.bad) ∧
  ∀ (st : Store) (runs : List (Nat × Nat)), st.bad = [] → (st.giveBack runs).freeCount = st.freeCount + (runs.map (·.2)).sum

/-- The short stack never holds more than eight entries, whatever a query visits (R215). -/
def Obligations.ShortStacksHoldEight : Prop :=
  ∀ (t : TreeCtx) (r : RootRef) (bs : List Byte) (q : Query), q.stack.length ≤ 8 →
    (visitBox t r bs q).query.stack.length ≤ 8 ∧ (visitInstance t r bs q).query.stack.length ≤ 8 ∧
    (visitHost t r bs q).1.query.stack.length ≤ 8 ∧ (visitTriangles t r bs q).1.query.stack.length ≤ 8 ∧
    ∀ cs : List Child, (q.descend r cs).query.stack.length ≤ 8

/-! ### Rules of the record, tree and register formats -/

/-- With NSUB the query indices of a batch are 0 to COUNT − 1, all of them active (R137). With NSUB.G query l × LANEQ + j is active exactly
when bit l of the mask is 1, the active count is the number of 1 bits times LANEQ, and COUNT must be 64 × LANEQ (R138). -/
def Obligations.ActiveQueriesOfASubmission : Prop :=
  (∀ (d : Desc) (m : Nat), (∀ q, q ∈ activeOf d false m ↔ q < d.count) ∧ (activeOf d false m).length = d.count) ∧
  (∀ (d : Desc) (m l j : Nat), l < 64 → j < d.laneq → (l * d.laneq + j ∈ activeOf d true m ↔ m.testBit l = true)) ∧
  (∀ (d : Desc) (m q : Nat), q ∈ activeOf d true m → q < 64 * d.laneq) ∧
  (∀ (d : Desc) (m : Nat), (activeOf d true m).Nodup ∧
    (activeOf d true m).length = ((List.range 64).filter (fun l => m.testBit l)).length * d.laneq) ∧
  ∀ d : Desc, d.count ≠ 64 * d.laneq → badCount d true = true

/-- PLACE of a pointer says how the object below it is placed, and the reserved code is a tree fault BAD_POINTER where the pointer is followed
(R85). A ray enters an instance node only where its MASK meets the node's, one with MASK 0 enters none, and the mask changes no test
against a triangle (R52). An EMPTY slot has no box, and one whose QLO exceeds its QHI on an axis is never hit; neither has a place in
the order of the children (R91). Where the spec leaves a point open, the statement has the model's choice: that BAD_POINTER names the
node whose pointer is followed is log entry 69, and that a missed mask pops before the other checks of the node is log entry 10. -/
def Obligations.PointersInstancesAndSlots : Prop :=
  (∀ (parent : Placement) (w : Nat),
    (w / 16 % 4 = 0 → placedBy parent (ptrOf w) = parent) ∧ (w / 16 % 4 = 1 → placedBy parent (ptrOf w) = .replicated) ∧
    (w / 16 % 4 = 2 → placedBy parent (ptrOf w) = .homed (w / 2 ^ 49 % 2 ^ 15))) ∧
  (∀ (r : RootRef) (q : Query) (c : Child) (n : Nat), c.ptr / 16 % 4 = 3 →
    ∃ q', q.follow r c n = .fault q' { cause := .badPointer, addr := q.next.addr }) ∧
  (∀ (t : TreeCtx) (r : RootRef) (bs : List Byte) (q : Query), instKindFault t q.next.addr bs = none →
    (q.mask &&& (instNode bs).imask = 0 ∨ q.mask = 0) → visitInstance t r bs q = q.pop r) ∧
  (∀ (t : TreeCtx) (r : RootRef) (bs : List Byte) (q : Query) (o d : V3), instKindFault t q.next.addr bs = none →
    q.mask &&& (instNode bs).imask ≠ 0 → withDepth q (instFault q.next.addr q.insts.length bs) = none → q.rewalk = none →
    enterFrame (instNode bs).xform q.frame.1 q.frame.2 = some (o, d) → (ptrOf (instNode bs).root).bad = false →
    (ptrOf (instNode bs).root).ckind ≠ 0 → (ptrOf (instNode bs).root).ckind ≠ 7 →
    ∃ q', visitInstance t r bs q = .go q' ∧ q'.frame = (o, d) ∧ q'.insts.length = q.insts.length + 1 ∧
      q'.next.addr = (ptrOf (instNode bs).root).addr) ∧
  (∀ (ts : List Tri) (q : Query) (m : Nat), (testTriangles ts { q with mask := m }).2 = (testTriangles ts q).2) ∧
  ∀ (bs : List Byte) (o d : V3) (tmin tmax : Machine.Num) (skip : Bool) (g : Code),
    (∀ ch ∈ boxChildren (boxSlots bs) o d tmin tmax skip g, ∃ k < 8, ch.ptr = le bs (64 + 8 * k) 8 ∧ ch.ptr % 16 ≠ 0 ∧
      ∀ a < 3, byteAt bs (16 + 6 * k + 2 * a) ≤ byteAt bs (17 + 6 * k + 2 * a)) ∧
    (boxChildren (boxSlots bs) o d tmin tmax skip g).length = ((boxSlots bs).filter (fun x => x.box.isSome)).length

/-- A write to SC_WAY_CTL requests what its ACTION names for the way of its WAY field, and codes 0b00 and 0b11 have no effect (R354); a
write to PWR_REQ requests what its STATE names, TRIM for the lay of its LAY bit, and 0b11 has no effect (R620). Their other bits do
not matter, and both registers read as zero. -/
def Obligations.RegisterWritesAreRequests : Prop :=
  (∀ (s : State) (i : Nat) (v : Reg) (sl : Slice), s.answers i sl →
    exec (.registerWrite (0x100000 + 0x10000 * i + 0x3818) 8 v) s =
      (if v.toNat / 16 % 4 = 1 then exec (.gate i (v.toNat % 16)) s
       else if v.toNat / 16 % 4 = 2 then exec (.ungate i (v.toNat % 16)) s
       else .next (s.respond 0 0))) ∧
  (∀ (s : State) (i : Nat) (v : Reg) (sl : Slice), s.answers i sl →
    exec (.registerWrite (0x100000 + 0x10000 * i + 0x4808) 8 v) s =
      (if v.toNat % 4 = 0 then exec (.pwrReqOn i) s
       else if v.toNat % 4 = 1 then exec (.pwrReqTrim i (v.toNat / 4 % 2)) s
       else if v.toNat % 4 = 2 then exec (.pwrReqNap i) s
       else .next (s.respond 0 0))) ∧
  ∀ (c : Capstan) (sl : Slice), sl.reg? c 0x3818 = some 0 ∧ sl.reg? c 0x4808 = some 0

/-- LOG_HEAD, LOG_LAST and LOG_DROP have their fields (R558, R559, R560): the next SEQ with the records of the first runnings and the count of
LOG_CLEAR commands; the oldest SEQ of the last runnings, or the next where they are empty, with their records; the two saturating
counts of dropped records. The reserved bits are zero, and a write has no effect. -/
def Obligations.LoglineRegistersHaveTheirFields : Prop :=
  (∀ c : Capstan, c.reg? 0x0400 = some c.log.headReg ∧ c.reg? 0x0408 = some c.log.lastReg ∧ c.reg? 0x0410 = some c.log.dropReg) ∧
  (∀ l : Logline, l.bounded → l.clears ≤ 255 →
    l.headReg.toNat % 2 ^ 32 = l.next.toNat ∧ l.headReg.toNat / 2 ^ 32 % 2 ^ 11 = l.first.length ∧
    l.headReg.toNat / 2 ^ 43 = l.clears) ∧
  (∀ l : Logline, l.bounded →
    l.lastReg.toNat % 2 ^ 32 = (match l.last with
      | [] => l.next.toNat
      | r :: _ => r.seq.toNat) ∧ l.lastReg.toNat / 2 ^ 32 = l.last.length) ∧
  (∀ l : Logline, l.dropReg.toNat % 2 ^ 32 = min l.dropLimited (2 ^ 32 - 1) ∧ l.dropReg.toNat / 2 ^ 32 = min l.dropHeld (2 ^ 32 - 1)) ∧
  ∀ (s : State) (v : Reg), s.decides → s.settled →
    exec (.registerWrite 0x0400 8 v) s = .next (s.respond 0 0) ∧ exec (.registerWrite 0x0408 8 v) s = .next (s.respond 0 0) ∧
    exec (.registerWrite 0x0410 8 v) s = .next (s.respond 0 0)
end

