-- ==== Sys2Proof/Laws/State.lean ====
section
/-!
SUPPORT. The fields of a state after the updates that meanings share: one lemma per field per update.
-/

set_option Elab.async false

namespace Sys2Proof.Machine

/-! ### A slice replaced, the Capstan replaced, changed, every slice changed -/

@[simp] theorem State.put_cap (s : State) (i : Nat) (sl : Slice) : (s.put i sl).cap = s.cap := rfl
@[simp] theorem State.put_slices (s : State) (i : Nat) (sl : Slice) : (s.put i sl).slices = s.slices.set i sl := rfl
@[simp] theorem State.put_rope (s : State) (i : Nat) (sl : Slice) : (s.put i sl).rope = s.rope := rfl
@[simp] theorem State.put_pending (s : State) (i : Nat) (sl : Slice) : (s.put i sl).pending = s.pending := rfl
@[simp] theorem State.put_fresh (s : State) (i : Nat) (sl : Slice) : (s.put i sl).fresh = s.fresh := rfl
@[simp] theorem State.withCap_cap (s : State) (c : Capstan) : (s.withCap c).cap = c := rfl
@[simp] theorem State.withCap_slices (s : State) (c : Capstan) : (s.withCap c).slices = s.slices := rfl
@[simp] theorem State.withCap_rope (s : State) (c : Capstan) : (s.withCap c).rope = s.rope := rfl
@[simp] theorem State.withCap_pending (s : State) (c : Capstan) : (s.withCap c).pending = s.pending := rfl
@[simp] theorem State.withCap_fresh (s : State) (c : Capstan) : (s.withCap c).fresh = s.fresh := rfl
@[simp] theorem State.onCap_cap (s : State) (f : Capstan → Capstan) : (s.onCap f).cap = f s.cap := rfl
@[simp] theorem State.onCap_slices (s : State) (f : Capstan → Capstan) : (s.onCap f).slices = s.slices := rfl
@[simp] theorem State.onCap_rope (s : State) (f : Capstan → Capstan) : (s.onCap f).rope = s.rope := rfl
@[simp] theorem State.onCap_pending (s : State) (f : Capstan → Capstan) : (s.onCap f).pending = s.pending := rfl
@[simp] theorem State.onCap_fresh (s : State) (f : Capstan → Capstan) : (s.onCap f).fresh = s.fresh := rfl
@[simp] theorem State.eachSlice_cap (s : State) (f : Capstan → Slice → Slice) : (s.eachSlice f).cap = s.cap := rfl
@[simp] theorem State.eachSlice_slices (s : State) (f : Capstan → Slice → Slice) : (s.eachSlice f).slices = s.slices.map (fun sl => f (sl.view s.cap) sl) := rfl
@[simp] theorem State.eachSlice_rope (s : State) (f : Capstan → Slice → Slice) : (s.eachSlice f).rope = s.rope := rfl
@[simp] theorem State.eachSlice_pending (s : State) (f : Capstan → Slice → Slice) : (s.eachSlice f).pending = s.pending := rfl
@[simp] theorem State.eachSlice_fresh (s : State) (f : Capstan → Slice → Slice) : (s.eachSlice f).fresh = s.fresh := rfl
@[simp] theorem State.broadcast_cap (s : State) : s.broadcast.cap = s.cap := rfl
@[simp] theorem State.broadcast_rope (s : State) : s.broadcast.rope = s.rope := rfl
@[simp] theorem State.broadcast_pending (s : State) : s.broadcast.pending = s.pending := rfl
@[simp] theorem State.broadcast_fresh (s : State) : s.broadcast.fresh = s.fresh := rfl

/-! ### The engine as a slice sees it -/

@[simp] theorem Slice.view_n (env : Capstan) (sl : Slice) : (sl.view env).n = env.n := rfl
@[simp] theorem Slice.view_su (env : Capstan) (sl : Slice) : (sl.view env).su = env.su := rfl
@[simp] theorem Slice.view_img (env : Capstan) (sl : Slice) : (sl.view env).img = env.img := rfl
@[simp] theorem Slice.view_tb (env : Capstan) (sl : Slice) : (sl.view env).tb = env.tb := rfl
@[simp] theorem Slice.view_log (env : Capstan) (sl : Slice) : (sl.view env).log = env.log := rfl
@[simp] theorem Slice.view_irq (env : Capstan) (sl : Slice) : (sl.view env).irq = env.irq := rfl
@[simp] theorem Slice.view_mgt (env : Capstan) (sl : Slice) : (sl.view env).mgt = env.mgt := rfl
@[simp] theorem Slice.view_hl (env : Capstan) (sl : Slice) : (sl.view env).hl = env.hl := rfl
@[simp] theorem Slice.view_ctxs (env : Capstan) (sl : Slice) : (sl.view env).ctxs = env.ctxs.map sl.cctx.see := rfl
@[simp] theorem Slice.view_table (env : Capstan) (sl : Slice) : (sl.view env).table = env.table := rfl
@[simp] theorem Slice.view_ctxResult (env : Capstan) (sl : Slice) : (sl.view env).ctxResult = env.ctxResult := rfl
@[simp] theorem Slice.view_cmd (env : Capstan) (sl : Slice) : (sl.view env).cmd = env.cmd := rfl
@[simp] theorem Slice.view_active (env : Capstan) (sl : Slice) : (sl.view env).active = env.active := rfl
@[simp] theorem Slice.view_actWait (env : Capstan) (sl : Slice) : (sl.view env).actWait = env.actWait := rfl
@[simp] theorem Slice.view_loans (env : Capstan) (sl : Slice) : (sl.view env).loans = env.loans := rfl

theorem Slice.view_congr (env : Capstan) (sl sl' : Slice) (h : sl'.cctx = sl.cctx) : sl'.view env = sl.view env := by
  simp [Slice.view, h]
@[simp] theorem Slice.works_view (env : Capstan) (sl x : Slice) : x.works (sl.view env) = x.works env := rfl

/-! ### Capstan: a context, the start, the management port changed -/

@[simp] theorem Capstan.writeEntry_n (c : Capstan) (id : Nat) : (Capstan.writeEntry c id).n = c.n := rfl
@[simp] theorem Capstan.writeEntry_su (c : Capstan) (id : Nat) : (Capstan.writeEntry c id).su = c.su := rfl
@[simp] theorem Capstan.writeEntry_img (c : Capstan) (id : Nat) : (Capstan.writeEntry c id).img = c.img := rfl
@[simp] theorem Capstan.writeEntry_tb (c : Capstan) (id : Nat) : (Capstan.writeEntry c id).tb = c.tb := rfl
@[simp] theorem Capstan.writeEntry_log (c : Capstan) (id : Nat) : (Capstan.writeEntry c id).log = c.log := rfl
@[simp] theorem Capstan.writeEntry_irq (c : Capstan) (id : Nat) : (Capstan.writeEntry c id).irq = c.irq := rfl
@[simp] theorem Capstan.writeEntry_mgt (c : Capstan) (id : Nat) : (Capstan.writeEntry c id).mgt = c.mgt := rfl
@[simp] theorem Capstan.writeEntry_hl (c : Capstan) (id : Nat) : (Capstan.writeEntry c id).hl = c.hl := rfl
@[simp] theorem Capstan.writeEntry_ctxs (c : Capstan) (id : Nat) : (Capstan.writeEntry c id).ctxs = c.ctxs := rfl
@[simp] theorem Capstan.writeEntry_ctxResult (c : Capstan) (id : Nat) : (Capstan.writeEntry c id).ctxResult = c.ctxResult := rfl
@[simp] theorem Capstan.writeEntry_cmd (c : Capstan) (id : Nat) : (Capstan.writeEntry c id).cmd = c.cmd := rfl
@[simp] theorem Capstan.writeEntry_active (c : Capstan) (id : Nat) : (Capstan.writeEntry c id).active = c.active := rfl
@[simp] theorem Capstan.writeEntry_actWait (c : Capstan) (id : Nat) : (Capstan.writeEntry c id).actWait = c.actWait := rfl
@[simp] theorem Capstan.writeEntry_loans (c : Capstan) (id : Nat) : (Capstan.writeEntry c id).loans = c.loans := rfl
@[simp] theorem Capstan.onCtx_n (c : Capstan) (id : Nat) (f : Ctx → Ctx) : (c.onCtx id f).n = c.n := rfl
@[simp] theorem Capstan.onCtx_su (c : Capstan) (id : Nat) (f : Ctx → Ctx) : (c.onCtx id f).su = c.su := rfl
@[simp] theorem Capstan.onCtx_img (c : Capstan) (id : Nat) (f : Ctx → Ctx) : (c.onCtx id f).img = c.img := rfl
@[simp] theorem Capstan.onCtx_tb (c : Capstan) (id : Nat) (f : Ctx → Ctx) : (c.onCtx id f).tb = c.tb := rfl
@[simp] theorem Capstan.onCtx_log (c : Capstan) (id : Nat) (f : Ctx → Ctx) : (c.onCtx id f).log = c.log := rfl
@[simp] theorem Capstan.onCtx_irq (c : Capstan) (id : Nat) (f : Ctx → Ctx) : (c.onCtx id f).irq = c.irq := rfl
@[simp] theorem Capstan.onCtx_mgt (c : Capstan) (id : Nat) (f : Ctx → Ctx) : (c.onCtx id f).mgt = c.mgt := rfl
@[simp] theorem Capstan.onCtx_hl (c : Capstan) (id : Nat) (f : Ctx → Ctx) : (c.onCtx id f).hl = c.hl := rfl
@[simp] theorem Capstan.onCtx_ctxs (c : Capstan) (id : Nat) (f : Ctx → Ctx) : (c.onCtx id f).ctxs = updateWhere (fun x => x.id = id) f c.ctxs := rfl
@[simp] theorem Capstan.onCtx_ctxResult (c : Capstan) (id : Nat) (f : Ctx → Ctx) : (c.onCtx id f).ctxResult = c.ctxResult := rfl
@[simp] theorem Capstan.onCtx_cmd (c : Capstan) (id : Nat) (f : Ctx → Ctx) : (c.onCtx id f).cmd = c.cmd := rfl
@[simp] theorem Capstan.onCtx_active (c : Capstan) (id : Nat) (f : Ctx → Ctx) : (c.onCtx id f).active = c.active := rfl
@[simp] theorem Capstan.onCtx_actWait (c : Capstan) (id : Nat) (f : Ctx → Ctx) : (c.onCtx id f).actWait = c.actWait := rfl
@[simp] theorem Capstan.onCtx_loans (c : Capstan) (id : Nat) (f : Ctx → Ctx) : (c.onCtx id f).loans = c.loans := rfl
@[simp] theorem Capstan.onStart_n (c : Capstan) (f : StartUp → StartUp) : (c.onStart f).n = c.n := rfl
@[simp] theorem Capstan.onStart_su (c : Capstan) (f : StartUp → StartUp) : (c.onStart f).su = f c.su := rfl
@[simp] theorem Capstan.onStart_img (c : Capstan) (f : StartUp → StartUp) : (c.onStart f).img = c.img := rfl
@[simp] theorem Capstan.onStart_tb (c : Capstan) (f : StartUp → StartUp) : (c.onStart f).tb = c.tb := rfl
@[simp] theorem Capstan.onStart_log (c : Capstan) (f : StartUp → StartUp) : (c.onStart f).log = c.log := rfl
@[simp] theorem Capstan.onStart_irq (c : Capstan) (f : StartUp → StartUp) : (c.onStart f).irq = c.irq := rfl
@[simp] theorem Capstan.onStart_mgt (c : Capstan) (f : StartUp → StartUp) : (c.onStart f).mgt = c.mgt := rfl
@[simp] theorem Capstan.onStart_hl (c : Capstan) (f : StartUp → StartUp) : (c.onStart f).hl = c.hl := rfl
@[simp] theorem Capstan.onStart_ctxs (c : Capstan) (f : StartUp → StartUp) : (c.onStart f).ctxs = c.ctxs := rfl
@[simp] theorem Capstan.onStart_table (c : Capstan) (f : StartUp → StartUp) : (c.onStart f).table = c.table := rfl
@[simp] theorem Capstan.onStart_ctxResult (c : Capstan) (f : StartUp → StartUp) : (c.onStart f).ctxResult = c.ctxResult := rfl
@[simp] theorem Capstan.onStart_cmd (c : Capstan) (f : StartUp → StartUp) : (c.onStart f).cmd = c.cmd := rfl
@[simp] theorem Capstan.onStart_active (c : Capstan) (f : StartUp → StartUp) : (c.onStart f).active = c.active := rfl
@[simp] theorem Capstan.onStart_actWait (c : Capstan) (f : StartUp → StartUp) : (c.onStart f).actWait = c.actWait := rfl
@[simp] theorem Capstan.onStart_loans (c : Capstan) (f : StartUp → StartUp) : (c.onStart f).loans = c.loans := rfl
@[simp] theorem Capstan.onMgt_n (c : Capstan) (f : Mgmt → Mgmt) : (c.onMgt f).n = c.n := rfl
@[simp] theorem Capstan.onMgt_su (c : Capstan) (f : Mgmt → Mgmt) : (c.onMgt f).su = c.su := rfl
@[simp] theorem Capstan.onMgt_img (c : Capstan) (f : Mgmt → Mgmt) : (c.onMgt f).img = c.img := rfl
@[simp] theorem Capstan.onMgt_tb (c : Capstan) (f : Mgmt → Mgmt) : (c.onMgt f).tb = c.tb := rfl
@[simp] theorem Capstan.onMgt_log (c : Capstan) (f : Mgmt → Mgmt) : (c.onMgt f).log = c.log := rfl
@[simp] theorem Capstan.onMgt_irq (c : Capstan) (f : Mgmt → Mgmt) : (c.onMgt f).irq = c.irq := rfl
@[simp] theorem Capstan.onMgt_mgt (c : Capstan) (f : Mgmt → Mgmt) : (c.onMgt f).mgt = f c.mgt := rfl
@[simp] theorem Capstan.onMgt_hl (c : Capstan) (f : Mgmt → Mgmt) : (c.onMgt f).hl = c.hl := rfl
@[simp] theorem Capstan.onMgt_ctxs (c : Capstan) (f : Mgmt → Mgmt) : (c.onMgt f).ctxs = c.ctxs := rfl
@[simp] theorem Capstan.onMgt_table (c : Capstan) (f : Mgmt → Mgmt) : (c.onMgt f).table = c.table := rfl
@[simp] theorem Capstan.onMgt_ctxResult (c : Capstan) (f : Mgmt → Mgmt) : (c.onMgt f).ctxResult = c.ctxResult := rfl
@[simp] theorem Capstan.onMgt_cmd (c : Capstan) (f : Mgmt → Mgmt) : (c.onMgt f).cmd = c.cmd := rfl
@[simp] theorem Capstan.onMgt_active (c : Capstan) (f : Mgmt → Mgmt) : (c.onMgt f).active = c.active := rfl
@[simp] theorem Capstan.onMgt_actWait (c : Capstan) (f : Mgmt → Mgmt) : (c.onMgt f).actWait = c.actWait := rfl
@[simp] theorem Capstan.onMgt_loans (c : Capstan) (f : Mgmt → Mgmt) : (c.onMgt f).loans = c.loans := rfl
@[simp] theorem Capstan.give_n (c : Capstan) (bs : Option (List Byte)) : (c.give bs).n = c.n := rfl
@[simp] theorem Capstan.give_su (c : Capstan) (bs : Option (List Byte)) : (c.give bs).su = c.su := rfl
@[simp] theorem Capstan.give_img (c : Capstan) (bs : Option (List Byte)) : (c.give bs).img = c.img := rfl
@[simp] theorem Capstan.give_tb (c : Capstan) (bs : Option (List Byte)) : (c.give bs).tb = c.tb := rfl
@[simp] theorem Capstan.give_log (c : Capstan) (bs : Option (List Byte)) : (c.give bs).log = c.log := rfl
@[simp] theorem Capstan.give_irq (c : Capstan) (bs : Option (List Byte)) : (c.give bs).irq = c.irq := rfl
@[simp] theorem Capstan.give_mgt (c : Capstan) (bs : Option (List Byte)) : (c.give bs).mgt = { c.mgt with out := bs } := rfl
@[simp] theorem Capstan.give_hl (c : Capstan) (bs : Option (List Byte)) : (c.give bs).hl = c.hl := rfl
@[simp] theorem Capstan.give_ctxs (c : Capstan) (bs : Option (List Byte)) : (c.give bs).ctxs = c.ctxs := rfl
@[simp] theorem Capstan.give_table (c : Capstan) (bs : Option (List Byte)) : (c.give bs).table = c.table := rfl
@[simp] theorem Capstan.give_ctxResult (c : Capstan) (bs : Option (List Byte)) : (c.give bs).ctxResult = c.ctxResult := rfl
@[simp] theorem Capstan.give_cmd (c : Capstan) (bs : Option (List Byte)) : (c.give bs).cmd = c.cmd := rfl
@[simp] theorem Capstan.give_active (c : Capstan) (bs : Option (List Byte)) : (c.give bs).active = c.active := rfl
@[simp] theorem Capstan.give_actWait (c : Capstan) (bs : Option (List Byte)) : (c.give bs).actWait = c.actWait := rfl
@[simp] theorem Capstan.give_loans (c : Capstan) (bs : Option (List Byte)) : (c.give bs).loans = c.loans := rfl
@[simp] theorem Capstan.answer_n (c : Capstan) (bs : List Byte) : (c.answer bs).n = c.n := rfl
@[simp] theorem Capstan.answer_su (c : Capstan) (bs : List Byte) : (c.answer bs).su = c.su := rfl
@[simp] theorem Capstan.answer_img (c : Capstan) (bs : List Byte) : (c.answer bs).img = c.img := rfl
@[simp] theorem Capstan.answer_tb (c : Capstan) (bs : List Byte) : (c.answer bs).tb = c.tb := rfl
@[simp] theorem Capstan.answer_log (c : Capstan) (bs : List Byte) : (c.answer bs).log = c.log := rfl
@[simp] theorem Capstan.answer_irq (c : Capstan) (bs : List Byte) : (c.answer bs).irq = c.irq := rfl
@[simp] theorem Capstan.answer_mgt (c : Capstan) (bs : List Byte) : (c.answer bs).mgt = { c.mgt with resp := some bs } := rfl
@[simp] theorem Capstan.answer_hl (c : Capstan) (bs : List Byte) : (c.answer bs).hl = c.hl := rfl
@[simp] theorem Capstan.answer_ctxs (c : Capstan) (bs : List Byte) : (c.answer bs).ctxs = c.ctxs := rfl
@[simp] theorem Capstan.answer_table (c : Capstan) (bs : List Byte) : (c.answer bs).table = c.table := rfl
@[simp] theorem Capstan.answer_ctxResult (c : Capstan) (bs : List Byte) : (c.answer bs).ctxResult = c.ctxResult := rfl
@[simp] theorem Capstan.answer_cmd (c : Capstan) (bs : List Byte) : (c.answer bs).cmd = c.cmd := rfl
@[simp] theorem Capstan.answer_active (c : Capstan) (bs : List Byte) : (c.answer bs).active = c.active := rfl
@[simp] theorem Capstan.answer_actWait (c : Capstan) (bs : List Byte) : (c.answer bs).actWait = c.actWait := rfl
@[simp] theorem Capstan.answer_loans (c : Capstan) (bs : List Byte) : (c.answer bs).loans = c.loans := rfl

/-! ### Slice: a notice told, an event counted, a batch, a pending descriptor, a cask replaced, a port and a stream changed -/

@[simp] theorem Slice.tell_id (sl : Slice) (n : Notice) : (sl.tell n).id = sl.id := rfl
@[simp] theorem Slice.tell_time (sl : Slice) (n : Notice) : (sl.tell n).time = sl.time := rfl
@[simp] theorem Slice.tell_timeFix (sl : Slice) (n : Notice) : (sl.tell n).timeFix = sl.timeFix := rfl
@[simp] theorem Slice.tell_timeLow (sl : Slice) (n : Notice) : (sl.tell n).timeLow = sl.timeLow := rfl
@[simp] theorem Slice.tell_period (sl : Slice) (n : Notice) : (sl.tell n).period = sl.period := rfl
@[simp] theorem Slice.tell_fixPhase (sl : Slice) (n : Notice) : (sl.tell n).fixPhase = sl.fixPhase := rfl
@[simp] theorem Slice.tell_mail (sl : Slice) (n : Notice) : (sl.tell n).mail = sl.mail ++ [n] := rfl
@[simp] theorem Slice.tell_outbox (sl : Slice) (n : Notice) : (sl.tell n).outbox = sl.outbox := rfl
@[simp] theorem Slice.tell_tokens (sl : Slice) (n : Notice) : (sl.tell n).tokens = sl.tokens := rfl
@[simp] theorem Slice.tell_tokenAt (sl : Slice) (n : Notice) : (sl.tell n).tokenAt = sl.tokenAt := rfl
@[simp] theorem Slice.tell_dropped (sl : Slice) (n : Notice) : (sl.tell n).dropped = sl.dropped := rfl
@[simp] theorem Slice.tell_droppedFirst (sl : Slice) (n : Notice) : (sl.tell n).droppedFirst = sl.droppedFirst := rfl
@[simp] theorem Slice.tell_heldLoss (sl : Slice) (n : Notice) : (sl.tell n).heldLoss = sl.heldLoss := rfl
@[simp] theorem Slice.tell_heldFirst (sl : Slice) (n : Notice) : (sl.tell n).heldFirst = sl.heldFirst := rfl
@[simp] theorem Slice.tell_stopped (sl : Slice) (n : Notice) : (sl.tell n).stopped = sl.stopped := rfl
@[simp] theorem Slice.tell_beatAt (sl : Slice) (n : Notice) : (sl.tell n).beatAt = sl.beatAt := rfl
@[simp] theorem Slice.tell_cctx (sl : Slice) (n : Notice) : (sl.tell n).cctx = sl.cctx := rfl
@[simp] theorem Slice.tell_ing (sl : Slice) (n : Notice) : (sl.tell n).ing = sl.ing := rfl
@[simp] theorem Slice.tell_mash (sl : Slice) (n : Notice) : (sl.tell n).mash = sl.mash := rfl
@[simp] theorem Slice.tell_work (sl : Slice) (n : Notice) : (sl.tell n).work = sl.work := rfl
@[simp] theorem Slice.tell_store (sl : Slice) (n : Notice) : (sl.tell n).store = sl.store := rfl
@[simp] theorem Slice.tell_cache (sl : Slice) (n : Notice) : (sl.tell n).cache = sl.cache := rfl
@[simp] theorem Slice.tell_str (sl : Slice) (n : Notice) : (sl.tell n).str = sl.str := rfl
@[simp] theorem Slice.tell_rope (sl : Slice) (n : Notice) : (sl.tell n).rope = sl.rope := rfl
@[simp] theorem Slice.tell_cnt (sl : Slice) (n : Notice) : (sl.tell n).cnt = sl.cnt := rfl
@[simp] theorem Slice.tell_pwr (sl : Slice) (n : Notice) : (sl.tell n).pwr = sl.pwr := rfl
@[simp] theorem Slice.count_id (sl : Slice) (ev qual : Nat) (ctx : Option Nat) (k : Nat) : (sl.count ev qual ctx k).id = sl.id := rfl
@[simp] theorem Slice.count_time (sl : Slice) (ev qual : Nat) (ctx : Option Nat) (k : Nat) : (sl.count ev qual ctx k).time = sl.time := rfl
@[simp] theorem Slice.count_timeFix (sl : Slice) (ev qual : Nat) (ctx : Option Nat) (k : Nat) : (sl.count ev qual ctx k).timeFix = sl.timeFix := rfl
@[simp] theorem Slice.count_timeLow (sl : Slice) (ev qual : Nat) (ctx : Option Nat) (k : Nat) : (sl.count ev qual ctx k).timeLow = sl.timeLow := rfl
@[simp] theorem Slice.count_period (sl : Slice) (ev qual : Nat) (ctx : Option Nat) (k : Nat) : (sl.count ev qual ctx k).period = sl.period := rfl
@[simp] theorem Slice.count_fixPhase (sl : Slice) (ev qual : Nat) (ctx : Option Nat) (k : Nat) : (sl.count ev qual ctx k).fixPhase = sl.fixPhase := rfl
@[simp] theorem Slice.count_mail (sl : Slice) (ev qual : Nat) (ctx : Option Nat) (k : Nat) : (sl.count ev qual ctx k).mail = sl.mail := rfl
@[simp] theorem Slice.count_outbox (sl : Slice) (ev qual : Nat) (ctx : Option Nat) (k : Nat) : (sl.count ev qual ctx k).outbox = sl.outbox := rfl
@[simp] theorem Slice.count_tokens (sl : Slice) (ev qual : Nat) (ctx : Option Nat) (k : Nat) : (sl.count ev qual ctx k).tokens = sl.tokens := rfl
@[simp] theorem Slice.count_tokenAt (sl : Slice) (ev qual : Nat) (ctx : Option Nat) (k : Nat) : (sl.count ev qual ctx k).tokenAt = sl.tokenAt := rfl
@[simp] theorem Slice.count_dropped (sl : Slice) (ev qual : Nat) (ctx : Option Nat) (k : Nat) : (sl.count ev qual ctx k).dropped = sl.dropped := rfl
@[simp] theorem Slice.count_droppedFirst (sl : Slice) (ev qual : Nat) (ctx : Option Nat) (k : Nat) : (sl.count ev qual ctx k).droppedFirst = sl.droppedFirst := rfl
@[simp] theorem Slice.count_heldLoss (sl : Slice) (ev qual : Nat) (ctx : Option Nat) (k : Nat) : (sl.count ev qual ctx k).heldLoss = sl.heldLoss := rfl
@[simp] theorem Slice.count_heldFirst (sl : Slice) (ev qual : Nat) (ctx : Option Nat) (k : Nat) : (sl.count ev qual ctx k).heldFirst = sl.heldFirst := rfl
@[simp] theorem Slice.count_stopped (sl : Slice) (ev qual : Nat) (ctx : Option Nat) (k : Nat) : (sl.count ev qual ctx k).stopped = sl.stopped := rfl
@[simp] theorem Slice.count_beatAt (sl : Slice) (ev qual : Nat) (ctx : Option Nat) (k : Nat) : (sl.count ev qual ctx k).beatAt = sl.beatAt := rfl
@[simp] theorem Slice.count_cctx (sl : Slice) (ev qual : Nat) (ctx : Option Nat) (k : Nat) : (sl.count ev qual ctx k).cctx = sl.cctx := rfl
@[simp] theorem Slice.count_ing (sl : Slice) (ev qual : Nat) (ctx : Option Nat) (k : Nat) : (sl.count ev qual ctx k).ing = sl.ing := rfl
@[simp] theorem Slice.count_mash (sl : Slice) (ev qual : Nat) (ctx : Option Nat) (k : Nat) : (sl.count ev qual ctx k).mash = sl.mash := rfl
@[simp] theorem Slice.count_work (sl : Slice) (ev qual : Nat) (ctx : Option Nat) (k : Nat) : (sl.count ev qual ctx k).work = sl.work := rfl
@[simp] theorem Slice.count_store (sl : Slice) (ev qual : Nat) (ctx : Option Nat) (k : Nat) : (sl.count ev qual ctx k).store = sl.store := rfl
@[simp] theorem Slice.count_cache (sl : Slice) (ev qual : Nat) (ctx : Option Nat) (k : Nat) : (sl.count ev qual ctx k).cache = sl.cache := rfl
@[simp] theorem Slice.count_str (sl : Slice) (ev qual : Nat) (ctx : Option Nat) (k : Nat) : (sl.count ev qual ctx k).str = sl.str := rfl
@[simp] theorem Slice.count_rope (sl : Slice) (ev qual : Nat) (ctx : Option Nat) (k : Nat) : (sl.count ev qual ctx k).rope = sl.rope := rfl
@[simp] theorem Slice.count_pwr (sl : Slice) (ev qual : Nat) (ctx : Option Nat) (k : Nat) : (sl.count ev qual ctx k).pwr = sl.pwr := rfl
@[simp] theorem Slice.setBatch_id (sl : Slice) (b : Batch) : (sl.setBatch b).id = sl.id := rfl
@[simp] theorem Slice.setBatch_time (sl : Slice) (b : Batch) : (sl.setBatch b).time = sl.time := rfl
@[simp] theorem Slice.setBatch_timeFix (sl : Slice) (b : Batch) : (sl.setBatch b).timeFix = sl.timeFix := rfl
@[simp] theorem Slice.setBatch_timeLow (sl : Slice) (b : Batch) : (sl.setBatch b).timeLow = sl.timeLow := rfl
@[simp] theorem Slice.setBatch_period (sl : Slice) (b : Batch) : (sl.setBatch b).period = sl.period := rfl
@[simp] theorem Slice.setBatch_fixPhase (sl : Slice) (b : Batch) : (sl.setBatch b).fixPhase = sl.fixPhase := rfl
@[simp] theorem Slice.setBatch_mail (sl : Slice) (b : Batch) : (sl.setBatch b).mail = sl.mail := rfl
@[simp] theorem Slice.setBatch_outbox (sl : Slice) (b : Batch) : (sl.setBatch b).outbox = sl.outbox := rfl
@[simp] theorem Slice.setBatch_tokens (sl : Slice) (b : Batch) : (sl.setBatch b).tokens = sl.tokens := rfl
@[simp] theorem Slice.setBatch_tokenAt (sl : Slice) (b : Batch) : (sl.setBatch b).tokenAt = sl.tokenAt := rfl
@[simp] theorem Slice.setBatch_dropped (sl : Slice) (b : Batch) : (sl.setBatch b).dropped = sl.dropped := rfl
@[simp] theorem Slice.setBatch_droppedFirst (sl : Slice) (b : Batch) : (sl.setBatch b).droppedFirst = sl.droppedFirst := rfl
@[simp] theorem Slice.setBatch_heldLoss (sl : Slice) (b : Batch) : (sl.setBatch b).heldLoss = sl.heldLoss := rfl
@[simp] theorem Slice.setBatch_heldFirst (sl : Slice) (b : Batch) : (sl.setBatch b).heldFirst = sl.heldFirst := rfl
@[simp] theorem Slice.setBatch_stopped (sl : Slice) (b : Batch) : (sl.setBatch b).stopped = sl.stopped := rfl
@[simp] theorem Slice.setBatch_beatAt (sl : Slice) (b : Batch) : (sl.setBatch b).beatAt = sl.beatAt := rfl
@[simp] theorem Slice.setBatch_cctx (sl : Slice) (b : Batch) : (sl.setBatch b).cctx = sl.cctx := rfl
@[simp] theorem Slice.setBatch_ing (sl : Slice) (b : Batch) : (sl.setBatch b).ing = { sl.ing with batches := updateWhere (fun x => x.handle = b.handle) (fun _ => b) sl.ing.batches } := rfl
@[simp] theorem Slice.setBatch_mash (sl : Slice) (b : Batch) : (sl.setBatch b).mash = sl.mash := rfl
@[simp] theorem Slice.setBatch_work (sl : Slice) (b : Batch) : (sl.setBatch b).work = sl.work := rfl
@[simp] theorem Slice.setBatch_store (sl : Slice) (b : Batch) : (sl.setBatch b).store = sl.store := rfl
@[simp] theorem Slice.setBatch_cache (sl : Slice) (b : Batch) : (sl.setBatch b).cache = sl.cache := rfl
@[simp] theorem Slice.setBatch_str (sl : Slice) (b : Batch) : (sl.setBatch b).str = sl.str := rfl
@[simp] theorem Slice.setBatch_rope (sl : Slice) (b : Batch) : (sl.setBatch b).rope = sl.rope := rfl
@[simp] theorem Slice.setBatch_cnt (sl : Slice) (b : Batch) : (sl.setBatch b).cnt = sl.cnt := rfl
@[simp] theorem Slice.setBatch_pwr (sl : Slice) (b : Batch) : (sl.setBatch b).pwr = sl.pwr := rfl
@[simp] theorem Slice.setPend_id (sl : Slice) (i : Nat) (p : Pend) : (sl.setPend i p).id = sl.id := rfl
@[simp] theorem Slice.setPend_time (sl : Slice) (i : Nat) (p : Pend) : (sl.setPend i p).time = sl.time := rfl
@[simp] theorem Slice.setPend_timeFix (sl : Slice) (i : Nat) (p : Pend) : (sl.setPend i p).timeFix = sl.timeFix := rfl
@[simp] theorem Slice.setPend_timeLow (sl : Slice) (i : Nat) (p : Pend) : (sl.setPend i p).timeLow = sl.timeLow := rfl
@[simp] theorem Slice.setPend_period (sl : Slice) (i : Nat) (p : Pend) : (sl.setPend i p).period = sl.period := rfl
@[simp] theorem Slice.setPend_fixPhase (sl : Slice) (i : Nat) (p : Pend) : (sl.setPend i p).fixPhase = sl.fixPhase := rfl
@[simp] theorem Slice.setPend_mail (sl : Slice) (i : Nat) (p : Pend) : (sl.setPend i p).mail = sl.mail := rfl
@[simp] theorem Slice.setPend_outbox (sl : Slice) (i : Nat) (p : Pend) : (sl.setPend i p).outbox = sl.outbox := rfl
@[simp] theorem Slice.setPend_tokens (sl : Slice) (i : Nat) (p : Pend) : (sl.setPend i p).tokens = sl.tokens := rfl
@[simp] theorem Slice.setPend_tokenAt (sl : Slice) (i : Nat) (p : Pend) : (sl.setPend i p).tokenAt = sl.tokenAt := rfl
@[simp] theorem Slice.setPend_dropped (sl : Slice) (i : Nat) (p : Pend) : (sl.setPend i p).dropped = sl.dropped := rfl
@[simp] theorem Slice.setPend_droppedFirst (sl : Slice) (i : Nat) (p : Pend) : (sl.setPend i p).droppedFirst = sl.droppedFirst := rfl
@[simp] theorem Slice.setPend_heldLoss (sl : Slice) (i : Nat) (p : Pend) : (sl.setPend i p).heldLoss = sl.heldLoss := rfl
@[simp] theorem Slice.setPend_heldFirst (sl : Slice) (i : Nat) (p : Pend) : (sl.setPend i p).heldFirst = sl.heldFirst := rfl
@[simp] theorem Slice.setPend_stopped (sl : Slice) (i : Nat) (p : Pend) : (sl.setPend i p).stopped = sl.stopped := rfl
@[simp] theorem Slice.setPend_beatAt (sl : Slice) (i : Nat) (p : Pend) : (sl.setPend i p).beatAt = sl.beatAt := rfl
@[simp] theorem Slice.setPend_cctx (sl : Slice) (i : Nat) (p : Pend) : (sl.setPend i p).cctx = sl.cctx := rfl
@[simp] theorem Slice.setPend_ing (sl : Slice) (i : Nat) (p : Pend) : (sl.setPend i p).ing = { sl.ing with pendq := sl.ing.pendq.set i p } := rfl
@[simp] theorem Slice.setPend_mash (sl : Slice) (i : Nat) (p : Pend) : (sl.setPend i p).mash = sl.mash := rfl
@[simp] theorem Slice.setPend_work (sl : Slice) (i : Nat) (p : Pend) : (sl.setPend i p).work = sl.work := rfl
@[simp] theorem Slice.setPend_store (sl : Slice) (i : Nat) (p : Pend) : (sl.setPend i p).store = sl.store := rfl
@[simp] theorem Slice.setPend_cache (sl : Slice) (i : Nat) (p : Pend) : (sl.setPend i p).cache = sl.cache := rfl
@[simp] theorem Slice.setPend_str (sl : Slice) (i : Nat) (p : Pend) : (sl.setPend i p).str = sl.str := rfl
@[simp] theorem Slice.setPend_rope (sl : Slice) (i : Nat) (p : Pend) : (sl.setPend i p).rope = sl.rope := rfl
@[simp] theorem Slice.setPend_cnt (sl : Slice) (i : Nat) (p : Pend) : (sl.setPend i p).cnt = sl.cnt := rfl
@[simp] theorem Slice.setPend_pwr (sl : Slice) (i : Nat) (p : Pend) : (sl.setPend i p).pwr = sl.pwr := rfl
@[simp] theorem Slice.cutPend_id (sl : Slice) (i : Nat) : (sl.cutPend i).id = sl.id := rfl
@[simp] theorem Slice.cutPend_time (sl : Slice) (i : Nat) : (sl.cutPend i).time = sl.time := rfl
@[simp] theorem Slice.cutPend_timeFix (sl : Slice) (i : Nat) : (sl.cutPend i).timeFix = sl.timeFix := rfl
@[simp] theorem Slice.cutPend_timeLow (sl : Slice) (i : Nat) : (sl.cutPend i).timeLow = sl.timeLow := rfl
@[simp] theorem Slice.cutPend_period (sl : Slice) (i : Nat) : (sl.cutPend i).period = sl.period := rfl
@[simp] theorem Slice.cutPend_fixPhase (sl : Slice) (i : Nat) : (sl.cutPend i).fixPhase = sl.fixPhase := rfl
@[simp] theorem Slice.cutPend_mail (sl : Slice) (i : Nat) : (sl.cutPend i).mail = sl.mail := rfl
@[simp] theorem Slice.cutPend_outbox (sl : Slice) (i : Nat) : (sl.cutPend i).outbox = sl.outbox := rfl
@[simp] theorem Slice.cutPend_tokens (sl : Slice) (i : Nat) : (sl.cutPend i).tokens = sl.tokens := rfl
@[simp] theorem Slice.cutPend_tokenAt (sl : Slice) (i : Nat) : (sl.cutPend i).tokenAt = sl.tokenAt := rfl
@[simp] theorem Slice.cutPend_dropped (sl : Slice) (i : Nat) : (sl.cutPend i).dropped = sl.dropped := rfl
@[simp] theorem Slice.cutPend_droppedFirst (sl : Slice) (i : Nat) : (sl.cutPend i).droppedFirst = sl.droppedFirst := rfl
@[simp] theorem Slice.cutPend_heldLoss (sl : Slice) (i : Nat) : (sl.cutPend i).heldLoss = sl.heldLoss := rfl
@[simp] theorem Slice.cutPend_heldFirst (sl : Slice) (i : Nat) : (sl.cutPend i).heldFirst = sl.heldFirst := rfl
@[simp] theorem Slice.cutPend_stopped (sl : Slice) (i : Nat) : (sl.cutPend i).stopped = sl.stopped := rfl
@[simp] theorem Slice.cutPend_beatAt (sl : Slice) (i : Nat) : (sl.cutPend i).beatAt = sl.beatAt := rfl
@[simp] theorem Slice.cutPend_cctx (sl : Slice) (i : Nat) : (sl.cutPend i).cctx = sl.cctx := rfl
@[simp] theorem Slice.cutPend_ing (sl : Slice) (i : Nat) : (sl.cutPend i).ing = { sl.ing with pendq := sl.ing.pendq.eraseIdx i } := rfl
@[simp] theorem Slice.cutPend_mash (sl : Slice) (i : Nat) : (sl.cutPend i).mash = sl.mash := rfl
@[simp] theorem Slice.cutPend_work (sl : Slice) (i : Nat) : (sl.cutPend i).work = sl.work := rfl
@[simp] theorem Slice.cutPend_store (sl : Slice) (i : Nat) : (sl.cutPend i).store = sl.store := rfl
@[simp] theorem Slice.cutPend_cache (sl : Slice) (i : Nat) : (sl.cutPend i).cache = sl.cache := rfl
@[simp] theorem Slice.cutPend_str (sl : Slice) (i : Nat) : (sl.cutPend i).str = sl.str := rfl
@[simp] theorem Slice.cutPend_rope (sl : Slice) (i : Nat) : (sl.cutPend i).rope = sl.rope := rfl
@[simp] theorem Slice.cutPend_cnt (sl : Slice) (i : Nat) : (sl.cutPend i).cnt = sl.cnt := rfl
@[simp] theorem Slice.cutPend_pwr (sl : Slice) (i : Nat) : (sl.cutPend i).pwr = sl.pwr := rfl
@[simp] theorem Slice.setCask_id (sl : Slice) (k : Cask) : (sl.setCask k).id = sl.id := rfl
@[simp] theorem Slice.setCask_time (sl : Slice) (k : Cask) : (sl.setCask k).time = sl.time := rfl
@[simp] theorem Slice.setCask_timeFix (sl : Slice) (k : Cask) : (sl.setCask k).timeFix = sl.timeFix := rfl
@[simp] theorem Slice.setCask_timeLow (sl : Slice) (k : Cask) : (sl.setCask k).timeLow = sl.timeLow := rfl
@[simp] theorem Slice.setCask_period (sl : Slice) (k : Cask) : (sl.setCask k).period = sl.period := rfl
@[simp] theorem Slice.setCask_fixPhase (sl : Slice) (k : Cask) : (sl.setCask k).fixPhase = sl.fixPhase := rfl
@[simp] theorem Slice.setCask_mail (sl : Slice) (k : Cask) : (sl.setCask k).mail = sl.mail := rfl
@[simp] theorem Slice.setCask_outbox (sl : Slice) (k : Cask) : (sl.setCask k).outbox = sl.outbox := rfl
@[simp] theorem Slice.setCask_tokens (sl : Slice) (k : Cask) : (sl.setCask k).tokens = sl.tokens := rfl
@[simp] theorem Slice.setCask_tokenAt (sl : Slice) (k : Cask) : (sl.setCask k).tokenAt = sl.tokenAt := rfl
@[simp] theorem Slice.setCask_dropped (sl : Slice) (k : Cask) : (sl.setCask k).dropped = sl.dropped := rfl
@[simp] theorem Slice.setCask_droppedFirst (sl : Slice) (k : Cask) : (sl.setCask k).droppedFirst = sl.droppedFirst := rfl
@[simp] theorem Slice.setCask_heldLoss (sl : Slice) (k : Cask) : (sl.setCask k).heldLoss = sl.heldLoss := rfl
@[simp] theorem Slice.setCask_heldFirst (sl : Slice) (k : Cask) : (sl.setCask k).heldFirst = sl.heldFirst := rfl
@[simp] theorem Slice.setCask_stopped (sl : Slice) (k : Cask) : (sl.setCask k).stopped = sl.stopped := rfl
@[simp] theorem Slice.setCask_beatAt (sl : Slice) (k : Cask) : (sl.setCask k).beatAt = sl.beatAt := rfl
@[simp] theorem Slice.setCask_cctx (sl : Slice) (k : Cask) : (sl.setCask k).cctx = sl.cctx := rfl
@[simp] theorem Slice.setCask_ing (sl : Slice) (k : Cask) : (sl.setCask k).ing = sl.ing := rfl
@[simp] theorem Slice.setCask_mash (sl : Slice) (k : Cask) : (sl.setCask k).mash = sl.mash := rfl
@[simp] theorem Slice.setCask_work (sl : Slice) (k : Cask) : (sl.setCask k).work = sl.work := rfl
@[simp] theorem Slice.setCask_store (sl : Slice) (k : Cask) : (sl.setCask k).store = { sl.store with casks := sl.store.casks.filter (fun x => x.ctx != k.ctx) ++ [k] } := rfl
@[simp] theorem Slice.setCask_cache (sl : Slice) (k : Cask) : (sl.setCask k).cache = sl.cache := rfl
@[simp] theorem Slice.setCask_str (sl : Slice) (k : Cask) : (sl.setCask k).str = sl.str := rfl
@[simp] theorem Slice.setCask_rope (sl : Slice) (k : Cask) : (sl.setCask k).rope = sl.rope := rfl
@[simp] theorem Slice.setCask_cnt (sl : Slice) (k : Cask) : (sl.setCask k).cnt = sl.cnt := rfl
@[simp] theorem Slice.setCask_pwr (sl : Slice) (k : Cask) : (sl.setCask k).pwr = sl.pwr := rfl
@[simp] theorem Slice.onPort_id (sl : Slice) (p : Nat) (f : Port → Port) : (sl.onPort p f).id = sl.id := rfl
@[simp] theorem Slice.onPort_time (sl : Slice) (p : Nat) (f : Port → Port) : (sl.onPort p f).time = sl.time := rfl
@[simp] theorem Slice.onPort_timeFix (sl : Slice) (p : Nat) (f : Port → Port) : (sl.onPort p f).timeFix = sl.timeFix := rfl
@[simp] theorem Slice.onPort_timeLow (sl : Slice) (p : Nat) (f : Port → Port) : (sl.onPort p f).timeLow = sl.timeLow := rfl
@[simp] theorem Slice.onPort_period (sl : Slice) (p : Nat) (f : Port → Port) : (sl.onPort p f).period = sl.period := rfl
@[simp] theorem Slice.onPort_fixPhase (sl : Slice) (p : Nat) (f : Port → Port) : (sl.onPort p f).fixPhase = sl.fixPhase := rfl
@[simp] theorem Slice.onPort_mail (sl : Slice) (p : Nat) (f : Port → Port) : (sl.onPort p f).mail = sl.mail := rfl
@[simp] theorem Slice.onPort_outbox (sl : Slice) (p : Nat) (f : Port → Port) : (sl.onPort p f).outbox = sl.outbox := rfl
@[simp] theorem Slice.onPort_tokens (sl : Slice) (p : Nat) (f : Port → Port) : (sl.onPort p f).tokens = sl.tokens := rfl
@[simp] theorem Slice.onPort_tokenAt (sl : Slice) (p : Nat) (f : Port → Port) : (sl.onPort p f).tokenAt = sl.tokenAt := rfl
@[simp] theorem Slice.onPort_dropped (sl : Slice) (p : Nat) (f : Port → Port) : (sl.onPort p f).dropped = sl.dropped := rfl
@[simp] theorem Slice.onPort_droppedFirst (sl : Slice) (p : Nat) (f : Port → Port) : (sl.onPort p f).droppedFirst = sl.droppedFirst := rfl
@[simp] theorem Slice.onPort_heldLoss (sl : Slice) (p : Nat) (f : Port → Port) : (sl.onPort p f).heldLoss = sl.heldLoss := rfl
@[simp] theorem Slice.onPort_heldFirst (sl : Slice) (p : Nat) (f : Port → Port) : (sl.onPort p f).heldFirst = sl.heldFirst := rfl
@[simp] theorem Slice.onPort_stopped (sl : Slice) (p : Nat) (f : Port → Port) : (sl.onPort p f).stopped = sl.stopped := rfl
@[simp] theorem Slice.onPort_beatAt (sl : Slice) (p : Nat) (f : Port → Port) : (sl.onPort p f).beatAt = sl.beatAt := rfl
@[simp] theorem Slice.onPort_cctx (sl : Slice) (p : Nat) (f : Port → Port) : (sl.onPort p f).cctx = sl.cctx := rfl
@[simp] theorem Slice.onPort_ing (sl : Slice) (p : Nat) (f : Port → Port) : (sl.onPort p f).ing = sl.ing := rfl
@[simp] theorem Slice.onPort_mash (sl : Slice) (p : Nat) (f : Port → Port) : (sl.onPort p f).mash = sl.mash := rfl
@[simp] theorem Slice.onPort_work (sl : Slice) (p : Nat) (f : Port → Port) : (sl.onPort p f).work = sl.work := rfl
@[simp] theorem Slice.onPort_store (sl : Slice) (p : Nat) (f : Port → Port) : (sl.onPort p f).store = sl.store := rfl
@[simp] theorem Slice.onPort_cache (sl : Slice) (p : Nat) (f : Port → Port) : (sl.onPort p f).cache = sl.cache := rfl
@[simp] theorem Slice.onPort_str (sl : Slice) (p : Nat) (f : Port → Port) : (sl.onPort p f).str = sl.str := rfl
@[simp] theorem Slice.onPort_rope (sl : Slice) (p : Nat) (f : Port → Port) : (sl.onPort p f).rope = { sl.rope with ports := updateAt f p sl.rope.ports } := rfl
@[simp] theorem Slice.onPort_cnt (sl : Slice) (p : Nat) (f : Port → Port) : (sl.onPort p f).cnt = sl.cnt := rfl
@[simp] theorem Slice.onPort_pwr (sl : Slice) (p : Nat) (f : Port → Port) : (sl.onPort p f).pwr = sl.pwr := rfl
@[simp] theorem Slice.onStream_id (sl : Slice) (i : Nat) (f : Stream → Stream) : (sl.onStream i f).id = sl.id := rfl
@[simp] theorem Slice.onStream_time (sl : Slice) (i : Nat) (f : Stream → Stream) : (sl.onStream i f).time = sl.time := rfl
@[simp] theorem Slice.onStream_timeFix (sl : Slice) (i : Nat) (f : Stream → Stream) : (sl.onStream i f).timeFix = sl.timeFix := rfl
@[simp] theorem Slice.onStream_timeLow (sl : Slice) (i : Nat) (f : Stream → Stream) : (sl.onStream i f).timeLow = sl.timeLow := rfl
@[simp] theorem Slice.onStream_period (sl : Slice) (i : Nat) (f : Stream → Stream) : (sl.onStream i f).period = sl.period := rfl
@[simp] theorem Slice.onStream_fixPhase (sl : Slice) (i : Nat) (f : Stream → Stream) : (sl.onStream i f).fixPhase = sl.fixPhase := rfl
@[simp] theorem Slice.onStream_mail (sl : Slice) (i : Nat) (f : Stream → Stream) : (sl.onStream i f).mail = sl.mail := rfl
@[simp] theorem Slice.onStream_outbox (sl : Slice) (i : Nat) (f : Stream → Stream) : (sl.onStream i f).outbox = sl.outbox := rfl
@[simp] theorem Slice.onStream_tokens (sl : Slice) (i : Nat) (f : Stream → Stream) : (sl.onStream i f).tokens = sl.tokens := rfl
@[simp] theorem Slice.onStream_tokenAt (sl : Slice) (i : Nat) (f : Stream → Stream) : (sl.onStream i f).tokenAt = sl.tokenAt := rfl
@[simp] theorem Slice.onStream_dropped (sl : Slice) (i : Nat) (f : Stream → Stream) : (sl.onStream i f).dropped = sl.dropped := rfl
@[simp] theorem Slice.onStream_droppedFirst (sl : Slice) (i : Nat) (f : Stream → Stream) : (sl.onStream i f).droppedFirst = sl.droppedFirst := rfl
@[simp] theorem Slice.onStream_heldLoss (sl : Slice) (i : Nat) (f : Stream → Stream) : (sl.onStream i f).heldLoss = sl.heldLoss := rfl
@[simp] theorem Slice.onStream_heldFirst (sl : Slice) (i : Nat) (f : Stream → Stream) : (sl.onStream i f).heldFirst = sl.heldFirst := rfl
@[simp] theorem Slice.onStream_stopped (sl : Slice) (i : Nat) (f : Stream → Stream) : (sl.onStream i f).stopped = sl.stopped := rfl
@[simp] theorem Slice.onStream_beatAt (sl : Slice) (i : Nat) (f : Stream → Stream) : (sl.onStream i f).beatAt = sl.beatAt := rfl
@[simp] theorem Slice.onStream_cctx (sl : Slice) (i : Nat) (f : Stream → Stream) : (sl.onStream i f).cctx = sl.cctx := rfl
@[simp] theorem Slice.onStream_ing (sl : Slice) (i : Nat) (f : Stream → Stream) : (sl.onStream i f).ing = sl.ing := rfl
@[simp] theorem Slice.onStream_mash (sl : Slice) (i : Nat) (f : Stream → Stream) : (sl.onStream i f).mash = sl.mash := rfl
@[simp] theorem Slice.onStream_work (sl : Slice) (i : Nat) (f : Stream → Stream) : (sl.onStream i f).work = sl.work := rfl
@[simp] theorem Slice.onStream_store (sl : Slice) (i : Nat) (f : Stream → Stream) : (sl.onStream i f).store = sl.store := rfl
@[simp] theorem Slice.onStream_cache (sl : Slice) (i : Nat) (f : Stream → Stream) : (sl.onStream i f).cache = sl.cache := rfl
@[simp] theorem Slice.onStream_str (sl : Slice) (i : Nat) (f : Stream → Stream) : (sl.onStream i f).str = { sl.str with streams := updateAt f i sl.str.streams } := rfl
@[simp] theorem Slice.onStream_rope (sl : Slice) (i : Nat) (f : Stream → Stream) : (sl.onStream i f).rope = sl.rope := rfl
@[simp] theorem Slice.onStream_cnt (sl : Slice) (i : Nat) (f : Stream → Stream) : (sl.onStream i f).cnt = sl.cnt := rfl
@[simp] theorem Slice.onStream_pwr (sl : Slice) (i : Nat) (f : Stream → Stream) : (sl.onStream i f).pwr = sl.pwr := rfl

end Sys2Proof.Machine
end

