-- ==== Sys2Proof/Laws/Deliver.lean ====
section
/-!
SUPPORT. What delivering the notices does: nothing where no slice has told anything. So a command of one slice that tells nothing changes
that slice alone.
-/

set_option Elab.async false

namespace Sys2Proof.Machine

theorem State.readMail_none (s : State) (i : Nat) (h : ∀ x ∈ s.slices, x.mail = []) : s.readMail i = s := by
  unfold State.readMail
  split
  · rfl
  · rename_i sl e
    obtain ⟨hi, e'⟩ := List.getElem?_eq_some_iff.mp e
    have m : sl.mail = [] := h sl (e' ▸ List.getElem_mem hi)
    have same : { sl with mail := [] } = sl := by cases sl; simp_all
    simp only [m, List.foldl_nil]
    rw [show s.slices.set i { sl with mail := [] } = s.slices by rw [same, ← e']; simp]

theorem State.readMails_none (s : State) (is : List Nat) (h : ∀ x ∈ s.slices, x.mail = []) : is.foldl State.readMail s = s := by
  induction is with
  | nil => rfl
  | cons i rest ih => rw [List.foldl_cons, s.readMail_none i h, ih]

theorem State.overruns_none (s : State) (h : ∀ c ∈ s.cap.ctxs, c.overrunFrom = none) : s.overruns = s := by
  unfold State.overruns
  split
  · rfl
  · have none : s.cap.ctxs.filter (fun x => x.overrunFrom.isSome && s.quiet x.id) = [] := by
      rw [List.filter_eq_nil_iff]
      intro x m
      simp [h x m]
    rw [none]
    rfl

/-- Where nothing waits to be told, delivering changes nothing. -/
theorem deliverAll_settled (s : State) (h : s.settled) : deliverAll s = s := by
  unfold deliverAll
  dsimp only
  rw [s.readMails_none _ h.1, s.overruns_none h.2]

theorem deliver_settled (s : State) (i : Nat) (h : s.settled) : deliver s i = s := by
  unfold deliver
  rw [s.readMail_none i h.1, deliverAll_settled s h]

/-- A slice without mail keeps a settled state settled. -/
theorem State.settled_put (s : State) (i : Nat) (sl : Slice) (h : s.settled) (m : sl.mail = []) : (s.put i sl).settled := by
  refine ⟨fun x hx => ?_, h.2⟩
  rcases List.mem_or_eq_of_mem_set hx with hx | hx
  · exact h.1 x hx
  · exact hx ▸ m

/-- What the operation every command of a slice goes through does when the slice tells nothing. -/
theorem onSlice_quiet (i : Nat) (s : State) (sl : Slice) (f : Capstan → Slice → Slice) (at_ : s.slices[i]? = some sl) (h : s.settled)
    (m : (f (sl.view s.cap) sl).mail = []) : onSlice deliver i s f = .next (s.put i (f (sl.view s.cap) sl)) := by
  unfold onSlice
  rw [at_]
  exact congrArg _ (deliver_settled _ i (s.settled_put i _ h m))

/-- A command of a slice's own work that tells nothing. -/
theorem onLive_quiet (i : Nat) (s : State) (sl : Slice) (f : Capstan → Slice → Slice) (w : s.working i sl)
    (n : (f (sl.view s.cap) sl).pwr.napping = false) (m : (f (sl.view s.cap) sl).mail = []) : onLive i s f = .next (s.put i (f (sl.view s.cap) sl)) := by
  have a : (f (sl.view s.cap) sl).awaken = f (sl.view s.cap) sl := by simp [Slice.awaken, Slice.wake, n]
  unfold onLive
  rw [onSlice_quiet i s sl _ w.1 w.2.2.2] <;> simp [w.2.1, a, m]

/-- A command of a slice's power or clocks that tells nothing. -/
theorem onPowered_quiet (i : Nat) (s : State) (sl : Slice) (f : Capstan → Slice → Slice) (w : s.powered i sl)
    (m : (f (sl.view s.cap) sl).mail = []) : onPowered i s f = .next (s.put i (f (sl.view s.cap) sl)) := by
  unfold onPowered
  rw [onSlice_quiet i s sl _ w.1 w.2.2.2] <;> simp [w.2.1, w.2.2.1, m]

/-- A command for a slice that does not work changes nothing. -/
theorem onLive_idle (i : Nat) (s : State) (sl : Slice) (f : Capstan → Slice → Slice) (at_ : s.slices[i]? = some sl)
    (w : sl.works s.cap = false) (h : s.settled) : onLive i s f = .next s := by
  obtain ⟨hi, e⟩ := List.getElem?_eq_some_iff.mp at_
  have m : sl.mail = [] := h.1 sl (e ▸ List.getElem_mem hi)
  unfold onLive
  rw [onSlice_quiet i s sl _ at_ h] <;> simp [w, m]
  simp [State.put, ← e]

/-- A message to the Rope is the only thing told: it is in flight. -/
theorem deliver_send (s : State) (i : Nat) (sl : Slice) (ms : List RopeMsg) (hi : i < s.slices.length) (h : s.settled)
    (m : sl.mail = ms.map Notice.send) :
    deliver (s.put i sl) i = { s.put i { sl with mail := [] } with rope := s.rope ++ ms } := by
  have step (t : State) (ms : List RopeMsg) : (ms.map Notice.send).foldl State.notify t = { t with rope := t.rope ++ ms } := by
    induction ms generalizing t with
    | nil => simp
    | cons a rest ih =>
      simp only [List.map_cons, List.foldl_cons]
      rw [ih]
      simp [State.notify, Notice.toCapstan, State.capTakes]
  have e : (s.put i sl).readMail i = { s.put i { sl with mail := [] } with rope := s.rope ++ ms } := by
    unfold State.readMail
    simp [State.put, hi, m, step]
  unfold deliver
  rw [e, deliverAll_settled]
  exact s.settled_put i { sl with mail := [] } h rfl

end Sys2Proof.Machine
end

