-- ==== Sys2Proof/Laws/Bus.lean ====
section
/-!
SUPPORT. What an access at the register port does (R565 to R570, R599): a write to a slice's register reaches that slice alone; a write
to the Capstan window is decoded by its offset.
-/

set_option Elab.async false

namespace Sys2Proof.Machine

theorem State.mail_of (s : State) (i : Nat) (sl : Slice) (a : s.slices[i]? = some sl) (h : s.settled) : sl.mail = [] := by
  obtain ⟨hi, e⟩ := List.getElem?_eq_some_iff.mp a
  exact h.1 sl (e ▸ List.getElem_mem hi)

theorem State.put_self (s : State) (i : Nat) (sl : Slice) (a : s.slices[i]? = some sl) : s.put i sl = s := by
  obtain ⟨hi, e⟩ := List.getElem?_eq_some_iff.mp a
  simp [State.put, ← e]

theorem State.respond_settled (s : State) (d : Reg) (k : Nat) (h : s.settled) : (s.respond d k).settled := h

/-- The window of slice `i` and the offset in it. -/
theorem sliceWindow_split (i o : Nat) (ho : o < 0x10000) :
    (sliceWindow + 0x10000 * i + o - sliceWindow) / 0x10000 = i ∧ (sliceWindow + 0x10000 * i + o - sliceWindow) % 0x10000 = o := by
  unfold sliceWindow
  omega

/-- An access to a register of a live slice's window is decoded (R565, R568). -/
theorem State.decode_slice (s : State) (i o : Nat) (sl : Slice) (h : s.answers i sl) (ho : o < 0x10000) (h8 : o % 8 = 0)
    (r : ((resetSlice i).reg? s.cap o).isSome) : s.decodeAccess (sliceWindow + 0x10000 * i + o) 8 = .ok (.slice i o) := by
  obtain ⟨hi, e⟩ := List.getElem?_eq_some_iff.mp h.1
  obtain ⟨a, p, i32, n, live, keep, st⟩ := h
  have w := sliceWindow_split i o ho
  have h1 : ¬ (sliceWindow + 65536 * i + o < 0x00040000) := by unfold sliceWindow; omega
  have h2 : ¬ (sliceWindow + 65536 * i + o < sliceWindow) := by omega
  have h3 : ¬ (0x00300000 ≤ sliceWindow + 65536 * i + o) := by unfold sliceWindow; omega
  have h4 : (sliceWindow + 65536 * i + o) % 8 = 0 := by unfold sliceWindow; omega
  have h5 : ¬ s.cap.n ≤ i := by omega
  have h6 : ¬ s.slices.length ≤ i := by omega
  have l1 : s.cap.hl.slices[i]?.getD SliceState.absent = .live := by simpa using live
  have k : ¬ (sliceWindow + 65536 * i + o) ∈ s.cap.hl.lost := by
    intro hk
    have := keep _ hk
    unfold sliceWindow at this
    omega
  have r' : ¬ Slice.reg? s.cap (resetSlice i) o = none := by simpa [Option.isSome_iff_ne_none] using r
  unfold State.decodeAccess
  dsimp only
  rw [w.1, w.2]
  simp [h1, h2, h3, h4, h5, h6, l1, r', k]

/-- A write to a slice's register that tells the Capstan nothing changes that slice alone, and has its response. -/
theorem sliceWrite_quiet (s : State) (i o : Nat) (sl : Slice) (v : Reg) (h : s.answers i sl) (ho : o < 0x10000) (h8 : o % 8 = 0)
    (r : ((resetSlice i).reg? s.cap o).isSome) (m : (sl.writeReg (sl.view s.cap) o v).mail = []) :
    sliceWrite i o v s = .next ((s.put i (sl.writeReg (sl.view s.cap) o v)).respond 0 0) := by
  have d := s.decode_slice i o sl h ho h8 r
  obtain ⟨a, p, i32, n, live, _, st⟩ := h
  have tc : toCapstan (sliceWindow + 0x10000 * i + o) = false := by
    have : ¬ (sliceWindow + 65536 * i + o < 262144) := by unfold sliceWindow; omega
    simpa [toCapstan] using Nat.not_lt.mp this
  unfold sliceWrite
  congr 1
  unfold State.busWrite State.access
  simp only [p, tc]
  simp only [State.doWrite, d, State.writeTarget, State.atSlice, a]
  simp
  exact deliverAll_settled _ (State.respond_settled _ _ _ (s.settled_put i _ st m))

/-- A write to the Capstan window while no restart is under way and none has failed (R570). -/
theorem State.busWrite_cap (s : State) (o : Nat) (v : Reg) (p : s.cap.su.power = .running) (q : s.cap.hl.restarting = none)
    (f : s.cap.hl.failed = false) (ho : o < 0x40000) (h8 : o % 8 = 0) (r : (s.cap.reg? o).isSome) :
    s.busWrite o v = deliverAll ((s.writeCap o v).respond 0 0) := by
  have d : s.decodeAccess o 8 = .ok (.cap o) := by
    have r' : ¬ s.cap.reg? o = none := by simpa [Option.isSome_iff_ne_none] using r
    unfold State.decodeAccess
    simp [ho, h8, r', f]
  unfold State.busWrite State.access
  simp [p, q, State.doWrite, d, State.writeTarget]

end Sys2Proof.Machine
end

