-- ==== Sys2Proof/Laws/Calm.lean ====
section
/-!
SUPPORT. What a calm slice does when its slice cache or a list of a stream has changed, and what a slice with idle links sends: nothing.
-/

set_option Elab.async false

namespace Sys2Proof.Machine

/-- A fold whose step never changes its value. -/
theorem foldl_still {α β : Type} (f : β → α → β) (b : β) (xs : List α) (h : ∀ x ∈ xs, f b x = b) : xs.foldl f b = b := by
  induction xs with
  | nil => rfl
  | cons x xs ih =>
    rw [List.foldl_cons, h x List.mem_cons_self]
    exact ih (fun y hy => h y (List.mem_cons_of_mem x hy))

theorem Slice.mem_of_batch? {sl : Slice} {h : Nat} {b : Batch} (hb : sl.batch? h = some b) : b ∈ sl.ing.batches :=
  List.mem_of_find?_eq_some hb

theorem mem_indexed {α : Type} {xs : List α} {e : Nat × α} (h : e ∈ indexed xs) : e.2 ∈ xs := by
  simp only [indexed] at h
  exact (List.of_mem_zip h).2

/-- A batch without writes to make feeds none (R361). -/
theorem Slice.feed_nothing (env : Capstan) (sl : Slice) (h : Nat) (hw : ∀ b ∈ sl.ing.batches, b.toWrite = []) : sl.feed env h = sl := by
  unfold Slice.feed
  split
  · next b hb =>
    rw [hw b (sl.mem_of_batch? hb)]
    split <;> simp [feedWrites]
  · rfl

theorem Slice.placeWaiting_nothing (env : Capstan) (sl : Slice) (h : sl.str.queued = []) : sl.placeWaiting env = sl := by
  unfold Slice.placeWaiting
  rw [h]
  simp only [placeQueued]
  rw [← h]

theorem Slice.feedAll_calm (env : Capstan) (sl : Slice) (c : sl.calm) : sl.feedAll env = sl := by
  obtain ⟨-, -, hq, -, -, -, hb⟩ := c
  unfold Slice.feedAll
  rw [sl.placeWaiting_nothing env hq]
  exact foldl_still _ _ _ (fun b _ => sl.feed_nothing env b.handle (fun b hb' => (hb.2 b hb').1))

theorem Slice.retryAll_calm (env : Capstan) (sl : Slice) (c : sl.calm) : sl.retryAll env = sl := by
  obtain ⟨hw, hr, -, -, hp, -, -⟩ := c
  have w : sl.retryWaiting env = sl := by
    unfold Slice.retryWaiting
    rw [hw, List.foldl_nil, ← hw]
  have r : sl.retryRuns env = sl := by
    unfold Slice.retryRuns
    rw [hr, List.foldl_nil, ← hr]
  unfold Slice.retryAll
  rw [w, r]
  exact foldl_still _ _ _ (fun e he => by rw [hp e.2 (mem_indexed he), List.foldl_nil])

theorem Slice.journalLedgers_none (env : Capstan) (sl : Slice) (h : ∀ p ∈ sl.ing.pendq, p.stage ≠ .ledger) : sl.journalLedgers env = sl := by
  refine foldl_still _ _ _ (fun e he => ?_)
  unfold Slice.journalLedger
  split
  · rfl
  · simp [h e.2 (mem_indexed he)]

theorem Slice.ledgersMoved_calm (env : Capstan) (sl : Slice) (c : sl.calm) : sl.ledgersMoved env = sl := by
  obtain ⟨ha, hb⟩ := c.2.2.2.2.2.2
  have eb : sl.ing.batches.filter (fun b => b.reading.isSome) = [] := by
    rw [List.filter_eq_nil_iff]
    intro b m
    simp [(hb b m).2.2]
  have ea : sl.ing.adopting.filter (fun a => a.reading.isSome) = [] := by
    rw [List.filter_eq_nil_iff]
    intro a m
    simp [ha a m]
  unfold Slice.ledgersMoved
  simp [eb, ea]

/-- Nothing goes on at a calm slice when a line of its slice cache has moved. -/
theorem Slice.cacheMoved_calm (env : Capstan) (sl : Slice) (c : sl.calm) : sl.cacheMoved env = sl := by
  have hm : sl.writeMaps env = sl := by
    unfold Slice.writeMaps
    rw [c.2.2.2.1, List.foldl_nil]
  unfold Slice.cacheMoved
  have ha : sl.ing.batches.foldl (fun (sl : Slice) b => sl.areaMoved env b.handle) sl = sl := by
    refine foldl_still _ _ _ (fun b _ => ?_)
    unfold Slice.areaMoved
    split
    · next b' hb' => rw [(c.2.2.2.2.2.2.2 b' (sl.mem_of_batch? hb')).2.1]; rfl
    · rfl
  rw [sl.retryAll_calm env c, sl.feedAll_calm env c, hm, sl.journalLedgers_none env c.2.2.2.2.2.1]
  simp only [ha]
  exact sl.ledgersMoved_calm env c

theorem Port.credits32_idle (p : Port) (h : ∀ n ∈ p.owed, n < 32) : p.credits32 = p := by
  unfold Port.credits32
  split
  · next hh =>
    exfalso
    simp only [List.any_eq_true, decide_eq_true_eq] at hh
    obtain ⟨n, hn, h32⟩ := hh
    exact absurd (h n hn) (by omega)
  · rfl

/-- Nothing leaves a slice whose links are idle (R411). -/
theorem Slice.pump_idle (env : Capstan) (sl : Slice) (h : sl.linksIdle) : sl.pump env = sl := by
  obtain ⟨hs, hp⟩ := h
  have e : sl.emptyBufs = sl := by
    unfold Slice.emptyBufs
    rw [if_pos]
    rw [List.all_eq_true]
    intro p hp'
    simp [(hp p hp').1]
  have c : sl.pumpCredits env = sl := by
    unfold Slice.pumpCredits
    refine foldl_still _ _ _ (fun i _ => ?_)
    split
    · rfl
    · next p hi =>
      obtain ⟨-, hd, ho⟩ := hp p (List.mem_of_getElem? hi)
      have : p.sendCredit sl.id ((env.neighbour sl.id i).getD sl.id) sl.rope.epoch = (0, p) := by
        unfold Port.sendCredit
        split
        · rfl
        · simp [hd]
      simp [p.credits32_idle ho, this]
  have f : sl.flitsWaiting = 0 := by
    unfold Slice.flitsWaiting
    rw [hs, List.map_nil, List.sum_nil, Nat.zero_add]
    have : ∀ xs : List Port, (∀ p ∈ xs, p.buf = []) → (xs.map (fun p => p.buf.length)).sum = 0 := by
      intro xs
      induction xs with
      | nil => intro _; rfl
      | cons x xs ih =>
        intro hx
        rw [List.map_cons, List.sum_cons, hx x List.mem_cons_self, ih (fun p hp => hx p (List.mem_cons_of_mem x hp))]
        rfl
    exact this _ (fun p hp' => (hp p hp').1)
  unfold Slice.pump
  simp only [e, c, f, if_true]

end Sys2Proof.Machine
end

