-- ==== Sys2Proof/Laws/Exec.lean ====
section
/-!
SUPPORT. `exec` of each command is its meaning: one equation per constructor, so that no later proof unfolds the dispatch.
-/

set_option Elab.async false

namespace Sys2Proof.Machine

theorem exec_nsub (die : Nat) (core : Nat) (off : Nat) (s : State) : exec (.nsub die core off) s = execNsub die core off s := rfl
theorem exec_nsubG (die : Nat) (core : Nat) (off : Nat) (mask : BitVec 64) (s : State) : exec (.nsubG die core off mask) s = execNsubG die core off mask s := rfl
theorem exec_submissionRePresented (die : Nat) (core : Nat) (off : Nat) (isG : Bool) (mask : BitVec 64) (batchId : Nat) (s : State) : exec (.submissionRePresented die core off isG mask batchId) s = execSubmissionRePresented die core off isG mask batchId s := rfl
theorem exec_descriptorReadDone (slice : Nat) (idx : Nat) (desc : List Byte) (s : State) : exec (.descriptorReadDone slice idx desc) s = execDescriptorReadDone slice idx desc s := rfl
theorem exec_activationGranted (reads : List EntryRead) (s : State) : exec (.activationGranted reads) s = execActivationGranted reads s := rfl
theorem exec_activationEnd (ctx : Nat) (s : State) : exec (.activationEnd ctx) s = execActivationEnd ctx s := rfl
theorem exec_indexReadDone (slice : Nat) (idx : Nat) (entries : List Nat) (detect : Option Nat) (s : State) : exec (.indexReadDone slice idx entries detect) s = execIndexReadDone slice idx entries detect s := rfl
theorem exec_caskBlockGiven (slice : Nat) (block : Nat) (s : State) : exec (.caskBlockGiven slice block) s = execCaskBlockGiven slice block s := rfl
theorem exec_reservationsGranted (slice : Nat) (idx : Nat) (s : State) : exec (.reservationsGranted slice idx) s = execReservationsGranted slice idx s := rfl
theorem exec_recordsReadDone (slice : Nat) (idx : Nat) (recs : List (List Byte × List Byte)) (detect : Option Nat) (s : State) : exec (.recordsReadDone slice idx recs detect) s = execRecordsReadDone slice idx recs detect s := rfl
theorem exec_ledgerAcknowledged (slice : Nat) (idx : Nat) (s : State) : exec (.ledgerAcknowledged slice idx) s = execLedgerAcknowledged slice idx s := rfl
theorem exec_binFlushAge (slice : Nat) (bin : Nat) (s : State) : exec (.binFlushAge slice bin) s = execBinFlushAge slice bin s := rfl
theorem exec_overflowBinMove (slice : Nat) (lay : Nat) (bank : Nat) (s : State) : exec (.overflowBinMove slice lay bank) s = execOverflowBinMove slice lay bank s := rfl
theorem exec_gatherAge (slice : Nat) (gather : Nat) (s : State) : exec (.gatherAge slice gather) s = execGatherAge slice gather s := rfl
theorem exec_binRelease (slice : Nat) (lay : Nat) (reads : Decodes) (s : State) : exec (.binRelease slice lay reads) s = execBinRelease slice lay s reads := rfl
theorem exec_boxNodeVisit (slice : Nat) (lay : Nat) (walker : Nat) (reads : Decodes) (s : State) : exec (.boxNodeVisit slice lay walker reads) s = execBoxNodeVisit slice lay walker s reads := rfl
theorem exec_nodeCacheFill (slice : Nat) (lay : Nat) (reg : Nat) (reads : Decodes) (s : State) : exec (.nodeCacheFill slice lay reg reads) s = execNodeCacheFill slice lay reg s reads := rfl
theorem exec_primitiveTest (slice : Nat) (lay : Nat) (walker : Nat) (reads : Decodes) (s : State) : exec (.primitiveTest slice lay walker reads) s = execPrimitiveTest slice lay walker s reads := rfl
theorem exec_tileReservationComplete (slice : Nat) (lay : Nat) (job : Nat) (tile : Nat) (s : State) : exec (.tileReservationComplete slice lay job tile) s = execTileReservationComplete slice lay job tile s := rfl
theorem exec_tileStep (slice : Nat) (lay : Nat) (job : Nat) (tile : Nat) (reads : Decodes) (s : State) : exec (.tileStep slice lay job tile reads) s = execTileStep slice lay job tile reads s := rfl
theorem exec_tileComplete (slice : Nat) (lay : Nat) (job : Nat) (tile : Nat) (reads : Decodes) (s : State) : exec (.tileComplete slice lay job tile reads) s = execTileComplete slice lay job tile reads s := rfl
theorem exec_gatherRun (slice : Nat) (lay : Nat) (reads : Decodes) (s : State) : exec (.gatherRun slice lay reads) s = execGatherRun slice lay s reads := rfl
theorem exec_pointerQueueSend (slice : Nat) (port : Nat) (read : WordCode) (s : State) : exec (.pointerQueueSend slice port read) s = execPointerQueueSend slice port s read := rfl
theorem exec_migrate (slice : Nat) (idx : Nat) (read : Option (Nat × WordCode)) (s : State) : exec (.migrate slice idx read) s = execMigrate slice idx s read := rfl
theorem exec_migratePtr (slice : Nat) (idx : Nat) (read : Option (Nat × WordCode)) (s : State) : exec (.migratePtr slice idx read) s = execMigratePtr slice idx s read := rfl
theorem exec_result (slice : Nat) (idx : Nat) (reads : Decodes) (s : State) : exec (.result slice idx reads) s = execResult slice idx s reads := rfl
theorem exec_resultWriteAck (slice : Nat) (id : Nat) (reads : Decodes) (s : State) : exec (.resultWriteAck slice id reads) s = execResultWriteAck slice id s reads := rfl
theorem exec_bankUnavailable (slice : Nat) (id : Nat) (s : State) : exec (.bankUnavailable slice id) s = execBankUnavailable slice id s := rfl
theorem exec_bankRetryTimer (slice : Nat) (id : Nat) (refused : Bool) (s : State) : exec (.bankRetryTimer slice id refused) s = execBankRetryTimer slice id refused s := rfl
theorem exec_journalWriteSettled (slice : Nat) (s : State) : exec (.journalWriteSettled slice) s = execJournalWriteSettled slice s := rfl
theorem exec_maintDesc (slice : Nat) (idx : Nat) (s : State) : exec (.maintDesc slice idx) s = execMaintDesc slice idx s := rfl
theorem exec_maintConditionsMet (slice : Nat) (s : State) : exec (.maintConditionsMet slice) s = execMaintConditionsMet slice s := rfl
theorem exec_maintAck (slice : Nat) (idx : Nat) (s : State) : exec (.maintAck slice idx) s = execMaintAck slice idx s := rfl
theorem exec_fillSectorArrival (slice : Nat) (reg : Nat) (sector : Nat) (data : List Byte) (poison : Bool) (port : WordCode) (reads : Decodes) (s : State) : exec (.fillSectorArrival slice reg sector data poison port reads) s = execFillSectorArrival slice reg sector data poison s port reads := rfl
theorem exec_evictionWriteAck (slice : Nat) (idx : Nat) (read : WordCode) (s : State) : exec (.evictionWriteAck slice idx read) s = execEvictionWriteAck slice idx s read := rfl
theorem exec_gate (slice : Nat) (way : Nat) (s : State) : exec (.gate slice way) s = execGate slice way s := rfl
theorem exec_ungate (slice : Nat) (way : Nat) (s : State) : exec (.ungate slice way) s = execUngate slice way s := rfl
theorem exec_wayCleanSweep (slice : Nat) (way : Nat) (s : State) : exec (.wayCleanSweep slice way) s = execWayCleanSweep slice way s := rfl
theorem exec_wayGated (slice : Nat) (way : Nat) (s : State) : exec (.wayGated slice way) s = execWayGated slice way s := rfl
theorem exec_wayAwake (slice : Nat) (way : Nat) (s : State) : exec (.wayAwake slice way) s = execWayAwake slice way s := rfl
theorem exec_streamBlockIssue (slice : Nat) (stream : Nat) (reads : Decodes) (mesh : WordCode) (s : State) : exec (.streamBlockIssue slice stream reads mesh) s = execStreamBlockIssue slice stream s reads mesh := rfl
theorem exec_streamBurstFetch (slice : Nat) (stream : Nat) (s : State) : exec (.streamBurstFetch slice stream) s = execStreamBurstFetch slice stream s := rfl
theorem exec_streamTransferComplete (slice : Nat) (stream : Nat) (block : Nat) (s : State) : exec (.streamTransferComplete slice stream block) s = execStreamTransferComplete slice stream block s := rfl
theorem exec_creditReturn (slice : Nat) (stream : Nat) (block : Nat) (reads : Decodes) (s : State) : exec (.creditReturn slice stream block reads) s = execCreditReturn slice stream block s reads := rfl
theorem exec_translationResponse (slice : Nat) (access : Access) (answer : Xlate) (s : State) : exec (.translationResponse slice access answer) s = execTranslationResponse slice access answer s := rfl
theorem exec_pageResponse (asid : Nat) (page : Nat) (ok : Bool) (s : State) : exec (.pageResponse asid page ok) s = execPageResponse asid page ok s := rfl
theorem exec_pageTimeout (asid : Nat) (page : Nat) (s : State) : exec (.pageTimeout asid page) s = execPageTimeout asid page s := rfl
theorem exec_hitchRefetchDone (slice : Nat) (addr : Nat) (outcome : Refetch) (s : State) : exec (.hitchRefetchDone slice addr outcome) s = execHitchRefetchDone slice addr outcome s := rfl
theorem exec_replayRelease (slice : Nat) (batch : Nat) (reads : Decodes) (s : State) : exec (.replayRelease slice batch reads) s = execReplayRelease slice batch reads s := rfl
theorem exec_scrub (slice : Nat) (row : ScrubRow) (outcome : WordCode) (s : State) : exec (.scrub slice row outcome) s = execScrub slice row outcome s := rfl
theorem exec_rotationStep (slice : Nat) (s : State) : exec (.rotationStep slice) s = execRotationStep slice s := rfl
theorem exec_rotationTestDone (slice : Nat) (lay : Nat) (pass : Bool) (s : State) : exec (.rotationTestDone slice lay pass) s = execRotationTestDone slice lay pass s := rfl
theorem exec_frameTick (s : State) : exec .frameTick s = execFrameTick s := rfl
theorem exec_slicePassEmpty (slice : Nat) (ctx : Nat) (s : State) : exec (.slicePassEmpty slice ctx) s = execSlicePassEmpty slice ctx s := rfl
theorem exec_passStart (ctx : Nat) (reads : List EntryRead) (maps : List MapRead) (s : State) : exec (.passStart ctx reads maps) s = execPassStart ctx reads maps s := rfl
theorem exec_deadlineMissed (ctx : Nat) (s : State) : exec (.deadlineMissed ctx) s = execDeadlineMissed ctx s := rfl
theorem exec_validate (ctx : Nat) (s : State) : exec (.validate ctx) s = execValidate ctx s := rfl
theorem exec_invalidate (ctx : Nat) (s : State) : exec (.invalidate ctx) s = execInvalidate ctx s := rfl
theorem exec_stage (ctx : Nat) (withBoundary : Bool) (s : State) : exec (.stage ctx withBoundary) s = execStage ctx withBoundary s := rfl
theorem exec_boundary (ctx : Nat) (s : State) : exec (.boundary ctx) s = execBoundary ctx s := rfl
theorem exec_clearFault (ctx : Nat) (s : State) : exec (.clearFault ctx) s = execClearFault ctx s := rfl
theorem exec_powerStart (s : State) : exec .powerStart s = execPowerStart s := rfl
theorem exec_nvmGrant (s : State) : exec .nvmGrant s = execNvmGrant s := rfl
theorem exec_discoveryDone (sfdp : List Byte) (s : State) : exec (.discoveryDone sfdp) s = execDiscoveryDone sfdp s := rfl
theorem exec_imageHeaderArrived (bytes : List Byte) (s : State) : exec (.imageHeaderArrived bytes) s = execImageHeaderArrived bytes s := rfl
theorem exec_hintsArrived (bytes : List Byte) (s : State) : exec (.hintsArrived bytes) s = execHintsArrived bytes s := rfl
theorem exec_imageReadDone (bytes : List Byte) (s : State) : exec (.imageReadDone bytes) s = execImageReadDone bytes s := rfl
theorem exec_selftestDone (found : Selftest) (s : State) : exec (.selftestDone found) s = execSelftestDone found s := rfl
theorem exec_ropeTrainingDone (up : List (Nat × Nat × Nat)) (s : State) : exec (.ropeTrainingDone up) s = execRopeTrainingDone up s := rfl
theorem exec_engineTimeStart (frame : Option (BitVec 128 × Bool × Nat)) (s : State) : exec (.engineTimeStart frame) s = execEngineTimeStart frame s := rfl
theorem exec_engineTimeSync (slice : Nat) (s : State) : exec (.engineTimeSync slice) s = execEngineTimeSync slice s := rfl
theorem exec_timebaseFrame (bits : BitVec 128) (decodes : Bool) (sinceMark : Nat) (s : State) : exec (.timebaseFrame bits decodes sinceMark) s = execTimebaseFrame bits decodes sinceMark s := rfl
theorem exec_timebaseHoldover (s : State) : exec .timebaseHoldover s = execTimebaseHoldover s := rfl
theorem exec_heartbeat (slice : Nat) (s : State) : exec (.heartbeat slice) s = execHeartbeat slice s := rfl
theorem exec_heartbeatCheck (s : State) : exec .heartbeatCheck s = execHeartbeatCheck s := rfl
theorem exec_routerProbeAnswer (slice : Nat) (clean : Bool) (s : State) : exec (.routerProbeAnswer slice clean) s = execRouterProbeAnswer slice clean s := rfl
theorem exec_fencesConfirmed (die : Nat) (mesh : Bool) (mem : Bool) (s : State) : exec (.fencesConfirmed die mesh mem) s = execFencesConfirmed die s mesh mem := rfl
theorem exec_journalReadDone (die : Nat) (entries : List (Option JournalRead)) (s : State) : exec (.journalReadDone die entries) s = execJournalReadDone die entries s := rfl
theorem exec_epochChange (slice : Nat) (s : State) : exec (.epochChange slice) s = execEpochChange slice s := rfl
theorem exec_epochDrainReport (slice : Nat) (s : State) : exec (.epochDrainReport slice) s = execEpochDrainReport slice s := rfl
theorem exec_holdCleared (slice : Nat) (s : State) : exec (.holdCleared slice) s = execHoldCleared slice s := rfl
theorem exec_flitReceived (slice : Nat) (port : Nat) (module : Nat) (flit : Flit) (s : State) : exec (.flitReceived slice port module flit) s = execFlitReceived slice port module flit s := rfl
theorem exec_credit (slice : Nat) (port : Nat) (mig : Nat) (ret : Nat) (mnt : Nat) (epoch : Nat) (s : State) : exec (.credit slice port mig ret mnt epoch) s = execCredit slice port mig ret mnt epoch s := rfl
theorem exec_creditReturnTimer (slice : Nat) (port : Nat) (s : State) : exec (.creditReturnTimer slice port) s = execCreditReturnTimer slice port s := rfl
theorem exec_retrainDone (slice : Nat) (port : Nat) (module : Nat) (ok : Bool) (s : State) : exec (.retrainDone slice port module ok) s = execRetrainDone slice port module ok s := rfl
theorem exec_lockstepMismatch (lost : Option Nat) (s : State) : exec (.lockstepMismatch lost) s = execLockstepMismatch lost s := rfl
theorem exec_capstanRestartDone (s : State) : exec .capstanRestartDone s = execCapstanRestartDone s := rfl
theorem exec_loglineRecordArrival (slice : Nat) (s : State) : exec (.loglineRecordArrival slice) s = execLoglineRecordArrival slice s := rfl
theorem exec_rateLimiterToken (slice : Nat) (s : State) : exec (.rateLimiterToken slice) s = execRateLimiterToken slice s := rfl
theorem exec_logRsel (value : Reg) (decodes : Bool) (s : State) : exec (.logRsel value decodes) s = execLogRsel value decodes s := rfl
theorem exec_logMarkWrite (thresh : Bool) (value : Reg) (s : State) : exec (.logMarkWrite thresh value) s = execLogMarkWrite thresh value s := rfl
theorem exec_irqEnableWrite (value : Reg) (s : State) : exec (.irqEnableWrite value) s = execIrqEnableWrite value s := rfl
theorem exec_cntSelWrite (slice : Nat) (k : Nat) (value : Reg) (s : State) : exec (.cntSelWrite slice k value) s = execCntSelWrite slice k value s := rfl
theorem exec_cntCtlWrite (slice : Nat) (value : Reg) (s : State) : exec (.cntCtlWrite slice value) s = execCntCtlWrite slice value s := rfl
theorem exec_captureRearm (slice : Nat) (s : State) : exec (.captureRearm slice) s = execCaptureRearm slice s := rfl
theorem exec_qsDiagSel (slice : Nat) (value : Reg) (s : State) : exec (.qsDiagSel slice value) s = execQsDiagSel slice value s := rfl
theorem exec_capRepairSel (value : Reg) (s : State) : exec (.capRepairSel value) s = execCapRepairSel value s := rfl
theorem exec_readClear (off : Nat) (s : State) : exec (.readClear off) s = execReadClear off s := rfl
theorem exec_registerWrite (off : Nat) (size : Nat) (value : Reg) (s : State) : exec (.registerWrite off size value) s = execRegisterWrite off size value s := rfl
theorem exec_pwrReqOn (slice : Nat) (s : State) : exec (.pwrReqOn slice) s = execPwrReqOn slice s := rfl
theorem exec_pwrReqTrim (slice : Nat) (lay : Nat) (s : State) : exec (.pwrReqTrim slice lay) s = execPwrReqTrim slice lay s := rfl
theorem exec_pwrReqNap (slice : Nat) (s : State) : exec (.pwrReqNap slice) s = execPwrReqNap slice s := rfl
theorem exec_trimDrained (slice : Nat) (s : State) : exec (.trimDrained slice) s = execTrimDrained slice s := rfl
theorem exec_layPoweredOn (slice : Nat) (s : State) : exec (.layPoweredOn slice) s = execLayPoweredOn slice s := rfl
theorem exec_napIdleTimer (slice : Nat) (s : State) : exec (.napIdleTimer slice) s = execNapIdleTimer slice s := rfl
theorem exec_napWake (slice : Nat) (s : State) : exec (.napWake slice) s = execNapWake slice s := rfl
theorem exec_stretchWarnRise (slice : Nat) (droop : Bool) (s : State) : exec (.stretchWarnRise slice droop) s = execStretchWarnRise slice droop s := rfl
theorem exec_stretchWarnFall (slice : Nat) (droop : Bool) (s : State) : exec (.stretchWarnFall slice droop) s = execStretchWarnFall slice droop s := rfl
theorem exec_stretchRestore (slice : Nat) (s : State) : exec (.stretchRestore slice) s = execStretchRestore slice s := rfl
theorem exec_slicePowerLoss (slice : Nat) (trip : Bool) (s : State) : exec (.slicePowerLoss slice trip) s = execSlicePowerLoss slice trip s := rfl
theorem exec_powerLoss (s : State) : exec .powerLoss s = execPowerLoss s := rfl
theorem exec_engineReset (svcRail : Bool) (s : State) : exec (.engineReset svcRail) s = execEngineReset svcRail s := rfl
theorem exec_testReset (wrapper : Bool) (s : State) : exec (.testReset wrapper) s = execTestReset wrapper s := rfl
theorem exec_getStatus (tag : Nat) (cnt : Nat) (body : List Byte) (s : State) : exec (.getStatus tag cnt body) s = execGetStatus tag cnt body s := rfl
theorem exec_openChallenge (tag : Nat) (cnt : Nat) (body : List Byte) (s : State) : exec (.openChallenge tag cnt body) s = execOpenChallenge tag cnt body s := rfl
theorem exec_openResponse (tag : Nat) (cnt : Nat) (body : List Byte) (s : State) : exec (.openResponse tag cnt body) s = execOpenResponse tag cnt body s := rfl
theorem exec_close (tag : Nat) (cnt : Nat) (body : List Byte) (mac : List Byte) (s : State) : exec (.close tag cnt body mac) s = execClose tag cnt body mac s := rfl
theorem exec_logHead (tag : Nat) (cnt : Nat) (body : List Byte) (mac : List Byte) (s : State) : exec (.logHead tag cnt body mac) s = execLogHead tag cnt body mac s := rfl
theorem exec_logRead (tag : Nat) (cnt : Nat) (body : List Byte) (mac : List Byte) (lost : List Nat) (s : State) : exec (.logRead tag cnt body mac lost) s = execLogRead tag cnt body mac lost s := rfl
theorem exec_regRead (tag : Nat) (cnt : Nat) (body : List Byte) (mac : List Byte) (s : State) : exec (.regRead tag cnt body mac) s = execRegRead tag cnt body mac s := rfl
theorem exec_regWrite (tag : Nat) (cnt : Nat) (body : List Byte) (mac : List Byte) (s : State) : exec (.regWrite tag cnt body mac) s = execRegWrite tag cnt body mac s := rfl
theorem exec_logClear (tag : Nat) (cnt : Nat) (body : List Byte) (mac : List Byte) (s : State) : exec (.logClear tag cnt body mac) s = execLogClear tag cnt body mac s := rfl
theorem exec_responseRead (s : State) : exec .responseRead s = execResponseRead s := rfl
theorem exec_sessionIdleTimeout (s : State) : exec .sessionIdleTimeout s = execSessionIdleTimeout s := rfl
theorem exec_challengeExpiry (s : State) : exec .challengeExpiry s = execChallengeExpiry s := rfl
theorem exec_lockoutExpiry (s : State) : exec .lockoutExpiry s = execLockoutExpiry s := rfl
theorem exec_entdaa (addr : BitVec 7) (s : State) : exec (.entdaa addr) s = execEntdaa addr s := rfl
theorem exec_rstdaa (s : State) : exec .rstdaa s = execRstdaa s := rfl
theorem exec_getpid (s : State) : exec .getpid s = execGetpid s := rfl
theorem exec_getbcr (s : State) : exec .getbcr s = execGetbcr s := rfl
theorem exec_getdcr (s : State) : exec .getdcr s = execGetdcr s := rfl
theorem exec_getstatusCcc (s : State) : exec .getstatusCcc s = execGetstatusCcc s := rfl
theorem exec_getmwl (s : State) : exec .getmwl s = execGetmwl s := rfl
theorem exec_getmrl (s : State) : exec .getmrl s = execGetmrl s := rfl
theorem exec_enec (events : Nat) (s : State) : exec (.enec events) s = execEnec events s := rfl
theorem exec_disec (events : Nat) (s : State) : exec (.disec events) s = execDisec events s := rfl
theorem exec_contextEntryRead (entry : List Byte) (poison : Bool) (s : State) : exec (.contextEntryRead entry poison) s = execContextEntryRead entry poison s := rfl
theorem exec_engineResetRelease (s : State) : exec .engineResetRelease s = execEngineResetRelease s := rfl
theorem exec_badFrame (frame : List Byte) (s : State) : exec (.badFrame frame) s = execBadFrame frame s := rfl
theorem exec_unsupportedCcc (code : Nat) (s : State) : exec (.unsupportedCcc code) s = execUnsupportedCcc code s := rfl
theorem exec_irqMessageAccepted (s : State) : exec .irqMessageAccepted s = execIrqMessageAccepted s := rfl
theorem exec_registerReadError (off : Nat) (size : Nat) (lost : Bool) (s : State) : exec (.registerReadError off size lost) s = execRegisterReadError off size lost s := rfl

end Sys2Proof.Machine
end

