-- ==== Sys2Proof/Laws/Mash.lean ====
section
/-!
SUPPORT. What joining the Mash does (R196, R204, R213), and which lay an object belongs to (R197).
-/

set_option Elab.async false

namespace Sys2Proof.Machine

theorem Slice.layOf_congr (sl sl' : Slice) (h : sl'.work = sl.work) (a : Nat) : sl'.layOf a = sl.layOf a := by
  simp [Slice.layOf, Slice.layRuns, h]

/-- A query that opens a bin adds that bin and changes nothing else. -/
theorem Slice.binQuery_opens (env : Capstan) (sl : Slice) (c : Ctx) (q : Query) (hc : env.ctx? q.ctx = some c) (op : sl.opensBin q) :
    sl.binQuery env q = { sl with mash := { sl.mash with bins := sl.mash.bins ++ [sl.newBin env c q] } } := by
  obtain ⟨a, b⟩ := op
  unfold Slice.binQuery Slice.newBin
  simp [hc, a, b, Mash.bankFree]

theorem Slice.toBin_opens (env : Capstan) (sl : Slice) (c : Ctx) (q : Query) (hc : env.ctx? q.ctx = some c) (op : sl.opensBin q) :
    sl.toBin env q =
      { sl with mash := { sl.mash with bins := sl.mash.bins ++ [sl.newBin env c { q with entered := sl.time }] } } :=
  sl.binQuery_opens env c { q with entered := sl.time } hc op

end Sys2Proof.Machine
end

