-- ==== Sys2Proof/Machine/Ports.lean ====
section
/-!
DEFINITION. The requests that stand at the ports of a slice and of the Capstan, formed from the state as the port's fields lay them out: the
mesh port (R594), the memory port (R595), translation and page requests (R596), the pins of the Capstan (R601).
-/

namespace Sys2Proof.Machine

/-! ### The mesh port (R594) -/

/-- A read of local memory: MSH_RD_REQ. `units` is the length and `stride` the stride in 16 B units. -/
structure MeshRead where
  core : Nat
  die : Nat
  off : Nat
  units : Nat
  transposed : Bool
  stride : Nat
  deriving DecidableEq, Repr

/-- MSH_RD_REQ. -/
def MeshRead.bits (r : MeshRead) : BitVec 64 :=
  BitVec.ofNat 64 (place r.core 9 0 + place r.die 5 9 + place r.off 19 14 + place r.units 13 33 + flag r.transposed 46 + place r.stride 17 47)

/-- A contiguous read of `n` bytes. -/
def Pend.readOf (p : Pend) (off n : Nat) : MeshRead :=
  { core := p.core, die := p.die, off := off, units := (n + 15) / 16, transposed := false, stride := 0 }

/-- The read of a query's payload (R61, R62): its row, or its column, whose elements lie a stride apart. -/
def Pend.payloadRead (p : Pend) (c : Ctx) (q : Nat) : MeshRead :=
  let d := p.desc
  if d.column then { p.readOf (d.pay + q * c.elem) (c.dim * c.elem) with transposed := true, stride := d.payStride / 16 }
  else p.readOf (d.pay + q * d.payStride) (c.dim * c.elem)

/-- The reads of steps 1, 2 and 5 of R150 that a batch has before it, in order: its descriptor; the index entries of its active queries, four to
a unit of 16 bytes; the record of each active query with its payload (R139, log entry 90). -/
def Pend.reads (env : Capstan) (p : Pend) : List MeshRead :=
  let d := p.desc
  let active := activeOf d p.isG p.mask
  match p.stage, env.ctx? d.ctx with
  | .descriptor, _ => [p.readOf p.off 64]
  | .index, _ => ((active.map (fun q => (d.accMap + 4 * q) / 16)).eraseDups).map (fun u => p.readOf (16 * u) 16)
  | .records, some c => active.flatMap (fun q =>
      p.readOf (d.recOff + q * d.recStride) (recordBytes d c) :: (if hasPayload d c then [p.payloadRead c q] else []))
  | _, _ => []

/-- The code of a write's operation (R594). -/
def MeshOp.code : MeshOp → Nat
  | .write => 0
  | .accumF32 => 1
  | .addU32 => 2

/-- MSH_WR_HDR. -/
def MeshWrite.header (w : MeshWrite) : BitVec 96 :=
  BitVec.ofNat 96 (place w.core 9 0 + place w.die 5 9 + place w.off 19 14 + place w.op.code 2 33 + flag (w.op != .write) 35 + place w.id 8 36)

/-- MSH_WR_TAG: zero for a write that is not tagged. -/
def MeshWrite.tagBits (w : MeshWrite) : BitVec 64 := if w.op = .write then 0 else w.tag

/-- The beats of a write: MSH_WR_DATA with its byte enables MSH_WR_BE, of 128 bytes from OFFSET on. -/
def MeshWrite.beats (w : MeshWrite) : List (List Byte × BitVec 128) :=
  (chunks 128 w.data.length w.data).map (fun d => (padTo 128 d, BitVec.ofNat 128 (2 ^ d.length - 1)))

/-! ### The memory port (R595) -/

/-- MEM_RD_ADDR, MEM_RD_ID and MEM_RD_CRIT of the miss registers whose line is translated. The id of a read is its register's number (log entry
90). -/
def Cache.memReads (c : Cache) : List (Nat × Nat × Nat) := c.misses.filterMap (fun m => m.phys.map (fun a => (a / 256, m.reg, m.first)))

/-- A half-line beat of a write: MEM_WR_ADDR, MEM_WR_ID, MEM_WR_HALF, MEM_WR_DATA, and a poison bit for each of its four sectors. -/
structure MemWrite where
  addr : Nat
  id : Nat
  half : Nat
  data : List Byte
  poison : List Bool
  deriving DecidableEq, Repr

/-- The two beats of an entry of the eviction buffer, half 0 before half 1. -/
def Evict.beats (e : Evict) (phys : Nat) : List MemWrite :=
  [0, 1].map (fun h =>
    { addr := phys / 256, id := e.id % 1024, half := h, data := (e.data.drop (128 * h)).take 128
      poison := (List.range 4).map (fun k => decide (4 * h + k ∈ e.poison)) })

/-- The writes of the entries whose line is translated. -/
def Cache.memWrites (c : Cache) : List MemWrite := c.evict.flatMap (fun e => (e.phys.map e.beats).getD [])

/-! ### Translation and pages (R375, R596) -/

/-- XL_REQ: the address-space id, virtual address bits [47:12], the request id. -/
def xlReq (asid va id : Nat) : BitVec 60 := BitVec.ofNat 60 (place asid 16 0 + place (va / 4096) 36 16 + place id 8 52)

/-- PG_REQ. -/
def pgReq (asid page : Nat) : BitVec 52 := BitVec.ofNat 52 (place asid 16 0 + place page 36 16)

/-- The address-space id of a context. -/
def Capstan.asidOf (c : Capstan) (ctx : Nat) : Nat := ((c.ctx? ctx).map (fun x => x.asid)).getD 0

/-- The translations that a slice awaits: of the lines of its miss registers, and of the lines in its eviction buffer (log entry 90). -/
def Slice.xlReqs (env : Capstan) (sl : Slice) : List (BitVec 60) :=
  (sl.cache.misses.filter (fun m => m.st = .pending && m.phys.isNone && m.got.isEmpty)).map (fun m => xlReq (env.asidOf m.ctx) m.addr m.reg) ++
    (sl.cache.evict.filter (fun e => e.phys.isNone)).map (fun e => xlReq (env.asidOf e.ctx) e.addr (e.id % 256))

/-- What XL_RSP answers (R596). -/
def Xlate.ofResponse (b : BitVec 48) : Xlate :=
  let n := b.toNat
  let code := field n 1 0
  if code = 0 then .translated (field n 3 2) (field n 39 4) else if code = 1 then .needsPage else if code = 2 then .failed else .reserved

/-! ### The pins of the flash (R601) -/

/-- NVM_CS_N and NVM_SCK, and NVM_IO where it is driven, as the Capstan holds them before NVM_GRANT and after step 3 of R430; none while it
reads the flash. -/
def Capstan.nvmPins (c : Capstan) : Option (Bool × Bool × Option (BitVec 4)) :=
  if (c.su.step = 2 || c.su.step = 3) && c.su.cause = 0 then none else some (true, false, none)

end Sys2Proof.Machine
end

