-- ==== Sys2Proof/Tests/Slice0.lean ====
section
/-!
SUPPORT. Tests: ill-formed commands that WellFormed refuses, single steps on small states, and for every statement the states and operands
that meet its hypotheses.
-/

set_option Elab.async false

namespace Sys2Proof.Tests

open Sys2Proof.Machine

/-! ### A small engine: two slices at work, one context -/

/-- A slice with power and its units mapped. -/
def tS (i : Nat) : Slice :=
  { resetSlice i with
    time := 100000
    work := { (resetSlice i).work with walkMap0 := List.range 8, walkMap1 := List.range 8, arrMap0 := List.range 4
                                       arrMap1 := List.range 4, ptuActive := 15 }
    pwr := { (resetSlice i).pwr with rail := true }
    cctx := { slots := [], states := [(1, .valid)], maps := [] } }

/-- A context of RAY queries in mode CLOSEST, its pass running. -/
def tC (id : Nat) : Ctx :=
  { blankCtx id with
    fixed := [1, 1, 0, 0] ++ toLe 8 0 ++ toLe 2 7 ++ [2, 1] ++ toLe 8 0x10000000 ++ toLe 8 0x400000 ++ List.replicate 32 0
    live := toLe 8 0x1001 ++ toLe 8 0 ++ toLe 8 0x100000 ++ toLe 8 0 ++ toLe 4 0 ++ toLe 4 0 ++ toLe 4 0 ++ toLe 4 9
    cstate := .valid, pass := .running }

/-- The Capstan of a running engine of two live slices. -/
def tCap : Capstan :=
  { resetCapstan 2 with
    su := { (resetCapstan 2).su with power := .running, step := 9, state := .ready, selftest := true, trained := true }
    img := { noImage with ctxCount := 4, profiles := [[8, 0, 100, 0, 8, 0, 0, 0, 100, 0, 0, 0, 0, 0, 0, 0]]
                          partMasks := [0xF, 0xF0, 0xF00, 0, 0], strCfg := 0x0000101000200100, ropeCfg := 2 * 2 ^ 32 }
    tb := { (resetCapstan 2).tb with on := true, time := 100000 }
    hl := { (resetCapstan 2).hl with slices := [.live, .live] }
    ctxs := [tC 1], active := [(0, 1)] }

def t0 : State := { State.reset with cap := tCap, slices := [tS 0, tS 1] }

/-- A minimal image for two slices (R435 to R447): ENGINE, PROFILES, STREAMS AND ROPE, TIMERS. -/
def tImage : List Byte :=
  let engine : List Byte := toLe 2 3 ++ [2, 0] ++ toLe 4 0 ++ toLe 6 0x10000000 ++ toLe 2 0 ++ toLe 2 4 ++ [0, 0] ++ toLe 4 0 ++
    List.replicate 40 0
  let profile : List Byte := [8, 4] ++ toLe 2 100 ++ toLe 4 8 ++ toLe 4 1000 ++ toLe 4 0
  let str : Nat := 512 + 256 * 2 ^ 13 + 16 * 2 ^ 32 + 16 * 2 ^ 40
  let rope : Nat := 384 + 128 * 2 ^ 11 + 16 * 2 ^ 22 + 2 * 2 ^ 32 + 1 * 2 ^ 38
  let streams : List Byte := toLe 8 str ++ toLe 8 rope ++ toLe 2 0x000F ++ toLe 2 0x03F0 ++ toLe 2 0xFC00 ++ List.replicate 10 0
  let timers : List Byte := [0, 2, 0, 0, 1, 2, 0, 0]
  let secs : List (List Byte) := [engine, (List.replicate 8 profile).flatten, streams, timers ++ List.replicate 8 0]
  let entry (typ off : Nat) (bs : List Byte) : List Byte := toLe 4 typ ++ toLe 4 off ++ toLe 4 bs.length ++ toLe 4 (crc32c bs).toNat
  let table := entry 1 128 engine ++ entry 2 192 (secs.getD 1 []) ++ entry 3 320 streams ++ entry 4 352 timers
  let head (h i : Nat) : List Byte := toLe 4 0x4E4C494B ++ [1, 0, 0, 0] ++ toLe 4 368 ++ toLe 4 7 ++ toLe 4 4 ++ toLe 4 h ++ toLe 4 i ++
    List.replicate 36 0
  let body := table ++ secs.flatten
  let h := (crc32c (head 0 0 ++ table)).toNat
  head h (crc32c (head 0 0 ++ body)).toNat ++ body

/-- The management port addressed, a key in the image, a session open. -/
def tKey : List Byte := List.replicate 32 5
def tSession : Session := { key := 1, number := 1, ks := List.replicate 32 6, last := 4, lastReq := [1], lastResp := [2], since := 100000 }
def tChallenge : Challenge := { key := 1, nt := List.replicate 32 7, since := 100000 }
def tMgt : Mgmt := { tCap.mgt with addr := some 9 }
def tManaged (m : Mgmt) : State := t0.withCap { tCap with mgt := m, img := { tCap.img with keys := [(1, 7, tKey)] } }

/-- Slice 1 dead, its probe ended. -/
def tDeath : Death := { slice := 1, probeDone := true, fenced := true, begun := false, read := false, since := 100000 }

/-- A port with four modules at work, and a flit of one word on VC 0. -/
def tPort : Port := { resetPort with st := .up, modules := List.replicate 4 { resetModule with st := .up }, credits := [8, 8, 8] }
def tFlit : Flit :=
  { vc := 1, first := true, last := true, mtype := 3, seq := 0, ack := 255, nak := false, dest := 0, src := 1, words := 1
    epoch := 0, wordsOk := true, corrected := 0, frameSeq := 0, frameMark := 0xB4 }

/-- Slice `i` with a port. -/
def tLinked (i port : Nat) (p : Port) : Slice :=
  { tS i with rope := { (tS i).rope with ports := (tS i).rope.ports.set port p } }

/-- A block descriptor of 256 bytes, its line in the cache, and a stream. -/
def tBlock (op : Byte) : Block :=
  { raw := toLe 6 0x4000 ++ toLe 2 1 ++ toLe 4 256 ++ [1, 0, 1, 0] ++ List.replicate 12 0 ++ [op, 0, 0, 0]
    use := .fetch 0 5 }
def tLine (addr way : Nat) : Line :=
  { set := setOf addr, way := way, ctx := 1, gen := (tC 1).gen, tag := addr, dirty := false, lock := false, doomed := false, rsv := 0
    data := List.replicate 256 3 }
def tStreamed (k : Nat) (x : Stream) : Slice := { tS 0 with str := { (tS 0).str with streams := (tS 0).str.streams.set k x } }
def tWrite : MeshWrite :=
  { id := 0, handle := none, core := 3, die := 0, off := 0x1000, op := .write, tag := 0, data := [1, 2], kind := .slot 0, block := none
    failures := 0, waiting := false, retried := false, retryAt := 0, compl := 0x800, amount := 0, ctx := 1, batchId := 9, cause := 0, detail := 0 }
def tMiss : ScMiss :=
  { reg := 2, addr := 0x4000, ctx := 1, gen := (tC 1).gen, part := .tree, st := .pending, set := setOf 0x4000, way := 1, lock := false
    waiters := [], got := [], poisoned := [] }
def tNcMiss : NcMiss :=
  { reg := 1, addr := 0x4000, ctx := 1, gen := (tC 1).gen, st := .pending, ready := some (List.replicate 128 4) }
def tEvict (addr : Nat) : Evict := { id := 0, ctx := 1, addr := addr, way := none, data := [7] }
def tCached (c : Cache → Cache) : Slice := { tS 0 with cache := c (tS 0).cache }

/-- A maintenance descriptor from slice 0. -/
def tMaint : MaintMsg :=
  { home := 0, handle := 0, qindex := 0, ctx := 1, batchId := 9, clean := false, all := true, base := 0, length := 0
    raw := [] }
def tMaintIn : MaintIn := { msg := tMaint, scRegs := [], ncRegs := [], evicts := [], flushes := [], locked := 0, lockFirst := 0 }

/-- A batch of two rays, `maint` one of maintenance records, and its descriptor in the pending queue. -/
def tDescBytes (maint : Bool) : List Byte :=
  toLe 4 9 ++ toLe 2 1 ++ [1, if maint then 4 else 0] ++ toLe 4 2 ++ [0, 0] ++ toLe 2 64 ++ toLe 4 0x400 ++ List.replicate 8 0 ++
    toLe 4 0x1000 ++ toLe 4 64 ++ [1, 0, 0, 0] ++ List.replicate 8 0 ++ toLe 4 0x800 ++ List.replicate 12 0
def tPend (stage : Stage) : Pend :=
  { core := 3, die := 0, off := 64, isG := false, mask := 2 ^ 64 - 1, stage := stage, raw := tDescBytes false
    desc := descOf (tDescBytes false), index := [(0, 0), (1, 1)], items := [], handle := 0, admitted := [], maint := [] }
def tQueued (p : Pend) : Slice := { tS 0 with ing := { (tS 0).ing with pendq := [p] } }

def tJWrite (js : JState) (settles : Option Nat) : JWrite :=
  { ctx := 1, addr := journalAddr 2 0 (tC 1) 0 0, handle := some 0, jstate := js, acked := 0, settles := settles }

/-- A ray record along z. -/
def tRecord : List Byte :=
  [0x11, 0, 0xFF, 0] ++ toLe 4 5 ++ List.replicate 20 0 ++ toLe 4 0x3F800000 ++ toLe 4 0 ++ toLe 4 0x42C80000 ++ List.replicate 24 0
def tBatch : Batch :=
  { handle := 0, core := 3, die := 0, off := 64, isG := false, mask := 2 ^ 64 - 1, desc := descOf (tDescBytes false), active := 2
    phase := .walking, takenAcked := true, res := [], slots := [], ops := [], opGot := [], toWrite := [], built := false, budget := 64, 
      failDetail := none
    acked := 0, jstate := .taken, replaying := none, items := [] }

/-- A ray along z from the origin, at the box node 0x1000; nodes of it: a box node with one child, a triangle leaf. -/
def tQuery : Query :=
  { blankQuery 0 0 9 1 0 1 .ray with
    dir := { x := 0, y := 0, z := 1 }, tmax := .fin 100, tmax0 := .fin 100
    next := { addr := 0x1000, ckind := 1, holder := 64, placed := .replicated, tnear := .fin 0 } }
def tBox (child : Nat) : List Byte :=
  [1, 127, 127, 127] ++ List.replicate 12 0 ++ [0, 1, 0, 1, 1, 2] ++ List.replicate 42 0 ++ toLe 8 child ++ List.replicate 56 0
def tTri : List Byte :=
  [4, 1] ++ List.replicate 14 0 ++ List.replicate 24 0 ++ toLe 4 0x3F800000 ++ List.replicate 84 0
def tBin (q : Query) : Bin :=
  { ctx := 1, obj := q.next.addr, octant := q.octant, lay := (tS 0).layOf q.next.addr, bank := bankOf q.next.addr, ready := some .fill
    members := [q] }
def tGather (q : Query) : Gather := { ctx := 1, leaf := q.next.addr, lay := (tS 0).layOf q.next.addr, ready := some .fill, members := [q] }
def tPacket (q : Query) : Packet := { ctx := 1, obj := q.next.addr, miss := 0, reg := 0, members := [q] }

/-- A slice whose walker 2 of lay 0 works on a query, the object in its node cache. -/
def tWalks (q : Query) (bs : List Byte) : Slice :=
  { tS 0 with work := { (tS 0).work with walkers0 := (tS 0).work.walkers0.set 2 { work := some (tPacket q), parked := [] } }
              cache := { (tS 0).cache with node0 := [{ way := 0, addr := q.next.addr, ctx := 1, gen := (tC 1).gen, data := bs }] } }
def tMashed (m : Mash) : Slice := { tS 0 with mash := m }
def tMash : Mash := (tS 0).mash

/-- A job over a key block of two rows of three elements. -/
def tJob (tiles : List Tile) : Job :=
  { id := 5, ctx := 1, walker := 0, obj := 0x1000
    kind := .keys { fmt := .bf16, n := 2, dim := 3, scale := 0x3F800000, block := 0x4000, bias := 0 } 0
    rows := [{ tQuery with kind := .key, payload := [0x3C00, 0, 0x4000] }], waiting := [], layer := 0
    replay := [none], hist := [], tiles := tiles }
def tTile (st : TileState) : Tile :=
  { layer := 0, nb := 0, st := st, arrs := [0], chain := 1, lines := [], accs := [], merged := [], bias := []
    outs := [], poisonAt := none }
def tWorks (tiles : List Tile) : Slice :=
  { tS 0 with work := { (tS 0).work with jobs0 := [tJob tiles], opBuf0 := { job := some 5, low := [opRows .bf16 [0x3C00, 0, 0x4000]] } }
              cache := { (tS 0).cache with lines := [tLine 0x4000 1] } }

/-- A query at its home, and messages of its walk. -/
def tQRes (q : Nat) : QRes :=
  { q := q, tag := 5, slot := q, k := 0, ended := none, got := 0, stat := .ok, stopped := false, tmax := .fin 100, hits := [], best := []
    branches := 0, flags := noFlags, placed := false }
def tResult (k : RKind) : ResMsg :=
  { rkind := k, ctx := 1, handle := 0, qindex := 0, flags := noFlags, tmax := .fin 100, parts := 1, hits := [], best := [], vec := [] }
def tMsg (b : RopeBody) : RopeMsg := { src := 1, dest := 0, epoch := 0, body := b }
def tBatched (b : Batch) : Slice := { tS 0 with ing := { (tS 0).ing with batches := [b] } }

/-- A context entry: `tC` as it stands in package memory. -/
def tEntry : List Byte := (tC 1).fixed ++ List.replicate 48 0 ++ (tC 1).live ++ List.replicate 96 0
def tCtxs (xs : List Ctx) : State := t0.withCap { tCap with ctxs := xs }
def tCmd (k : CtxCmd) (xs : List Ctx) : State := t0.withCap { tCap with cmd := some k, ctxs := xs }
def tStored (n : Nat) : Stored := { seq := BitVec.ofNat 32 n, bytes := List.replicate 32 7, isHead := false }

/-- An instance node with mask 1, the identity as its transform, a box node below it. -/
def tInst : List Byte :=
  let one := toLe 4 0x3F800000
  let zero := toLe 4 0
  [3, 1, 0, 0] ++ toLe 4 5 ++ toLe 8 0x2001 ++ one ++ zero ++ zero ++ zero ++ zero ++ one ++ zero ++ zero ++ zero ++ zero ++ one ++ zero ++
    List.replicate 64 0

/-- An SFDP area with a basic flash table of nine DWORDs (R433, R434): 1-4-4 read EBH where `quad`, 1 MiB. -/
def tSfdp (quad : Bool) : List Byte :=
  toLe 4 0x50444653 ++ [6, 1, 0, 0xFF] ++ [0, 6, 1, 9] ++ toLe 3 16 ++ [0xFF] ++ toLe 4 (if quad then 0x200000 else 0) ++ toLe 4 0x7FFFFF ++
    toLe 4 0xEB44 ++ List.replicate 24 0

/-- The descriptor of a TOKEN batch with a map of its result slots, for a context in mode EVAL_ACCUM. -/
def tMapped : List Byte :=
  toLe 4 9 ++ toLe 2 1 ++ [1, 2] ++ toLe 4 2 ++ [0, 0] ++ toLe 2 64 ++ toLe 4 0x400 ++ toLe 4 0x600 ++ toLe 4 16 ++ toLe 4 0x1000 ++
    toLe 4 64 ++ [0, 0, 0, 0] ++ toLe 4 0x700 ++ toLe 4 2 ++ toLe 4 0x800 ++ List.replicate 12 0
def tAccum : Ctx := { tC 1 with fixed := ((((tC 1).fixed.set 0 3).set 1 6).set 4 1).set 8 1 }

/-- A slice with a batch whose replay may begin, its ledger of two lines in the slice cache, and the query that the ledger holds. -/
def tReplay : Batch := { tBatch with replaying := some [], res := [tQRes 0], items := [{ use := .ledger, runs := [(3, 2)] }] }
def tLedger : List (List Byte) := [tDescBytes false ++ List.replicate 192 0, tRecord ++ List.replicate 192 0]
def tRerun : Query := (ledgerQueries 0 0 tReplay.desc (tC 1) tReplay.items [0] tLedger.flatten).1.getD 0 tQuery
def tEntered : QEntry :=
  { first := 3, runs := [(3, 1)], kind := 1, home := 0, batch := 0, qindex := 0, hitched := true, spilled := false, guest := false }
def tReplays : Slice :=
  { tBatched tReplay with
    store := { (tS 0).store with entries := [tEntered] }
    cache := { (tS 0).cache with lines := [{ tLine 0x10000300 8 with data := tLedger.getD 0 [] }, { tLine 0x10000400 9 with data := tLedger.getD 1 [] }] } }


/-! ### Ill-formed commands -/

/-- One ill-formed command for each check on the ids of units. -/
theorem test_wellFormed_refuses_ids :
    [Instr.nsub 32 0 0, .nsub 0 512 0, .nsub 0 0 (2 ^ 64), .submissionRePresented 0 0 0 false 0 (2 ^ 32), .activationEnd 4096
     , .heartbeat 32, .overflowBinMove 0 2 0, .overflowBinMove 0 0 4, .boxNodeVisit 0 0 8, .pointerQueueSend 0 4, .gate 0 16
     , .streamBlockIssue 0 16, .pageTimeout 65536 0, .fencesConfirmed 32, .retrainDone 0 0 4 true, .cntSelWrite 0 16 0, .migrate 0 0 (some (4, .ok))
     , .migratePtr 0 0 (some (4, .ok)), .resultWriteAck 0 256, .bankUnavailable 0 256, .bankRetryTimer 0 256 true].all
      (fun i => !i.wellFormed) = true := by decide

/-- One ill-formed command for each check on the data that arrive. -/
theorem test_wellFormed_refuses_data :
    [Instr.descriptorReadDone 0 0 [], .fillSectorArrival 0 0 8 (List.replicate 32 0) false, .fillSectorArrival 0 0 0 [] false
     , .credit 0 0 4096 0 0 0, .credit 0 0 0 4096 0 0, .credit 0 0 0 0 4096 0, .credit 0 0 0 0 0 65536, .readClear (2 ^ 22)
     , .registerWrite 0 3 0, .registerReadError (2 ^ 22) 8 false, .getStatus 256 0 [], .getStatus 0 (2 ^ 32) []
     , .getStatus 0 0 (List.replicate 229 0), .close 0 0 [] [], .enec 256, .disec 256, .unsupportedCcc 256
     , .contextEntryRead [] false
     , .translationResponse 0 (.miss 0) (.translated 4 0), 
       .translationResponse 0 (.miss 0) (.translated 0 (2 ^ 36))].all (fun i => !i.wellFormed) = true := by decide +kernel

/-- Their neighbours within the widths are well formed. -/
theorem test_wellFormed_accepts_bounds :
    [Instr.nsub 31 511 (2 ^ 64 - 1), .activationEnd 4095, .overflowBinMove 31 1 3, .boxNodeVisit 31 1 7, .gate 31 15
     , .descriptorReadDone 0 0 (List.replicate 64 0), .credit 31 3 4095 4095 4095 65535, .registerWrite (2 ^ 22 - 1) 8 0
     , .getStatus 255 (2 ^ 32 - 1) (List.replicate 228 0), .close 0 0 [] (List.replicate 16 0), .enec 255, .migrate 0 0 (some (3, .ok)), 
       .resultWriteAck 0 255
     , .translationResponse 0 (.miss 0) (.translated 3 (2 ^ 36 - 1))].all
      (fun i => i.wellFormed) = true := by decide +kernel

/-- The table gives no row bits. -/
theorem test_no_word_spells_a_command : decodeTableWord 32 0 = none ∧ t0.withFetchWord 32 0 = t0 := by decide +kernel

/-! ### Worked examples of the spec -/

/-- 03_tree_formats.md, "one child pointer", with ADDR at bits 48 to 8 as R83 has it: 0x7F2040000080 / 128 = 0xFE40800001. -/
theorem test_pointer_fields :
    ptrOf 0x000AFE4080000121 = { ckind := 1, place := 2, addr := 0x7F2040000080, home := 5, bad := false } := by decide

/-- 03_tree_formats.md, "decoding one axis". -/
theorem test_box_plane_rounds_outwards :
    encode32 (boxPlane false (1 + 1 / 2 ^ 23) 0x80 1) = 0x40400000 ∧ encode32 (boxPlane true (1 + 1 / 2 ^ 23) 0x80 5) = 0x41300001 := by
  decide +kernel

/-- 05_sorting_and_traversal.md, "one axis in slab precision". -/
theorem test_slab_axis :
    (slabAxis (.fin 1) (.fin 2) 0 3).map (fun x => (encode32 x.1, encode32 x.2)) = some (0x3EAAAA00, 0x3F2AAB00) := by decide +kernel

/-- 06_scoring_arithmetic.md, "one exact value in four formats": its first, third and last rows. -/
theorem test_convert_saturates :
    [Fmt.fp32, .bf16, .e4m3, .e5m2].map (fun f => (convert f (.fin 470)).1) = [0x43EB0000, 0x43EB, 0x7E, 0x5F] ∧
      (convert .e4m3 (.fin 470)).2 = flagSat := by decide +kernel

theorem test_convert_rounds_once :
    [Fmt.fp32, .bf16, .e4m3, .e5m2].map (fun f => (convert f (.fin (1 + 1 / 2 ^ 8 + 1 / 2 ^ 30))).1) = [0x3F808000, 0x3F81, 0x38, 0x3C] := by
  decide +kernel

theorem test_convert_overflows :
    [Fmt.fp32, .bf16, .e4m3, .e5m2].map (fun f => (convert f (.fin (3 * 2 ^ 127))).1) = [0x7F800000, 0x7F80, 0x7E, 0x7C] := by
  decide +kernel

/-- 06_scoring_arithmetic.md, "an infinite product and a NaN among ordinary terms": a payload in E5M2 against weights in E4M3. -/
theorem test_terms_and_marks :
    let st := ([(0x40, 0x38), (0x7C, 0x30), (0x3C, 0x7F), (0xBC, 0x40), (0x42, 0x3C), (0, 0x44)] : List (Code × Code)).zipIdx.foldl
      (fun (a : Acc) x => addTerm a x.2 false (Fmt.read .e5m2 x.1.1) (Fmt.read .e4m3 x.1.2) 0) emptyAcc
    st.acc = 0x48000000000 ∧ st.pinf = true ∧ st.ninf = false ∧ st.qnan = true ∧ st.zinf = false ∧ st.kmin = 1 := by decide +kernel

/-- 06_scoring_arithmetic.md, "the fixed BF16 order". -/
theorem test_bf16_order :
    encode32 (fadd (fadd (fadd (.fin 0) (.fin (2 ^ 24))).1 (.fin 1)).1 (.fin 1)).1 = 0x4B800000 := by decide +kernel

/-- 10_rope_and_progress.md, "a cask-pointer flit": the low half of its header, MHDR and the body. -/
theorem test_pointer_flit :
    let q : Query := { blankQuery 5 0x7A 9 1 1045 0x13 .ray with
      dir := { x := 1, y := -1, z := 1 }, slot := [(0x12C40, 4)]
      next := { addr := 128 * (0x000A0FE408000121 / 256 % 2 ^ 41), ckind := 1, holder := 0, placed := .homed 5, tnear := .fin 0 } }
    (({ src := 5, dest := 14, epoch := 3, body := .migratePtr q } : RopeMsg).flits tCap).map (fun f =>
      (flitHeader { f with seq := 0x2A, ack := 0x91 } % 2 ^ 64, f.mhdr, f.body)) =
      [(0x00000312B8912A2C, 0x0000000200010013, [0x21, 1, 0, 8, 0xE4, 0x0F, 0x0A, 0, 0x40, 0x2C, 1, 0, 0x15, 4, 0x7A, 0x14])] := by
  decide +kernel

/-! ### Single steps -/

/-- R430, R612: from reset, PWR_GOOD lets the engine start. -/
theorem test_power_start_runs :
    (match step { State.reset with pending := [.powerStart] } with
     | .next t => decide (t.cap.su.power = .running) && decide (t.cap.su.state = .starting) && t.pending.isEmpty
     | _ => false) = true := by decide +kernel

/-- R137, R155: a submission stands in the pending queue of its home slice. -/
theorem test_nsub_waits_at_home :
    (match step { t0 with pending := [.nsub 1 3 64] } with
     | .next t => t.slices.map (fun sl => sl.ing.pendq.map (fun p => (p.core, p.off)))
     | _ => []) = [[], [(3, 64)]] := by decide +kernel

/-- R2: no slice has this id. -/
theorem test_no_such_slice : exec (.heartbeat 2) t0 = .next t0 := by rfl


/-! ### States and operands that meet the hypotheses of each statement -/

theorem witness_commandsKeepTheQueue : ∃ (c : Instr) (s t : State), exec c s = .next t ∧ s.pending ≠ [] :=
  ⟨.powerStart, { State.reset with pending := [.frameTick] }, _, rfl, by decide⟩

/-- The Logline of an engine that has one record. -/
theorem tLog_sound : ({ tCap.log with first := [tStored 4], next := 5 } : Logline).sound := by
  refine ⟨⟨by decide, by decide, by decide⟩, ?_, ?_⟩
  · intro k r h
    simp [tCap, resetCapstan] at h
  · intro _ k r h
    match k, h with
    | 0, h =>
      cases h
      decide
    | k + 1, h => simp at h

theorem witness_everyStepKeepsTheInvariant : ∃ (s t : State), s.Inv ∧ step s = .next t :=
  ⟨{ t0.withCap { tCap with log := { tCap.log with first := [tStored 4], next := 5 } } with pending := [.powerLoss] }, _,
   { slices := by decide, logline := tLog_sound, port := by decide, repairs := by decide, active := by decide
     contexts := by decide }, rfl⟩

theorem witness_recordsAreFoundBySeq : ∃ (l : Logline) (r : Stored) (i j : BitVec 32),
    l.sound ∧ l.last[0]? = some r ∧ (i - l.next).toNat < 2 ^ 31 ∧ 2 ^ 31 ≤ (j - l.next).toNat ∧
      l.last.length ≤ (j - l.oldest).toNat := by
  refine ⟨{ tCap.log with first := List.replicate 1024 (tStored 0), last := [tStored 1024], next := 1025 }, tStored 1024, 1025, 3,
    ⟨⟨by decide +kernel, by decide +kernel, by decide +kernel⟩, ?_, ?_⟩, rfl, by decide +kernel, by decide +kernel, by decide +kernel⟩
  · intro k r h
    match k, h with
    | 0, h =>
      cases h
      decide +kernel
    | k + 1, h => simp at h
  · intro h
    exact absurd h (by decide +kernel)


theorem witness_stepRunsFrontCommand :
  (∃ (c : Instr) (rest : List Instr) (s : State),
    s.pending = c :: rest) ∧
  (∃ (s : State),
    s.pending = []) :=
  ⟨⟨.frameTick, [.irqMessageAccepted], { t0 with pending := [.frameTick, .irqMessageAccepted] }, by decide +kernel⟩,
   ⟨t0, by decide +kernel⟩⟩

theorem witness_clocksStretchAndSlicesNap :
  (∃ (s : State) (i : Nat) (sl : Slice),
    s.powered i sl ∧ sl.pwr.droopNow = false) ∧
  (∃ (s : State) (i : Nat) (sl : Slice),
    s.powered i sl ∧ sl.pwr.thermNow = false) ∧
  (∃ (s : State) (i : Nat) (sl : Slice),
    s.powered i sl ∧ sl.pwr.droopNow = true) ∧
  (∃ (s : State) (i : Nat) (sl : Slice),
    s.powered i sl ∧ sl.pwr.thermNow = true) ∧
  (∃ (s : State) (i : Nat) (sl : Slice) (d : Nat) (h : Nat),
    s.powered i sl ∧ sl.pwr.droopHold = some d ∧ sl.pwr.thermHold = some h) ∧
  (∃ (s : State) (i : Nat) (sl : Slice),
    s.powered i sl ∧ sl.pwr.state = 2 ∧ sl.pwr.pendingOp = none ∧ sl.idle = true ∧ sl.pwr.idleSince + 20000 ≤ sl.time) ∧
  (∃ (s : State) (i : Nat) (sl : Slice),
    s.powered i sl ∧ sl.pwr.napping = true) ∧
  (∃ (s : State) (i : Nat) (sl : Slice),
    s.powered i sl ∧ (sl.pwr.state ≠ 2 ∨ sl.pwr.pendingOp ≠ none ∨ sl.idle = false ∨ sl.time < sl.pwr.idleSince + 20000)) :=
  ⟨⟨t0, 0, tS 0, by decide +kernel⟩,
   ⟨t0, 0, tS 0, by decide +kernel⟩,
   ⟨t0.put 0 ({ tS 0 with pwr := { (tS 0).pwr with droopNow := true } }), 0, { tS 0 with pwr := { (tS 0).pwr with droopNow := true } }, 
     by decide +kernel⟩,
   ⟨t0.put 0 ({ tS 0 with pwr := { (tS 0).pwr with thermNow := true } }), 0, { tS 0 with pwr := { (tS 0).pwr with thermNow := true } }, 
     by decide +kernel⟩,
   ⟨t0.put 0 ({ tS 0 with pwr := { (tS 0).pwr with droopHold := some 100000, thermHold := some 100001 } }), 0, 
     { tS 0 with pwr := { (tS 0).pwr with droopHold := some 100000, thermHold := some 100001 } }, 100000, 100001, by decide +kernel⟩,
   ⟨t0.put 0 ({ tS 0 with pwr := { (tS 0).pwr with state := 2, idleSince := 80000 } }), 0, 
     { tS 0 with pwr := { (tS 0).pwr with state := 2, idleSince := 80000 } }, by decide +kernel⟩,
   ⟨t0.put 0 ({ tS 0 with pwr := { (tS 0).pwr with state := 2, napping := true } }), 0, 
     { tS 0 with pwr := { (tS 0).pwr with state := 2, napping := true } }, by decide +kernel⟩,
   ⟨t0.put 0 ({ tS 0 with pwr := { (tS 0).pwr with state := 2, idleSince := 80001 } }), 0, 
     { tS 0 with pwr := { (tS 0).pwr with state := 2, idleSince := 80001 } }, by decide +kernel⟩⟩

theorem witness_powerRequestsAreAnswered :
  (∃ (s : State) (i : Nat) (sl : Slice),
    s.answers i sl ∧ sl.stopped = false ∧ sl.pwr.napping = false ∧ sl.pwr.pendingOp = none ∧ sl.work.layOff = none ∧ sl.pwr.state ≠ 0) ∧
  (∃ (s : State) (i : Nat) (lay : Nat) (sl : Slice),
    s.answers i sl ∧ sl.stopped = false ∧ sl.pwr.napping = false ∧ sl.pwr.pendingOp = none ∧ sl.work.layOff = some lay) ∧
  (∃ (s : State) (i : Nat) (sl : Slice),
    s.answers i sl ∧ sl.stopped = false ∧ sl.pwr.napping = false ∧ sl.pwr.pendingOp = none ∧ sl.pwr.state ≠ 2) ∧
  (∃ (s : State) (i : Nat) (lay : Nat) (sl : Slice),
    s.answers i sl ∧ sl.stopped = false ∧ sl.pwr.napping = false ∧ sl.pwr.pendingOp = none ∧ sl.work.layOff = none ∧ lay < 2 ∧ 
      ¬ (1 - lay) ∈ sl.work.layRetired ∧ (sl.walkers lay).length = 8) ∧
  (∃ (s : State) (i : Nat) (lay : Nat) (sl : Slice) (op : Nat),
    s.answers i sl ∧ sl.stopped = false ∧ sl.pwr.napping = false ∧ sl.pwr.pendingOp = some op ∧ lay < 2) :=
  ⟨⟨t0.put 0 ({ tS 0 with pwr := { (tS 0).pwr with state := 2 } }), 0, { tS 0 with pwr := { (tS 0).pwr with state := 2 } }, by decide +kernel⟩,
   ⟨t0.put 0 ({ tS 0 with work := { (tS 0).work with layOff := some 1 } }), 0, 1, { tS 0 with work := { (tS 0).work with layOff := some 1 } }, 
     by decide +kernel⟩,
   ⟨t0, 0, tS 0, by decide +kernel⟩,
   ⟨t0.put 0 ({ tS 0 with work := { (tS 0).work with layRetired := [1] } }), 0, 1, { tS 0 with work := { (tS 0).work with layRetired := [1] } }, 
     by decide +kernel⟩,
   ⟨t0.put 0 ({ tS 0 with pwr := { (tS 0).pwr with pendingOp := some 1 } }), 0, 1, { tS 0 with pwr := { (tS 0).pwr with pendingOp := some 1 } }, 1, 
     by decide +kernel⟩⟩

theorem witness_layTrimsAndReturns :
  (∃ (s : State) (i : Nat) (sl : Slice),
    s.powered i sl ∧ sl.pwr.pendingOp = some 1 ∧ sl.jobs sl.pwr.trimLay = []) ∧
  (∃ (_c : Cache) (lay : Nat),
    lay < 2) ∧
  (∃ (s : State) (i : Nat) (sl : Slice),
    s.powered i sl ∧ sl.pwr.pendingOp = some 0 ∧ sl.pwr.napping = false) :=
  ⟨⟨t0.put 0 ({ tS 0 with pwr := { (tS 0).pwr with pendingOp := some 1, trimLay := 1 } }), 0, 
    { tS 0 with pwr := { (tS 0).pwr with pendingOp := some 1, trimLay := 1 } }, by decide +kernel⟩,
   ⟨(tS 0).cache, 1, by decide +kernel⟩,
   ⟨t0.put 0 ({ tS 0 with pwr := { (tS 0).pwr with pendingOp := some 0 } }), 0, { tS 0 with pwr := { (tS 0).pwr with pendingOp := some 0 } }, 
     by decide +kernel⟩⟩

theorem witness_sliceStopsOnPowerLoss :
  (∃ (s : State) (i : Nat) (sl : Slice) (_trip : Bool),
    s.powered i sl ∧ s.decides) ∧
  (∃ (s : State) (i : Nat) (sl : Slice) (_lay : Nat) (_n : Nat) (_reads : Decodes) (_mesh : WordCode),
    s.slices[i]? = some sl ∧ sl.stopped = true ∧ s.settled) :=
  ⟨⟨t0, 1, tS 1, true, by decide +kernel⟩,
   ⟨t0.put 0 ({ tS 0 with stopped := true }), 0, { tS 0 with stopped := true }, 0, 0, [], .ok, by decide +kernel⟩⟩

theorem witness_counterRegistersAreWritten :
  (∃ (s : State) (i : Nat) (sl : Slice) (_v : Reg),
    s.answers i sl) ∧
  (∃ (s : State) (i : Nat) (k : Nat) (sl : Slice) (_v : Reg),
    s.answers i sl ∧ k < 16) ∧
  (∃ (s : State) (i : Nat) (sl : Slice),
    s.answers i sl) ∧
  (∃ (s : State) (i : Nat) (sl : Slice) (_v : Reg),
    s.answers i sl) :=
  ⟨⟨t0, 1, tS 1, 0x12345, by decide +kernel⟩,
   ⟨t0, 0, 15, tS 0, 0xFFFFFFFFFFFFFFFF, by decide +kernel⟩,
   ⟨t0.put 0 ({ tS 0 with cnt := { (tS 0).cnt with capt0 := 7 } }), 0, { tS 0 with cnt := { (tS 0).cnt with capt0 := 7 } }, by decide +kernel⟩,
   ⟨t0, 0, tS 0, 0xFFFFF, by decide +kernel⟩⟩

theorem witness_readsClearCounters :
  (∃ (s : State) (i : Nat) (k : Nat) (sl : Slice),
    s.answers i sl ∧ k < 16) ∧
  (∃ (s : State) (i : Nat) (sl : Slice),
    s.answers i sl) ∧
  (∃ (s : State) (i : Nat) (sl : Slice),
    s.answers i sl) ∧
  (∃ (s : State) (i : Nat) (sl : Slice),
    s.answers i sl) ∧
  (∃ (s : State) (i : Nat) (sl : Slice),
    s.answers i sl ∧ sl.cache.lost < 2 ^ 32 ∧ sl.cache.overflow < 2 ^ 32) :=
  ⟨⟨t0.put 0 ({ tS 0 with cnt := { (tS 0).cnt with vals := (List.range 16).map (fun n => BitVec.ofNat 64 n) } }), 0, 15, 
    { tS 0 with cnt := { (tS 0).cnt with vals := (List.range 16).map (fun n => BitVec.ofNat 64 n) } }, by decide +kernel⟩,
   ⟨t0.put 1 { tS 1 with cnt := { (tS 1).cnt with inv := 5 } }, 1, { tS 1 with cnt := { (tS 1).cnt with inv := 5 } }, by decide +kernel⟩,
   ⟨t0.put 0 ({ tS 0 with cnt := { (tS 0).cnt with ftz := 9 } }), 0, { tS 0 with cnt := { (tS 0).cnt with ftz := 9 } }, by decide +kernel⟩,
   ⟨t0.put 0 ({ tS 0 with cnt := { (tS 0).cnt with nan := 9 } }), 0, { tS 0 with cnt := { (tS 0).cnt with nan := 9 } }, by decide +kernel⟩,
   ⟨t0.put 0 ({ tS 0 with cache := { (tS 0).cache with lost := 4294967295, overflow := 3 } }), 0, 
     { tS 0 with cache := { (tS 0).cache with lost := 4294967295, overflow := 3 } }, by decide +kernel⟩⟩

theorem witness_capstanRegistersAreWritten :
  (∃ (s : State) (_v : Reg),
    s.decides ∧ s.settled) ∧
  (∃ (s : State) (_v : Reg),
    s.decides ∧ s.settled) ∧
  (∃ (s : State) (_v : Reg),
    s.decides ∧ s.settled) ∧
  (∃ (s : State) (_v : Reg),
    s.decides ∧ s.settled) ∧
  (∃ (s : State) (i : Nat) (sl : Slice) (_v : Reg),
    s.answers i sl) ∧
  (∃ (s : State) (since : Nat) (off : Nat) (_size : Nat) (_v : Reg),
    s.cap.su.power = .running ∧ s.cap.hl.restarting = some since ∧ off < 0x40000) :=
  ⟨⟨t0, 0xFFFF, by decide +kernel⟩,
   ⟨t0.withCap { tCap with hl := { tCap.hl with fault := 7 } }, 0xFFFF, by decide +kernel⟩,
   ⟨t0, 0xFFFF, by decide +kernel⟩,
   ⟨t0, 0xFFFF, by decide +kernel⟩,
   ⟨t0.put 0 ({ tS 0 with rope := { (tS 0).rope with linkErr := 7 } }), 0, { tS 0 with rope := { (tS 0).rope with linkErr := 7 } }, 1, 
     by decide +kernel⟩,
   ⟨t0.withCap { tCap with hl := { tCap.hl with restarting := some 1 } }, 1, 0x3FFF8, 8, 4, by decide +kernel⟩⟩

theorem witness_badAccessesAreCaptured :
  (∃ (s : State) (_off : Nat) (size : Nat) (_v : Reg) (_lost : Bool),
    s.decides ∧ size ≠ 8) ∧
  (∃ (s : State) (off : Nat) (_v : Reg) (_lost : Bool),
    s.decides ∧ off % 8 ≠ 0) ∧
  (∃ (s : State) (off : Nat) (_v : Reg) (_lost : Bool),
    s.decides ∧ off % 8 = 0 ∧ 0x40000 ≤ off ∧ (off < 0x100000 ∨ 0x300000 ≤ off)) ∧
  (∃ (s : State) (i : Nat) (_v : Reg) (_lost : Bool),
    s.decides ∧ i < 32 ∧ s.cap.n ≤ i) ∧
  (∃ (s : State) (i : Nat) (sl : Slice),
    s.answers i sl) ∧
  (∃ (s : State) (_v : Reg) (_lost : Bool),
    s.cap.su.power = .running ∧ s.cap.hl.restarting = none ∧ s.cap.hl.failed = true ∧ 0x0100 ∈ s.cap.hl.lost) ∧
  (∃ (s : State) (i : Nat) (_v : Reg) (_lost : Bool),
    s.decides ∧ i < 32 ∧ i < s.cap.n ∧ i < s.slices.length ∧ 
      (s.cap.hl.slices.getD i .absent = .deadPass ∨ s.cap.hl.slices.getD i .absent = .deadIsolated)) :=
  ⟨⟨t0, 0x3FFFFF, 4, 0, true, by decide +kernel⟩,
   ⟨t0, 0x100001, 0, true, by decide +kernel⟩,
   ⟨t0, 0x300000, 0, true, by decide +kernel⟩,
   ⟨t0, 2, 0, true, by decide +kernel⟩,
   ⟨t0, 0, tS 0, by decide +kernel⟩,
   ⟨t0.withCap { tCap with hl := { tCap.hl with failed := true, lost := [0x0108, 0x0100] } }, 0, true, by decide +kernel⟩,
   ⟨t0.withCap { tCap with hl := { tCap.hl with slices := [.live, .deadPass] } }, 1, 0, true, by decide +kernel⟩⟩

theorem witness_interruptMessagesAreSent :
  (∃ (s : State) (v : Reg),
    s.decides ∧ s.settled ∧ (∀ k < 4, v.getLsbD k = true → s.cap.irq.mask.testBit k = true ∨ s.cap.irq.pend.testBit k = false)) ∧
  (∃ (s : State) (k : Nat) (addr : Nat) (data : Nat),
    s.decides ∧ s.settled ∧ k < 4 ∧ s.cap.irq.mask = 0 ∧ s.cap.irq.pend.testBit k = true ∧ s.cap.img.irqs.getD k (0, 0) = (addr, data) ∧ addr ≠ 0 ∧ 
      s.cap.maySend = true ∧ s.cap.irq.wait = [] ∧ s.cap.irq.held.length < 16) ∧
  (∃ (s : State) (m : Nat × Nat) (rest : List (Nat × Nat)),
    s.decides ∧ s.cap.irq.held = m :: rest) :=
  ⟨⟨t0, 15, by decide +kernel⟩,
   ⟨t0.withCap { tCap with img := { tCap.img with irqs := [(0, 0), (0, 0), (0, 0), (64, 5)] }, irq := { tCap.irq with pend := 8, held := List.replicate 15 (1, 1) } }, 
     3, 64, 5, by decide +kernel⟩,
   ⟨t0.withCap { tCap with irq := { tCap.irq with held := [(1, 1), (2, 2)], wait := [(3, 3)] } }, (1, 1), [(2, 2)], by decide +kernel⟩⟩

theorem witness_loglineRegistersAct :
  (∃ (s : State) (_v : Reg),
    s.decides ∧ s.settled) ∧
  (∃ (s : State) (k : Nat) (r : Stored),
    s.decides ∧ s.settled ∧ k < 1024 ∧ s.cap.log.first[k]? = some r) ∧
  (∃ (s : State) (k : Nat) (r : Stored),
    s.decides ∧ s.settled ∧ k < 1024 ∧ s.cap.log.first[k]? = some r ∧ r.lost = false) ∧
  (∃ (s : State) (v : Reg),
    s.decides ∧ s.settled ∧ (s.cap.log.thresh = 0 ∨ (s.cap.log.next - BitVec.ofNat 32 v.toNat).toNat < s.cap.log.thresh)) ∧
  (∃ (s : State) (v : Reg),
    s.decides ∧ s.settled ∧ s.cap.log.thresh ≠ 0 ∧ s.cap.irq.mask.testBit 3 = false ∧ 
      s.cap.log.thresh ≤ (s.cap.log.next - BitVec.ofNat 32 v.toNat).toNat) ∧
  (∃ (s : State) (v : Reg),
    s.decides ∧ s.settled ∧ v.toNat % 2 ^ 13 = 0) :=
  ⟨⟨t0.withCap { tCap with log := { tCap.log with first := [{ seq := 4, bytes := List.replicate 32 7, isHead := false }], next := 5 } }, 
    0x100000000, by decide +kernel⟩,
   ⟨t0.withCap { tCap with log := { tCap.log with first := [{ seq := 4, bytes := List.replicate 32 7, isHead := false }], next := 5 } }, 0, 
     { seq := 4, bytes := List.replicate 32 7, isHead := false }, by decide +kernel⟩,
   ⟨t0.withCap { tCap with log := { tCap.log with first := [{ seq := 4, bytes := List.replicate 32 7, isHead := false }], next := 5 } }, 0, 
     { seq := 4, bytes := List.replicate 32 7, isHead := false }, by decide +kernel⟩,
   ⟨t0.withCap { tCap with log := { tCap.log with next := 5, thresh := 4 } }, 2, by decide +kernel⟩,
   ⟨t0.withCap { tCap with log := { tCap.log with next := 5, thresh := 4 } }, 1, by decide +kernel⟩,
   ⟨t0, 0x2000, by decide +kernel⟩⟩

theorem witness_recordsArriveAndLimitersFill :
  (∃ (s : State) (i : Nat) (sl : Slice) (r : LogRec) (rest : List OutRec),
    s.decides ∧ s.slices[i]? = some sl ∧ sl.outbox = { head := some r, tail := none, irq := none, arith := none } :: rest ∧ s.cap.log.thresh = 0 ∧ 
      s.cap.log.first.length < 1024) ∧
  (∃ (s : State) (i : Nat) (sl : Slice),
    s.powered i sl ∧ s.cap.tb.on = true ∧ sl.tokenAt + 2000 ≤ sl.time) ∧
  (∃ (s : State) (i : Nat) (sl : Slice),
    s.powered i sl ∧ sl.time < sl.tokenAt + 2000) :=
  ⟨⟨t0.put 0 ({ tS 0 with outbox := [{ head := some { code := 0x3001, time := 5, slice := 0, capstan := false, held := false, data := [1] }, tail := none, irq := none, arith := none }, { head := some { code := 0x3001, time := 5, slice := 0, capstan := false, held := false, data := [1] }, tail := none, irq := none, arith := none }] }), 
    0, { tS 0 with outbox := [{ head := some { code := 0x3001, time := 5, slice := 0, capstan := false, held := false, data := [1] }, tail := none, irq := none, arith := none }, { head := some { code := 0x3001, time := 5, slice := 0, capstan := false, held := false, data := [1] }, tail := none, irq := none, arith := none }] }, 
      { code := 0x3001, time := 5, slice := 0, capstan := false, held := false, data := [1] }, 
      [{ head := some { code := 0x3001, time := 5, slice := 0, capstan := false, held := false, data := [1] }, tail := none, irq := none, arith := none }], 
      by decide +kernel⟩,
   ⟨t0.put 0 ({ tS 0 with tokenAt := 98000 }), 0, { tS 0 with tokenAt := 98000 }, by decide +kernel⟩,
   ⟨t0.put 0 ({ tS 0 with tokenAt := 98001 }), 0, { tS 0 with tokenAt := 98001 }, by decide +kernel⟩⟩

theorem witness_engineTimeFollowsItsSources :
  (∃ (s : State) (i : Nat) (sl : Slice) (d : Int),
    s.powered i sl ∧ s.decides ∧ s.cap.tb.on = true ∧ d = (s.cap.tb.time : Int) - sl.time) ∧
  (∃ (s : State) (i : Nat) (sl : Slice) (d : Int),
    s.powered i sl ∧ s.decides ∧ s.cap.tb.on = true ∧ d = (s.cap.tb.time : Int) - sl.time) ∧
  (∃ (s : State) (i : Nat) (sl : Slice) (d : Int),
    s.powered i sl ∧ s.decides ∧ s.cap.tb.on = true ∧ d = (s.cap.tb.time : Int) - sl.time) ∧
  (∃ (s : State) (i : Nat) (n : Nat) (sl : Slice),
    s.pending = [] ∧ s.cap.su.power = .running ∧ s.cap.tb.on = true ∧ s.slices[i]? = some sl ∧ sl.store.spilling = false ∧ 
      (n = (if sl.timeFix = 0 ∨ sl.fixPhase + 5 < 64 then 5 else if 0 < sl.timeFix then 6 else 4))) ∧
  (∃ (s : State) (i : Nat) (n : Nat) (sl : Slice),
    s.pending = [] ∧ s.cap.su.power = .running ∧ s.cap.tb.on = true ∧ s.slices[i]? = some sl ∧ sl.store.spilling = false ∧ 
      (n = (if sl.timeFix = 0 ∨ sl.fixPhase + 5 < 64 then 5 else if 0 < sl.timeFix then 6 else 4))) ∧
  (∃ (s : State) (i : Nat) (n : Nat) (sl : Slice),
    s.pending = [] ∧ s.cap.su.power = .running ∧ s.cap.tb.on = true ∧ s.slices[i]? = some sl ∧ sl.store.spilling = false ∧ 
      (n = (if sl.timeFix = 0 ∨ sl.fixPhase + 5 < 64 then 5 else if 0 < sl.timeFix then 6 else 4))) ∧
  (∃ (s : State) (bits : BitVec 128) (_since : Nat) (d : Bool),
    s.decides ∧ s.cap.tb.on = true ∧ 2 ≤ s.cap.img.syncMode ∧ (d = false ∨ bits.toNat / 2 ^ 64 ≠ 2 ^ 64 - 1 - bits.toNat % 2 ^ 64)) ∧
  (∃ (s : State) (bits : BitVec 128) (_since : Nat) (d : Bool),
    s.cap.atStep 6 = true ∧ s.cap.su.trained = true ∧ s.cap.tb.on = false ∧ s.settled ∧ 2 ≤ s.cap.img.syncMode ∧ 
      s.cap.su.upTime < s.cap.su.waitFrom + 2400000 ∧ (d = false ∨ bits.toNat / 2 ^ 64 ≠ 2 ^ 64 - 1 - bits.toNat % 2 ^ 64)) ∧
  (∃ (s : State) (bits : BitVec 128) (_since : Nat),
    s.decides ∧ s.cap.tb.on = true ∧ 2 ≤ s.cap.img.syncMode ∧ bits.toNat / 2 ^ 64 = 2 ^ 64 - 1 - bits.toNat % 2 ^ 64 ∧ s.cap.tb.state < 2) ∧
  (∃ (s : State) (bits : BitVec 128) (since : Nat) (e : Int),
    s.decides ∧ s.cap.tb.on = true ∧ 2 ≤ s.cap.img.syncMode ∧ bits.toNat / 2 ^ 64 = 2 ^ 64 - 1 - bits.toNat % 2 ^ 64 ∧ s.cap.tb.state = 2 ∧ 
      e = (s.cap.tb.time / 2 : Nat) - since - (bits.toNat % 2 ^ 64 : Nat) * 1000000 ∧ -50000 ≤ e ∧ e ≤ 50000) ∧
  (∃ (s : State) (bits : BitVec 128) (since : Nat) (st : Nat) (e : Int),
    s.decides ∧ s.cap.tb.on = true ∧ 2 ≤ s.cap.img.syncMode ∧ bits.toNat / 2 ^ 64 = 2 ^ 64 - 1 - bits.toNat % 2 ^ 64 ∧ 2 ≤ s.cap.tb.state ∧ 
      e = (s.cap.tb.time / 2 : Nat) - since - (bits.toNat % 2 ^ 64 : Nat) * 1000000 ∧ -50000 ≤ e ∧ st = (if 50000 < e then 4 else 2)) ∧
  (∃ (s : State) (bits : BitVec 128) (since : Nat) (st : Nat) (e : Int),
    s.decides ∧ s.cap.tb.on = true ∧ 2 ≤ s.cap.img.syncMode ∧ bits.toNat / 2 ^ 64 = 2 ^ 64 - 1 - bits.toNat % 2 ^ 64 ∧ 2 ≤ s.cap.tb.state ∧ 
      e = (s.cap.tb.time / 2 : Nat) - since - (bits.toNat % 2 ^ 64 : Nat) * 1000000 ∧ -50000 ≤ e ∧ st = (if 50000 < e then 4 else 2)) ∧
  (∃ (s : State) (bits : BitVec 128) (since : Nat) (e : Int),
    s.decides ∧ s.cap.tb.on = true ∧ 2 ≤ s.cap.img.syncMode ∧ bits.toNat / 2 ^ 64 = 2 ^ 64 - 1 - bits.toNat % 2 ^ 64 ∧ s.cap.tb.state = 2 ∧ 
      e = (s.cap.tb.time / 2 : Nat) - since - (bits.toNat % 2 ^ 64 : Nat) * 1000000 ∧ e < -50000) ∧
  (∃ (s : State) (l : Nat),
    s.decides ∧ (s.cap.tb.state = 2 ∨ s.cap.tb.state = 4) ∧ s.cap.tb.lastFrame = some l ∧ l + 6000000 ≤ s.cap.tb.time) :=
  ⟨⟨t0.put 0 ({ tS 0 with time := 99997 }), 0, { tS 0 with time := 99997 }, 3, by decide +kernel⟩,
   ⟨t0.put 0 ({ tS 0 with time := 100002, timeFix := 9 }), 0, { tS 0 with time := 100002, timeFix := 9 }, -2, by decide +kernel⟩,
   ⟨t0.put 0 ({ tS 0 with time := 100003, timeFix := 9 }), 0, { tS 0 with time := 100003, timeFix := 9 }, -3, by decide +kernel⟩,
   ⟨t0.put 0 ({ tS 0 with timeFix := 7, fixPhase := 60 }), 0, 6, { tS 0 with timeFix := 7, fixPhase := 60 }, by decide +kernel⟩,
   ⟨t0.put 0 ({ tS 0 with timeFix := -7, fixPhase := 59, timeLow := 2 ^ 31 - 1 }), 0, 4, 
     { tS 0 with timeFix := -7, fixPhase := 59, timeLow := 2 ^ 31 - 1 }, by decide +kernel⟩,
   ⟨t0.put 0 ({ tS 0 with timeFix := -7, fixPhase := 58 }), 0, 5, { tS 0 with timeFix := -7, fixPhase := 58 }, by decide +kernel⟩,
   ⟨t0.withCap { tCap with img := { tCap.img with syncMode := 2 }, tb := { tCap.tb with state := 2 } }, 5, 0, true, by decide +kernel⟩,
   ⟨t0.withCap { tCap with img := { tCap.img with syncMode := 2 }, su := { tCap.su with state := .starting, step := 6, upTime := 2399999 }, tb := { tCap.tb with on := false } }, 
     5, 0, true, by decide +kernel⟩,
   ⟨t0.withCap { tCap with img := { tCap.img with syncMode := 2 }, tb := { tCap.tb with state := 1 } }, 
     BitVec.ofNat 128 (3 + (2 ^ 64 - 1 - 3) * 2 ^ 64), 0, by decide +kernel⟩,
   ⟨t0.withCap { tCap with img := { tCap.img with syncMode := 2 }, tb := { tCap.tb with state := 2 } }, 
     BitVec.ofNat 128 (0 + (2 ^ 64 - 1 - 0) * 2 ^ 64), 0, 50000, by decide +kernel⟩,
   ⟨t0.withCap { tCap with img := { tCap.img with syncMode := 2 }, tb := { tCap.tb with state := 2, time := 100002 } }, 
     BitVec.ofNat 128 (0 + (2 ^ 64 - 1 - 0) * 2 ^ 64), 0, 4, 50001, by decide +kernel⟩,
   ⟨t0.withCap { tCap with img := { tCap.img with syncMode := 2 }, tb := { tCap.tb with state := 4, time := 0 } }, 
     BitVec.ofNat 128 (0 + (2 ^ 64 - 1 - 0) * 2 ^ 64), 50000, 2, -50000, by decide +kernel⟩,
   ⟨t0.withCap { tCap with img := { tCap.img with syncMode := 2 }, tb := { tCap.tb with state := 2 } }, 
     BitVec.ofNat 128 (1 + (2 ^ 64 - 1 - 1) * 2 ^ 64), 0, -950000, by decide +kernel⟩,
   ⟨t0.withCap { tCap with img := { tCap.img with syncMode := 2 }, tb := { tCap.tb with state := 4, time := 6000001, lastFrame := some 1 } }, 1, 
     by decide +kernel⟩⟩

theorem witness_powerAndResets :
  (∃ (s : State),
    s.cap.su.power = .off) ∧
  (∃ (s : State),
    s.cap.su.power = .inReset) ∧
  (∃ (s : State) (_svc : Bool),
    s.cap.su.power = .running) ∧
  (∃ (_c : Instr) (s : State) (_t : State),
    s.cap.su.power ≠ .running ∧ s.settled) :=
  ⟨⟨State.reset, by decide +kernel⟩,
   ⟨t0.withCap { tCap with su := { tCap.su with power := .inReset } }, by decide +kernel⟩,
   ⟨t0, true, by decide +kernel⟩,
   ⟨.frameTick, State.reset, State.reset, by decide +kernel⟩⟩

theorem witness_startsAdvanceOrFail :
  (∃ (s : State),
    s.cap.atStep 1 = true) ∧
  (∃ (s : State) (x : List Byte) (table : List Byte) (m : NvmMode),
    s.cap.atStep 2 = true ∧ basicTable x = some table ∧ nvmMode table = some m) ∧
  (∃ (s : State) (bs : List Byte),
    s.cap.atStep 3 = true ∧ s.cap.img.headerIn = false ∧ headerFailure bs s.cap.su.density = none) ∧
  (∃ (s : State) (_bs : List Byte),
    s.cap.atStep 3 = true ∧ s.cap.img.headerIn = true) ∧
  (∃ (s : State) (bs : List Byte),
    s.cap.atStep 3 = true ∧ s.cap.img.headerIn = true ∧ s.cap.su.selftest = false ∧ imageFailure s.cap.n s.cap.su.density bs = none) ∧
  (∃ (s : State) (x : List Byte),
    s.cap.atStep 2 = true ∧ s.cap.su.selftest = false ∧ basicTable x = none) ∧
  (∃ (s : State) (x : List Byte) (table : List Byte),
    s.cap.atStep 2 = true ∧ s.cap.su.selftest = false ∧ basicTable x = some table ∧ nvmMode table = none) ∧
  (∃ (s : State) (bs : List Byte) (f : Failure),
    s.cap.atStep 3 = true ∧ s.cap.img.headerIn = true ∧ s.cap.su.selftest = false ∧ imageFailure s.cap.n s.cap.su.density bs = some f) ∧
  (∃ (s : State) (found : Selftest),
    s.cap.su.power = .running ∧ s.cap.su.testing = true ∧ s.settled ∧ s.cap.hl.restarting = none ∧ s.cap.hl.failed = false ∧ found.defects = [] ∧ 
      found.capstan = [] ∧ found.capstanOk = false) ∧
  (∃ (s : State) (found : Selftest),
    s.cap.su.power = .running ∧ s.cap.su.testing = true ∧ s.settled ∧ s.cap.su.cause ≠ 0 ∧ found.defects = [] ∧ found.capstan = [] ∧ 
      found.capstanOk = true ∧ found.deadRouters = [] ∧ (∃ sl ∈ s.slices, sl.stopped = false ∧ sl.work.mapUnits.layRetired.length < 2 ∧ 
      s.cap.hl.slices.getD sl.id .absent ≠ .deadIsolated)) :=
  ⟨⟨t0.withCap { tCap with su := { tCap.su with state := .starting, selftest := false, trained := false, step := 1, density := 16777216 }, img := { noImage with headerIn := false } }, 
    by decide +kernel⟩,
   ⟨t0.withCap { tCap with su := { tCap.su with state := .starting, selftest := false, trained := false, step := 2, density := 16777216 }, img := { noImage with headerIn := false } }, 
     tSfdp true, (basicTable (tSfdp true)).getD [], 
       (nvmMode ((basicTable (tSfdp true)).getD [])).getD { addrBytes := 0, instr := 0, modeClocks := 0, dummy := 0, quadEnable := 0, quadSet := false }, 
       by decide +kernel⟩,
   ⟨t0.withCap { tCap with su := { tCap.su with state := .starting, selftest := false, trained := false, step := 3, density := 16777216 }, img := { noImage with headerIn := false } }, 
     tImage, by decide +kernel⟩,
   ⟨t0.withCap { tCap with su := { tCap.su with state := .starting, selftest := false, trained := false, step := 3, density := 16777216 }, img := { noImage with headerIn := true } }, 
     tImage, by decide +kernel⟩,
   ⟨t0.withCap { tCap with su := { tCap.su with state := .starting, selftest := false, trained := false, step := 3, density := 16777216 }, img := { noImage with headerIn := true } }, 
     tImage, by decide +kernel⟩,
   ⟨t0.withCap { tCap with su := { tCap.su with state := .starting, selftest := false, trained := false, step := 2, density := 16777216 }, img := { noImage with headerIn := false } }, 
     [1, 2, 3], by decide +kernel⟩,
   ⟨t0.withCap { tCap with su := { tCap.su with state := .starting, selftest := false, trained := false, step := 2, density := 16777216 }, img := { noImage with headerIn := false } }, 
     tSfdp false, (basicTable (tSfdp false)).getD [], by decide +kernel⟩,
   ⟨t0.withCap { tCap with su := { tCap.su with state := .starting, selftest := false, trained := false, step := 3, density := 16777216 }, img := { noImage with headerIn := true } }, 
     tImage.set 200 1, (0x0D, 1), by decide +kernel⟩,
   ⟨t0.withCap { tCap with su := { tCap.su with state := .starting, step := 3, testing := true, selftest := false } }, 
     { defects := [], deadRouters := [], capstanOk := false }, by decide +kernel⟩,
   ⟨t0.withCap { tCap with su := { tCap.su with state := .starting, step := 3, testing := true, selftest := false, cause := 5, section_ := 3 } }, 
     { defects := [], deadRouters := [], capstanOk := true }, by decide +kernel⟩⟩

theorem witness_theEngineBecomesReady :
  (∃ (s : State) (found : Selftest),
    s.cap.su.power = .running ∧ s.cap.su.testing = true ∧ s.settled ∧ s.cap.su.step = 3 ∧ s.cap.su.cause = 0 ∧ found.defects = [] ∧ 
      found.capstan = [] ∧ found.capstanOk = true ∧ found.deadRouters = [] ∧ (∃ sl ∈ s.slices, sl.stopped = false ∧ 
      sl.work.mapUnits.layRetired.length < 2 ∧ s.cap.hl.slices.getD sl.id .absent ≠ .deadIsolated)) ∧
  (∃ (s : State) (_up : List (Nat × Nat × Nat)),
    s.cap.su.power = .running ∧ s.cap.su.state = .starting ∧ s.cap.su.selftest = true ∧ s.cap.su.cause = 0 ∧ s.cap.su.trained = false) ∧
  (∃ (s : State) (_frame : Option (BitVec 128 × Bool × Nat)),
    s.cap.atStep 6 = true ∧ s.cap.su.trained = true ∧ s.settled ∧ s.cap.img.syncMode < 2) ∧
  (∃ (s : State) (bits : BitVec 128) (_since : Nat),
    s.cap.atStep 6 = true ∧ s.cap.su.trained = true ∧ s.settled ∧ 2 ≤ s.cap.img.syncMode ∧ s.cap.su.upTime ≤ s.cap.su.waitFrom + 2400000 ∧ 
      bits.toNat / 2 ^ 64 = 2 ^ 64 - 1 - bits.toNat % 2 ^ 64) ∧
  (∃ (s : State),
    s.cap.atStep 6 = true ∧ s.cap.su.trained = true ∧ s.settled ∧ 2 ≤ s.cap.img.syncMode ∧ s.cap.su.waitFrom + 2400000 ≤ s.cap.su.upTime) ∧
  (∃ (s : State),
    s.cap.atStep 6 = true ∧ s.cap.su.trained = true ∧ s.settled ∧ 2 ≤ s.cap.img.syncMode ∧ s.cap.su.upTime < s.cap.su.waitFrom + 2400000) :=
  ⟨⟨t0.withCap { tCap with su := { tCap.su with state := .starting, step := 3, testing := true, selftest := false } }, 
    { defects := [], deadRouters := [], capstanOk := true }, by decide +kernel⟩,
   ⟨t0.withCap { tCap with su := { tCap.su with state := .starting, step := 3, trained := false } }, [(0, 0, 3)], by decide +kernel⟩,
   ⟨t0.withCap { tCap with img := { tCap.img with syncMode := 1 }, su := { tCap.su with state := .starting, step := 6, upTime := 9 }, tb := { tCap.tb with on := false } }, 
     none, by decide +kernel⟩,
   ⟨t0.withCap { tCap with img := { tCap.img with syncMode := 2 }, su := { tCap.su with state := .starting, step := 6, upTime := 2400000 }, tb := { tCap.tb with on := false } }, 
     BitVec.ofNat 128 (3 + (2 ^ 64 - 1 - 3) * 2 ^ 64), 7, by decide +kernel⟩,
   ⟨t0.withCap { tCap with img := { tCap.img with syncMode := 2 }, su := { tCap.su with state := .starting, step := 6, upTime := 2400000 }, tb := { tCap.tb with on := false } }, 
     by decide +kernel⟩,
   ⟨t0.withCap { tCap with img := { tCap.img with syncMode := 2 }, su := { tCap.su with state := .starting, step := 6, upTime := 2399999 }, tb := { tCap.tb with on := false } }, 
     by decide +kernel⟩⟩

theorem witness_requestsWithoutSessionAreAnswered :
  (∃ (s : State) (_tag : Nat) (_cnt : Nat),
    s.managed) ∧
  (∃ (s : State) (_tag : Nat) (_cnt : Nat) (_b : Byte) (_bs : List Byte),
    s.managed) ∧
  (∃ (s : State) (f : List Byte),
    s.managed ∧ badFrame f = true) ∧
  (∃ (s : State) (f : List Byte),
    s.managed ∧ s.cap.unconfigured = false ∧ badFrame f = false ∧ knownCmd (byteAt f 0) = false) ∧
  (∃ (s : State) (f : List Byte) (body : List Byte) (mac : List Byte) (tag : Nat) (cnt : Nat),
    s.managed ∧ badFrame f = false ∧ tag = byteAt f 1 ∧ cnt = le f 4 4 ∧ body = (f.drop 8).take (le f 2 2) ∧ mac = (f.drop (8 + le f 2 2)).take 16 ∧ 
      byteAt f 0 = 0x01) ∧
  (∃ (s : State) (f : List Byte) (body : List Byte) (mac : List Byte) (tag : Nat) (cnt : Nat),
    s.managed ∧ badFrame f = false ∧ tag = byteAt f 1 ∧ cnt = le f 4 4 ∧ body = (f.drop 8).take (le f 2 2) ∧ mac = (f.drop (8 + le f 2 2)).take 16 ∧ 
      byteAt f 0 = 0x02) ∧
  (∃ (s : State) (f : List Byte) (body : List Byte) (mac : List Byte) (tag : Nat) (cnt : Nat),
    s.managed ∧ badFrame f = false ∧ tag = byteAt f 1 ∧ cnt = le f 4 4 ∧ body = (f.drop 8).take (le f 2 2) ∧ mac = (f.drop (8 + le f 2 2)).take 16 ∧ 
      byteAt f 0 = 0x03) ∧
  (∃ (s : State) (f : List Byte) (body : List Byte) (mac : List Byte) (tag : Nat) (cnt : Nat),
    s.managed ∧ badFrame f = false ∧ tag = byteAt f 1 ∧ cnt = le f 4 4 ∧ body = (f.drop 8).take (le f 2 2) ∧ mac = (f.drop (8 + le f 2 2)).take 16 ∧ 
      byteAt f 0 = 0x04) ∧
  (∃ (s : State) (f : List Byte) (body : List Byte) (mac : List Byte) (tag : Nat) (cnt : Nat),
    s.managed ∧ badFrame f = false ∧ tag = byteAt f 1 ∧ cnt = le f 4 4 ∧ body = (f.drop 8).take (le f 2 2) ∧ mac = (f.drop (8 + le f 2 2)).take 16 ∧ 
      byteAt f 0 = 0x10) ∧
  (∃ (s : State) (f : List Byte) (body : List Byte) (mac : List Byte) (tag : Nat) (cnt : Nat),
    s.managed ∧ badFrame f = false ∧ tag = byteAt f 1 ∧ cnt = le f 4 4 ∧ body = (f.drop 8).take (le f 2 2) ∧ mac = (f.drop (8 + le f 2 2)).take 16 ∧ 
      byteAt f 0 = 0x11) ∧
  (∃ (s : State) (f : List Byte) (body : List Byte) (mac : List Byte) (tag : Nat) (cnt : Nat),
    s.managed ∧ badFrame f = false ∧ tag = byteAt f 1 ∧ cnt = le f 4 4 ∧ body = (f.drop 8).take (le f 2 2) ∧ mac = (f.drop (8 + le f 2 2)).take 16 ∧ 
      byteAt f 0 = 0x12) ∧
  (∃ (s : State) (f : List Byte) (body : List Byte) (mac : List Byte) (tag : Nat) (cnt : Nat),
    s.managed ∧ badFrame f = false ∧ tag = byteAt f 1 ∧ cnt = le f 4 4 ∧ body = (f.drop 8).take (le f 2 2) ∧ mac = (f.drop (8 + le f 2 2)).take 16 ∧ 
      byteAt f 0 = 0x20) ∧
  (∃ (s : State) (f : List Byte) (body : List Byte) (mac : List Byte) (tag : Nat) (cnt : Nat),
    s.managed ∧ badFrame f = false ∧ tag = byteAt f 1 ∧ cnt = le f 4 4 ∧ body = (f.drop 8).take (le f 2 2) ∧ mac = (f.drop (8 + le f 2 2)).take 16 ∧ 
      byteAt f 0 = 0x30) ∧
  (∃ (s : State),
    s.managed) ∧
  (∃ (s : State),
    s.cap.mgt.addr = none) :=
  ⟨⟨tManaged tMgt, 3, 4, by decide +kernel⟩,
   ⟨tManaged tMgt, 0, 0, 3, [4], by decide +kernel⟩,
   ⟨tManaged tMgt, [1, 2, 3], by decide +kernel⟩,
   ⟨tManaged tMgt, withCrc (frameBytes 0x77 1 2 []), by decide +kernel⟩,
   ⟨tManaged tMgt, withCrc (frameBytes 0x01 3 9 [1, 0, 0, 0]), [1, 0, 0, 0], ((withCrc (frameBytes 0x01 3 9 [1, 0, 0, 0])).drop 12).take 16, 3, 9, 
     by decide +kernel⟩,
   ⟨tManaged tMgt, withCrc (frameBytes 0x02 3 9 [1, 0, 0, 0]), [1, 0, 0, 0], ((withCrc (frameBytes 0x02 3 9 [1, 0, 0, 0])).drop 12).take 16, 3, 9, 
     by decide +kernel⟩,
   ⟨tManaged tMgt, withCrc (frameBytes 0x03 3 9 [1, 0, 0, 0]), [1, 0, 0, 0], ((withCrc (frameBytes 0x03 3 9 [1, 0, 0, 0])).drop 12).take 16, 3, 9, 
     by decide +kernel⟩,
   ⟨tManaged tMgt, withCrc (frameBytes 0x04 3 9 [1, 0, 0, 0] ++ List.replicate 16 7), [1, 0, 0, 0], ((withCrc (frameBytes 0x04 3 9 [1, 0, 0, 
     0] ++ List.replicate 16 7)).drop 12).take 16, 3, 9, by decide +kernel⟩,
   ⟨tManaged tMgt, withCrc (frameBytes 0x10 3 9 [1, 0, 0, 0] ++ List.replicate 16 7), [1, 0, 0, 0], ((withCrc (frameBytes 0x10 3 9 [1, 0, 0, 
     0] ++ List.replicate 16 7)).drop 12).take 16, 3, 9, by decide +kernel⟩,
   ⟨tManaged tMgt, withCrc (frameBytes 0x11 3 9 [1, 0, 0, 0] ++ List.replicate 16 7), [1, 0, 0, 0], ((withCrc (frameBytes 0x11 3 9 [1, 0, 0, 
     0] ++ List.replicate 16 7)).drop 12).take 16, 3, 9, by decide +kernel⟩,
   ⟨tManaged tMgt, withCrc (frameBytes 0x12 3 9 [1, 0, 0, 0] ++ List.replicate 16 7), [1, 0, 0, 0], ((withCrc (frameBytes 0x12 3 9 [1, 0, 0, 
     0] ++ List.replicate 16 7)).drop 12).take 16, 3, 9, by decide +kernel⟩,
   ⟨tManaged tMgt, withCrc (frameBytes 0x20 3 9 [1, 0, 0, 0] ++ List.replicate 16 7), [1, 0, 0, 0], ((withCrc (frameBytes 0x20 3 9 [1, 0, 0, 
     0] ++ List.replicate 16 7)).drop 12).take 16, 3, 9, by decide +kernel⟩,
   ⟨tManaged tMgt, withCrc (frameBytes 0x30 3 9 [1, 0, 0, 0] ++ List.replicate 16 7), [1, 0, 0, 0], ((withCrc (frameBytes 0x30 3 9 [1, 0, 0, 
     0] ++ List.replicate 16 7)).drop 12).take 16, 3, 9, by decide +kernel⟩,
   ⟨tManaged { tMgt with resp := some [1] }, by decide +kernel⟩,
   ⟨t0.withCap { tCap with mgt := { tCap.mgt with resp := some [1] } }, by decide +kernel⟩⟩

theorem witness_challengesOpenSessions :
  (∃ (s : State) (_tag : Nat) (_cnt : Nat) (key : Byte) (k : Nat × Nat × List Byte),
    s.managed ∧ s.cap.unconfigured = false ∧ s.cap.mgt.lockout = none ∧ s.cap.key? key.toNat = some k ∧ s.cap.mgt.session = none) ∧
  (∃ (s : State) (_tag : Nat) (_cnt : Nat) (id : Nat) (rights : Nat) (key : Byte) (k : List Byte) (nh : List Byte) (p : List Byte) (x : Challenge),
    s.managed ∧ s.cap.unconfigured = false ∧ s.cap.mgt.lockout = none ∧ s.cap.key? key.toNat = some (id, rights, k) ∧ s.cap.mgt.challenge = some x ∧ 
      x.key = key.toNat ∧ nh.length = 32 ∧ p.length = 32 ∧ p = hmac k ([0x52, 0x4E, 0x54, 0x31] ++ [key] ++ x.nt ++ nh)) ∧
  (∃ (s : State) (_tag : Nat) (_cnt : Nat) (id : Nat) (rights : Nat) (key : Byte) (k : List Byte) (nh : List Byte) (p : List Byte) (x : Challenge),
    s.managed ∧ s.cap.unconfigured = false ∧ s.cap.mgt.lockout = none ∧ s.cap.key? key.toNat = some (id, rights, k) ∧ s.cap.mgt.challenge = some x ∧ 
      nh.length = 32 ∧ p.length = 32 ∧ (x.key ≠ key.toNat ∨ p ≠ hmac k ([0x52, 0x4E, 0x54, 0x31] ++ [key] ++ x.nt ++ nh))) :=
  ⟨⟨tManaged tMgt, 0, 0, 1, (1, 7, tKey), by decide +kernel⟩,
   ⟨tManaged { tMgt with challenge := some tChallenge }, 0, 0, 1, 7, 1, tKey, List.replicate 32 9, hmac tKey ([0x52, 0x4E, 0x54, 
     0x31] ++ [1] ++ tChallenge.nt ++ List.replicate 32 9), tChallenge, by decide +kernel⟩,
   ⟨tManaged { tMgt with challenge := some tChallenge, failRun := 3 }, 0, 0, 1, 7, 1, tKey, List.replicate 32 9, List.replicate 32 0, tChallenge, 
     by decide +kernel⟩⟩

theorem witness_sessionRequestsAreCarriedOut :
  (∃ (s : State) (x : Session) (tag : Nat) (cnt : Nat) (mac : List Byte),
    s.accepts x 0x04 0 tag cnt [] mac) ∧
  (∃ (s : State) (x : Session) (tag : Nat) (cnt : Nat) (mac : List Byte),
    s.accepts x 0x10 1 tag cnt [] mac) ∧
  (∃ (s : State) (x : Session) (tag : Nat) (cnt : Nat) (k : Nat) (r : Stored) (mac : List Byte),
    k < 1024 ∧ s.cap.log.first[k]? = some r ∧ r.lost = false ∧ s.accepts x 0x11 1 tag cnt ([1, 1, 0, 0] ++ toLe 4 k) mac) ∧
  (∃ (s : State) (x : Session) (tag : Nat) (cnt : Nat) (i : Nat) (sl : Slice) (mac : List Byte),
    s.answers i sl ∧ s.accepts x 0x12 1 tag cnt (toLe 4 (0x100000 + 0x10000 * i + 0x5000) ++ [0, 0, 0, 0]) mac) ∧
  (∃ (s : State) (x : Session) (tag : Nat) (cnt : Nat) (i : Nat) (v : Nat) (sl : Slice) (mac : List Byte),
    s.answers i sl ∧ v < 2 ^ 64 ∧ s.accepts x 0x20 2 tag cnt (toLe 4 (0x100000 + 0x10000 * i + 0x5000) ++ [0, 0, 0, 0] ++ toLe 8 v) mac) ∧
  (∃ (s : State) (x : Session) (tag : Nat) (cnt : Nat) (mac : List Byte),
    s.accepts x 0x30 4 tag cnt [1, 0, 0, 0] mac ∧ s.cap.log.thresh = 0 ∧ s.cap.log.first.length = 1024) :=
  ⟨⟨tManaged { tMgt with session := some tSession }, tSession, 2, 5, frameMac tSession.ks (frameBytes 0x04 2 5 ([])), by decide +kernel⟩,
   ⟨tManaged { tMgt with session := some tSession }, tSession, 2, 5, frameMac tSession.ks (frameBytes 0x10 2 5 ([])), by decide +kernel⟩,
   ⟨t0.withCap { tCap with mgt := { tMgt with session := some tSession }, img := { tCap.img with keys := [(1, 7, tKey)] }, log := { tCap.log with first := [{ seq := 4, bytes := List.replicate 32 7, isHead := false }], next := 5 } }, 
     tSession, 2, 5, 0, { seq := 4, bytes := List.replicate 32 7, isHead := false }, frameMac tSession.ks (frameBytes 0x11 2 5 ([1, 1, 0, 
       0] ++ toLe 4 0)), by decide +kernel⟩,
   ⟨tManaged { tMgt with session := some tSession }, tSession, 2, 5, 1, tS 1, 
     frameMac tSession.ks (frameBytes 0x12 2 5 (toLe 4 (0x100000 + 0x10000 * 1 + 0x5000) ++ [0, 0, 0, 0])), by decide +kernel⟩,
   ⟨tManaged { tMgt with session := some tSession }, tSession, 2, 5, 1, 0x12345, tS 1, 
     frameMac tSession.ks (frameBytes 0x20 2 5 (toLe 4 (0x100000 + 0x10000 * 1 + 0x5000) ++ [0, 0, 0, 0] ++ toLe 8 0x12345)), by decide +kernel⟩,
   ⟨t0.withCap { tCap with mgt := { tMgt with session := some tSession }, img := { tCap.img with keys := [(1, 7, tKey)] }, log := { tCap.log with first := List.replicate 1024 { seq := 4, bytes := List.replicate 32 7, isHead := false }, next := 1024 } }, 
     tSession, 2, 5, frameMac tSession.ks (frameBytes 0x30 2 5 ([1, 0, 0, 0])), by decide +kernel⟩⟩

theorem witness_sessionRequestsAreRefused :
  (∃ (s : State) (x : Session) (tag : Nat) (cnt : Nat) (body : List Byte) (mac : List Byte),
    s.managed ∧ s.cap.unconfigured = false ∧ s.cap.mgt.session = some x ∧ cnt ≠ x.last ∧ 
      (cnt ≠ (x.last + 1) % 2 ^ 32 ∨ mac ≠ frameMac x.ks (frameBytes 0x20 tag cnt body))) ∧
  (∃ (s : State) (x : Session) (tag : Nat) (cnt : Nat) (body : List Byte) (mac : List Byte),
    s.managed ∧ s.cap.unconfigured = false ∧ s.cap.mgt.session = some x ∧ cnt = x.last ∧ frameBytes 0x20 tag cnt body ++ mac = x.lastReq) ∧
  (∃ (s : State) (_tag : Nat) (_cnt : Nat) (_body : List Byte) (_mac : List Byte) (_lost : List Nat),
    s.managed ∧ s.cap.unconfigured = false ∧ s.cap.mgt.session = none) :=
  ⟨⟨tManaged { tMgt with session := some tSession }, tSession, 2, 7, [1], [2], by decide +kernel⟩,
   ⟨tManaged { tMgt with session := some { tSession with lastReq := frameBytes 0x20 2 4 [1] ++ [9] } }, 
     { tSession with lastReq := frameBytes 0x20 2 4 [1] ++ [9] }, 2, 4, [1], [9], by decide +kernel⟩,
   ⟨tManaged tMgt, 0, 0, [], [], [], by decide +kernel⟩⟩

theorem witness_sessionsChallengesAndLockoutsExpire :
  (∃ (s : State) (x : Session),
    s.decides ∧ s.cap.mgt.session = some x ∧ x.since + 20000000000 ≤ s.cap.tb.time) ∧
  (∃ (s : State) (x : Challenge),
    s.decides ∧ s.cap.mgt.challenge = some x ∧ x.since + 2000000000 ≤ s.cap.tb.time) ∧
  (∃ (s : State) (l : Nat),
    s.decides ∧ s.cap.mgt.lockout = some l ∧ l ≤ s.cap.tb.time) ∧
  (∃ (s : State) (x : Session) (ch : Challenge) (l : Nat),
    s.cap.mgt.session = some x ∧ s.cap.mgt.challenge = some ch ∧ s.cap.mgt.lockout = some l ∧ s.cap.tb.time < x.since + 20000000000 ∧ 
      s.cap.tb.time < ch.since + 2000000000 ∧ s.cap.tb.time < l) :=
  ⟨⟨t0.withCap { tCap with mgt := { tMgt with session := some tSession }, tb := { tCap.tb with time := 20000100000 } }, tSession, by decide +kernel⟩,
   ⟨t0.withCap { tCap with mgt := { tMgt with challenge := some tChallenge }, tb := { tCap.tb with time := 2000100000 } }, tChallenge, 
     by decide +kernel⟩,
   ⟨t0.withCap { tCap with mgt := { tMgt with lockout := some 7 }, tb := { tCap.tb with time := 7 } }, 7, by decide +kernel⟩,
   ⟨t0.withCap { tCap with mgt := { tMgt with session := some tSession, challenge := some tChallenge, lockout := some 2000100000 }, tb := { tCap.tb with time := 2000099999 } }, 
     tSession, tChallenge, 2000100000, by decide +kernel⟩⟩

theorem witness_commonCommandCodes :
  (∃ (s : State) (_a : BitVec 7),
    s.cap.su.power = .running ∧ s.cap.mgt.addr = none) ∧
  (∃ (s : State),
    s.cap.su.power = .running ∧ s.cap.mgt.session = none) ∧
  (∃ (s : State) (x : Session),
    s.cap.su.power = .running ∧ s.cap.mgt.session = some x) ∧
  (∃ (s : State),
    s.cap.su.power = .running ∧ s.cap.mgt.addr.isSome = true) :=
  ⟨⟨t0, 9, by decide +kernel⟩,
   ⟨t0, by decide +kernel⟩,
   ⟨tManaged { tMgt with session := some tSession }, tSession, by decide +kernel⟩,
   ⟨tManaged tMgt, by decide +kernel⟩⟩

theorem witness_heartbeatsAreWatched :
  (∃ (s : State) (i : Nat) (sl : Slice),
    s.slices[i]? = some sl ∧ sl.works s.cap = true ∧ s.decides ∧ s.cap.tb.on = true ∧ sl.beatAt + 2000 ≤ sl.time) ∧
  (∃ (s : State),
    5 ≤ s.cap.tb.time % 2000) ∧
  (∃ (s : State),
    5 ≤ s.cap.tb.time % 2000) ∧
  (∃ (s : State) (i : Nat),
    s.decides ∧ s.cap.su.state = .ready ∧ s.cap.tb.time % 2000 < 5 ∧ s.settled ∧ (∀ c ∈ s.cap.ctxs, c.pass ≠ .draining) ∧ s.cap.hl.deaths = [] ∧ 
      s.silent = [i] ∧ s.cap.hl.epochBusy = false ∧ i < s.cap.hl.slices.length) ∧
  (∃ (s : State),
    s.decides ∧ s.cap.su.state = .ready ∧ s.cap.tb.time % 2000 < 5 ∧ s.settled ∧ (∀ c ∈ s.cap.ctxs, c.pass ≠ .draining) ∧ (∀ d ∈ s.cap.hl.deaths, 
      d.probeDone = true) ∧ s.silent = [] ∧ (∀ d ∈ s.cap.hl.deaths, d.begun = true)) :=
  ⟨⟨t0.put 0 ({ tS 0 with beatAt := 98000 }), 0, { tS 0 with beatAt := 98000 }, by decide +kernel⟩,
   ⟨t0.withCap { tCap with tb := { tCap.tb with time := 100005 } }, by decide +kernel⟩,
   ⟨t0.withCap { tCap with tb := { tCap.tb with time := 101999 }, hl := { tCap.hl with beats := [(0, 99000), (1, 92000)] } }, by decide +kernel⟩,
   ⟨t0.withCap { tCap with hl := { tCap.hl with beats := [(0, 99000), (1, 92000)] } }, 1, by decide +kernel⟩,
   ⟨t0, by decide +kernel⟩⟩

theorem witness_probesFencesAndJournalsEnd :
  (∃ (s : State) (i : Nat) (d : Death) (_clean : Bool),
    s.decides ∧ s.cap.hl.deaths = [d] ∧ d.slice = i ∧ d.probeDone = false ∧ d.fenced = false) ∧
  (∃ (s : State) (i : Nat) (d : Death),
    s.cap.su.power = .running ∧ s.cap.hl.failed = false ∧ s.cap.hl.deaths = [d] ∧ d.slice = i ∧ d.probeDone = false) ∧
  (∃ (s : State) (i : Nat) (d : Death) (mesh : Bool),
    s.cap.su.power = .running ∧ s.cap.hl.failed = false ∧ s.cap.hl.deaths = [d] ∧ d.slice = i ∧ d.fenced = false ∧ 
      (if mesh then d.memAck else d.meshAck) = false) ∧
  (∃ (s : State) (i : Nat) (d : Death) (mesh : Bool),
    s.cap.su.power = .running ∧ s.cap.hl.failed = false ∧ s.cap.hl.deaths = [d] ∧ d.slice = i ∧ d.fenced = false ∧ 
      (if mesh then d.memAck else d.meshAck) = false) ∧
  (∃ (s : State) (i : Nat) (p : Nat) (d : Death) (sl : Slice),
    s.cap.su.power = .running ∧ s.cap.hl.failed = false ∧ s.cap.hl.deaths = [d] ∧ d.slice = i ∧ d.probeDone = true ∧ d.begun = false ∧ 
      s.cap.hl.proxies = [(i, p)] ∧ s.slices[i]? = some sl ∧ sl.store.casks = [] ∧ sl.store.maps = []) ∧
  (∃ (s : State) (die : Nat) (p : Nat) (d : Death) (dead : Slice) (sl : Slice),
    s.settled ∧ s.decides ∧ s.cap.hl.deaths = [d] ∧ d.slice = die ∧ d.begun = true ∧ d.read = false ∧ s.cap.hl.proxies = [(die, p)] ∧ die ≠ p ∧ 
      s.slices[die]? = some dead ∧ s.working p sl ∧ dead.ing.batches = [] ∧ dead.ing.pendq = [] ∧ dead.ing.fromJournal = [] ∧ 
      dead.ing.adopting = [] ∧ sl.ing.fromJournal = [] ∧ (∀ c ∈ s.cap.ctxs, c.pass ≠ .draining)) ∧
  (∃ (s : State) (die : Nat) (p : Nat) (d : Death) (dead : Slice) (sl : Slice),
    s.settled ∧ s.decides ∧ s.cap.hl.deaths = [d] ∧ d.slice = die ∧ d.begun = true ∧ d.read = false ∧ s.cap.hl.proxies = [(die, p)] ∧ die ≠ p ∧ 
      s.slices[die]? = some dead ∧ s.working p sl ∧ dead.id = die ∧ dead.ing.batches = [] ∧ dead.ing.pendq = [] ∧ dead.ing.fromJournal = [] ∧ 
      dead.ing.adopting = [] ∧ sl.ing.fromJournal = [] ∧ (∀ c ∈ s.cap.ctxs, c.pass ≠ .draining)) :=
  ⟨⟨t0.withCap { tCap with hl := { tCap.hl with slices := [.live, .deadIsolated], deaths := [{ tDeath with probeDone := false, fenced := false }], epochBusy := true } }, 
    1, { tDeath with probeDone := false, fenced := false }, true, by decide +kernel⟩,
   ⟨t0.withCap { tCap with hl := { tCap.hl with slices := [.live, .deadIsolated], deaths := [{ tDeath with probeDone := false, fenced := false }] } }, 
     1, { tDeath with probeDone := false, fenced := false }, by decide +kernel⟩,
   ⟨t0.withCap { tCap with hl := { tCap.hl with slices := [.live, .deadIsolated], deaths := [{ tDeath with probeDone := false, fenced := false }] } }, 
     1, { tDeath with probeDone := false, fenced := false }, true, by decide +kernel⟩,
   ⟨t0.withCap { tCap with hl := { tCap.hl with slices := [.live, .deadIsolated], deaths := [{ tDeath with probeDone := true, fenced := false, meshAck := true }] } }, 
     1, { tDeath with probeDone := true, fenced := false, meshAck := true }, true, by decide +kernel⟩,
   ⟨(t0.withCap { tCap with hl := { tCap.hl with slices := [.live, .deadPass], deaths := [{ tDeath with fenced := false }], proxies := [(1, 0)] } }).put 1 { tS 1 with stopped := true }, 
     1, 0, { tDeath with fenced := false }, { tS 1 with stopped := true }, by decide +kernel⟩,
   ⟨(t0.withCap { tCap with hl := { tCap.hl with slices := [.live, .deadPass], deaths := [{ tDeath with begun := true }], proxies := [(1, 0)] } }).put 1 { tS 1 with stopped := true }, 
     1, 0, { tDeath with begun := true }, { tS 1 with stopped := true }, tS 0, by decide +kernel⟩,
   ⟨(t0.withCap { tCap with hl := { tCap.hl with slices := [.live, .deadPass], deaths := [{ tDeath with begun := true }], proxies := [(1, 0)] } }).put 1 { tS 1 with stopped := true }, 
     1, 0, { tDeath with begun := true }, { tS 1 with stopped := true }, tS 0, by decide +kernel⟩⟩

theorem witness_epochsChangeAndEnd :
  (∃ (s : State) (i : Nat) (sl : Slice),
    s.working i sl ∧ s.decides ∧ s.cap.hl.epochBusy = true ∧ sl.rope.epoch ≠ s.cap.hl.epoch ∧ (∀ d ∈ s.cap.hl.deaths, d.probeDone = true) ∧ 
      sl.linksIdle) ∧
  (∃ (s : State) (i : Nat) (j : Nat) (sl : Slice),
    s.working i sl ∧ s.cap.hl.failed = false ∧ s.cap.hl.epochBusy = true ∧ sl.rope.hold = true ∧ sl.rope.epoch = s.cap.hl.epoch ∧ 
      s.drainedAt sl = true ∧ (∀ c ∈ s.cap.ctxs, c.pass ≠ .draining) ∧ ¬ i ∈ s.cap.hl.drained ∧ j < s.cap.n ∧ 
      s.cap.hl.slices.getD j .absent = .live ∧ j ≠ i ∧ ¬ j ∈ s.cap.hl.drained) ∧
  (∃ (s : State) (i : Nat) (sl : Slice),
    s.working i sl ∧ s.decides ∧ s.cap.hl.epochBusy = true ∧ s.cap.hl.epochAgain = false ∧ sl.rope.hold = true ∧ sl.rope.epoch = s.cap.hl.epoch ∧ 
      s.drainedAt sl = true ∧ (∀ c ∈ s.cap.ctxs, c.pass ≠ .draining) ∧ (∀ j < s.cap.n, 
      s.cap.hl.slices.getD j .absent = .live → j = i ∨ j ∈ s.cap.hl.drained) ∧ s.cap.unreachable = [] ∧ s.cap.hl.deaths = []) ∧
  (∃ (s : State) (i : Nat) (sl : Slice),
    s.working i sl ∧ s.decides ∧ sl.id = i ∧ sl.rope.hold = true ∧ s.cap.hl.epochBusy = false ∧ sl.rope.epoch = s.cap.hl.epoch ∧ 
      sl.ing.batches = [] ∧ sl.ing.maintOut = [] ∧ sl.linksIdle ∧ (∀ c ∈ s.cap.ctxs, c.pass ≠ .draining)) :=
  ⟨⟨(t0.withCap { tCap with hl := { tCap.hl with epoch := 1, epochBusy := true } }).put 0 ({ tS 0 with rope := { (tS 0).rope with epoch := 0 } }), 
    0, { tS 0 with rope := { (tS 0).rope with epoch := 0 } }, by decide +kernel⟩,
   ⟨(t0.withCap { tCap with hl := { tCap.hl with epoch := 1, epochBusy := true } }).put 0 ({ tS 0 with rope := { (tS 0).rope with epoch := 1, hold := true } }), 
     0, 1, { tS 0 with rope := { (tS 0).rope with epoch := 1, hold := true } }, by decide +kernel⟩,
   ⟨(t0.withCap { tCap with hl := { tCap.hl with epoch := 1, epochBusy := true, drained := [1] } }).put 0 ({ tS 0 with rope := { (tS 0).rope with epoch := 1, hold := true } }), 
     0, { tS 0 with rope := { (tS 0).rope with epoch := 1, hold := true } }, by decide +kernel⟩,
   ⟨(t0.withCap { tCap with hl := { tCap.hl with epoch := 1 } }).put 0 ({ tS 0 with rope := { (tS 0).rope with epoch := 1, hold := true } }), 0, 
     { tS 0 with rope := { (tS 0).rope with epoch := 1, hold := true } }, by decide +kernel⟩⟩

theorem witness_theCapstanRestarts :
  (∃ (s : State),
    s.decides) ∧
  (∃ (s : State) (_off : Nat),
    s.decides) ∧
  (∃ (s : State) (since : Nat),
    s.cap.su.power = .running ∧ s.cap.hl.restarting = some since ∧ s.cap.hl.waiting = [] ∧ s.cap.hl.accesses = [] ∧ s.cap.hl.epochBusy = false ∧ 
      s.settled ∧ (∀ c ∈ s.cap.ctxs, c.pass ≠ .draining) ∧ (∀ sl ∈ s.slices, sl.ing.pendq = []) ∧ s.cap.tb.heldTicks = []) :=
  ⟨⟨t0, by decide +kernel⟩,
   ⟨tManaged { tMgt with session := some tSession }, 0x0100, by decide +kernel⟩,
   ⟨t0.withCap { tCap with hl := { tCap.hl with restarting := some 90000, beats := [(0, 5), (1, 6)] } }, 90000, by decide +kernel⟩⟩

theorem witness_flitsAreAcceptedInSequence :
  (∃ (env : Capstan) (m : RopeMsg) (k : Nat) (f : Flit),
    (m.flits env)[k]? = some f) ∧
  (∃ (s : State) (i : Nat) (port : Nat) (m : Nat) (sl : Slice) (p : Port) (x : Module) (f : Flit),
    s.working i sl ∧ sl.rope.ports[port]? = some p ∧ p.modules[m]? = some x ∧ x.st = .up ∧ p.st ≠ .down ∧ flitError s.cap.n p m f = none ∧ 
      f.mtype ≠ 0 ∧ f.seq = x.expect ∧ f.seq < 256 ∧ x.rejects.length < 16 ∧ sl.linksIdle) ∧
  (∃ (s : State) (i : Nat) (port : Nat) (m : Nat) (sl : Slice) (p : Port) (x : Module) (f : Flit),
    s.working i sl ∧ sl.rope.ports[port]? = some p ∧ p.modules[m]? = some x ∧ x.st = .up ∧ p.st ≠ .down ∧ f.wordsOk = false ∧ f.frameMark = 0xB4 ∧ 
      x.rejects.length < 15) :=
  ⟨⟨tCap, tMsg (.result (tResult .rayEnd)), 0, ((tMsg (.result (tResult .rayEnd))).flits tCap).getD 0 tFlit, by decide +kernel⟩,
   ⟨t0.put 0 (tLinked 0 0 (tPort)), 0, 0, 1, tLinked 0 0 (tPort), tPort, { resetModule with st := .up }, tFlit, by decide +kernel⟩,
   ⟨t0.put 0 (tLinked 0 0 (tPort)), 0, 0, 1, tLinked 0 0 (tPort), tPort, { resetModule with st := .up }, { tFlit with wordsOk := false }, 
     by decide +kernel⟩⟩

theorem witness_creditsReturnAndLinksRetrain :
  (∃ (s : State) (i : Nat) (port : Nat) (_a : Nat) (_b : Nat) (_c : Nat) (_e : Nat) (x : Nat) (y : Nat) (z : Nat) (sl : Slice) (p : Port),
    s.working i sl ∧ sl.rope.ports[port]? = some p ∧ p.st = .up ∧ p.stamp = none ∧ p.credits = [x, y, z] ∧ sl.linksIdle) ∧
  (∃ (s : State) (i : Nat) (port : Nat) (m : Nat) (since : Nat) (sl : Slice) (p : Port) (x : Module),
    s.working i sl ∧ port < 4 ∧ sl.rope.ports[port]? = some p ∧ sl.linksIdle ∧ p.lowest = some m ∧ p.modules[m]? = some x ∧ x.replay.length < 128 ∧ 
      p.owedSince = some since) ∧
  (∃ (s : State) (i : Nat) (j : Nat) (port : Nat) (m : Nat) (sl : Slice) (sr : Slice) (p : Port) (q : Port) (x : Module) (y : Module),
    s.working i sl ∧ sl.rope.ports[port]? = some p ∧ p.modules[m]? = some x ∧ x.st = .retraining ∧ s.cap.neighbour i port = some j ∧ j ≠ i ∧ 
      s.slices[j]? = some sr ∧ sr.rope.ports[facing port]? = some q ∧ q.modules[m]? = some y ∧ sl.linksIdle ∧ sr.linksIdle ∧ 
      (∀ z ∈ p.modules ++ q.modules, z.st ≠ .down)) ∧
  (∃ (s : State) (i : Nat) (j : Nat) (port : Nat) (m : Nat) (k : Nat) (sl : Slice) (sr : Slice) (p : Port) (q : Port) (x : Module) (y : Module) (z : Module),
    s.working i sl ∧ sl.rope.ports[port]? = some p ∧ p.modules[m]? = some x ∧ x.st = .retraining ∧ s.cap.neighbour i port = some j ∧ j ≠ i ∧ 
      s.slices[j]? = some sr ∧ sr.rope.ports[facing port]? = some q ∧ q.modules[m]? = some y ∧ sl.linksIdle ∧ sr.linksIdle ∧ x.replay = [] ∧ 
      y.replay = [] ∧ p.st ≠ .unused ∧ p.st ≠ .down ∧ k ≠ m ∧ p.modules[k]? = some z ∧ z.st = .up ∧ (∀ z ∈ p.modules ++ q.modules, z.st ≠ .down)) :=
  ⟨⟨t0.put 0 (tLinked 0 0 (tPort)), 0, 0, 3, 4, 5, 0, 8, 8, 8, tLinked 0 0 (tPort), tPort, by decide +kernel⟩,
   ⟨t0.put 0 (tLinked 0 0 ({ tPort with owed := [3, 2, 1], owedSince := some 9 })), 0, 0, 0, 9, 
     tLinked 0 0 ({ tPort with owed := [3, 2, 1], owedSince := some 9 }), { tPort with owed := [3, 2, 1], owedSince := some 9 }, 
       { resetModule with st := .up }, by decide +kernel⟩,
   ⟨(t0.put 0 (tLinked 0 0 ({ tPort with modules := tPort.modules.set 2 { resetModule with st := .retraining, replay := [{ tFlit with vc := 0, seq := 4 }] } }))).put 1 (tLinked 1 2 ({ tPort with modules := tPort.modules.set 2 { resetModule with st := .retraining } })), 
     0, 1, 0, 2, tLinked 0 0 ({ tPort with modules := tPort.modules.set 2 { resetModule with st := .retraining, replay := [{ tFlit with vc := 0, seq := 4 }] } }), 
       tLinked 1 2 ({ tPort with modules := tPort.modules.set 2 { resetModule with st := .retraining } }), 
       { tPort with modules := tPort.modules.set 2 { resetModule with st := .retraining, replay := [{ tFlit with vc := 0, seq := 4 }] } }, 
       { tPort with modules := tPort.modules.set 2 { resetModule with st := .retraining } }, 
       { resetModule with st := .retraining, replay := [{ tFlit with vc := 0, seq := 4 }] }, { resetModule with st := .retraining }, 
       by decide +kernel⟩,
   ⟨(t0.put 0 (tLinked 0 0 ({ tPort with modules := tPort.modules.set 2 { resetModule with st := .retraining } }))).put 1 (tLinked 1 2 ({ tPort with modules := tPort.modules.set 2 { resetModule with st := .retraining } })), 
     0, 1, 0, 2, 0, tLinked 0 0 ({ tPort with modules := tPort.modules.set 2 { resetModule with st := .retraining } }), 
       tLinked 1 2 ({ tPort with modules := tPort.modules.set 2 { resetModule with st := .retraining } }), 
       { tPort with modules := tPort.modules.set 2 { resetModule with st := .retraining } }, 
       { tPort with modules := tPort.modules.set 2 { resetModule with st := .retraining } }, { resetModule with st := .retraining }, 
       { resetModule with st := .retraining }, { resetModule with st := .up }, by decide +kernel⟩⟩

theorem witness_blocksAreFetchedAndIssued :
  (∃ (s : State) (i : Nat) (k : Nat) (sl : Slice) (st : Stream),
    s.working i sl ∧ sl.str.streams[k]? = some st ∧ st.window.length ≤ 8 ∧ st.ring ≠ [] ∧ (∀ b ∈ st.ring.take 8, b.bad = false) ∧ sl.calm) ∧
  (∃ (s : State) (i : Nat) (k : Nat) (sl : Slice) (st : Stream) (b : Block),
    s.working i sl ∧ s.decides ∧ sl.str.streams[k]? = some st ∧ st.window.length ≤ 8 ∧ b ∈ st.ring.take 8 ∧ b.bad = true) ∧
  (∃ (s : State) (i : Nat) (k : Nat) (lay : Nat) (job : Nat) (sl : Slice) (st : Stream) (b : Block) (rest : List Block) (reserve : Bool),
    s.working i sl ∧ k < 8 ∧ sl.str.streams[k]? = some st ∧ st.resume = none ∧ st.starved = false ∧ st.outstanding < 8 ∧ st.window = b :: rest ∧ 
      b.use = .fetch lay job ∧ sl.str.grant s.cap k b.need st = some reserve ∧ (∀ a ∈ b.lines, 
      (sl.cache.find (sl.view s.cap) b.part b.ctx a).isSome = true)) ∧
  (∃ (s : State) (i : Nat) (k : Nat) (id : Nat) (sl : Slice) (st : Stream) (b : Block) (rest : List Block) (w : MeshWrite) (reserve : Bool),
    s.working i sl ∧ 8 ≤ k ∧ k < 12 ∧ sl.str.streams[k]? = some st ∧ st.resume = none ∧ st.starved = false ∧ st.outstanding < 8 ∧ 
      st.window = b :: rest ∧ b.use = .result w ∧ w.op = .write ∧ sl.ing.meshWait = [] ∧ 
      sl.mayLeave [] { w with block := some (k, st.next) } = true ∧ sl.ing.freeId = some id ∧ sl.str.grant s.cap k b.need st = some reserve) :=
  ⟨⟨t0.put 0 (tStreamed 0 { emptyStream with ring := List.replicate 9 (tBlock 1) }), 0, 0, 
    tStreamed 0 { emptyStream with ring := List.replicate 9 (tBlock 1) }, { emptyStream with ring := List.replicate 9 (tBlock 1) }, 
      by decide +kernel⟩,
   ⟨t0.put 0 (tStreamed 0 { emptyStream with ring := [tBlock 0] }), 0, 0, tStreamed 0 { emptyStream with ring := [tBlock 0] }, 
     { emptyStream with ring := [tBlock 0] }, tBlock 0, by decide +kernel⟩,
   ⟨t0.put 0 ({ tStreamed 0 { emptyStream with window := [tBlock 1, tBlock 2] } with cache := { (tS 0).cache with lines := [tLine 0x4000 1] } }), 0, 
     0, 0, 5, { tStreamed 0 { emptyStream with window := [tBlock 1, tBlock 2] } with cache := { (tS 0).cache with lines := [tLine 0x4000 1] } }, 
       { emptyStream with window := [tBlock 1, tBlock 2] }, tBlock 1, [tBlock 2], true, by decide +kernel⟩,
   ⟨t0.put 0 (tStreamed 8 { emptyStream with window := [{ tBlock 4 with use := .result tWrite }] }), 0, 8, 0, 
     tStreamed 8 { emptyStream with window := [{ tBlock 4 with use := .result tWrite }] }, 
       { emptyStream with window := [{ tBlock 4 with use := .result tWrite }] }, { tBlock 4 with use := .result tWrite }, [], tWrite, true, 
       by decide +kernel⟩⟩

theorem witness_transfersCompleteAndRepay :
  (∃ (s : State) (i : Nat) (k : Nat) (sl : Slice) (st : Stream) (x : Transfer),
    s.working i sl ∧ k < 8 ∧ sl.str.streams[k]? = some st ∧ st.transfers = [x] ∧ x.done = false ∧ x.index = st.delivered ∧ st.delivered < 2 ^ 32 ∧ 
      x.credits ≠ 0 ∧ sl.awaited k x.index = false) ∧
  (∃ (s : State) (i : Nat) (k : Nat) (sl : Slice) (st : Stream) (x : Transfer),
    s.working i sl ∧ k < 8 ∧ sl.str.streams[k]? = some st ∧ st.transfers = [x] ∧ st.isDelivered x.index = true ∧ x.credits ≠ 0 ∧ 
      sl.work.jobs0 = [] ∧ sl.work.jobs1 = []) ∧
  (∃ (s : State) (i : Nat) (k : Nat) (sl : Slice) (st : Stream) (x : Transfer),
    s.working i sl ∧ 12 ≤ k ∧ k < 15 ∧ sl.str.streams[k]? = some st ∧ st.transfers = [x] ∧ st.isDelivered x.index = true ∧ x.credits ≠ 0 ∧ 
      sl.unplaced x.block = false ∧ sl.calm) :=
  ⟨⟨t0.put 0 (tStreamed 0 { emptyStream with transfers := [{ index := 0, block := tBlock 1, credits := 1, reserve := true, handles := [], done := false }], next := 1, delivered := 0, heldReserve := 1 }), 
    0, 0, tStreamed 0 { emptyStream with transfers := [{ index := 0, block := tBlock 1, credits := 1, reserve := true, handles := [], done := false }], next := 1, delivered := 0, heldReserve := 1 }, 
      { emptyStream with transfers := [{ index := 0, block := tBlock 1, credits := 1, reserve := true, handles := [], done := false }], next := 1, delivered := 0, heldReserve := 1 }, 
      { index := 0, block := tBlock 1, credits := 1, reserve := true, handles := [], done := false }, by decide +kernel⟩,
   ⟨t0.put 0 (tStreamed 0 { emptyStream with transfers := [{ index := 0, block := tBlock 1, credits := 1, reserve := true, handles := [], done := true }], next := 1, delivered := 1, heldReserve := 1 }), 
     0, 0, tStreamed 0 { emptyStream with transfers := [{ index := 0, block := tBlock 1, credits := 1, reserve := true, handles := [], done := true }], next := 1, delivered := 1, heldReserve := 1 }, 
       { emptyStream with transfers := [{ index := 0, block := tBlock 1, credits := 1, reserve := true, handles := [], done := true }], next := 1, delivered := 1, heldReserve := 1 }, 
       { index := 0, block := tBlock 1, credits := 1, reserve := true, handles := [], done := true }, by decide +kernel⟩,
   ⟨t0.put 0 (tStreamed 13 { emptyStream with transfers := [{ index := 0, block := { tBlock 3 with use := .dropped }, credits := 1, reserve := true, handles := [5], done := true }], next := 1, delivered := 1, heldReserve := 1 }), 
     0, 13, tStreamed 13 { emptyStream with transfers := [{ index := 0, block := { tBlock 3 with use := .dropped }, credits := 1, reserve := true, handles := [5], done := true }], next := 1, delivered := 1, heldReserve := 1 }, 
       { emptyStream with transfers := [{ index := 0, block := { tBlock 3 with use := .dropped }, credits := 1, reserve := true, handles := [5], done := true }], next := 1, delivered := 1, heldReserve := 1 }, 
       { emptyStream with transfers := [{ index := 0, block := { tBlock 3 with use := .dropped }, credits := 1, reserve := true, handles := [5], done := true }], next := 1, delivered := 1, heldReserve := 1 }.transfers.getD 0 { index := 0, block := tBlock 1, credits := 1, reserve := true, handles := [], done := true }, 
       by decide +kernel⟩⟩

theorem witness_accessesNeedPages :
  (∃ (s : State) (i : Nat) (r : Nat) (_size : Nat) (_page : Nat) (sl : Slice),
    s.working i sl ∧ (∀ m ∈ sl.cache.misses, m.reg = r → m.got ≠ [])) ∧
  (∃ (s : State) (i : Nat) (size : Nat) (n : Nat) (page : Nat) (sl : Slice) (m : ScMiss),
    s.working i sl ∧ sl.cache.misses = [m] ∧ m.got = [] ∧ (size, n) ∈ [(0, 4096), (1, 65536), (2, 2097152), (3, 1073741824)] ∧ page < 2 ^ 36) ∧
  (∃ (s : State) (i : Nat) (size : Nat) (n : Nat) (page : Nat) (sl : Slice) (m : ScMiss),
    s.working i sl ∧ sl.cache.misses = [m] ∧ m.got = [] ∧ (size, n) ∈ [(0, 4096), (1, 65536), (2, 2097152), (3, 1073741824)] ∧ page < 2 ^ 36) ∧
  (∃ (s : State) (i : Nat) (size : Nat) (n : Nat) (page : Nat) (sl : Slice) (m : ScMiss),
    s.working i sl ∧ sl.cache.misses = [m] ∧ m.got = [] ∧ (size, n) ∈ [(0, 4096), (1, 65536), (2, 2097152), (3, 1073741824)] ∧ page < 2 ^ 36) ∧
  (∃ (s : State) (i : Nat) (size : Nat) (n : Nat) (page : Nat) (sl : Slice) (m : ScMiss),
    s.working i sl ∧ sl.cache.misses = [m] ∧ m.got = [] ∧ (size, n) ∈ [(0, 4096), (1, 65536), (2, 2097152), (3, 1073741824)] ∧ page < 2 ^ 36) ∧
  (∃ (s : State) (i : Nat) (sl : Slice) (m : ScMiss) (c : Ctx),
    s.working i sl ∧ sl.cache.misses = [m] ∧ m.got = [] ∧ m.part ≠ .stream ∧ m.waiters = [] ∧ sl.calm ∧ (sl.view s.cap).ctx? m.ctx = some c ∧ 
      sl.tokens ≠ 0 ∧ s.cap.hl.restarting = none ∧ sl.dropped = 0) ∧
  (∃ (s : State) (asid : Nat) (page : Nat) (p : PageReq),
    s.cap.su.power = .running ∧ s.settled ∧ s.pageReq asid page = some p ∧ (∀ sl ∈ s.slices, sl.work.hitched = [])) ∧
  (∃ (s : State) (asid : Nat) (page : Nat) (p : PageReq),
    s.cap.su.power = .running ∧ s.settled ∧ s.pageReq asid page = some p ∧ (∀ sl ∈ s.slices, sl.work.hitched = [] ∧ (∀ x ∈ sl.str.streams, 
      x.onPage asid page = false) ∧
       ∀ a ∈ sl.str.awaiting, a.onPage (sl.view s.cap) asid page = false) ∧ p.since + 20000000 ≤ s.cap.tb.time) ∧
  (∃ (s : State) (asid : Nat) (page : Nat) (p : PageReq),
    s.pageReq asid page = some p ∧ s.cap.tb.time < p.since + 20000000) ∧
  (∃ (x : Stream) (j : Nat),
    x.resume = some j) :=
  ⟨⟨t0.put 0 (tCached (fun c => { c with misses := [{ tMiss with got := [(0, List.replicate 32 1)] }] })), 0, 2, 0, 0, 
    tCached (fun c => { c with misses := [{ tMiss with got := [(0, List.replicate 32 1)] }] }), by decide +kernel⟩,
   ⟨t0.put 0 (tCached (fun c => { c with misses := [tMiss] })), 0, 0, 4096, 0xABCDE, tCached (fun c => { c with misses := [tMiss] }), tMiss, 
     by decide +kernel⟩,
   ⟨t0.put 0 (tCached (fun c => { c with misses := [tMiss] })), 0, 1, 65536, 0xABCDE, tCached (fun c => { c with misses := [tMiss] }), tMiss, 
     by decide +kernel⟩,
   ⟨t0.put 0 (tCached (fun c => { c with misses := [tMiss] })), 0, 2, 2097152, 0xABCDE, tCached (fun c => { c with misses := [tMiss] }), tMiss, 
     by decide +kernel⟩,
   ⟨t0.put 0 (tCached (fun c => { c with misses := [tMiss] })), 0, 3, 1073741824, 0xABCDE, tCached (fun c => { c with misses := [tMiss] }), tMiss, 
     by decide +kernel⟩,
   ⟨t0.put 0 (tCached (fun c => { c with misses := [tMiss] })), 0, tCached (fun c => { c with misses := [tMiss] }), tMiss, tC 1, by decide +kernel⟩,
   ⟨t0.withCap { tCap with hl := { tCap.hl with pages := [{ asid := 7, page := 4, since := 5 }] } }, 7, 4, { asid := 7, page := 4, since := 5 }, 
     by decide +kernel⟩,
   ⟨t0.withCap { tCap with tb := { tCap.tb with time := 20000005 }, hl := { tCap.hl with pages := [{ asid := 7, page := 4, since := 5 }] } }, 7, 4, 
     { asid := 7, page := 4, since := 5 }, by decide +kernel⟩,
   ⟨t0.withCap { tCap with hl := { tCap.hl with pages := [{ asid := 7, page := 4, since := 5 }] } }, 7, 4, { asid := 7, page := 4, since := 5 }, 
     by decide +kernel⟩,
   ⟨{ emptyStream with resume := some 3, next := 7 }, 3, by decide +kernel⟩⟩

theorem witness_fillsAndEvictionsEnd :
  (∃ (s : State) (i : Nat) (k : Nat) (sl : Slice) (m : ScMiss) (data : List Byte),
    s.working i sl ∧ sl.cache.misses = [m] ∧ m.got.length < 7 ∧ k = (m.first + m.got.length) % 8 ∧ data.length = 32 ∧ sl.work.runs = [] ∧ 
      m.waiters.all (fun r => match r with
        | .node _ _ => false
        | .run _ _ => false
        | .comb _ => false
        | .ledger _ => false
        | .stream j _ => j != 15
        | _ => true) = true) ∧
  (∃ (s : State) (i : Nat) (k : Nat) (j : Nat) (sl : Slice) (m : ScMiss) (st : Stream) (t : Transfer) (data : List Byte),
    s.working i sl ∧ sl.cache.misses = [m] ∧ m.got.length < 7 ∧ k = (m.first + m.got.length) % 8 ∧ data.length = 32 ∧ sl.work.runs = [] ∧ 
      m.waiters = [.stream 15 j] ∧ m.poisoned = [] ∧ m.lost = [] ∧ sl.str.streams[15]? = some st ∧ st.transfers = [t] ∧ t.index = j ∧ 
      t.got = m.got.map (fun g => (m.addr + 32 * g.1, g.2)) ∧ (∀ g ∈ m.got, g.1 ≠ k)) ∧
  (∃ (s : State) (i : Nat) (sl : Slice) (m : ScMiss) (d0 : List Byte) (d1 : List Byte) (d2 : List Byte) (d3 : List Byte) (d4 : List Byte) (d5 : List Byte) (d6 : List Byte) (d7 : List Byte),
    s.working i sl ∧ sl.cache.misses = [m] ∧ m.first = 7 ∧ m.got = [(7, d7), (0, d0), (1, d1), (2, d2), (3, d3), (4, d4), (5, d5)] ∧ 
      d6.length = 32 ∧ m.poisoned = [] ∧ m.lost = [] ∧ m.waiters = [] ∧ sl.calm ∧ m.installs (sl.view s.cap) (sl.cache.freeReg m.reg) = true) ∧
  (∃ (s : State) (i : Nat) (lay : Nat) (w : Nat) (sl : Slice) (m : NcMiss) (d : List Byte),
    s.working i sl ∧ lay < 2 ∧ sl.cache.nodeMiss lay = [m] ∧ m.ready = some d ∧ m.st = .pending ∧ m.gen = genOf (sl.view s.cap) m.ctx ∧ 
      (∀ w ∈ sl.walkers lay, w.parked = []) ∧ w < 8 ∧ ¬ (lay, nodeSet m.addr, w) ∈ sl.cache.badNode) ∧
  (∃ (s : State) (i : Nat) (k : Nat) (sl : Slice) (e : Evict),
    s.working i sl ∧ sl.cache.evict[k]? = some e ∧ e.poison = [] ∧ sl.calm ∧ (∀ x ∈ sl.cache.evict.take k, ¬ (x.ctx = e.ctx ∧ x.addr = e.addr))) ∧
  (∃ (s : State) (i : Nat) (k : Nat) (sl : Slice) (e : Evict) (x : Evict) (_read : WordCode),
    s.working i sl ∧ sl.cache.evict[k]? = some e ∧ x ∈ sl.cache.evict.take k ∧ x.ctx = e.ctx ∧ x.addr = e.addr) ∧
  (∃ (s : State) (i : Nat) (k : Nat) (sl : Slice) (m : ScMiss) (x : NcMiss) (data : List Byte) (d : List Byte),
    s.working i sl ∧ sl.cache.misses = [m] ∧ m.got.length < 7 ∧ k = (m.first + m.got.length) % 8 ∧ data.length = 32 ∧ m.waiters = [.node 0 x.reg] ∧ 
      sl.cache.nodeMiss0 = [x] ∧ lineAddr x.addr = m.addr ∧ x.ctx = m.ctx ∧ ({ m with got := m.got ++ [(k, data)] } : ScMiss).half x.addr = some d) :=
  ⟨⟨t0.put 0 (tCached (fun c => { c with misses := [{ tMiss with first := 7 }] })), 0, 7, 
    tCached (fun c => { c with misses := [{ tMiss with first := 7 }] }), { tMiss with first := 7 }, List.replicate 32 1, by decide +kernel⟩,
   ⟨t0.put 0 ({ tStreamed 15 { emptyStream with transfers := [{ index := 3, block := tBlock 3, credits := 1, reserve := true, handles := [], done := false, got := [(0x4080, List.replicate 32 4)] }] } with cache := { (tS 0).cache with misses := [{ tMiss with part := .stream, first := 4, waiters := [.stream 15 3], got := [(4, List.replicate 32 4)] }] } }), 
     0, 5, 3, { tStreamed 15 { emptyStream with transfers := [{ index := 3, block := tBlock 3, credits := 1, reserve := true, handles := [], done := false, got := [(0x4080, List.replicate 32 4)] }] } with cache := { (tS 0).cache with misses := [{ tMiss with part := .stream, first := 4, waiters := [.stream 15 3], got := [(4, List.replicate 32 4)] }] } }, 
       { tMiss with part := .stream, first := 4, waiters := [.stream 15 3], got := [(4, List.replicate 32 4)] }, 
       { emptyStream with transfers := [{ index := 3, block := tBlock 3, credits := 1, reserve := true, handles := [], done := false, got := [(0x4080, List.replicate 32 4)] }] }, 
       { index := 3, block := tBlock 3, credits := 1, reserve := true, handles := [], done := false, got := [(0x4080, List.replicate 32 4)] }, 
       List.replicate 32 5, by decide +kernel⟩,
   ⟨t0.put 0 (tCached (fun c => { c with misses := [{ tMiss with first := 7, got := [7, 0, 1, 2, 3, 4, 5].map (fun k => (k, List.replicate 32 (BitVec.ofNat 8 k))) }] })), 
     0, tCached (fun c => { c with misses := [{ tMiss with first := 7, got := [7, 0, 1, 2, 3, 4, 5].map (fun k => (k, List.replicate 32 (BitVec.ofNat 8 k))) }] }), 
       { tMiss with first := 7, got := [7, 0, 1, 2, 3, 4, 5].map (fun k => (k, List.replicate 32 (BitVec.ofNat 8 k))) }, List.replicate 32 0, 
       List.replicate 32 1, List.replicate 32 2, List.replicate 32 3, List.replicate 32 4, List.replicate 32 5, List.replicate 32 6, 
       List.replicate 32 7, by decide +kernel⟩,
   ⟨t0.put 0 (tCached (fun c => { c with nodeMiss1 := [tNcMiss] })), 0, 1, 0, tCached (fun c => { c with nodeMiss1 := [tNcMiss] }), tNcMiss, 
     List.replicate 128 4, by decide +kernel⟩,
   ⟨t0.put 0 (tCached (fun c => { c with evict := [tEvict 0, tEvict 256] })), 0, 1, tCached (fun c => { c with evict := [tEvict 0, tEvict 256] }), 
     tEvict 256, by decide +kernel⟩,
   ⟨t0.put 0 (tCached (fun c => { c with evict := [tEvict 0, tEvict 0] })), 0, 1, tCached (fun c => { c with evict := [tEvict 0, tEvict 0] }), 
     tEvict 0, tEvict 0, .ok, by decide +kernel⟩,
   ⟨t0.put 0 (tCached (fun c => { c with misses := [{ tMiss with first := 4, got := [4, 5, 6].map (fun k => (k, List.replicate 32 (BitVec.ofNat 8 k))), waiters := [.node 0 1] }], nodeMiss0 := [{ tNcMiss with addr := 0x4080, ready := none }] })), 
     0, 7, tCached (fun c => { c with misses := [{ tMiss with first := 4, got := [4, 5, 6].map (fun k => (k, List.replicate 32 (BitVec.ofNat 8 k))), waiters := [.node 0 1] }], nodeMiss0 := [{ tNcMiss with addr := 0x4080, ready := none }] }), 
       { tMiss with first := 4, got := [4, 5, 6].map (fun k => (k, List.replicate 32 (BitVec.ofNat 8 k))), waiters := [.node 0 1] }, 
       { tNcMiss with addr := 0x4080, ready := none }, List.replicate 32 7, 
       List.replicate 32 4 ++ List.replicate 32 5 ++ List.replicate 32 6 ++ List.replicate 32 7, by decide +kernel⟩⟩

theorem witness_waysGateAndWake :
  (∃ (s : State) (i : Nat) (w : Nat) (sl : Slice),
    s.answers i sl ∧ sl.stopped = false ∧ w < 16 ∧ bit (lockMask s.cap) w = false ∧ sl.cache.breaksMinimum s.cap w = false ∧ 
      sl.cache.wayBusy w = false ∧ sl.cache.way w = .active) ∧
  (∃ (s : State) (i : Nat) (w : Nat) (sl : Slice),
    s.answers i sl ∧ sl.stopped = false ∧ w < 16 ∧ bit (lockMask s.cap) w = true) ∧
  (∃ (s : State) (i : Nat) (w : Nat) (sl : Slice),
    s.answers i sl ∧ sl.stopped = false ∧ w < 16 ∧ sl.cache.wayBusy w = false ∧ sl.cache.way w = .gated ∧ ¬ w ∈ sl.cache.lostWays) ∧
  (∃ (s : State) (i : Nat) (w : Nat) (sl : Slice),
    s.working i sl ∧ sl.cache.way w = .draining ∧ (∀ m ∈ sl.cache.misses, m.way ≠ w) ∧ (∀ l ∈ sl.cache.lines, l.way = w → l.rsv = 0 ∧ l.buf = none ∧ 
      l.dirty = false) ∧ sl.calm ∧ ¬ (w, 4) ∈ sl.cache.wayStep) ∧
  (∃ (s : State) (i : Nat) (w : Nat) (sl : Slice),
    s.working i sl ∧ w < 16 ∧ sl.cache.way w = .draining ∧ (w, 4) ∈ sl.cache.wayStep ∧ (∀ e ∈ sl.cache.evict, e.way ≠ some w)) ∧
  (∃ (s : State) (i : Nat) (w : Nat) (sl : Slice),
    s.working i sl ∧ w < 16 ∧ sl.cache.way w = .waking ∧ sl.calm) :=
  ⟨⟨t0.put 0 (tCached (fun c => { c with misses := [tMiss] })), 0, 1, tCached (fun c => { c with misses := [tMiss] }), by decide +kernel⟩,
   ⟨(t0.withCap { tCap with img := { tCap.img with partMasks := [0xF, 0xF0, 0xF00, 16, 0] } }), 0, 4, tS 0, by decide +kernel⟩,
   ⟨t0.put 0 (tCached (fun c => { c with ways := c.ways.set 1 .gated })), 0, 1, tCached (fun c => { c with ways := c.ways.set 1 .gated }), 
     by decide +kernel⟩,
   ⟨t0.put 0 (tCached (fun c => { c with ways := c.ways.set 1 .draining, lines := [tLine 0x4000 1, tLine 0x4100 2] })), 0, 1, 
     tCached (fun c => { c with ways := c.ways.set 1 .draining, lines := [tLine 0x4000 1, tLine 0x4100 2] }), by decide +kernel⟩,
   ⟨t0.put 0 (tCached (fun c => { c with ways := c.ways.set 1 .draining, wayStep := [(1, 4)] })), 0, 1, 
     tCached (fun c => { c with ways := c.ways.set 1 .draining, wayStep := [(1, 4)] }), by decide +kernel⟩,
   ⟨t0.put 0 (tCached (fun c => { c with ways := c.ways.set 1 .waking })), 0, 1, tCached (fun c => { c with ways := c.ways.set 1 .waking }), 
     by decide +kernel⟩⟩

theorem witness_maintenanceIsApplied :
  (∃ (s : State) (i : Nat) (k : Nat) (sl : Slice) (m : RopeMsg) (d : MaintMsg),
    s.working i sl ∧ sl.rope.hold = false ∧ s.rope[k]? = some m ∧ s.firstOfPath k m = true ∧ m.dest = i ∧ m.body = .maintDesc d ∧ sl.calm ∧ 
      (d.clean = true → (sl.cache.lines.filter (fun l => l.dirty)).length + sl.cache.evict.length ≤ 64)) ∧
  (∃ (s : State) (i : Nat) (sl : Slice) (d : MaintIn),
    s.working i sl ∧ sl.id = i ∧ sl.cache.maintIn = [d] ∧ sl.maintMet (sl.view s.cap) d = true ∧ d.locked = 0 ∧ d.msg.home = i) ∧
  (∃ (s : State) (i : Nat) (sl : Slice),
    s.working i sl ∧ (∀ d ∈ sl.cache.maintIn, sl.maintMet (sl.view s.cap) d = false)) ∧
  (∃ (s : State) (i : Nat) (j : Nat) (k : Nat) (n : Nat) (sl : Slice) (m : RopeMsg) (o : MaintOut),
    s.working i sl ∧ sl.rope.hold = false ∧ s.rope[k]? = some m ∧ s.firstOfPath k m = true ∧ m.dest = i ∧ sl.ing.maintOut = [o] ∧ 
      m.body = .maintAck o.msg n ∧ ¬ n ∈ o.acks ∧ j < s.cap.n ∧ s.cap.hl.slices.getD j .absent = .live ∧ j ≠ n ∧ ¬ j ∈ o.acks) :=
  ⟨⟨{ t0.put 0 (tCached (fun c => { c with lines := [tLine 0x4000 1, { tLine 0x4100 2 with rsv := 1 }] })) with rope := [{ src := 1, dest := 0, epoch := 0, body := .maintDesc tMaint }] }, 
    0, 0, tCached (fun c => { c with lines := [tLine 0x4000 1, { tLine 0x4100 2 with rsv := 1 }] }), 
      { src := 1, dest := 0, epoch := 0, body := .maintDesc tMaint }, tMaint, by decide +kernel⟩,
   ⟨t0.put 0 (tCached (fun c => { c with maintIn := [tMaintIn] })), 0, tCached (fun c => { c with maintIn := [tMaintIn] }), tMaintIn, 
     by decide +kernel⟩,
   ⟨t0.put 0 (tCached (fun c => { c with maintIn := [{ tMaintIn with scRegs := [1] }] })), 0, 
     tCached (fun c => { c with maintIn := [{ tMaintIn with scRegs := [1] }] }), by decide +kernel⟩,
   ⟨{ t0.put 0 { tS 0 with ing := { (tS 0).ing with maintOut := [{ msg := tMaint, acks := [] }] } } with rope := [{ src := 1, dest := 0, epoch := 0, body := .maintAck tMaint 1 }] }, 
     0, 0, 0, 1, { tS 0 with ing := { (tS 0).ing with maintOut := [{ msg := tMaint, acks := [] }] } }, 
       { src := 1, dest := 0, epoch := 0, body := .maintAck tMaint 1 }, { msg := tMaint, acks := [] }, by decide +kernel⟩⟩

theorem witness_submissionsJoinThePendingQueue :
  (∃ (s : State) (die : Nat) (_core : Nat) (off : Nat) (sl : Slice) (_mask : BitVec 64),
    s.working die sl ∧ s.cap.isLive die = true ∧ off % 16 = 0 ∧ off + 64 ≤ 524288 ∧ sl.ing.pendq.length < 256) ∧
  (∃ (s : State) (die : Nat) (_core : Nat) (off : Nat) (sl : Slice),
    s.working die sl ∧ s.cap.isLive die = true ∧ (off % 16 ≠ 0 ∨ 524288 < off + 64) ∧ sl.ing.pendq.length < 256 ∧ sl.tokens ≠ 0 ∧ 
      s.cap.hl.restarting = none) ∧
  (∃ (s : State) (die : Nat) (_core : Nat) (off : Nat) (i : Nat) (_b : Nat) (sl : Slice) (_mask : BitVec 64),
    die < s.slices.length ∧ s.cap.isLive die = false ∧ s.cap.ingressOf die = some i ∧ s.working i sl ∧ sl.ing.fromJournal = [] ∧ 
      sl.ing.adopting = [] ∧ off % 16 = 0 ∧ off + 64 ≤ 524288 ∧ sl.ing.pendq.length < 256) ∧
  (∃ (s : State) (die : Nat) (_core : Nat) (_off : Nat) (_b : Nat) (_isG : Bool) (_mask : BitVec 64),
    die < s.slices.length ∧ s.cap.isLive die = true) :=
  ⟨⟨t0.put 0 (tS 0), 0, 3, 64, tS 0, 5, by decide +kernel⟩,
   ⟨t0.put 0 (tS 0), 0, 3, 524272, tS 0, by decide +kernel⟩,
   ⟨t0.withCap { tCap with hl := { tCap.hl with slices := [.live, .deadPass], proxies := [(1, 0)] } }, 1, 3, 64, 0, 9, tS 0, 0, by decide +kernel⟩,
   ⟨t0, 1, 0, 0, 0, true, 0, by decide +kernel⟩⟩

theorem witness_descriptorsAndIndexesAreChecked :
  (∃ (s : State) (i : Nat) (sl : Slice) (p : Pend) (c : Ctx) (bs : List Byte),
    s.working i sl ∧ sl.ing.pendq = [p] ∧ p.stage = .descriptor ∧ bs.length = 64 ∧ descCause (sl.view s.cap) p.off p.isG bs = none ∧ 
      (sl.view s.cap).ctx? (descOf bs).ctx = some c ∧ c.pass ≠ .running) ∧
  (∃ (s : State) (i : Nat) (sl : Slice) (p : Pend) (c : Ctx) (bs : List Byte),
    s.working i sl ∧ sl.ing.pendq = [p] ∧ p.stage = .descriptor ∧ bs.length = 64 ∧ descCause (sl.view s.cap) p.off p.isG bs = none ∧ 
      (sl.view s.cap).ctx? (descOf bs).ctx = some c ∧ c.pass = .running ∧ s.cap.isActive c.id = true ∧ (descOf bs).accMapped = true ∧ p.index = [] ∧ 
      activeOf (descOf bs) p.isG p.mask ≠ []) ∧
  (∃ (s : State) (i : Nat) (cause : Nat) (sl : Slice) (p : Pend) (bs : List Byte),
    s.working i sl ∧ sl.ing.pendq = [p] ∧ p.stage = .descriptor ∧ p.items = [] ∧ bs.length = 64 ∧ 
      descCause (sl.view s.cap) p.off p.isG bs = some cause ∧ complAddressable (descOf bs) = true ∧ sl.ing.meshWait = [] ∧ 
      sl.ing.meshOut.length ≤ 254 ∧ sl.tokens ≠ 0 ∧ s.cap.hl.restarting = none) ∧
  (∃ (s : State) (i : Nat) (sl : Slice) (p : Pend) (c : Ctx) (es : List Nat) (act : List Nat) (detect : Option Nat) (ix : List (Nat × Nat)),
    s.working i sl ∧ sl.ing.pendq = [p] ∧ p.stage = .index ∧ act = activeOf p.desc p.isG p.mask ∧ act ≠ [] ∧ (∀ q ∈ act, detect ≠ some q) ∧ 
      (∀ k < act.length, es.getD k 0 < p.desc.accSlots) ∧ ix = (indexed act).map (fun e => (e.2, es.getD e.1 0)) ∧ 
      (sl.view s.cap).ctx? p.desc.ctx = some c ∧ c.cstate = .valid ∧ c.pass = .running ∧ s.cap.isActive c.id = true ∧ 
      caskTooSmall s.cap sl.id c (caskItems p.desc c ix) = false ∧ sl.missingBlocks s.cap c (caskItems p.desc c ix) = 0) ∧
  (∃ (s : State) (i : Nat) (k : Nat) (q : Nat) (sl : Slice) (p : Pend) (es : List Nat) (act : List Nat) (detect : Option Nat),
    s.working i sl ∧ sl.ing.pendq = [p] ∧ p.stage = .index ∧ p.items = [] ∧ act = activeOf p.desc p.isG p.mask ∧ act[k]? = some q ∧ (∀ j < k, 
      es.getD j 0 < p.desc.accSlots ∧ detect ≠ act[j]?) ∧ (detect = some q ∨ p.desc.accSlots ≤ es.getD k 0) ∧ complAddressable p.desc = true ∧ 
      sl.ing.meshWait = [] ∧ sl.ing.meshOut.length ≤ 254 ∧ sl.tokens ≠ 0 ∧ s.cap.hl.restarting = none ∧ p.desc.accSlots ≤ es.getD k 0 ∧ 
      detect ≠ some q) ∧
  (∃ (s : State) (i : Nat) (k : Nat) (q : Nat) (sl : Slice) (p : Pend) (es : List Nat) (act : List Nat) (detect : Option Nat),
    s.working i sl ∧ sl.ing.pendq = [p] ∧ p.stage = .index ∧ p.items = [] ∧ act = activeOf p.desc p.isG p.mask ∧ act[k]? = some q ∧ (∀ j < k, 
      es.getD j 0 < p.desc.accSlots ∧ detect ≠ act[j]?) ∧ (detect = some q ∨ p.desc.accSlots ≤ es.getD k 0) ∧ complAddressable p.desc = true ∧ 
      sl.ing.meshWait = [] ∧ sl.ing.meshOut.length ≤ 254 ∧ sl.tokens ≠ 0 ∧ s.cap.hl.restarting = none ∧ detect = some q) :=
  ⟨⟨(t0.put 0 (tQueued (tPend .descriptor))).withCap { tCap with ctxs := [{ tC 1 with pass := .none }] }, 0, tQueued (tPend .descriptor), 
    (tPend .descriptor), { tC 1 with pass := .none }, tDescBytes false, by decide +kernel⟩,
   ⟨(t0.put 0 (tQueued { tPend .descriptor with index := [] })).withCap { tCap with ctxs := [tAccum] }, 0, 
     tQueued { tPend .descriptor with index := [] }, { tPend .descriptor with index := [] }, tAccum, tMapped, by decide +kernel⟩,
   ⟨t0.put 0 (tQueued (tPend .descriptor)), 0, 4, tQueued (tPend .descriptor), (tPend .descriptor), (tDescBytes false).set 8 0, by decide +kernel⟩,
   ⟨t0.put 0 (tQueued { tPend .index with index := [], desc := { descOf (tDescBytes false) with accMapped := true, accSlots := 2 } }), 0, 
     tQueued { tPend .index with index := [], desc := { descOf (tDescBytes false) with accMapped := true, accSlots := 2 } }, 
       { tPend .index with index := [], desc := { descOf (tDescBytes false) with accMapped := true, accSlots := 2 } }, tC 1, [1, 0], [0, 1], none, 
       [(0, 1), (1, 0)], by decide +kernel⟩,
   ⟨t0.put 0 (tQueued { tPend .index with index := [], desc := { descOf (tDescBytes false) with accMapped := true, accSlots := 2 } }), 0, 1, 1, 
     tQueued { tPend .index with index := [], desc := { descOf (tDescBytes false) with accMapped := true, accSlots := 2 } }, 
       { tPend .index with index := [], desc := { descOf (tDescBytes false) with accMapped := true, accSlots := 2 } }, [1, 2], [0, 1], none, 
       by decide +kernel⟩,
   ⟨t0.put 0 (tQueued { tPend .index with index := [], desc := { descOf (tDescBytes false) with accMapped := true, accSlots := 2 } }), 0, 1, 1, 
     tQueued { tPend .index with index := [], desc := { descOf (tDescBytes false) with accMapped := true, accSlots := 2 } }, 
       { tPend .index with index := [], desc := { descOf (tDescBytes false) with accMapped := true, accSlots := 2 } }, [1, 1], [0, 1], some 1, 
       by decide +kernel⟩⟩

theorem witness_batchesAreAdmitted :
  (∃ (s : State) (i : Nat) (h : Nat) (sl : Slice) (sl₁ : Slice) (p : Pend) (c : Ctx) (items : List CaskItem),
    s.working i sl ∧ s.decides ∧ sl.ing.pendq = [p] ∧ p.stage = .reserve ∧ (sl.view s.cap).ctx? p.desc.ctx = some c ∧ sl.ing.fromJournal = [] ∧ 
      sl.freeHandle = some h ∧ sl.reserveCask s.cap.n c (caskItems p.desc c p.index) = some (items, sl₁) ∧ 
      24576 + granulesEach p.desc c * p.index.length ≤ sl.store.freeCount ∧ sl.store.spilling = false ∧ s.cap.loans = []) ∧
  (∃ (s : State) (i : Nat) (sl : Slice) (p : Pend) (c : Ctx) (recs : List (List Byte × List Byte)) (detect : Option Nat) (qs : List Query) (ms : List (Nat × List Byte)),
    s.working i sl ∧ sl.ing.pendq = [p] ∧ p.stage = .records ∧ (sl.view s.cap).ctx? p.desc.ctx = some c ∧ 
      readRecords sl.id p.handle p.desc c detect (p.index.map (·.1)) recs = .ok (qs, ms)) ∧
  (∃ (s : State) (i : Nat) (sl : Slice) (p : Pend) (c : Ctx) (e : Evict),
    s.working i sl ∧ sl.ing.pendq = [p] ∧ p.stage = .ledger ∧ (sl.view s.cap).ctx? p.desc.ctx = some c ∧ sl.cache.evict = [e] ∧ e.poison = [] ∧ 
      sl.cache.waiting = [] ∧ sl.cache.misses = [] ∧ sl.work.runs = [] ∧ sl.str.queued = [] ∧ 
      sl.str.underway (ledgerStream p.handle) (Block.ledgers p.handle) = false ∧ sl.store.maps = [] ∧ sl.ing.batches = [] ∧ (∀ a ∈ sl.ing.adopting, 
      a.reading = none) ∧ (∀ x ∈ sl.rope.ports, x.leaving = [])) ∧
  (∃ (s : State) (i : Nat) (q : Nat) (sl : Slice) (p : Pend) (c : Ctx) (bs : List Byte),
    s.working i sl ∧ sl.id = i ∧ sl.ing.pendq = [p] ∧ p.stage = .journal ∧ p.admitted = [] ∧ p.maint = [(q, bs)] ∧ 
      (sl.view s.cap).ctx? p.desc.ctx = some c ∧ c.faulted = false ∧ s.cap.ids.filter s.cap.isLive = [i] ∧ sl.unsettledLine p.handle = false) :=
  ⟨⟨t0.put 0 (tQueued (tPend .reserve)), 0, 0, tQueued (tPend .reserve), (((tS 0).reserveCask 2 (tC 1) (caskItems (tPend .reserve).desc (tC 1) [(0, 
    0), (1, 1)])).map (fun r => { r.2 with ing := (tQueued (tPend .reserve)).ing })).getD (tS 9), (tPend .reserve), tC 1, 
      (((tS 0).reserveCask 2 (tC 1) (caskItems (tPend .reserve).desc (tC 1) [(0, 0), (1, 1)])).map (fun r => r.1)).getD [], by decide +kernel⟩,
   ⟨t0.put 0 (tQueued (tPend .records)), 0, tQueued (tPend .records), (tPend .records), tC 1, [(tRecord, []), (tRecord, [])], none, [0, 
     1].map (fun q => queryOf 0 0 (descOf (tDescBytes false)) (tC 1) q (tRecord, [])), [], 
       by and_intros <;> first | decide +kernel | rfl | with_unfolding_all rfl⟩,
   ⟨t0.put 0 ({ tQueued (tPend .ledger) with cache := { (tS 0).cache with evict := [tEvict 0x40000] } }), 0, 
     { tQueued (tPend .ledger) with cache := { (tS 0).cache with evict := [tEvict 0x40000] } }, tPend .ledger, tC 1, tEvict 0x40000, 
       by decide +kernel⟩,
   ⟨(t0.put 0 (tQueued { tPend .journal with desc := descOf (tDescBytes true), index := [(0, 0)], maint := [(0, [0x18, 0, 1, 0] ++ List.replicate 28 0)] })).withCap { tCap with hl := { tCap.hl with slices := [.live, .deadIsolated] } }, 
     0, 0, tQueued { tPend .journal with desc := descOf (tDescBytes true), index := [(0, 0)], maint := [(0, [0x18, 0, 1, 0] ++ List.replicate 28 0)] }, 
       { tPend .journal with desc := descOf (tDescBytes true), index := [(0, 0)], maint := [(0, [0x18, 0, 1, 0] ++ List.replicate 28 0)] }, tC 1, 
       [0x18, 0, 1, 0] ++ List.replicate 28 0, by decide +kernel⟩⟩

theorem witness_activationSlotsAndCaskBlocksChangeHands :
  (∃ (s : State) (slice : Nat) (ctx : Nat) (slot : Nat) (rest : List (Nat × Nat)) (reads : List EntryRead),
    s.cap.acts = true ∧ s.settled ∧ s.cap.actWait = (slice, ctx) :: rest ∧ s.cap.freeSlot = some slot ∧ (∀ a ∈ s.cap.active, a.2 ≠ ctx) ∧ 
      s.readPoison reads = false ∧ (∀ sl ∈ s.slices, sl.ing.pendq = [])) ∧
  (∃ (s : State) (ctx : Nat),
    s.cap.acts = true ∧ s.holdsCtx ctx = false) ∧
  (∃ (s : State) (ctx : Nat),
    s.holdsCtx ctx = true) ∧
  (∃ (s : State) (i : Nat) (j : Nat) (b : Nat) (sl : Slice) (sl₂ : Slice) (l : Loan) (c : Ctx),
    s.slices[i]? = some sl ∧ sl.works s.cap = true ∧ s.cap.hl.restarting = none ∧ s.cap.hl.failed = false ∧ s.slices[j]? = some sl₂ ∧ i ≠ j ∧ 
      l.slice = j ∧ l.missing = 1 ∧ s.cap.loans = [l] ∧ loanFor s.cap sl b = some (l, c) ∧ (∀ x ∈ s.slices, ∀ m ∈ x.store.maps, 
      (m.ctx = c.id && decide (256 * m.next ≤ b)) = false)) ∧
  (∃ (s : State) (i : Nat) (j : Nat) (b : Nat) (sl : Slice) (sl₂ : Slice) (l : Loan) (c : Ctx),
    s.slices[i]? = some sl ∧ sl.works s.cap = true ∧ s.cap.hl.restarting = none ∧ s.cap.hl.failed = false ∧ s.slices[j]? = some sl₂ ∧ i ≠ j ∧ 
      l.slice = j ∧ l.missing = 1 ∧ s.cap.loans = [l] ∧ loanFor s.cap sl b = some (l, c) ∧ 
      sl.store.maps.any (fun m => m.ctx = c.id && decide (256 * m.next ≤ b)) = true ∧ sl₂.store.maps = []) :=
  ⟨⟨t0.withCap { tCap with active := [(1, 1)], actWait := [(1, 2), (0, 2), (0, 3)] }, 1, 2, 0, [(0, 2), (0, 3)], [], by decide +kernel⟩,
   ⟨t0.withCap { tCap with active := [(0, 1), (1, 2)] }, 2, by decide +kernel⟩,
   ⟨t0.put 0 (tBatched tBatch), 1, by decide +kernel⟩,
   ⟨t0.withCap { tCap with loans := [{ ctx := 1, slice := 0, missing := 1 }] }, 1, 0, 63, tS 1, tS 0, { ctx := 1, slice := 0, missing := 1 }, tC 1, 
     by decide +kernel⟩,
   ⟨(t0.withCap { tCap with loans := [{ ctx := 1, slice := 0, missing := 1 }] }).put 1 { tS 1 with store := { (tS 1).store with maps := [{ ctx := 1, next := 0, moved := [] }] } }, 
     1, 0, 63, { tS 1 with store := { (tS 1).store with maps := [{ ctx := 1, next := 0, moved := [] }] } }, tS 0, 
       { ctx := 1, slice := 0, missing := 1 }, tC 1, by decide +kernel⟩⟩

theorem witness_binsAndGathersBecomeReady :
  (∃ (s : State) (i : Nat) (k : Nat) (sl : Slice) (b : Bin) (c : Ctx),
    s.working i sl ∧ sl.mash.bins[k]? = some b ∧ (sl.view s.cap).ctx? b.ctx = some c) ∧
  (∃ (s : State) (i : Nat) (k : Nat) (sl : Slice) (g : Gather) (c : Ctx),
    s.working i sl ∧ sl.mash.gathers[k]? = some g ∧ (sl.view s.cap).ctx? g.ctx = some c) ∧
  (∃ (s : State) (i : Nat) (lay : Nat) (bank : Nat) (sl : Slice) (q : Query) (rest : List Query) (c : Ctx),
    s.working i sl ∧ sl.mash.overflow = [(lay, bank, q :: rest)] ∧ (sl.view s.cap).ctx? q.ctx = some c ∧ lay = sl.layOf q.next.addr ∧ 
      bank = bankOf q.next.addr ∧ sl.opensBin q) :=
  ⟨⟨t0.put 0 (tMashed ({ tMash with bins := [{ tBin tQuery with ready := none }] })), 0, 0, 
    tMashed ({ tMash with bins := [{ tBin tQuery with ready := none }] }), { tBin tQuery with ready := none }, tC 1, by decide +kernel⟩,
   ⟨t0.put 0 (tMashed ({ tMash with gathers := [{ tGather tQuery with ready := none }] })), 0, 0, 
     tMashed ({ tMash with gathers := [{ tGather tQuery with ready := none }] }), { tGather tQuery with ready := none }, tC 1, by decide +kernel⟩,
   ⟨t0.put 0 (tMashed ({ tMash with overflow := [((tS 0).layOf 0x1000, 0, [tQuery, { tQuery with qindex := 1 }])] })), 0, (tS 0).layOf 0x1000, 0, 
     tMashed ({ tMash with overflow := [((tS 0).layOf 0x1000, 0, [tQuery, { tQuery with qindex := 1 }])] }), tQuery, [{ tQuery with qindex := 1 }], 
       tC 1, by decide +kernel⟩⟩

theorem witness_packetsAreTakenAndVisit :
  (∃ (s : State) (i : Nat) (lay : Nat) (w : Nat) (sl : Slice) (b : Bin) (c : Ctx) (p : Packet) (bs : List Byte),
    s.working i sl ∧ lay < 2 ∧ sl.layRuns lay = true ∧ sl.freeWalker lay = some w ∧ sl.headBin (sl.view s.cap) lay = (some b, []) ∧ b.members ≠ [] ∧ 
      b.members.length ≤ 64 ∧ (∀ q ∈ b.members, q.entered < sl.time) ∧ (sl.view s.cap).ctx? b.ctx = some c ∧ unreadable c.tree 1 b.obj 128 = none ∧ 
      p = { ctx := b.ctx, obj := b.obj, miss := 0, reg := 0, members := b.members } ∧ sl.nodeBytes (sl.view s.cap) lay p b.obj 128 = .ok bs ∧ 
      byteAt bs 0 % 16 = 1 ∧ (∀ q ∈ b.members, q.first (rootRef s.cap c) = none ∧ q.next.ckind = 1 ∧ sl.migratesTo (sl.view s.cap) q = none)) ∧
  (∃ (s : State) (i : Nat) (lay : Nat) (w : Nat) (sl : Slice) (p : Packet) (q : Query) (q' : Query) (c : Ctx) (bs : List Byte),
    s.working i sl ∧ lay < 2 ∧ (sl.walkers lay)[w]? = some { work := some p, parked := [] } ∧ p.members = [q] ∧ q.next.ckind = 1 ∧ 
      (sl.view s.cap).ctx? p.ctx = some c ∧ sl.nodeBytes (sl.view s.cap) lay p p.obj 128 = .ok bs ∧ 
      visitBox c.tree (rootRef s.cap c) bs q = .go q' ∧ q'.next.ckind = 4 ∧ (sl.view s.cap).ctx? q'.ctx = some c ∧ 
      sl.migratesTo (sl.view s.cap) q' = none ∧ sl.replaying q' = false ∧ sl.opensBin q') ∧
  (∃ (s : State) (i : Nat) (lay : Nat) (w : Nat) (sl : Slice) (p : Packet) (q : Query) (q' : Query) (c : Ctx) (bs : List Byte),
    s.working i sl ∧ lay < 2 ∧ (sl.walkers lay)[w]? = some { work := some p, parked := [] } ∧ p.members = [q] ∧ q.next.ckind = 1 ∧ 
      (sl.view s.cap).ctx? p.ctx = some c ∧ sl.nodeBytes (sl.view s.cap) lay p p.obj 128 = .ok bs ∧ 
      visitBox c.tree (rootRef s.cap c) bs q = .ended q' ∧ q'.home = sl.id ∧ q'.guest = false ∧ sl.replaying q' = false) ∧
  (∃ (s : State) (i : Nat) (lay : Nat) (w : Nat) (sl : Slice) (p : Packet) (q : Query) (q' : Query) (c : Ctx) (head : List Byte) (bs : List Byte),
    s.working i sl ∧ lay < 2 ∧ (sl.walkers lay)[w]? = some { work := some p, parked := [] } ∧ p.members = [q] ∧ q.next.ckind = 4 ∧ 
      (sl.view s.cap).ctx? p.ctx = some c ∧ sl.nodeBytes (sl.view s.cap) lay p p.obj 128 = .ok head ∧ 
      sl.nodeBytes (sl.view s.cap) lay p p.obj (objectBytes c.tree 4 p.obj head) = .ok bs ∧ 
      (visitTriangles c.tree (rootRef s.cap c) bs q).1 = .ended q' ∧ q'.home = sl.id ∧ q'.guest = false ∧ sl.replaying q' = false) :=
  ⟨⟨t0.put 0 ({ tMashed ({ tMash with bins := [{ tBin tQuery with lay := 0 }] }) with cache := (tWalks tQuery (tBox 0)).cache }), 0, 0, 0, 
    { tMashed ({ tMash with bins := [{ tBin tQuery with lay := 0 }] }) with cache := (tWalks tQuery (tBox 0)).cache }, 
      { tBin tQuery with lay := 0 }, tC 1, { ctx := 1, obj := 0x1000, miss := 0, reg := 0, members := [tQuery] }, tBox 0, 
      by and_intros <;> first | decide +kernel | rfl | with_unfolding_all rfl⟩,
   ⟨t0.put 0 (tWalks tQuery (tBox 0x2404)), 0, 0, 2, tWalks tQuery (tBox 0x2404), tPacket tQuery, tQuery, 
     (match visitBox (tC 1).tree (rootRef tCap (tC 1)) (tBox 0x2404) tQuery with | .go x => x | _ => tQuery), tC 1, tBox 0x2404, 
       by and_intros <;> first | decide +kernel | rfl | with_unfolding_all rfl⟩,
   ⟨t0.put 0 (tWalks tQuery (tBox 0)), 0, 0, 2, tWalks tQuery (tBox 0), tPacket tQuery, tQuery, 
     (match visitBox (tC 1).tree (rootRef tCap (tC 1)) (tBox 0) tQuery with | .ended x => x | _ => tQuery), tC 1, tBox 0, 
       by and_intros <;> first | decide +kernel | rfl | with_unfolding_all rfl⟩,
   ⟨t0.put 0 (tWalks ({ tQuery with next := { tQuery.next with addr := 0x1200, ckind := 4 } }) (tTri)), 0, 0, 2, 
     tWalks ({ tQuery with next := { tQuery.next with addr := 0x1200, ckind := 4 } }) (tTri), 
       tPacket ({ tQuery with next := { tQuery.next with addr := 0x1200, ckind := 4 } }), 
       { tQuery with next := { tQuery.next with addr := 0x1200, ckind := 4 } }, 
       (match (visitTriangles (tC 1).tree (rootRef tCap (tC 1)) (tTri.take 64) { tQuery with next := { tQuery.next with addr := 0x1200, ckind := 4 } }).1 with | .ended x => x | _ => tQuery), 
       tC 1, tTri, tTri.take 64, by and_intros <;> first | decide +kernel | rfl | with_unfolding_all rfl⟩⟩

theorem witness_runsAndTilesGoOn :
  (∃ (s : State) (i : Nat) (lay : Nat) (sl : Slice) (g : Gather) (c : Ctx),
    s.working i sl ∧ sl.layRuns lay = true ∧ sl.headGather (sl.view s.cap) lay = (some g, []) ∧ (sl.view s.cap).ctx? g.ctx = some c ∧ 
      g.members ≠ [] ∧ g.members.length ≤ gatherOf s.cap c ∧ (∀ q ∈ g.members, q.first (rootRef s.cap c) = none ∧ 
      sl.migratesTo (sl.view s.cap) q = none) ∧ sl.mash.gatherWait = [] ∧ unreadable c.tree 6 g.leaf 128 = none ∧ 
      linesOf g.leaf 128 = [lineAddr g.leaf] ∧ sl.cache.seen (sl.view s.cap) .tree g.ctx (lineAddr g.leaf) = none ∧ 
      sl.cache.arrived .tree g.ctx (lineAddr g.leaf) = []) ∧
  (∃ (s : State) (i : Nat) (lay : Nat) (sl : Slice) (j : Job) (t : Tile),
    s.working i sl ∧ lay < 2 ∧ sl.jobs lay = [j] ∧ sl.jobs (1 - lay) = [] ∧ j.tiles = [t] ∧ t.st = .reserving ∧ (∀ a ∈ sl.linesAsked lay j t, 
      ∃ l ∈ t.lines, l.1 = a) ∧ sl.work.reserving = some (lay, j.id, 0)) ∧
  (∃ (s : State) (i : Nat) (lay : Nat) (k : Nat) (a : Nat) (sl : Slice) (j : Job) (t : Tile),
    s.working i sl ∧ sl.job? lay j.id = some j ∧ j.tiles[k]? = some t ∧ t.st = .reserved ∧ j.inTurn k = true ∧ sl.freeArray lay j [] = some a ∧ 
      0 < j.steps t.layer ∧ sl.badLines lay j t = [] ∧ (sl.opBuf lay).job = some j.id ∧ sl.work.rotDue lay = false) ∧
  (∃ (s : State) (i : Nat) (lay : Nat) (k : Nat) (n : Nat) (sl : Slice) (j : Job) (t : Tile) (t' : Tile),
    s.working i sl ∧ sl.job? lay j.id = some j ∧ j.tiles[k]? = some t ∧ t.st = .running n ∧ n < j.steps t.layer ∧ sl.onSegment lay j t n = some t' ∧ 
      sl.badLines lay j t = [] ∧ (sl.opBuf lay).job = some j.id ∧ sl.work.rotDue lay = false) ∧
  (∃ (s : State) (i : Nat) (lay : Nat) (sl : Slice) (j : Job) (t : Tile) (u : Tile),
    s.working i sl ∧ lay < 2 ∧ sl.jobs lay = [j] ∧ sl.jobs (1 - lay) = [] ∧ j.tiles = [t, u] ∧ t.st = .running (j.steps t.layer) ∧ 
      u.st = .running 0 ∧ sl.badLines lay j t = [] ∧ sl.work.reserving = none ∧ sl.calm) :=
  ⟨⟨(t0.put 0 (tMashed { tMash with gathers := [{ tGather ({ tQuery with kind := .token, next := { tQuery.next with ckind := 6, addr := 0x1000 } }) with lay := 0 }] })).withCap { tCap with img := { tCap.img with profiles := [[8, 0, 100, 0, 8, 0, 0, 0, 100, 0, 0, 0, 0, 0, 0, 0]] } }, 
    0, 0, tMashed ({ tMash with gathers := [{ tGather ({ tQuery with kind := .token, next := { tQuery.next with ckind := 6, addr := 0x1000 } }) with lay := 0 }] }), 
      { tGather ({ tQuery with kind := .token, next := { tQuery.next with ckind := 6, addr := 0x1000 } }) with lay := 0 }, tC 1, by decide +kernel⟩,
   ⟨t0.put 0 ({ tWorks [{ tTile .reserving with lines := ((tJob []).tileLines (tTile .reserving)).map (fun a => (a, setOf a, 1)) }] with work := { (tWorks [{ tTile .reserving with lines := ((tJob []).tileLines (tTile .reserving)).map (fun a => (a, setOf a, 1)) }]).work with reserving := some (0, 5, 0) } }), 
     0, 0, { tWorks [{ tTile .reserving with lines := ((tJob []).tileLines (tTile .reserving)).map (fun a => (a, setOf a, 1)) }] with work := { (tWorks [{ tTile .reserving with lines := ((tJob []).tileLines (tTile .reserving)).map (fun a => (a, setOf a, 1)) }]).work with reserving := some (0, 5, 0) } }, 
       tJob [{ tTile .reserving with lines := ((tJob []).tileLines (tTile .reserving)).map (fun a => (a, setOf a, 1)) }], 
       { tTile .reserving with lines := ((tJob []).tileLines (tTile .reserving)).map (fun a => (a, setOf a, 1)) }, by decide +kernel⟩,
   ⟨t0.put 0 (tWorks [tTile .reserved]), 0, 0, 0, 0, tWorks [tTile .reserved], tJob [tTile .reserved], tTile .reserved, by decide +kernel⟩,
   ⟨t0.put 0 (tWorks [{ tTile (.running 0) with accs := (tJob []).emptyAccs .bf16 (tTile .reserved) }]), 0, 0, 0, 0, 
     tWorks [{ tTile (.running 0) with accs := (tJob []).emptyAccs .bf16 (tTile .reserved) }], 
       tJob [{ tTile (.running 0) with accs := (tJob []).emptyAccs .bf16 (tTile .reserved) }], 
       { tTile (.running 0) with accs := (tJob []).emptyAccs .bf16 (tTile .reserved) }, 
       { tTile (.running 0) with accs := (tJob []).emptyAccs .bf16 (tTile .reserved) }, by decide +kernel⟩,
   ⟨t0.put 0 (tWorks [{ tTile (.running 1) with lines := [(0x4000, setOf 0x4000, 1)] }, tTile (.running 0)]), 0, 0, 
     tWorks [{ tTile (.running 1) with lines := [(0x4000, setOf 0x4000, 1)] }, tTile (.running 0)], 
       tJob [{ tTile (.running 1) with lines := [(0x4000, setOf 0x4000, 1)] }, tTile (.running 0)], 
       { tTile (.running 1) with lines := [(0x4000, setOf 0x4000, 1)] }, tTile (.running 0), by decide +kernel⟩⟩

theorem witness_queriesMigrate :
  (∃ (s : State) (i : Nat) (k : Nat) (sl : Slice) (m : RopeMsg) (q : Query),
    s.working i sl ∧ sl.rope.hold = false ∧ s.rope[k]? = some m ∧ m.dest = i ∧ m.body = .migrate q ∧ q.poison = [] ∧ sl.replaying q = false ∧ 
      sl.store.spilling = false ∧ 24576 + entryGranules (q.payloadBytes (sl.view s.cap)) ≤ sl.store.freeCount) ∧
  (∃ (s : State) (i : Nat) (k : Nat) (sl : Slice) (m : RopeMsg) (q : Query),
    s.working i sl ∧ sl.rope.hold = false ∧ s.rope[k]? = some m ∧ m.dest = i ∧ m.body = .migratePtr q ∧ q.poison = [] ∧ sl.replaying q = false) ∧
  (∃ (s : State) (i : Nat) (port : Nat) (sl : Slice) (p : Port) (x : Port) (m : RopeMsg) (rest : List RopeMsg),
    s.working i sl ∧ sl.rope.hold = false ∧ sl.rope.ports[port]? = some p ∧ p.ptrq = m :: rest ∧ 
      (({ m with epoch := sl.rope.epoch }).flits (sl.view s.cap)).head?.bind p.sendOne = some x) ∧
  (∃ (s : State) (i : Nat) (k : Nat) (first : Nat) (sl : Slice) (m : RopeMsg) (q : Query) (c : Ctx) (st : Store),
    s.working i sl ∧ sl.rope.hold = false ∧ s.rope[k]? = some m ∧ m.dest = i ∧ m.body = .migrate q ∧ q.poison = [] ∧ sl.replaying q = false ∧ 
      (sl.view s.cap).ctx? q.ctx = some c ∧ q.slot = [] ∧ sl.store.entries.find? q.owns = none ∧ 
      sl.store.place (entryGranules (q.payloadBytes (sl.view s.cap))) (kindCode q.kind) q.home q.batch q.qindex q.guest = some (first, st) ∧ 
      24576 ≤ st.freeCount ∧ st.spilling = false ∧ q.next.ckind ≠ 6 ∧ sl.opensBin q) ∧
  (∃ (s : State) (i : Nat) (k : Nat) (sl : Slice) (m : RopeMsg) (q : Query) (c : Ctx),
    s.working i sl ∧ sl.rope.hold = false ∧ s.rope[k]? = some m ∧ m.dest = i ∧ m.body = .migratePtr q ∧ q.poison = [] ∧ sl.replaying q = false ∧ 
      (sl.view s.cap).ctx? q.ctx = some c ∧ q.next.ckind ≠ 6 ∧ sl.opensBin q) ∧
  (∃ (s : State) (i : Nat) (port : Nat) (sl : Slice) (p : Port) (x : Port) (m : RopeMsg) (q : Query) (rest : List RopeMsg),
    s.working i sl ∧ sl.rope.hold = false ∧ sl.rope.ports[port]? = some p ∧ p.ptrq = m :: rest ∧ m.body = .migratePtr q ∧ 
      (({ m with epoch := sl.rope.epoch }).flits (sl.view s.cap)).head?.bind p.sendOne = some x ∧ q.home = sl.id ∧ (∀ y ∈ sl.rope.ports, 
      y.leaving = [])) ∧
  (∃ (s : State) (i : Nat) (port : Nat) (sl : Slice) (p : Port),
    s.working i sl ∧ sl.rope.ports[port]? = some p ∧ p.ptrq = []) :=
  ⟨⟨{ t0 with rope := [tMsg (.migrate ({ tQuery with home := 1, kind := .token, payload := [0x38], next := { tQuery.next with ckind := 6 } }))] }, 
    0, 0, tS 0, tMsg (.migrate ({ tQuery with home := 1, kind := .token, payload := [0x38], next := { tQuery.next with ckind := 6 } })), 
      { tQuery with home := 1, kind := .token, payload := [0x38], next := { tQuery.next with ckind := 6 } }, by decide +kernel⟩,
   ⟨{ t0 with rope := [tMsg (.migratePtr ({ tQuery with home := 1, slot := [(5, 2)], kind := .token, payload := [0x38], next := { tQuery.next with ckind := 6 } }))] }, 
     0, 0, tS 0, tMsg (.migratePtr ({ tQuery with home := 1, slot := [(5, 2)], kind := .token, payload := [0x38], next := { tQuery.next with ckind := 6 } })), 
       { tQuery with home := 1, slot := [(5, 2)], kind := .token, payload := [0x38], next := { tQuery.next with ckind := 6 } }, by decide +kernel⟩,
   ⟨t0.put 0 (tLinked 0 1 ({ tPort with ptrq := [tMsg (.migratePtr ({ tQuery with home := 1, slot := [(5, 2)], kind := .token, payload := [0x38], next := { tQuery.next with ckind := 6 } })), tMsg (.migratePtr tQuery)] })), 
     0, 1, tLinked 0 1 ({ tPort with ptrq := [tMsg (.migratePtr ({ tQuery with home := 1, slot := [(5, 2)], kind := .token, payload := [0x38], next := { tQuery.next with ckind := 6 } })), tMsg (.migratePtr tQuery)] }), 
       { tPort with ptrq := [tMsg (.migratePtr ({ tQuery with home := 1, slot := [(5, 2)], kind := .token, payload := [0x38], next := { tQuery.next with ckind := 6 } })), tMsg (.migratePtr tQuery)] }, 
       ((((tMsg (.migratePtr ({ tQuery with home := 1, slot := [(5, 2)], kind := .token, payload := [0x38], next := { tQuery.next with ckind := 6 } }))).flits tCap).head?.bind ({ tPort with ptrq := [tMsg (.migratePtr ({ tQuery with home := 1, slot := [(5, 2)], kind := .token, payload := [0x38], next := { tQuery.next with ckind := 6 } })), tMsg (.migratePtr tQuery)] }).sendOne).getD resetPort), 
       tMsg (.migratePtr ({ tQuery with home := 1, slot := [(5, 2)], kind := .token, payload := [0x38], next := { tQuery.next with ckind := 6 } })), 
       [tMsg (.migratePtr tQuery)], by decide +kernel⟩,
   ⟨{ t0 with rope := [tMsg (.migrate { tQuery with home := 1 })] }, 0, 0, 0, tS 0, tMsg (.migrate { tQuery with home := 1 }), 
     { tQuery with home := 1 }, tC 1, 
       ((tS 0).store.place (entryGranules (({ tQuery with home := 1 }).payloadBytes tCap)) 1 1 0 0 false |>.map (·.2)).getD (tS 9).store, 
       by decide +kernel⟩,
   ⟨{ t0 with rope := [tMsg (.migratePtr { tQuery with home := 1, slot := [(5, 2)] })] }, 0, 0, tS 0, 
     tMsg (.migratePtr { tQuery with home := 1, slot := [(5, 2)] }), { tQuery with home := 1, slot := [(5, 2)] }, tC 1, by decide +kernel⟩,
   ⟨t0.put 0 (tLinked 0 1 ({ tPort with ptrq := [tMsg (.migratePtr { tQuery with ctx := 9 })] })), 0, 1, 
     tLinked 0 1 ({ tPort with ptrq := [tMsg (.migratePtr { tQuery with ctx := 9 })] }), 
       { tPort with ptrq := [tMsg (.migratePtr { tQuery with ctx := 9 })] }, 
       ((((tMsg (.migratePtr ({ tQuery with ctx := 9 }))).flits tCap).head?.bind ({ tPort with ptrq := [tMsg (.migratePtr { tQuery with ctx := 9 })] }).sendOne).getD resetPort), 
       tMsg (.migratePtr { tQuery with ctx := 9 }), { tQuery with ctx := 9 }, [], by decide +kernel⟩,
   ⟨t0.put 0 (tLinked 0 1 tPort), 0, 1, tLinked 0 1 tPort, tPort, by decide +kernel⟩⟩

theorem witness_resultsAreTaken :
  (∃ (s : State) (i : Nat) (k : Nat) (sl : Slice) (r : ResMsg) (b : Batch) (x : QRes) (c : Ctx),
    s.brings i k sl r b ∧ s.awaits sl r b x c ∧ x.ended = none ∧ x.stat = .ok ∧ r.rkind = .hostReport) ∧
  (∃ (s : State) (i : Nat) (k : Nat) (sl : Slice) (r : ResMsg) (b : Batch) (x : QRes) (c : Ctx),
    s.brings i k sl r b ∧ s.awaits sl r b x c ∧ x.got < r.parts ∧ r.rkind = .rayEnd) ∧
  (∃ (s : State) (i : Nat) (k : Nat) (sl : Slice) (r : ResMsg) (b : Batch) (x : QRes) (c : Ctx),
    s.brings i k sl r b ∧ s.awaits sl r b x c ∧ x.got < r.parts ∧ r.rkind = .lost ∧ (b.mode c ≠ 6 ∨ x.branches = 0)) ∧
  (∃ (s : State) (i : Nat) (k : Nat) (p : Nat) (sl : Slice) (r : ResMsg) (b : Batch) (x : QRes) (c : Ctx),
    s.brings i k sl r b ∧ s.awaits sl r b x c ∧ x.stat = .dataLost ∧ x.ended = some p ∧ x.got + 1 < p ∧ r.rkind = .contrib) ∧
  (∃ (s : State) (i : Nat) (k : Nat) (sl : Slice) (r : ResMsg) (b : Batch) (x : QRes) (c : Ctx),
    s.brings i k sl r b ∧ s.awaits sl r b x c ∧ r.rkind = .lost ∧ b.mode c = 6 ∧ x.branches ≠ 0) ∧
  (∃ (s : State) (i : Nat) (k : Nat) (sl : Slice) (r : ResMsg) (b : Batch),
    s.brings i k sl r b ∧ b.replaying.isSome = true ∧ r.rkind.ends = false) :=
  ⟨⟨{ t0.put 0 (tBatched { tBatch with res := [tQRes 0, tQRes 1] }) with rope := [tMsg (.result ((tResult .hostReport)))] }, 0, 0, 
    tBatched { tBatch with res := [tQRes 0, tQRes 1] }, (tResult .hostReport), { tBatch with res := [tQRes 0, tQRes 1] }, tQRes 0, tC 1, 
      by decide +kernel⟩,
   ⟨{ t0.put 0 (tBatched { tBatch with res := [tQRes 0, tQRes 1] }) with rope := [tMsg (.result ((tResult .rayEnd)))] }, 0, 0, 
     tBatched { tBatch with res := [tQRes 0, tQRes 1] }, (tResult .rayEnd), { tBatch with res := [tQRes 0, tQRes 1] }, tQRes 0, tC 1, 
       by decide +kernel⟩,
   ⟨{ t0.put 0 (tBatched { tBatch with res := [tQRes 0, tQRes 1] }) with rope := [tMsg (.result ((tResult .lost)))] }, 0, 0, 
     tBatched { tBatch with res := [tQRes 0, tQRes 1] }, (tResult .lost), { tBatch with res := [tQRes 0, tQRes 1] }, tQRes 0, tC 1, 
       by decide +kernel⟩,
   ⟨{ t0.put 0 (tBatched { tBatch with res := [{ tQRes 0 with stat := .dataLost, ended := some 2 }, tQRes 1] }) with rope := [tMsg (.result ((tResult .contrib)))] }, 
     0, 0, 2, tBatched { tBatch with res := [{ tQRes 0 with stat := .dataLost, ended := some 2 }, tQRes 1] }, (tResult .contrib), 
       { tBatch with res := [{ tQRes 0 with stat := .dataLost, ended := some 2 }, tQRes 1] }, { tQRes 0 with stat := .dataLost, ended := some 2 }, 
       tC 1, by decide +kernel⟩,
   ⟨{ (tCtxs [{ tC 1 with fixed := (tC 1).fixed.set 1 6 }]).put 0 (tBatched { tBatch with res := [{ tQRes 0 with branches := 2 }, tQRes 1] }) with rope := [tMsg (.result (tResult .lost))] }, 
     0, 0, tBatched { tBatch with res := [{ tQRes 0 with branches := 2 }, tQRes 1] }, (tResult .lost), 
       { tBatch with res := [{ tQRes 0 with branches := 2 }, tQRes 1] }, { tQRes 0 with branches := 2 }, 
       { tC 1 with fixed := (tC 1).fixed.set 1 6 }, by decide +kernel⟩,
   ⟨{ t0.put 0 (tBatched { tBatch with replaying := some [0] }) with rope := [tMsg (.result ((tResult .hostReport)))] }, 0, 0, 
     tBatched { tBatch with replaying := some [0] }, (tResult .hostReport), { tBatch with replaying := some [0] }, by decide +kernel⟩⟩

theorem witness_resultWritesAreAcknowledgedAndRetried :
  (∃ (s : State) (i : Nat) (id : Nat) (h : Nat) (sl : Slice) (w : MeshWrite) (b : Batch),
    s.working i sl ∧ sl.ing.pendq = [] ∧ sl.ing.meshWait = [] ∧ sl.calm ∧ sl.meshWrite? id false = some w ∧ w.isResult = true ∧ w.handle = some h ∧ 
      sl.batch? h = some b ∧ b.allEnded = false) ∧
  (∃ (s : State) (i : Nat) (id : Nat) (h : Nat) (sl : Slice) (w : MeshWrite) (b : Batch),
    s.working i sl ∧ sl.ing.pendq = [] ∧ sl.ing.meshWait = [] ∧ sl.calm ∧ sl.meshWrite? id false = some w ∧ w.kind = .taken ∧ w.handle = some h ∧ 
      sl.batch? h = some b ∧ b.allEnded = false) ∧
  (∃ (s : State) (i : Nat) (k : Nat) (sl : Slice) (w : MeshWrite),
    s.working i sl ∧ sl.meshWrite? k false = some w ∧ w.retried = false) ∧
  (∃ (s : State) (i : Nat) (k : Nat) (h : Nat) (sl : Slice) (w : MeshWrite) (b : Batch),
    s.working i sl ∧ sl.ing.pendq = [] ∧ sl.meshWrite? k false = some w ∧ w.retried = true ∧ w.isResult = true ∧ w.handle = some h ∧ 
      sl.batch? h = some b ∧ b.budget < 63) ∧
  (∃ (s : State) (i : Nat) (k : Nat) (sl : Slice) (w : MeshWrite),
    s.working i sl ∧ sl.ing.pendq = [] ∧ sl.meshWrite? k true = some w ∧ w.retryAt ≤ sl.time) ∧
  (∃ (s : State) (i : Nat) (k : Nat) (sl : Slice) (w : MeshWrite) (_r : Bool),
    s.working i sl ∧ sl.meshWrite? k true = some w ∧ sl.time < w.retryAt) ∧
  (∃ (s : State) (i : Nat) (k : Nat) (h : Nat) (sl : Slice) (w : MeshWrite) (b : Batch),
    s.working i sl ∧ sl.ing.pendq = [] ∧ sl.meshWrite? k true = some w ∧ w.retryAt ≤ sl.time ∧ w.isResult = true ∧ w.handle = some h ∧ 
      sl.batch? h = some b ∧ b.budget < 63) ∧
  (∃ (s : State) (i : Nat) (q : Nat) (sl : Slice) (w : MeshWrite) (b : Batch),
    s.working i sl ∧ sl.ing.pendq = [] ∧ sl.ing.meshOut = [w] ∧ sl.ing.meshWait = [] ∧ sl.calm ∧ w.waiting = true ∧ w.retryAt ≤ sl.time ∧ 
      w.handle = some b.handle ∧ w.kind = .slot q ∧ w.block = none ∧ w.op = .write ∧ sl.ing.batches = [b] ∧ b.budget = 63 ∧ b.replaying = none ∧ 
      b.allEnded = false) :=
  ⟨⟨t0.put 0 ({ tStreamed 8 { emptyStream with transfers := [{ index := 0, block := { tBlock 5 with use := .result tWrite }, credits := 1, reserve := true, handles := [5], done := false }], next := 1, heldReserve := 1 } with ing := { (tS 0).ing with batches := [{ tBatch with res := [{ tQRes 0 with ended := some 1 }, tQRes 1], budget := 5 }], meshOut := [{ tWrite with handle := some 0, kind := .vector 0 3, op := .accumF32, block := some (8, 0) }, { tWrite with id := 1 }] } }), 
    0, 0, 0, { tStreamed 8 { emptyStream with transfers := [{ index := 0, block := { tBlock 5 with use := .result tWrite }, credits := 1, reserve := true, handles := [5], done := false }], next := 1, heldReserve := 1 } with ing := { (tS 0).ing with batches := [{ tBatch with res := [{ tQRes 0 with ended := some 1 }, tQRes 1], budget := 5 }], meshOut := [{ tWrite with handle := some 0, kind := .vector 0 3, op := .accumF32, block := some (8, 0) }, { tWrite with id := 1 }] } }, 
      { tWrite with handle := some 0, kind := .vector 0 3, op := .accumF32, block := some (8, 0) }, 
      { tBatch with res := [{ tQRes 0 with ended := some 1 }, tQRes 1], budget := 5 }, by decide +kernel⟩,
   ⟨t0.put 0 ({ tS 0 with ing := { (tS 0).ing with batches := [{ tBatch with takenAcked := false, res := [tQRes 0] }], meshOut := [{ tWrite with handle := some 0, kind := .taken, op := .addU32 }] } }), 
     0, 0, 0, { tS 0 with ing := { (tS 0).ing with batches := [{ tBatch with takenAcked := false, res := [tQRes 0] }], meshOut := [{ tWrite with handle := some 0, kind := .taken, op := .addU32 }] } }, 
       { tWrite with handle := some 0, kind := .taken, op := .addU32 }, { tBatch with takenAcked := false, res := [tQRes 0] }, by decide +kernel⟩,
   ⟨t0.put 0 ({ tS 0 with ing := { (tS 0).ing with batches := [{ tBatch with res := [{ tQRes 0 with ended := some 1 }, tQRes 1], budget := 5 }], meshOut := [{ tWrite with handle := some 0, waiting := false, retried := false }] } }), 
     0, 0, { tS 0 with ing := { (tS 0).ing with batches := [{ tBatch with res := [{ tQRes 0 with ended := some 1 }, tQRes 1], budget := 5 }], meshOut := [{ tWrite with handle := some 0, waiting := false, retried := false }] } }, 
       { tWrite with handle := some 0, waiting := false, retried := false }, by decide +kernel⟩,
   ⟨t0.put 0 ({ tS 0 with ing := { (tS 0).ing with batches := [{ tBatch with res := [{ tQRes 0 with ended := some 1 }, tQRes 1], budget := 5 }], meshOut := [{ tWrite with handle := some 0, retried := true }] } }), 
     0, 0, 0, { tS 0 with ing := { (tS 0).ing with batches := [{ tBatch with res := [{ tQRes 0 with ended := some 1 }, tQRes 1], budget := 5 }], meshOut := [{ tWrite with handle := some 0, retried := true }] } }, 
       { tWrite with handle := some 0, retried := true }, { tBatch with res := [{ tQRes 0 with ended := some 1 }, tQRes 1], budget := 5 }, 
       by decide +kernel⟩,
   ⟨t0.put 0 ({ tS 0 with ing := { (tS 0).ing with batches := [{ tBatch with res := [{ tQRes 0 with ended := some 1 }, tQRes 1], budget := 5 }], meshOut := [{ tWrite with handle := some 0, waiting := true, retried := false }] } }), 
     0, 0, { tS 0 with ing := { (tS 0).ing with batches := [{ tBatch with res := [{ tQRes 0 with ended := some 1 }, tQRes 1], budget := 5 }], meshOut := [{ tWrite with handle := some 0, waiting := true, retried := false }] } }, 
       { tWrite with handle := some 0, waiting := true, retried := false }, by decide +kernel⟩,
   ⟨t0.put 0 ({ tS 0 with ing := { (tS 0).ing with batches := [{ tBatch with res := [{ tQRes 0 with ended := some 1 }, tQRes 1], budget := 5 }], meshOut := [{ { tWrite with handle := some 0, waiting := true, retried := false } with retryAt := (tS 0).time + 1 }] } }), 
     0, 0, { tS 0 with ing := { (tS 0).ing with batches := [{ tBatch with res := [{ tQRes 0 with ended := some 1 }, tQRes 1], budget := 5 }], meshOut := [{ { tWrite with handle := some 0, waiting := true, retried := false } with retryAt := (tS 0).time + 1 }] } }, 
       { { tWrite with handle := some 0, waiting := true, retried := false } with retryAt := (tS 0).time + 1 }, true, by decide +kernel⟩,
   ⟨t0.put 0 ({ tS 0 with ing := { (tS 0).ing with batches := [{ tBatch with res := [{ tQRes 0 with ended := some 1 }, tQRes 1], budget := 5 }], meshOut := [{ tWrite with handle := some 0, waiting := true, retried := false }] } }), 
     0, 0, 0, { tS 0 with ing := { (tS 0).ing with batches := [{ tBatch with res := [{ tQRes 0 with ended := some 1 }, tQRes 1], budget := 5 }], meshOut := [{ tWrite with handle := some 0, waiting := true, retried := false }] } }, 
       { tWrite with handle := some 0, waiting := true, retried := false }, 
       { tBatch with res := [{ tQRes 0 with ended := some 1 }, tQRes 1], budget := 5 }, by decide +kernel⟩,
   ⟨t0.put 0 ({ tS 0 with ing := { (tS 0).ing with batches := [{ tBatch with res := [{ tQRes 0 with ended := some 1 }, tQRes 1], budget := 63 }], meshOut := [{ tWrite with handle := some 0, waiting := true, retried := false }] } }), 
     0, 0, { tS 0 with ing := { (tS 0).ing with batches := [{ tBatch with res := [{ tQRes 0 with ended := some 1 }, tQRes 1], budget := 63 }], meshOut := [{ tWrite with handle := some 0, waiting := true, retried := false }] } }, 
       { tWrite with handle := some 0, waiting := true, retried := false }, 
       { tBatch with res := [{ tQRes 0 with ended := some 1 }, tQRes 1], budget := 63 }, by decide +kernel⟩⟩

theorem witness_journalWritesSettleAndReplaysRun :
  (∃ (s : State) (i : Nat) (sl : Slice) (j : JWrite) (rest : List JWrite),
    s.working i sl ∧ sl.ing.jwrites = j :: rest ∧ sl.ing.fromJournal = [] ∧ sl.ing.adopting = [] ∧ sl.calm) ∧
  (∃ (s : State) (i : Nat) (sl : Slice) (j : JWrite) (rest : List JWrite),
    s.working i sl ∧ sl.ing.jwrites = j :: rest ∧ j.settles = none ∧ sl.cache.evict = [] ∧ sl.ing.fromJournal = [] ∧ sl.ing.adopting = []) ∧
  (∃ (s : State) (i : Nat) (h : Nat) (a : Nat) (sl : Slice) (b : Batch) (c : Ctx),
    s.working i sl ∧ sl.batch? h = some b ∧ (sl.view s.cap).ctx? b.desc.ctx = some c ∧ b.replaying = some [] ∧ s.resultUnderway i h = false ∧ 
      (∀ x ∈ b.items, x.use = .ledger) ∧ a ∈ ledgerLines c b.items ∧ sl.cache.seen (sl.view s.cap) .stream c.id a = none ∧ 
      sl.cache.arrived .stream c.id a = []) ∧
  (∃ (s : State) (i : Nat) (ls : List (List Byte)) (sl : Slice) (b : Batch) (c : Ctx) (q : Query) (x : QRes) (e : QEntry),
    s.working i sl ∧ sl.ing.batches = [b] ∧ (sl.view s.cap).ctx? b.desc.ctx = some c ∧ b.replaying = some [] ∧ (∀ y ∈ b.items, y.use = .ledger) ∧ 
      (ledgerLines c b.items).map (sl.cache.seen (sl.view s.cap) .stream c.id) = ls.map (fun bs => some (bs, [])) ∧ (∀ bs ∈ ls, bs.length = 256) ∧ 
      b.res = [x] ∧ x.stat = .ok ∧ s.resultUnderway i b.handle = false ∧ ledgerQueries sl.id b.handle b.desc c b.items [x.q] ls.flatten = ([q], 
      []) ∧ sl.store.entries.find? q.owns = some e ∧ (sl.view s.cap).ctx? q.ctx = some c ∧ 
      (({ q with entry := e.first, spilled := e.spilled }).atRoot (rootRef (sl.view s.cap) c)).next.ckind ≠ 6 ∧ 
      sl.opensBin (({ q with entry := e.first, spilled := e.spilled }).atRoot (rootRef (sl.view s.cap) c))) ∧
  (∃ (s : State) (i : Nat) (ls : List (List Byte)) (sl : Slice) (b : Batch) (c : Ctx) (q : Query) (x : QRes) (e : QEntry),
    s.working i sl ∧ sl.ing.batches = [b] ∧ (sl.view s.cap).ctx? b.desc.ctx = some c ∧ b.replaying = some [] ∧ (∀ y ∈ b.items, y.use = .ledger) ∧ 
      (ledgerLines c b.items).map (sl.cache.seen (sl.view s.cap) .stream c.id) = ls.map (fun bs => some (bs, [])) ∧ (∀ bs ∈ ls, bs.length = 256) ∧ 
      b.res = [x] ∧ x.stat = .ok ∧ s.resultUnderway i b.handle = false ∧ ledgerQueries sl.id b.handle b.desc c b.items [x.q] ls.flatten = ([q], 
      []) ∧ sl.store.entries.find? q.owns = some e ∧ (sl.view s.cap).ctx? q.ctx = some c ∧ 
      (({ q with entry := e.first, spilled := e.spilled }).atRoot (rootRef (sl.view s.cap) c)).next.ckind ≠ 6 ∧ 
      sl.opensBin (({ q with entry := e.first, spilled := e.spilled }).atRoot (rootRef (sl.view s.cap) c))) ∧
  (∃ (s : State) (i : Nat) (h : Nat) (sl : Slice) (_reads : Decodes),
    s.working i sl ∧ s.resultUnderway i h = true) ∧
  (∃ (s : State) (i : Nat) (h : Nat) (sl : Slice) (_reads : Decodes),
    s.working i sl ∧ s.resultUnderway i h = true) :=
  ⟨⟨t0.put 0 ({ tBatched { tBatch with jstate := .ledgered } with ing := { (tBatched { tBatch with jstate := .ledgered }).ing with jwrites := [tJWrite .taken (some 3)] } }), 
    0, { tBatched { tBatch with jstate := .ledgered } with ing := { (tBatched { tBatch with jstate := .ledgered }).ing with jwrites := [tJWrite .taken (some 3)] } }, 
      tJWrite .taken (some 3), [], by decide +kernel⟩,
   ⟨t0.put 0 ({ tBatched { tBatch with phase := .closed } with ing := { (tBatched { tBatch with phase := .closed }).ing with jwrites := [tJWrite .free none] } }), 
     0, { tBatched { tBatch with phase := .closed } with ing := { (tBatched { tBatch with phase := .closed }).ing with jwrites := [tJWrite .free none] } }, 
       tJWrite .free none, [], by decide +kernel⟩,
   ⟨t0.put 0 (tBatched tReplay), 0, 0, 0x10000400, tBatched tReplay, tReplay, tC 1, by decide +kernel⟩,
   ⟨t0.put 0 (tReplays), 0, tLedger, tReplays, tReplay, tC 1, tRerun, tQRes 0, tEntered, by decide +kernel⟩,
   ⟨t0.put 0 ({ tReplays with store := { (tS 0).store with entries := [{ tEntered with spilled := true, runs := [] }] } }), 0, tLedger, 
     { tReplays with store := { (tS 0).store with entries := [{ tEntered with spilled := true, runs := [] }] } }, tReplay, tC 1, tRerun, tQRes 0, 
       { tEntered with spilled := true, runs := [] }, by decide +kernel⟩,
   ⟨{ t0 with rope := [tMsg (.result (tResult .rayEnd))] }, 0, 0, tS 0, [], by decide +kernel⟩,
   ⟨t0.put 0 { tS 0 with rope := { (tS 0).rope with sendq := [(tMsg (.result (tResult .rayEnd)), [])] } }, 0, 0, 
     { tS 0 with rope := { (tS 0).rope with sendq := [(tMsg (.result (tResult .rayEnd)), [])] } }, [], by decide +kernel⟩⟩

theorem witness_refetchesScrubsAndRotationEnd :
  (∃ (s : State) (i : Nat) (addr : Nat) (sl : Slice),
    s.working i sl ∧ sl.cache.refetching addr = false) ∧
  (∃ (s : State) (i : Nat) (sl : Slice) (q : Query) (h : Hitch) (c : Ctx),
    s.working i sl ∧ sl.work.hitched = [q] ∧ q.hitch = some h ∧ h.cause = .refetch ∧ sl.cache.refetching h.addr = false ∧ q.next.ckind ≠ 6 ∧ 
      (sl.view s.cap).ctx? q.ctx = some c ∧ sl.opensBin q) ∧
  (∃ (s : State) (i : Nat) (sl : Slice) (_r : ScrubRow),
    s.working i sl) ∧
  (∃ (s : State) (i : Nat) (sl : Slice),
    s.working i sl ∧ (s.cap.img.rotate = false ∨ sl.pwr.napping = true ∨ sl.time < sl.work.rotAt + 2000 * s.cap.img.rotPeriod)) ∧
  (∃ (s : State) (i : Nat) (x : Nat) (p : Nat) (sl : Slice),
    s.working i sl ∧ s.cap.img.rotate = true ∧ sl.pwr.napping = false ∧ sl.work.rotAt + 2000 * s.cap.img.rotPeriod ≤ sl.time ∧ 
      sl.work.layRetired = [1] ∧ sl.work.layOff = none ∧ sl.work.rotUnit0 = none ∧ sl.work.rotStep0 = 0 ∧ sl.work.retired 0 true 0 = false ∧ 
      sl.work.spare 0 true = some x ∧ x ≠ 0 ∧ sl.work.walkMap0[p]? = some 0 ∧ (∀ k < p, sl.work.walkMap0[k]? ≠ some 0)) ∧
  (∃ (s : State) (i : Nat) (x : Nat) (p : Nat) (sl : Slice),
    s.working i sl ∧ s.cap.img.rotate = true ∧ sl.pwr.napping = false ∧ sl.work.rotAt + 2000 * s.cap.img.rotPeriod ≤ sl.time ∧ 
      sl.work.layRetired = [1] ∧ sl.work.layOff = none ∧ sl.work.rotUnit0 = none ∧ sl.work.rotStep0 = 0 ∧ sl.work.retired 0 true 0 = false ∧ 
      sl.work.spare 0 true = some x ∧ x ≠ 0 ∧ sl.work.walkMap0[p]? = some 0 ∧ (∀ k < p, sl.work.walkMap0[k]? ≠ some 0)) ∧
  (∃ (s : State) (i : Nat) (u : Nat) (sl : Slice),
    s.working i sl ∧ sl.work.rotUnit0 = some u ∧ sl.work.rotDue0 = false) ∧
  (∃ (s : State) (i : Nat) (u : Nat) (sl : Slice),
    s.working i sl ∧ s.decides ∧ sl.work.rotUnit0 = some u ∧ sl.work.rotDue0 = false ∧ u < 9 ∧ sl.work.walkMap0 ≠ [] ∧ 
      s.cap.hl.repairs.length < 4096 ∧ sl.tokens ≠ 0 ∧ sl.dropped = 0) :=
  ⟨⟨t0.put 0 ({ tS 0 with work := { (tS 0).work with hitched := [{ tQuery with hitch := some { cause := .refetch, addr := 0x1000, layer := none, source := 1 } }, { tQuery with kind := .token, next := { tQuery.next with ckind := 6 }, hitch := some { cause := .refetch, addr := 0x1080, layer := none, source := 1 } }, { tQuery with qindex := 3 }] } }), 
    0, 0x1000, { tS 0 with work := { (tS 0).work with hitched := [{ tQuery with hitch := some { cause := .refetch, addr := 0x1000, layer := none, source := 1 } }, { tQuery with kind := .token, next := { tQuery.next with ckind := 6 }, hitch := some { cause := .refetch, addr := 0x1080, layer := none, source := 1 } }, { tQuery with qindex := 3 }] } }, 
      by decide +kernel⟩,
   ⟨t0.put 0 ({ tS 0 with work := { (tS 0).work with hitched := [{ tQuery with hitch := some { cause := .refetch, addr := 0x1000, layer := none, source := 1 } }] } }), 
     0, { tS 0 with work := { (tS 0).work with hitched := [{ tQuery with hitch := some { cause := .refetch, addr := 0x1000, layer := none, source := 1 } }] } }, 
       { tQuery with hitch := some { cause := .refetch, addr := 0x1000, layer := none, source := 1 } }, 
       { cause := .refetch, addr := 0x1000, layer := none, source := 1 }, tC 1, by decide +kernel⟩,
   ⟨t0.put 0 (tS 0), 0, tS 0, .granule 5 0, by decide +kernel⟩,
   ⟨t0.put 0 (tS 0), 0, tS 0, by decide +kernel⟩,
   ⟨(t0.withCap { tCap with img := { tCap.img with rotate := true, rotPeriod := 20 } }).put 0 ({ tS 0 with work := { (tS 0).work with layRetired := [1] } }), 
     0, 8, 0, { tS 0 with work := { (tS 0).work with layRetired := [1] } }, by decide +kernel⟩,
   ⟨(t0.withCap { tCap with img := { tCap.img with rotate := true, rotPeriod := 20 } }).put 0 ({ tS 0 with work := { (tS 0).work with layRetired := [1], walkers0 := (tS 0).work.walkers0.set 0 { work := some (tPacket tQuery), parked := [] } } }), 
     0, 8, 0, { tS 0 with work := { (tS 0).work with layRetired := [1], walkers0 := (tS 0).work.walkers0.set 0 { work := some (tPacket tQuery), parked := [] } } }, 
       by decide +kernel⟩,
   ⟨t0.put 0 ({ tS 0 with work := { (tS 0).work with rotUnit0 := some 3 } }), 0, 3, { tS 0 with work := { (tS 0).work with rotUnit0 := some 3 } }, 
     by decide +kernel⟩,
   ⟨t0.put 0 ({ tS 0 with work := { (tS 0).work with rotUnit0 := some 3 } }), 0, 3, { tS 0 with work := { (tS 0).work with rotUnit0 := some 3 } }, 
     by decide +kernel⟩⟩

theorem witness_passesStartAndEnd :
  (∃ (s : State) (ctx : Nat) (_m : List MapRead) (x : Ctx),
    s.cap.acts = true ∧ s.settled ∧ s.cap.ctx? ctx = some x ∧ x.awaitStart = true ∧ x.cstate = .valid ∧ x.homed = false ∧ s.cap.cmd = none ∧ 
      (∀ sl ∈ s.slices, sl.ing.pendq = [] ∧ sl.calm ∧ ∀ e ∈ sl.cctx.slots, e.ctx = ctx → byteAt e.fixed 14 ≠ 1)) ∧
  (∃ (s : State) (ctx : Nat) (r : List EntryRead) (_m : List MapRead) (x : Ctx),
    s.cap.acts = true ∧ s.settled ∧ s.cap.ctx? ctx = some x ∧ x.awaitStart = true ∧ x.cstate = .valid ∧ x.pass ≠ .running ∧ s.cap.cmd = none ∧ 
      (∀ sl ∈ s.slices, sl.ing.pendq = []) ∧ s.readPoison r = true) ∧
  (∃ (s : State) (i : Nat) (j : Nat) (ctx : Nat) (sl : Slice) (x : Ctx),
    s.slices[i]? = some sl ∧ sl.works s.cap = true ∧ s.settled ∧ s.cap.ctx? ctx = some x ∧ x.pass = .draining ∧ x.awaitStart = false ∧ 
      sl.holdsPass ctx = false ∧ ¬ i ∈ x.emptied ∧ j < s.cap.n ∧ s.cap.isLive j = true ∧ j ≠ i ∧ ¬ j ∈ x.emptied) ∧
  (∃ (s : State) (i : Nat) (ctx : Nat) (sl : Slice),
    s.slices[i]? = some sl ∧ sl.holdsPass ctx = true) ∧
  (∃ (s : State) (i : Nat) (ctx : Nat) (sl : Slice) (x : Ctx),
    s.slices[i]? = some sl ∧ sl.works s.cap = true ∧ s.settled ∧ s.cap.ctx? ctx = some x ∧ x.pass = .draining ∧ x.awaitStart = false ∧ 
      sl.holdsPass ctx = false ∧ x.toInvalid = false ∧ x.faulted = false ∧ s.cap.acts = true ∧ (∀ j < s.cap.n, 
      s.cap.isLive j = true → j = i ∨ j ∈ x.emptied) ∧ s.passEmpty ctx = true) ∧
  (∃ (c : Capstan) (ctx : Nat) (f : Ctx → Ctx) (x : Ctx),
    c.ctx? ctx = some x ∧ (f x).id = x.id) :=
  ⟨⟨tCtxs [{ tC 1 with pass := .draining, awaitStart := true, pend := some ((tC 1).live.set 40 1) }], 1, [.failed 0x2000], 
    { tC 1 with pass := .draining, awaitStart := true, pend := some ((tC 1).live.set 40 1) }, by decide +kernel⟩,
   ⟨tCtxs [{ tC 1 with pass := .draining, awaitStart := true, pend := some ((tC 1).live.set 40 1) }], 1, [{ poison := true }], [], 
     { tC 1 with pass := .draining, awaitStart := true, pend := some ((tC 1).live.set 40 1) }, by decide +kernel⟩,
   ⟨tCtxs [{ tC 1 with pass := .draining }], 0, 1, 1, tS 0, { tC 1 with pass := .draining }, by decide +kernel⟩,
   ⟨t0.put 0 (tBatched tBatch), 0, 1, tBatched tBatch, by decide +kernel⟩,
   ⟨tCtxs [{ tC 1 with pass := .draining, emptied := [1] }], 0, 1, tS 0, { tC 1 with pass := .draining, emptied := [1] }, by decide +kernel⟩,
   ⟨tCap, 1, fun y => { y with misses := 7 }, tC 1, by decide +kernel⟩⟩

theorem witness_ticksAndDeadlinesHappen :
  (∃ (s : State) (x : Ctx),
    s.cap.acts = true ∧ s.cap.tb.on = true ∧ s.settled ∧ s.cap.img.syncMode = 2 ∧ s.cap.img.tickPeriod ≠ 0 ∧ s.cap.ctxs = [x] ∧ x.frame = true ∧ 
      x.cstate = .valid ∧ x.pass = .running ∧ x.toInvalid = false ∧ s.cap.tb.lastTick = none) ∧
  (∃ (s : State) (k : Nat),
    s.cap.su.power = .running ∧ s.cap.hl.restarting = some k ∧ s.cap.hl.failed = false ∧ s.cap.tb.on = true ∧ s.settled ∧ s.cap.img.syncMode = 2 ∧ 
      s.cap.img.tickPeriod ≠ 0 ∧ s.cap.tb.lastTick = none) ∧
  (∃ (s : State) (e : Nat),
    s.cap.acts = true ∧ s.cap.tb.on = true ∧ s.settled ∧ s.cap.img.syncMode = 1 ∧ s.cap.tb.lastEdge = some e ∧ s.cap.tb.time < e + 20000) ∧
  (∃ (s : State) (ctx : Nat) (x : Ctx),
    s.cap.acts = true ∧ s.settled ∧ s.cap.ctx? ctx = some x ∧ x.deadlineArmed = true ∧ x.tref + x.deadline ≤ s.cap.now ∧ s.quiet ctx = false ∧ 
      s.cap.log.first.length ≠ 1023) ∧
  (∃ (s : State) (ctx : Nat) (x : Ctx),
    s.cap.acts = true ∧ s.settled ∧ s.cap.ctx? ctx = some x ∧ x.deadlineArmed = true ∧ x.tref + x.deadline ≤ s.cap.now ∧ s.quiet ctx = true) ∧
  (∃ (s : State) (ctx : Nat) (x : Ctx),
    s.cap.ctx? ctx = some x ∧ s.cap.now < x.tref + x.deadline) :=
  ⟨⟨t0.withCap { tCap with ctxs := [{ tC 1 with fixed := (tC 1).fixed.set 15 2 }], img := { tCap.img with syncMode := 2, tickPeriod := 1000 } }, 
    { tC 1 with fixed := (tC 1).fixed.set 15 2 }, by decide +kernel⟩,
   ⟨t0.withCap { tCap with img := { tCap.img with syncMode := 2, tickPeriod := 1000 }, hl := { tCap.hl with restarting := some 5 } }, 5, 
     by decide +kernel⟩,
   ⟨t0.withCap { tCap with img := { tCap.img with syncMode := 1 }, tb := { tCap.tb with lastEdge := some 90000 } }, 90000, by decide +kernel⟩,
   ⟨(tCtxs [{ tC 1 with deadlineArmed := true, tref := 5 }]).put 0 (tBatched tBatch), 1, { tC 1 with deadlineArmed := true, tref := 5 }, 
     by decide +kernel⟩,
   ⟨tCtxs [{ tC 1 with deadlineArmed := true, tref := 5 }], 1, { tC 1 with deadlineArmed := true, tref := 5 }, by decide +kernel⟩,
   ⟨tCtxs [{ tC 1 with tref := 50001 }], 1, { tC 1 with tref := 50001 }, by decide +kernel⟩⟩

theorem witness_contextCommandsAreHandled :
  (∃ (s : State) (ctx : Nat),
    s.decides ∧ s.settled ∧ s.cap.cmd = none ∧ s.cap.su.state = .ready ∧ ctx < 4096 ∧ ctx < s.cap.img.ctxCount ∧ s.cap.ctx? ctx = none) ∧
  (∃ (s : State) (ctx : Nat) (x : Ctx),
    s.decides ∧ s.settled ∧ s.cap.cmd = none ∧ s.cap.su.state = .ready ∧ ctx < 4096 ∧ ctx < s.cap.img.ctxCount ∧ s.cap.ctx? ctx = some x ∧ 
      x.awaitStart = false ∧ x.cstate ≠ .invalid) ∧
  (∃ (s : State) (ctx : Nat) (x : Ctx),
    s.decides ∧ s.settled ∧ s.cap.cmd = none ∧ s.cap.su.state = .ready ∧ ctx < 4096 ∧ ctx < s.cap.img.ctxCount ∧ s.cap.ctx? ctx = some x ∧ 
      x.awaitStart = false ∧ x.cstate = .valid ∧ x.pass = .running ∧ s.passEmpty ctx = false) ∧
  (∃ (s : State) (ctx : Nat) (x : Ctx),
    s.decides ∧ s.settled ∧ s.cap.cmd = none ∧ s.cap.su.state = .ready ∧ ctx < 4096 ∧ ctx < s.cap.img.ctxCount ∧ s.cap.ctx? ctx = some x ∧ 
      x.awaitStart = false ∧ x.cstate = .valid ∧ x.pass = .running ∧ x.frame = false ∧ s.passEmpty ctx = false) ∧
  (∃ (s : State) (ctx : Nat) (x : Ctx),
    s.decides ∧ s.settled ∧ s.cap.cmd = none ∧ s.cap.su.state = .ready ∧ ctx < 4096 ∧ ctx < s.cap.img.ctxCount ∧ s.cap.ctx? ctx = some x ∧ 
      x.awaitStart = false ∧ x.cstate = .fault ∧ x.pass = .halted) ∧
  (∃ (s : State) (ctx : Nat) (x : Ctx),
    s.decides ∧ s.settled ∧ s.cap.cmd = none ∧ s.cap.su.state = .ready ∧ ctx < 4096 ∧ ctx < s.cap.img.ctxCount ∧ s.cap.ctx? ctx = some x ∧ 
      x.awaitStart = false ∧ x.cstate ≠ .invalid) ∧
  (∃ (s : State) (k : CtxCmd) (entry : List Byte),
    s.cap.acts = true ∧ s.settled ∧ s.cap.cmd = some k ∧ k.after = false ∧ k.op = .validate ∧ (s.cap.ctxOr k.ctx).awaitStart = false ∧ 
      entry.length = 256 ∧ entryFails s.cap true k.ctx (entry.take 64) ((entry.drop 112).take 48) = none) ∧
  (∃ (s : State) (k : CtxCmd) (x : Ctx) (entry : List Byte),
    s.cap.acts = true ∧ s.settled ∧ s.cap.cmd = some k ∧ k.after = false ∧ k.op = .stage ∧ k.withBoundary = false ∧ s.cap.ctx? k.ctx = some x ∧ 
      entry.length = 256 ∧ entryFails s.cap false k.ctx x.fixed ((entry.drop 112).take 48) = none) ∧
  (∃ (s : State) (k : CtxCmd) (entry : List Byte) (code : Nat) (d : Nat),
    s.cap.acts = true ∧ s.settled ∧ s.cap.cmd = some k ∧ k.after = false ∧ k.op = .validate ∧ (s.cap.ctxOr k.ctx).awaitStart = false ∧ 
      entry.length = 256 ∧ entryFails s.cap true k.ctx (entry.take 64) ((entry.drop 112).take 48) = some (code, d)) ∧
  (∃ (s : State) (k : CtxCmd) (_entry : List Byte),
    s.cap.acts = true ∧ s.settled ∧ s.cap.cmd = some k ∧ k.after = false ∧ k.op = .validate ∧ (s.cap.ctxOr k.ctx).awaitStart = false) :=
  ⟨⟨t0, 2, by decide +kernel⟩,
   ⟨t0, 1, tC 1, by decide +kernel⟩,
   ⟨t0.put 0 (tBatched tBatch), 1, tC 1, by decide +kernel⟩,
   ⟨t0.put 0 (tBatched tBatch), 1, tC 1, by decide +kernel⟩,
   ⟨tCtxs [{ tC 1 with cstate := .fault, pass := .halted }], 1, { tC 1 with cstate := .fault, pass := .halted }, by decide +kernel⟩,
   ⟨t0, 1, tC 1, by decide +kernel⟩,
   ⟨tCmd { op := .validate, ctx := 2, withBoundary := false, after := false } [tC 1], 
     { op := .validate, ctx := 2, withBoundary := false, after := false }, tEntry, by decide +kernel⟩,
   ⟨tCmd { op := .stage, ctx := 1, withBoundary := false, after := false } [tC 1], 
     { op := .stage, ctx := 1, withBoundary := false, after := false }, tC 1, tEntry, by decide +kernel⟩,
   ⟨tCmd { op := .validate, ctx := 2, withBoundary := false, after := false } [tC 1], 
     { op := .validate, ctx := 2, withBoundary := false, after := false }, tEntry.set 148 99, 6, 3, by decide +kernel⟩,
   ⟨tCmd { op := .validate, ctx := 2, withBoundary := false, after := false } [tC 1], 
     { op := .validate, ctx := 2, withBoundary := false, after := false }, tEntry, by decide +kernel⟩⟩

theorem witness_granulesAreConserved :
  (∃ (n : Nat) (free : List (Nat × Nat)) (got : List (Nat × Nat)) (rest : List (Nat × Nat)),
    takeRuns n free = some (got, rest)) ∧
  (∃ (st : Store) (st' : Store) (n : Nat) (kind : Nat) (home : Nat) (batch : Nat) (q : Nat) (first : Nat) (guest : Bool),
    st.place n kind home batch q guest = some (first, st')) ∧
  (∃ (st : Store) (_runs : List (Nat × Nat)),
    st.bad = []) :=
  ⟨⟨5, [(0, 3), (7, 9)], [(0, 3), (7, 2)], [(9, 7)], by decide +kernel⟩,
   ⟨(tS 0).store, ((tS 0).store.place 4 1 0 0 3 false |>.map (·.2)).getD (tS 9).store, 4, 1, 0, 0, 3, 0, false, by decide +kernel⟩,
   ⟨(tS 0).store, [(5, 2)], by decide +kernel⟩⟩

theorem witness_shortStacksHoldEight :
  (∃ (_t : TreeCtx) (_r : RootRef) (_bs : List Byte) (q : Query),
    q.stack.length ≤ 8) :=
  ⟨(tC 1).tree, rootRef tCap (tC 1), tBox 0x2404, tQuery, by decide +kernel⟩

theorem witness_activeQueriesOfASubmission :
  (∃ (d : Desc) (_m : Nat) (l : Nat) (j : Nat),
    l < 64 ∧ j < d.laneq) ∧
  (∃ (d : Desc) (m : Nat) (q : Nat),
    q ∈ activeOf d true m) ∧
  (∃ (d : Desc),
    d.count ≠ 64 * d.laneq) :=
  ⟨⟨{ descOf (tDescBytes false) with laneq := 2 }, 4, 2, 1, by decide +kernel⟩,
   ⟨{ descOf (tDescBytes false) with laneq := 2 }, 4, 5, by decide +kernel⟩,
   ⟨descOf (tDescBytes false), by decide +kernel⟩⟩

theorem witness_pointersInstancesAndSlots :
  (∃ (_r : RootRef) (_q : Query) (c : Child) (_n : Nat),
    c.ptr / 16 % 4 = 3) ∧
  (∃ (t : TreeCtx) (_r : RootRef) (bs : List Byte) (q : Query),
    instKindFault t q.next.addr bs = none ∧ (q.mask &&& (instNode bs).imask = 0 ∨ q.mask = 0)) ∧
  (∃ (t : TreeCtx) (_r : RootRef) (bs : List Byte) (q : Query) (o : V3) (d : V3),
    instKindFault t q.next.addr bs = none ∧ q.mask &&& (instNode bs).imask ≠ 0 ∧ withDepth q (instFault q.next.addr q.insts.length bs) = none ∧ 
      q.rewalk = none ∧ enterFrame (instNode bs).xform q.frame.1 q.frame.2 = some (o, d) ∧ (ptrOf (instNode bs).root).bad = false ∧ 
      (ptrOf (instNode bs).root).ckind ≠ 0 ∧ (ptrOf (instNode bs).root).ckind ≠ 7) :=
  ⟨⟨{ ptr := 0, holder := 0 }, tQuery, { rank := 0, ptr := 0x31, tnear := .fin 0, gate := 0, taken := true }, 1, by decide +kernel⟩,
   ⟨(tC 1).tree, { ptr := 0, holder := 0 }, tInst, { tQuery with mask := 2, next := { tQuery.next with ckind := 3 } }, by decide +kernel⟩,
   ⟨(tC 1).tree, { ptr := 0, holder := 0 }, tInst, { tQuery with mask := 1, next := { tQuery.next with ckind := 3 } }, { x := 0, y := 0, z := 0 }, 
     { x := 0, y := 0, z := 1 }, by decide +kernel⟩⟩

theorem witness_registerWritesAreRequests :
  (∃ (s : State) (i : Nat) (_v : Reg) (sl : Slice),
    s.answers i sl) ∧
  (∃ (s : State) (i : Nat) (_v : Reg) (sl : Slice),
    s.answers i sl) :=
  ⟨⟨t0.put 0 (tS 1), 1, 0xF23, tS 1, by decide +kernel⟩,
   ⟨t0.put 0 (tS 1), 1, 0xF5, tS 1, by decide +kernel⟩⟩

theorem witness_loglineRegistersHaveTheirFields :
  (∃ (l : Logline),
    l.bounded ∧ l.clears ≤ 255) ∧
  (∃ (l : Logline),
    l.bounded) ∧
  (∃ (s : State) (_v : Reg),
    s.decides ∧ s.settled) :=
  ⟨⟨{ tCap.log with clears := 255, next := 0xFFFFFFFF }, by and_intros <;> first | decide +kernel | rfl | with_unfolding_all rfl⟩,
   ⟨{ tCap.log with first := List.replicate 1024 (tStored 0), last := List.replicate 9 (tStored 7), next := 16 }, ⟨by decide +kernel, 
     by decide +kernel, by decide +kernel⟩⟩,
   ⟨t0, 7, by decide +kernel⟩⟩

end Sys2Proof.Tests
end

section
/-!
The active query indices of a batch (R137, R138): lane `l` submits the row of the indices `q` with `q / LANEQ = l`, so a row is told from
the others by the quotient, and the active queries are the rows of the active lanes one after the other.
-/

namespace Sys2Proof.Machine

theorem mem_maskBits {n mask k : Nat} : k ∈ maskBits n mask ↔ k < n ∧ mask.testBit k = true := by
  simp only [maskBits, bit, List.mem_filter, List.mem_range]

theorem maskBits_nodup (n mask : Nat) : (maskBits n mask).Nodup :=
  List.Pairwise.filter (bit mask) List.nodup_range

/-- The row of query indices that lane `l` submits with NSUB.G (R138). -/
def laneRow (d : Desc) (l : Nat) : List Nat := (List.range d.laneq).map (fun j => l * d.laneq + j)

theorem activeOf_nsubG (d : Desc) (m : Nat) : activeOf d true m = (maskBits 64 m).flatMap (laneRow d) := rfl

/-- With NSUB the active queries are the indices 0 to COUNT − 1 (R137). -/
theorem mem_activeOf_nsub {d : Desc} {m q : Nat} : q ∈ activeOf d false m ↔ q < d.count := List.mem_range

theorem activeOf_nsub_length (d : Desc) (m : Nat) : (activeOf d false m).length = d.count := List.length_range

@[simp] theorem laneRow_length (d : Desc) (l : Nat) : (laneRow d l).length = d.laneq := by
  simp only [laneRow, List.length_map, List.length_range]

theorem laneRow_nodup (d : Desc) (l : Nat) : (laneRow d l).Nodup :=
  List.pairwise_map.mpr (List.nodup_range.imp fun hne h => hne (Nat.add_left_cancel h))

theorem lane_of_index {d : Desc} {j : Nat} (l : Nat) (hj : j < d.laneq) : (l * d.laneq + j) / d.laneq = l := by
  rw [Nat.mul_comm, Nat.mul_add_div (Nat.zero_lt_of_lt hj), Nat.div_eq_of_lt hj, Nat.add_zero]

/-- The quotient by LANEQ of an index is the lane that submits it. -/
theorem mem_laneRow {d : Desc} {l q : Nat} : q ∈ laneRow d l ↔ 0 < d.laneq ∧ q / d.laneq = l := by
  simp only [laneRow, List.mem_map, List.mem_range]
  constructor
  · rintro ⟨j, hj, rfl⟩
    exact ⟨Nat.zero_lt_of_lt hj, lane_of_index l hj⟩
  · rintro ⟨hpos, rfl⟩
    exact ⟨q % d.laneq, Nat.mod_lt q hpos, Nat.div_add_mod' q d.laneq⟩

/-- The rows of two lanes have no index in common. -/
theorem laneRow_disjoint {d : Desc} {l k : Nat} (hne : l ≠ k) : ∀ q ∈ laneRow d l, ∀ p ∈ laneRow d k, q ≠ p := by
  rintro q hl _ hk rfl
  exact hne ((mem_laneRow.mp hl).2.symm.trans (mem_laneRow.mp hk).2)

/-- With NSUB.G an index is active exactly when its lane is one of the 64 and is active (R138). -/
theorem mem_activeOf_nsubG {d : Desc} {m q : Nat} :
    q ∈ activeOf d true m ↔ 0 < d.laneq ∧ q / d.laneq < 64 ∧ m.testBit (q / d.laneq) = true := by
  simp only [activeOf_nsubG, List.mem_flatMap, mem_maskBits, mem_laneRow]
  constructor
  · rintro ⟨_, hlane, hpos, rfl⟩
    exact ⟨hpos, hlane⟩
  · rintro ⟨hpos, hlane⟩
    exact ⟨_, hlane, hpos, rfl⟩

theorem activeOf_nsubG_lane {d : Desc} {m l j : Nat} (hl : l < 64) (hj : j < d.laneq) :
    l * d.laneq + j ∈ activeOf d true m ↔ m.testBit l = true := by
  have hpos : 0 < d.laneq := Nat.zero_lt_of_lt hj
  rw [mem_activeOf_nsubG, lane_of_index l hj]
  simp only [hpos, hl, true_and]

theorem activeOf_nsubG_lt {d : Desc} {m q : Nat} (h : q ∈ activeOf d true m) : q < 64 * d.laneq := by
  obtain ⟨hpos, hlane, -⟩ := mem_activeOf_nsubG.mp h
  exact (Nat.div_lt_iff_lt_mul hpos).mp hlane

theorem activeOf_nsubG_nodup (d : Desc) (m : Nat) : (activeOf d true m).Nodup := by
  rw [activeOf_nsubG]
  exact List.pairwise_flatMap.mpr ⟨fun l _ => laneRow_nodup d l, (maskBits_nodup 64 m).imp laneRow_disjoint⟩

/-- The active count of NSUB.G is the number of active lanes times LANEQ (R138). -/
theorem activeOf_nsubG_length (d : Desc) (m : Nat) : (activeOf d true m).length = popCount 64 m * d.laneq := by
  simp only [activeOf_nsubG, List.length_flatMap, laneRow_length, List.map_const', List.sum_replicate_nat, popCount]

theorem badCount_of_count_ne {d : Desc} (h : d.count ≠ 64 * d.laneq) : badCount d true = true := by
  simp only [badCount, if_true, bne_iff_ne.mpr h, Bool.or_true]

end Sys2Proof.Machine

open Sys2Proof Sys2Proof.Machine

/-- Settles O57: membership of the rows goes by the quotient by LANEQ, and the rows are disjoint and of LANEQ indices each. -/
theorem activeQueriesOfASubmission : Obligations.ActiveQueriesOfASubmission := by
  unfold Obligations.ActiveQueriesOfASubmission
  exact ⟨fun d m => ⟨fun q => mem_activeOf_nsub, activeOf_nsub_length d m⟩, fun _ _ _ _ => activeOf_nsubG_lane,
    fun _ _ _ => activeOf_nsubG_lt, fun d m => ⟨activeOf_nsubG_nodup d m, activeOf_nsubG_length d m⟩,
    fun _ => badCount_of_count_ne⟩
end

section
/-!
The requests that a write to SC_WAY_CTL (R354) and to PWR_REQ (R620) makes. A request depends on the register's fields alone, so a write
does what the write of the command with the same fields does; with a code that names no request the slice stays as it is.
-/

namespace Sys2Proof.Machine

/-! ### Writes to a register of a slice that answers -/

theorem exec_registerWrite_slice (i o : Nat) (v : Reg) (s : State) :
    exec (.registerWrite (0x100000 + 0x10000 * i + o) 8 v) s = sliceWrite i o v s := rfl

/-- A write to a register of a slice that answers changes the slice as the register's effect says, has its response, and what the slice tells
is delivered (R15, R568). -/
theorem sliceWrite_answers {s : State} {i o : Nat} {sl : Slice} (v : Reg) (h : s.answers i sl) (ho : o < 0x10000) (h8 : o % 8 = 0)
    (r : ((resetSlice i).reg? s.cap o).isSome) :
    sliceWrite i o v s = .next (deliverAll ((s.put i (sl.writeReg (sl.view s.cap) o v)).respond 0 0)) := by
  have hdecode := s.decode_slice i o sl h ho h8 r
  obtain ⟨hat, hpower, -⟩ := h
  have hwindow : toCapstan (sliceWindow + 0x10000 * i + o) = false := by
    refine decide_eq_false ?_
    unfold sliceWindow
    omega
  have hwrite : s.writeTarget (.slice i o) v = s.put i (sl.writeReg (sl.view s.cap) o v) := by
    simp only [State.writeTarget, State.atSlice, hat, State.put]
  simp [sliceWrite, State.busWrite, State.access, State.doWrite, hpower, hwindow, hdecode, hwrite]

/-- Two values that have the same effect on the slice make the same write. -/
theorem sliceWrite_congr {s : State} {i o : Nat} {sl : Slice} {v w : Reg} (h : s.answers i sl) (ho : o < 0x10000) (h8 : o % 8 = 0)
    (r : ((resetSlice i).reg? s.cap o).isSome) (e : sl.writeReg (sl.view s.cap) o v = sl.writeReg (sl.view s.cap) o w) :
    sliceWrite i o v s = sliceWrite i o w s := by
  rw [sliceWrite_answers v h ho h8 r, sliceWrite_answers w h ho h8 r, e]

/-- A value that has no effect on the slice has its response alone. -/
theorem sliceWrite_noEffect {s : State} {i o : Nat} {sl : Slice} {v : Reg} (h : s.answers i sl) (ho : o < 0x10000) (h8 : o % 8 = 0)
    (r : ((resetSlice i).reg? s.cap o).isSome) (e : sl.writeReg (sl.view s.cap) o v = sl) :
    sliceWrite i o v s = .next (s.respond 0 0) := by
  obtain ⟨hat, -, -, -, -, -, hsettled⟩ := id h
  have hmail : sl.mail = [] := s.mail_of i sl hat hsettled
  rw [sliceWrite_quiet s i o sl v h ho h8 r (by rw [e, hmail]), e, s.put_self i sl hat]

/-! ### SC_WAY_CTL (R354) -/

theorem Slice.reg?_wayCtl (env : Capstan) (sl : Slice) : sl.reg? env 0x3818 = some 0 := rfl

theorem Slice.writeReg_wayCtl (env : Capstan) (sl : Slice) (v : Reg) :
    sl.writeReg env 0x3818 v = if sl.stopped then sl else sl.wayRequest env v.toNat := rfl

theorem field_way (n : Nat) : field n 3 0 = n % 16 := rfl

theorem field_wayAction (n : Nat) : field n 5 4 = n / 16 % 4 := by
  simp only [field, Nat.shiftRight_eq_div_pow, Nat.reducePow, Nat.reduceAdd, Nat.reduceSub]

/-- The request by ACTION, for the way of WAY (R354). -/
theorem Slice.wayRequest_eq (env : Capstan) (sl : Slice) (n : Nat) :
    sl.wayRequest env n =
      if n / 16 % 4 = 1 then sl.gateWay env (n % 16) else if n / 16 % 4 = 2 then sl.ungateWay (n % 16) else sl := by
  simp only [Slice.wayRequest, field_way, field_wayAction]

/-- The value that GATE and UNGATE write holds their way and their action. -/
theorem wayCtl_toNat (way action : Nat) : (fields [place way 4 0, place action 2 4]).toNat = way % 16 + 16 * (action % 4) := by
  simp only [fields, reg, place, List.sum_cons, List.sum_nil, BitVec.toNat_ofNat, Nat.shiftLeft_eq]
  omega

/-- A write to SC_WAY_CTL is that of any value with the same ACTION and the same WAY. -/
theorem sliceWrite_wayCtl {s : State} {i : Nat} {sl : Slice} {v w : Reg} (h : s.answers i sl)
    (haction : v.toNat / 16 % 4 = w.toNat / 16 % 4) (hway : v.toNat % 16 = w.toNat % 16) :
    sliceWrite i 0x3818 v s = sliceWrite i 0x3818 w s := by
  refine sliceWrite_congr h (by decide) (by decide) rfl ?_
  simp only [Slice.writeReg_wayCtl, Slice.wayRequest_eq, haction, hway]

theorem sliceWrite_wayCtl_noRequest {s : State} {i : Nat} {sl : Slice} {v : Reg} (h : s.answers i sl)
    (hgate : v.toNat / 16 % 4 ≠ 1) (hungate : v.toNat / 16 % 4 ≠ 2) : sliceWrite i 0x3818 v s = .next (s.respond 0 0) := by
  refine sliceWrite_noEffect h (by decide) (by decide) rfl ?_
  simp only [Slice.writeReg_wayCtl, Slice.wayRequest_eq, if_neg hgate, if_neg hungate, ite_self]

theorem exec_registerWrite_wayCtl {s : State} {i : Nat} {sl : Slice} (v : Reg) (h : s.answers i sl) :
    exec (.registerWrite (0x100000 + 0x10000 * i + 0x3818) 8 v) s =
      (if v.toNat / 16 % 4 = 1 then exec (.gate i (v.toNat % 16)) s
       else if v.toNat / 16 % 4 = 2 then exec (.ungate i (v.toNat % 16)) s
       else .next (s.respond 0 0)) := by
  rw [exec_registerWrite_slice, exec_gate, exec_ungate]
  split
  · have hvalue := wayCtl_toNat (v.toNat % 16) 1
    exact sliceWrite_wayCtl h (by omega) (by omega)
  next hgate =>
    split
    · have hvalue := wayCtl_toNat (v.toNat % 16) 2
      exact sliceWrite_wayCtl h (by omega) (by omega)
    next hungate => exact sliceWrite_wayCtl_noRequest h hgate hungate

/-! ### PWR_REQ (R620) -/

theorem Slice.reg?_pwrReq (env : Capstan) (sl : Slice) : sl.reg? env 0x4808 = some 0 := rfl

theorem Slice.writeReg_pwrReq (env : Capstan) (sl : Slice) (v : Reg) :
    sl.writeReg env 0x4808 v = if sl.stopped then sl else sl.powerRequest env v.toNat := rfl

theorem field_powerState (n : Nat) : field n 1 0 = n % 4 := rfl

theorem field_powerLay (n : Nat) : field n 2 2 = n / 4 % 2 := by
  simp only [field, Nat.shiftRight_eq_div_pow, Nat.reducePow, Nat.reduceAdd, Nat.reduceSub]

/-- A request depends on STATE, and on LAY where STATE is TRIM (R620). -/
theorem Slice.powerRequest_congr (env : Capstan) (sl : Slice) {n m : Nat} (hstate : n % 4 = m % 4)
    (hlay : m % 4 = 1 → n / 4 % 2 = m / 4 % 2) : sl.powerRequest env n = sl.powerRequest env m := by
  simp only [Slice.powerRequest, field_powerState, field_powerLay, hstate]
  by_cases htrim : m % 4 = 1
  · rw [hlay htrim]
  · simp only [if_neg htrim]

theorem Slice.powerRequest_noRequest (env : Capstan) (sl : Slice) {n : Nat} (h : n % 4 = 3) : sl.powerRequest env n = sl := by
  simp only [Slice.powerRequest, field_powerState, h, if_true]

/-- The value that PWR_REQ_TRIM writes holds TRIM and the lay. -/
theorem pwrReqTrim_toNat (lay : Nat) : (fields [1, place lay 1 2]).toNat = 1 + 4 * (lay % 2) := by
  simp only [fields, reg, place, List.sum_cons, List.sum_nil, BitVec.toNat_ofNat, Nat.shiftLeft_eq]
  omega

/-- A write to PWR_REQ is that of any value with the same STATE, and the same LAY where STATE is TRIM. -/
theorem sliceWrite_pwrReq {s : State} {i : Nat} {sl : Slice} {v w : Reg} (h : s.answers i sl) (hstate : v.toNat % 4 = w.toNat % 4)
    (hlay : w.toNat % 4 = 1 → v.toNat / 4 % 2 = w.toNat / 4 % 2) : sliceWrite i 0x4808 v s = sliceWrite i 0x4808 w s := by
  refine sliceWrite_congr h (by decide) (by decide) rfl ?_
  simp only [Slice.writeReg_pwrReq, Slice.powerRequest_congr _ sl hstate hlay]

theorem sliceWrite_pwrReq_noRequest {s : State} {i : Nat} {sl : Slice} {v : Reg} (h : s.answers i sl) (hnone : v.toNat % 4 = 3) :
    sliceWrite i 0x4808 v s = .next (s.respond 0 0) := by
  refine sliceWrite_noEffect h (by decide) (by decide) rfl ?_
  simp only [Slice.writeReg_pwrReq, Slice.powerRequest_noRequest _ sl hnone, ite_self]

theorem exec_registerWrite_pwrReq {s : State} {i : Nat} {sl : Slice} (v : Reg) (h : s.answers i sl) :
    exec (.registerWrite (0x100000 + 0x10000 * i + 0x4808) 8 v) s =
      (if v.toNat % 4 = 0 then exec (.pwrReqOn i) s
       else if v.toNat % 4 = 1 then exec (.pwrReqTrim i (v.toNat / 4 % 2)) s
       else if v.toNat % 4 = 2 then exec (.pwrReqNap i) s
       else .next (s.respond 0 0)) := by
  rw [exec_registerWrite_slice, exec_pwrReqOn, exec_pwrReqTrim, exec_pwrReqNap]
  split
  next hon => exact sliceWrite_pwrReq h hon (fun hw => absurd hw (by decide))
  · split
    · have hvalue := pwrReqTrim_toNat (v.toNat / 4 % 2)
      exact sliceWrite_pwrReq h (by omega) (fun _ => by omega)
    · split
      next hnap => exact sliceWrite_pwrReq h hnap (fun hw => absurd hw (by decide))
      · exact sliceWrite_pwrReq_noRequest h (by omega)

end Sys2Proof.Machine

open Sys2Proof Sys2Proof.Machine

/-- Settles O59: a request depends on the register's fields alone, and the commands write the same fields. -/
theorem registerWritesAreRequests : Obligations.RegisterWritesAreRequests := by
  unfold Obligations.RegisterWritesAreRequests
  exact ⟨fun _ _ v _ h => exec_registerWrite_wayCtl v h, fun _ _ v _ h => exec_registerWrite_pwrReq v h,
    fun c sl => ⟨sl.reg?_wayCtl c, sl.reg?_pwrReq c⟩⟩
end

section
/-!
LOG_HEAD, LOG_LAST and LOG_DROP (R558, R559, R560). Each register is read once as a number in base 2 with its fields at their bits, none
reaching into the next; the fields are then its quotients and remainders. The three have no writable field, so a write has its response
alone.
-/

namespace Sys2Proof.Machine

/-! ### What the registers read -/

/-- A value that fits in its field is placed whole. -/
theorem place_of_lt {v width : Nat} (lo : Nat) (h : v < 2 ^ width) : place v width lo = v * 2 ^ lo := by
  rw [place, Nat.mod_eq_of_lt h, Nat.shiftLeft_eq]

theorem Logline.headReg_toNat {l : Logline} (hfirst : l.first.length ≤ 1024) (hclears : l.clears ≤ 255) :
    l.headReg.toNat = l.next.toNat + l.first.length * 2 ^ 32 + l.clears * 2 ^ 43 := by
  have hnext : l.next.toNat < 2 ^ 32 := l.next.isLt
  rw [Logline.headReg, place_of_lt 32 (by omega), place_of_lt 43 (by omega), BitVec.toNat_ofNat]
  omega

theorem Logline.lastReg_toNat {l : Logline} (hlast : l.last.length ≤ 7168) :
    l.lastReg.toNat = l.oldest.toNat + l.last.length * 2 ^ 32 := by
  have holdest : l.oldest.toNat < 2 ^ 32 := l.oldest.isLt
  rw [Logline.lastReg, place_of_lt 32 (by omega), BitVec.toNat_ofNat]
  omega

/-- Both counts saturate, so they fit in their halves whatever the Logline has counted. -/
theorem Logline.dropReg_toNat (l : Logline) :
    l.dropReg.toNat = min l.dropLimited (2 ^ 32 - 1) + min l.dropHeld (2 ^ 32 - 1) * 2 ^ 32 := by
  rw [Logline.dropReg, BitVec.toNat_ofNat]
  omega

theorem Logline.oldest_of_nil {l : Logline} (h : l.last = []) : l.oldest = l.next := by
  simp only [Logline.oldest, h, List.head?_nil]

theorem Logline.oldest_of_cons {l : Logline} {r : Stored} {rs : List Stored} (h : l.last = r :: rs) : l.oldest = r.seq := by
  simp only [Logline.oldest, h, List.head?_cons]

theorem Logline.headReg_fields {l : Logline} (h : l.bounded) (hclears : l.clears ≤ 255) :
    l.headReg.toNat % 2 ^ 32 = l.next.toNat ∧ l.headReg.toNat / 2 ^ 32 % 2 ^ 11 = l.first.length ∧
      l.headReg.toNat / 2 ^ 43 = l.clears := by
  obtain ⟨hfirst, -, -⟩ := h
  have hvalue := Logline.headReg_toNat hfirst hclears
  have hnext : l.next.toNat < 2 ^ 32 := l.next.isLt
  omega

theorem Logline.lastReg_fields {l : Logline} (h : l.bounded) :
    l.lastReg.toNat % 2 ^ 32 = l.oldest.toNat ∧ l.lastReg.toNat / 2 ^ 32 = l.last.length := by
  obtain ⟨-, hlast, -⟩ := h
  have hvalue := Logline.lastReg_toNat hlast
  have holdest : l.oldest.toNat < 2 ^ 32 := l.oldest.isLt
  omega

theorem Logline.dropReg_fields (l : Logline) :
    l.dropReg.toNat % 2 ^ 32 = min l.dropLimited (2 ^ 32 - 1) ∧ l.dropReg.toNat / 2 ^ 32 = min l.dropHeld (2 ^ 32 - 1) := by
  have hvalue := l.dropReg_toNat
  omega

/-! ### Where they stand in the Capstan window, and writes to them -/

theorem Capstan.reg?_logHead (c : Capstan) : c.reg? 0x0400 = some c.log.headReg := rfl

theorem Capstan.reg?_logLast (c : Capstan) : c.reg? 0x0408 = some c.log.lastReg := rfl

theorem Capstan.reg?_logDrop (c : Capstan) : c.reg? 0x0410 = some c.log.dropReg := rfl

theorem exec_registerWrite_cap (s : State) {o : Nat} (v : Reg) : exec (.registerWrite o 8 v) s = .next (s.busWrite o v) := rfl

/-- A write to a register of the Capstan window that has no effect has its response alone (R15, R599). -/
theorem exec_registerWrite_noEffect {s : State} {o : Nat} {v : Reg} {x : Reg} (h : s.decides) (hsettled : s.settled) (ho : o < 0x40000)
    (h8 : o % 8 = 0) (hreg : s.cap.reg? o = some x) (hkeep : s.writeCap o v = s) :
    exec (.registerWrite o 8 v) s = .next (s.respond 0 0) := by
  obtain ⟨hpower, hrestart, hfailed⟩ := h
  rw [exec_registerWrite_cap, s.busWrite_cap o v hpower hrestart hfailed ho h8 (Option.isSome_of_eq_some hreg), hkeep,
    deliverAll_settled _ (s.respond_settled 0 0 hsettled)]

theorem State.writeCap_logHead (s : State) (v : Reg) : s.writeCap 0x0400 v = s := rfl

theorem State.writeCap_logLast (s : State) (v : Reg) : s.writeCap 0x0408 v = s := rfl

theorem State.writeCap_logDrop (s : State) (v : Reg) : s.writeCap 0x0410 v = s := rfl

end Sys2Proof.Machine

open Sys2Proof Sys2Proof.Machine

/-- Settles O60: the fields are read off the three registers as numbers, OLDEST by whether the last runnings are empty; a write keeps the
state. -/
theorem loglineRegistersHaveTheirFields : Obligations.LoglineRegistersHaveTheirFields := by
  unfold Obligations.LoglineRegistersHaveTheirFields
  refine ⟨fun c => ⟨c.reg?_logHead, c.reg?_logLast, c.reg?_logDrop⟩, fun _ => Logline.headReg_fields, fun l hbounded => ?_,
    Logline.dropReg_fields, fun s v hdecides hsettled => ⟨?_, ?_, ?_⟩⟩
  · obtain ⟨holdest, hcount⟩ := Logline.lastReg_fields hbounded
    refine ⟨?_, hcount⟩
    split
    next hnil => rw [holdest, Logline.oldest_of_nil hnil]
    next hcons => rw [holdest, Logline.oldest_of_cons hcons]
  · exact exec_registerWrite_noEffect hdecides hsettled (by decide) (by decide) s.cap.reg?_logHead (s.writeCap_logHead v)
  · exact exec_registerWrite_noEffect hdecides hsettled (by decide) (by decide) s.cap.reg?_logLast (s.writeCap_logLast v)
  · exact exec_registerWrite_noEffect hdecides hsettled (by decide) (by decide) s.cap.reg?_logDrop (s.writeCap_logDrop v)
end

section
/-!
The lists that the state is made of: what the list operations of the model leave as it is. The records of the Logline: written one after the
other they stay consecutive, in the area they belong to, and are found by their SEQ.
-/

namespace Sys2Proof.Machine

/-! ### Lists changed in place -/

@[simp] theorem updateAt_length {α : Type} (f : α → α) (i : Nat) (xs : List α) : (updateAt f i xs).length = xs.length := by
  induction xs generalizing i with
  | nil => cases i <;> rfl
  | cons x xs ih => cases i with
    | zero => rfl
    | succ i => simp only [updateAt, List.length_cons, ih]

theorem updateAt_getElem? {α : Type} (f : α → α) (i k : Nat) (xs : List α) :
    (updateAt f i xs)[k]? = if k = i then xs[k]?.map f else xs[k]? := by
  induction xs generalizing i k with
  | nil => cases i <;> simp [updateAt]
  | cons x xs ih =>
    cases i with
    | zero => cases k <;> simp [updateAt]
    | succ i => cases k <;> simp [updateAt, ih]

@[simp] theorem updateWhere_length {α : Type} (p : α → Bool) (f : α → α) (xs : List α) :
    (updateWhere p f xs).length = xs.length := List.length_map _

/-- A change that keeps a key keeps the list of keys. -/
theorem map_updateWhere {α β : Type} (key : α → β) (p : α → Bool) (f : α → α) (xs : List α) (h : ∀ x, key (f x) = key x) :
    (updateWhere p f xs).map key = xs.map key := by
  simp only [updateWhere, List.map_map]
  refine List.map_congr_left fun x _ => ?_
  simp only [Function.comp_apply]
  split
  · exact h x
  · rfl

@[simp] theorem indexed_length {α : Type} (xs : List α) : (indexed xs).length = xs.length := by
  simp only [indexed, List.length_zip, List.length_range, Nat.min_self]

/-- An entry inserted into a list that rises stands between those below it and those above it. -/
theorem insertBy_pairwise {α : Type} (key : α → Nat) (x : α) (xs : List α) (h : xs.Pairwise (fun a b => key a < key b))
    (hne : ∀ y ∈ xs, key y ≠ key x) :
    (insertBy (fun a b => decide (key a < key b)) x xs).Pairwise (fun a b => key a < key b) ∧
      ∀ z ∈ insertBy (fun a b => decide (key a < key b)) x xs, z = x ∨ z ∈ xs := by
  induction xs with
  | nil => simp [insertBy]
  | cons y ys ih =>
    obtain ⟨hy, hys⟩ := List.pairwise_cons.mp h
    obtain ⟨hpair, hmem⟩ := ih hys (fun z hz => hne z (List.mem_cons_of_mem y hz))
    have hxy := hne y List.mem_cons_self
    simp only [insertBy, decide_eq_true_eq]
    split
    next hlt =>
      refine ⟨List.pairwise_cons.mpr ⟨fun z hz => ?_, h⟩, fun z hz => List.mem_cons.mp hz⟩
      rcases List.mem_cons.mp hz with rfl | hz
      · exact hlt
      · exact Nat.lt_trans hlt (hy z hz)
    next hge =>
      refine ⟨List.pairwise_cons.mpr ⟨fun z hz => ?_, hpair⟩, fun z hz => ?_⟩
      · rcases hmem z hz with rfl | hz
        · omega
        · exact hy z hz
      · rcases List.mem_cons.mp hz with rfl | hz
        · exact Or.inr List.mem_cons_self
        · exact (hmem z hz).imp_right (List.mem_cons_of_mem y)

/-! ### Records in consecutive SEQ (R528) -/

/-- The records of an area stand in consecutive SEQ up to `next`. -/
def consecutive (xs : List Stored) (next : BitVec 32) : Prop :=
  ∀ (k : Nat) (r : Stored), xs[k]? = some r → r.seq = next - BitVec.ofNat 32 (xs.length - k)

theorem Logline.numbered_iff (l : Logline) :
    l.numbered ↔ consecutive l.last l.next ∧ (l.first.length < 1024 → consecutive l.first l.next) := Iff.rfl

theorem consecutive_nil (next : BitVec 32) : consecutive [] next := fun k r h => by simp at h

/-- The record with the next SEQ keeps an area consecutive. -/
theorem consecutive_append {xs : List Stored} {next : BitVec 32} (h : consecutive xs next) (x : Stored) (hx : x.seq = next) :
    consecutive (xs ++ [x]) (next + 1) := by
  intro k r hr
  rw [List.length_append, List.length_singleton]
  rcases Nat.lt_or_ge k xs.length with hk | hk
  · rw [List.getElem?_append_left hk] at hr
    have hcount : xs.length + 1 - k = xs.length - k + 1 := by omega
    rw [h k r hr, hcount, BitVec.ofNat_add, BitVec.add_comm (BitVec.ofNat 32 _), ← BitVec.sub_sub]
    congr 1
    exact (BitVec.add_sub_cancel next 1#32).symm
  · obtain ⟨hlt, -⟩ := List.getElem?_eq_some_iff.mp hr
    have hk' : k = xs.length := by simp at hlt; omega
    subst hk'
    simp only [List.getElem?_concat_length, Option.some.injEq] at hr
    subst hr
    have hone : xs.length + 1 - xs.length = 1 := by omega
    rw [hx, hone]
    exact (BitVec.add_sub_cancel next 1#32).symm

theorem consecutive_drop {xs : List Stored} {next : BitVec 32} (h : consecutive xs next) (m : Nat) : consecutive (xs.drop m) next := by
  intro k r hr
  rw [List.getElem?_drop] at hr
  rw [h _ r hr, List.length_drop, Nat.sub_sub]

/-- A change that keeps the SEQ of each record keeps an area consecutive. -/
theorem consecutive_updateAt {xs : List Stored} {next : BitVec 32} (h : consecutive xs next) (f : Stored → Stored) (hf : ∀ r, (f r).seq = r.seq)
    (i : Nat) : consecutive (updateAt f i xs) next := by
  intro k r hr
  rw [updateAt_getElem?] at hr
  rw [updateAt_length]
  split at hr
  · obtain ⟨y, hy, rfl⟩ := Option.map_eq_some_iff.mp hr
    rw [hf, h k y hy]
  · exact h k r hr

theorem dropOldest_eq_drop (xs : List Stored) : ∃ m, dropOldest xs = xs.drop m ∧ (xs ≠ [] → 0 < m) := by
  cases xs with
  | nil => exact ⟨0, rfl, fun h => absurd rfl h⟩
  | cons x xs =>
    cases hhead : x.isHead with
    | true => exact ⟨2, by simp [dropOldest, hhead], fun _ => by omega⟩
    | false => exact ⟨1, by simp [dropOldest, hhead], fun _ => by omega⟩

/-! ### The Logline stays sound -/

theorem Logline.sound_congr {l m : Logline} (hnext : m.next = l.next) (hfirst : m.first = l.first) (hlast : m.last = l.last) (h : l.sound) :
    m.sound := by
  simpa only [Logline.sound, Logline.bounded, Logline.numbered, hnext, hfirst, hlast] using h

theorem Capstan.store_first_sound {c : Capstan} (h : c.log.sound) (hroom : c.log.first.length < 1024) (r : LogRec) (isHead : Bool) :
    (c.store r isHead true).log.sound := by
  obtain ⟨⟨-, -, hlast⟩, hnum⟩ := h
  obtain ⟨-, hnumFirst⟩ := (Logline.numbered_iff _).mp hnum
  have hempty : c.log.last = [] := hlast.resolve_right (by omega)
  simp only [Logline.sound, Logline.bounded, Logline.numbered_iff, Capstan.store, if_true, hempty, List.length_append, List.length_singleton]
  exact ⟨⟨by omega, Nat.zero_le _, Or.inl trivial⟩, consecutive_nil _, fun _ => consecutive_append (hnumFirst hroom) _ rfl⟩

theorem Capstan.store_last_sound {c : Capstan} (h : c.log.sound) (hfull : c.log.first.length = 1024) (r : LogRec) (isHead : Bool) :
    (c.store r isHead false).log.sound := by
  obtain ⟨⟨-, hlast, -⟩, hnum⟩ := h
  obtain ⟨hnumLast, -⟩ := (Logline.numbered_iff _).mp hnum
  obtain ⟨m, hm, hpos⟩ := dropOldest_eq_drop c.log.last
  have hkept : ∃ m, (if 7168 ≤ c.log.last.length then dropOldest c.log.last else c.log.last) = c.log.last.drop m ∧
      (c.log.last.drop m).length < 7168 := by
    split
    next hmax =>
      have hne : c.log.last ≠ [] := fun e => by simp [e] at hmax
      exact ⟨m, hm, by rw [List.length_drop]; have := hpos hne; omega⟩
    next hmax => exact ⟨0, rfl, by rw [List.length_drop]; omega⟩
  obtain ⟨m, hm, hlen⟩ := hkept
  simp only [Logline.sound, Logline.bounded, Logline.numbered_iff, Capstan.store, Bool.false_eq_true, if_false, hm, List.length_append,
    List.length_singleton]
  exact ⟨⟨by omega, by omega, Or.inr hfull⟩, consecutive_append (consecutive_drop hnumLast m) _ rfl, fun hlt => by omega⟩

@[simp] theorem Capstan.store_first (c : Capstan) (r : LogRec) (isHead toFirst : Bool) :
    (c.store r isHead toFirst).log.first.length = c.log.first.length + if toFirst then 1 else 0 := by
  cases toFirst <;> simp [Capstan.store]

@[simp] theorem Capstan.store_next (c : Capstan) (r : LogRec) (isHead toFirst : Bool) :
    (c.store r isHead toFirst).log.next = c.log.next + 1 := by
  cases toFirst <;> rfl

end Sys2Proof.Machine
end

section
/-!
What a record and an interrupt event change at the Capstan: its Logline and its interrupts, and nothing else (R527 to R533, R578). The Logline
stays sound whatever is written.
-/

namespace Sys2Proof.Machine

/-! ### What a record and an event leave unchanged -/

/-- Only the Logline and the interrupts differ. -/
def Capstan.onlyLogs (c d : Capstan) : Prop := d = { c with log := d.log, irq := d.irq }

theorem Capstan.onlyLogs.refl (c : Capstan) : c.onlyLogs c := rfl

theorem Capstan.onlyLogs.trans {c d e : Capstan} (h : c.onlyLogs d) (k : d.onlyLogs e) : c.onlyLogs e := by
  unfold Capstan.onlyLogs at *
  rw [k, h]

theorem Capstan.refillPort_eq (c : Capstan) : c.refillPort = { c with irq := c.refillPort.irq } := by
  unfold Capstan.refillPort
  split <;> rfl

theorem Capstan.message_eq (c : Capstan) (k : Nat) : c.message k = { c with irq := (c.message k).irq } := by
  unfold Capstan.message
  dsimp only
  split
  · rfl
  · rw [Capstan.refillPort_eq]

theorem Capstan.event_eq (c : Capstan) (i : Irq) : c.event i = { c with irq := (c.event i).irq } := by
  unfold Capstan.event
  dsimp only
  split
  · rw [Capstan.message_eq]
  · rfl

theorem Capstan.compareMark_onlyLogs (c : Capstan) : c.onlyLogs c.compareMark := by
  unfold Capstan.compareMark
  split
  · rw [Capstan.event_eq]; rfl
  · rfl

theorem Capstan.store_onlyLogs (c : Capstan) (r : LogRec) (isHead toFirst : Bool) : c.onlyLogs (c.store r isHead toFirst) := rfl

/-- A record written and compared with the threshold (R543). -/
theorem Capstan.storeCompare_onlyLogs (c : Capstan) (r : LogRec) (isHead toFirst : Bool) : c.onlyLogs (c.store r isHead toFirst).compareMark :=
  (c.store_onlyLogs r isHead toFirst).trans (Capstan.compareMark_onlyLogs _)

theorem Capstan.record_eq (c : Capstan) (head : LogRec) (tail : Option LogRec) :
    c.record head tail = { c with log := (c.record head tail).log, irq := (c.record head tail).irq } := by
  suffices h : c.onlyLogs (c.record head tail) from h
  unfold Capstan.record
  dsimp only
  split
  · exact c.storeCompare_onlyLogs _ _ _
  · split
    · exact (c.storeCompare_onlyLogs _ _ _).trans (Capstan.storeCompare_onlyLogs _ _ _ _)
    · refine Capstan.onlyLogs.trans (d := _) ?_ ((Capstan.storeCompare_onlyLogs _ _ _ _).trans (Capstan.storeCompare_onlyLogs _ _ _ _))
      split
      · exact c.storeCompare_onlyLogs _ _ _
      · exact .refl c

theorem Capstan.note_eq (c : Capstan) (code : Nat) (data : List Byte) (tail : Option (List Byte)) :
    c.note code data tail = { c with log := (c.note code data tail).log, irq := (c.note code data tail).irq } := c.record_eq _ _

@[simp] theorem Capstan.event_n (c : Capstan) (i : Irq) : (c.event i).n = c.n := by rw [c.event_eq i]
@[simp] theorem Capstan.event_su (c : Capstan) (i : Irq) : (c.event i).su = c.su := by rw [c.event_eq i]
@[simp] theorem Capstan.event_img (c : Capstan) (i : Irq) : (c.event i).img = c.img := by rw [c.event_eq i]
@[simp] theorem Capstan.event_tb (c : Capstan) (i : Irq) : (c.event i).tb = c.tb := by rw [c.event_eq i]
@[simp] theorem Capstan.event_mgt (c : Capstan) (i : Irq) : (c.event i).mgt = c.mgt := by rw [c.event_eq i]
@[simp] theorem Capstan.event_hl (c : Capstan) (i : Irq) : (c.event i).hl = c.hl := by rw [c.event_eq i]
@[simp] theorem Capstan.event_ctxs (c : Capstan) (i : Irq) : (c.event i).ctxs = c.ctxs := by rw [c.event_eq i]
@[simp] theorem Capstan.event_table (c : Capstan) (i : Irq) : (c.event i).table = c.table := by rw [c.event_eq i]
@[simp] theorem Capstan.event_ctxResult (c : Capstan) (i : Irq) : (c.event i).ctxResult = c.ctxResult := by rw [c.event_eq i]
@[simp] theorem Capstan.event_cmd (c : Capstan) (i : Irq) : (c.event i).cmd = c.cmd := by rw [c.event_eq i]
@[simp] theorem Capstan.event_active (c : Capstan) (i : Irq) : (c.event i).active = c.active := by rw [c.event_eq i]
@[simp] theorem Capstan.event_actWait (c : Capstan) (i : Irq) : (c.event i).actWait = c.actWait := by rw [c.event_eq i]
@[simp] theorem Capstan.event_loans (c : Capstan) (i : Irq) : (c.event i).loans = c.loans := by rw [c.event_eq i]
@[simp] theorem Capstan.event_log (c : Capstan) (i : Irq) : (c.event i).log = c.log := by rw [c.event_eq i]
@[simp] theorem Capstan.note_n (c : Capstan) (code : Nat) (data : List Byte) (tail : Option (List Byte)) : (c.note code data tail).n = c.n := by rw [c.note_eq code data tail]
@[simp] theorem Capstan.note_su (c : Capstan) (code : Nat) (data : List Byte) (tail : Option (List Byte)) : (c.note code data tail).su = c.su := by rw [c.note_eq code data tail]
@[simp] theorem Capstan.note_img (c : Capstan) (code : Nat) (data : List Byte) (tail : Option (List Byte)) : (c.note code data tail).img = c.img := by rw [c.note_eq code data tail]
@[simp] theorem Capstan.note_tb (c : Capstan) (code : Nat) (data : List Byte) (tail : Option (List Byte)) : (c.note code data tail).tb = c.tb := by rw [c.note_eq code data tail]
@[simp] theorem Capstan.note_mgt (c : Capstan) (code : Nat) (data : List Byte) (tail : Option (List Byte)) : (c.note code data tail).mgt = c.mgt := by rw [c.note_eq code data tail]
@[simp] theorem Capstan.note_hl (c : Capstan) (code : Nat) (data : List Byte) (tail : Option (List Byte)) : (c.note code data tail).hl = c.hl := by rw [c.note_eq code data tail]
@[simp] theorem Capstan.note_ctxs (c : Capstan) (code : Nat) (data : List Byte) (tail : Option (List Byte)) : (c.note code data tail).ctxs = c.ctxs := by rw [c.note_eq code data tail]
@[simp] theorem Capstan.note_table (c : Capstan) (code : Nat) (data : List Byte) (tail : Option (List Byte)) : (c.note code data tail).table = c.table := by rw [c.note_eq code data tail]
@[simp] theorem Capstan.note_ctxResult (c : Capstan) (code : Nat) (data : List Byte) (tail : Option (List Byte)) : (c.note code data tail).ctxResult = c.ctxResult := by rw [c.note_eq code data tail]
@[simp] theorem Capstan.note_cmd (c : Capstan) (code : Nat) (data : List Byte) (tail : Option (List Byte)) : (c.note code data tail).cmd = c.cmd := by rw [c.note_eq code data tail]
@[simp] theorem Capstan.note_active (c : Capstan) (code : Nat) (data : List Byte) (tail : Option (List Byte)) : (c.note code data tail).active = c.active := by rw [c.note_eq code data tail]
@[simp] theorem Capstan.note_actWait (c : Capstan) (code : Nat) (data : List Byte) (tail : Option (List Byte)) : (c.note code data tail).actWait = c.actWait := by rw [c.note_eq code data tail]
@[simp] theorem Capstan.note_loans (c : Capstan) (code : Nat) (data : List Byte) (tail : Option (List Byte)) : (c.note code data tail).loans = c.loans := by rw [c.note_eq code data tail]
@[simp] theorem Capstan.record_n (c : Capstan) (head : LogRec) (tail : Option LogRec) : (c.record head tail).n = c.n := by rw [c.record_eq head tail]
@[simp] theorem Capstan.record_su (c : Capstan) (head : LogRec) (tail : Option LogRec) : (c.record head tail).su = c.su := by rw [c.record_eq head tail]
@[simp] theorem Capstan.record_img (c : Capstan) (head : LogRec) (tail : Option LogRec) : (c.record head tail).img = c.img := by rw [c.record_eq head tail]
@[simp] theorem Capstan.record_tb (c : Capstan) (head : LogRec) (tail : Option LogRec) : (c.record head tail).tb = c.tb := by rw [c.record_eq head tail]
@[simp] theorem Capstan.record_mgt (c : Capstan) (head : LogRec) (tail : Option LogRec) : (c.record head tail).mgt = c.mgt := by rw [c.record_eq head tail]
@[simp] theorem Capstan.record_hl (c : Capstan) (head : LogRec) (tail : Option LogRec) : (c.record head tail).hl = c.hl := by rw [c.record_eq head tail]
@[simp] theorem Capstan.record_ctxs (c : Capstan) (head : LogRec) (tail : Option LogRec) : (c.record head tail).ctxs = c.ctxs := by rw [c.record_eq head tail]
@[simp] theorem Capstan.record_table (c : Capstan) (head : LogRec) (tail : Option LogRec) : (c.record head tail).table = c.table := by rw [c.record_eq head tail]
@[simp] theorem Capstan.record_ctxResult (c : Capstan) (head : LogRec) (tail : Option LogRec) : (c.record head tail).ctxResult = c.ctxResult := by rw [c.record_eq head tail]
@[simp] theorem Capstan.record_cmd (c : Capstan) (head : LogRec) (tail : Option LogRec) : (c.record head tail).cmd = c.cmd := by rw [c.record_eq head tail]
@[simp] theorem Capstan.record_active (c : Capstan) (head : LogRec) (tail : Option LogRec) : (c.record head tail).active = c.active := by rw [c.record_eq head tail]
@[simp] theorem Capstan.record_actWait (c : Capstan) (head : LogRec) (tail : Option LogRec) : (c.record head tail).actWait = c.actWait := by rw [c.record_eq head tail]
@[simp] theorem Capstan.record_loans (c : Capstan) (head : LogRec) (tail : Option LogRec) : (c.record head tail).loans = c.loans := by rw [c.record_eq head tail]

/-! ### The Logline and the port after a record -/

@[simp] theorem Capstan.compareMark_next (c : Capstan) : c.compareMark.log.next = c.log.next := by
  unfold Capstan.compareMark
  split <;> simp

@[simp] theorem Capstan.compareMark_first (c : Capstan) : c.compareMark.log.first = c.log.first := by
  unfold Capstan.compareMark
  split <;> simp

@[simp] theorem Capstan.compareMark_last (c : Capstan) : c.compareMark.log.last = c.log.last := by
  unfold Capstan.compareMark
  split <;> simp

theorem Capstan.compareMark_sound {c : Capstan} (h : c.log.sound) : c.compareMark.log.sound :=
  Logline.sound_congr c.compareMark_next c.compareMark_first c.compareMark_last h

/-- A record, or an extended event, goes into the area it belongs to. -/
theorem Capstan.record_sound {c : Capstan} (h : c.log.sound) (head : LogRec) (tail : Option LogRec) : (c.record head tail).log.sound := by
  obtain ⟨hfirst, -, -⟩ := h.1
  cases tail with
  | none =>
    refine Capstan.compareMark_sound ?_
    by_cases hroom : c.log.first.length < 1024
    · have hopen : (1024 - c.log.first.length != 0) = true := by simp; omega
      rw [hopen]
      exact Capstan.store_first_sound h hroom head false
    · have hopen : (1024 - c.log.first.length != 0) = false := by simp; omega
      rw [hopen]
      exact Capstan.store_last_sound h (by omega) head false
  | some t =>
    unfold Capstan.record
    dsimp only
    split
    next hroom =>
      simp only [Bool.and_eq_true, bne_iff_ne, decide_eq_true_eq] at hroom
      refine Capstan.compareMark_sound (Capstan.store_first_sound (Capstan.compareMark_sound ?_) ?_ t false)
      · exact Capstan.store_first_sound h (by omega) head true
      · simp; omega
    next hroom =>
      simp only [Bool.and_eq_true, bne_iff_ne, decide_eq_true_eq, not_and] at hroom
      have hclosed : ∀ d : Capstan, d.log.sound → d.log.first.length = 1024 →
          (((d.store head true false).compareMark).store t false false).compareMark.log.sound := fun d hd hfull =>
        Capstan.compareMark_sound (Capstan.store_last_sound (Capstan.compareMark_sound (Capstan.store_last_sound hd hfull head true))
          (by simpa using hfull) t false)
      split
      next hopen =>
        simp only [bne_iff_ne] at hopen
        exact hclosed _ (Capstan.compareMark_sound (Capstan.store_first_sound h (by omega) _ false)) (by simp; omega)
      next hopen =>
        simp only [bne_iff_ne, ne_eq, Decidable.not_not] at hopen
        exact hclosed c h (by omega)

theorem Capstan.note_sound {c : Capstan} (h : c.log.sound) (code : Nat) (data : List Byte) (tail : Option (List Byte)) :
    (c.note code data tail).log.sound := Capstan.record_sound h _ _

/-- A record without a tail takes the next SEQ. -/
@[simp] theorem Capstan.note_next (c : Capstan) (code : Nat) (data : List Byte) : (c.note code data).log.next = c.log.next + 1 := by
  simp [Capstan.note, Capstan.record]

theorem Capstan.refillPort_held {c : Capstan} (h : c.irq.held.length ≤ 16) : c.refillPort.irq.held.length ≤ 16 := by
  unfold Capstan.refillPort
  split
  · exact h
  · simp only [List.length_append, List.length_take]
    omega

theorem Capstan.message_held {c : Capstan} (h : c.irq.held.length ≤ 16) (k : Nat) : (c.message k).irq.held.length ≤ 16 := by
  unfold Capstan.message
  dsimp only
  split
  · exact h
  · exact Capstan.refillPort_held h

theorem Capstan.event_held {c : Capstan} (h : c.irq.held.length ≤ 16) (i : Irq) : (c.event i).irq.held.length ≤ 16 := by
  unfold Capstan.event
  dsimp only
  split
  · refine Capstan.message_held ?_ _
    exact h
  · exact h

theorem Capstan.compareMark_held {c : Capstan} (h : c.irq.held.length ≤ 16) : c.compareMark.irq.held.length ≤ 16 := by
  unfold Capstan.compareMark
  split
  · refine Capstan.event_held ?_ _
    exact h
  · exact h

theorem Capstan.storeCompare_held {c : Capstan} (h : c.irq.held.length ≤ 16) (r : LogRec) (isHead toFirst : Bool) :
    (c.store r isHead toFirst).compareMark.irq.held.length ≤ 16 := Capstan.compareMark_held (c := c.store r isHead toFirst) h

theorem Capstan.record_held {c : Capstan} (h : c.irq.held.length ≤ 16) (head : LogRec) (tail : Option LogRec) :
    (c.record head tail).irq.held.length ≤ 16 := by
  unfold Capstan.record
  dsimp only
  split
  · exact Capstan.storeCompare_held h _ _ _
  · split
    · exact Capstan.storeCompare_held (Capstan.storeCompare_held h _ _ _) _ _ _
    · refine Capstan.storeCompare_held (Capstan.storeCompare_held ?_ _ _ _) _ _ _
      split
      · exact Capstan.storeCompare_held h _ _ _
      · exact h

end Sys2Proof.Machine
end

section
/-!
What every command keeps: the queue of waiting commands, the counter of free values, which only advances, and the invariant of the block. The
Capstan's part of the invariant is kept function by function; a slice may do what it likes, for the block only counts its slices; and what a
slice tells reaches the Capstan through `State.notify` alone.
-/

namespace Sys2Proof.Machine

/-! ### What is kept -/

/-- The activation slots in use are among the 64, and each is in use once (R469). -/
def slotsOnce (active : List (Nat × Nat)) : Prop := (∀ a ∈ active, a.1 < 64) ∧ active.Pairwise (fun a b => a.1 ≠ b.1)

/-- The context table rises by id. -/
def ctxsRise (ctxs : List Ctx) : Prop := ctxs.Pairwise (fun a b => a.id < b.id)

/-- A change of the Capstan from `c` to `d` keeps its part of the invariant. -/
structure Capstan.Keeps (c d : Capstan) : Prop where
  n : d.n = c.n
  slices : d.hl.slices.length = c.hl.slices.length
  logline : c.log.sound → d.log.sound
  port : c.irq.held.length ≤ 16 → d.irq.held.length ≤ 16
  repairs : c.hl.repairs.length ≤ 4096 → d.hl.repairs.length ≤ 4096
  active : slotsOnce c.active → slotsOnce d.active
  contexts : ctxsRise c.ctxs → ctxsRise d.ctxs

/-- A change of the state from `s` to `t` keeps the queue, the counter of free values and the invariant. -/
structure State.Keeps (s t : State) : Prop where
  pending : t.pending = s.pending
  fresh : s.fresh ≤ t.fresh
  inv : s.Inv → t.Inv

theorem Capstan.Keeps.refl (c : Capstan) : c.Keeps c := ⟨rfl, rfl, id, id, id, id, id⟩

theorem Capstan.Keeps.trans {c d e : Capstan} (h : c.Keeps d) (k : d.Keeps e) : c.Keeps e where
  n := k.n.trans h.n
  slices := k.slices.trans h.slices
  logline := k.logline ∘ h.logline
  port := k.port ∘ h.port
  repairs := k.repairs ∘ h.repairs
  active := k.active ∘ h.active
  contexts := k.contexts ∘ h.contexts

/-- The last change first: it tells what the changes before it have to come to. -/
theorem Capstan.Keeps.after {c d e : Capstan} (k : d.Keeps e) (h : c.Keeps d) : c.Keeps e := h.trans k

theorem Capstan.Keeps.foldl {α : Type} {f : Capstan → α → Capstan} (h : ∀ (c : Capstan) (x : α), c.Keeps (f c x)) (xs : List α) (c : Capstan) :
    c.Keeps (xs.foldl f c) := by
  induction xs generalizing c with
  | nil => exact .refl c
  | cons x xs ih => exact (h c x).trans (ih _)

theorem Capstan.Keeps.ite {c d e : Capstan} {p : Prop} [Decidable p] (h : p → c.Keeps d) (k : ¬p → c.Keeps e) : c.Keeps (if p then d else e) := by
  split
  · exact h ‹_›
  · exact k ‹_›

theorem State.Keeps.refl (s : State) : s.Keeps s := ⟨rfl, Nat.le_refl _, id⟩

theorem State.Keeps.trans {s t u : State} (h : s.Keeps t) (k : t.Keeps u) : s.Keeps u where
  pending := k.pending.trans h.pending
  fresh := Nat.le_trans h.fresh k.fresh
  inv := k.inv ∘ h.inv

/-- The last change first, as for the Capstan. -/
theorem State.Keeps.after {s t u : State} (k : t.Keeps u) (h : s.Keeps t) : s.Keeps u := h.trans k

theorem State.Keeps.foldl {α : Type} {f : State → α → State} (h : ∀ (s : State) (x : α), s.Keeps (f s x)) (xs : List α) (s : State) :
    s.Keeps (xs.foldl f s) := by
  induction xs generalizing s with
  | nil => exact .refl s
  | cons x xs ih => exact (h s x).trans (ih _)

theorem State.Keeps.ite {s t u : State} {p : Prop} [Decidable p] (h : p → s.Keeps t) (k : ¬p → s.Keeps u) : s.Keeps (if p then t else u) := by
  split
  · exact h ‹_›
  · exact k ‹_›

/-- A change of the Capstan alone; the queue and the messages in flight are not its part. -/
theorem State.Keeps.ofCap {s t : State} (h : s.cap.Keeps t.cap) (hslices : t.slices.length = s.slices.length)
    (hpending : t.pending = s.pending) (hfresh : s.fresh ≤ t.fresh) : s.Keeps t where
  pending := hpending
  fresh := hfresh
  inv i :=
    { slices := ⟨by rw [hslices, h.n]; exact i.slices.1, by rw [h.slices, h.n]; exact i.slices.2⟩
      logline := h.logline i.logline
      port := h.port i.port
      repairs := h.repairs i.repairs
      active := h.active i.active
      contexts := h.contexts i.contexts }

theorem State.Keeps.onCap {s : State} {f : Capstan → Capstan} (h : s.cap.Keeps (f s.cap)) : s.Keeps (s.onCap f) :=
  .ofCap h rfl rfl (Nat.le_refl _)

/-- Slices changed, none added and none taken away. -/
theorem State.Keeps.ofSlices {s t : State} (hslices : t.slices.length = s.slices.length) (hcap : t.cap = s.cap)
    (hpending : t.pending = s.pending) (hfresh : t.fresh = s.fresh) : s.Keeps t :=
  .ofCap (hcap ▸ .refl s.cap) hslices hpending (Nat.le_of_eq hfresh.symm)

theorem State.Keeps.setSlice (s : State) (i : Nat) (sl : Slice) : s.Keeps { s with slices := s.slices.set i sl } :=
  .ofSlices List.length_set rfl rfl rfl

theorem State.Keeps.setCap (s : State) {c : Capstan} (h : s.cap.Keeps c) : s.Keeps { s with cap := c } := .ofCap h rfl rfl (Nat.le_refl _)

theorem State.Keeps.atSlice (s : State) (i : Nat) (f : Capstan → Slice → Slice) : s.Keeps (s.atSlice i f) := by
  unfold State.atSlice
  split
  · exact .refl s
  · exact .setSlice ..

theorem State.Keeps.eachSlice (s : State) (f : Capstan → Slice → Slice) : s.Keeps (s.eachSlice f) := .ofSlices (List.length_map _) rfl rfl rfl

theorem State.Keeps.broadcast (s : State) : s.Keeps s.broadcast := .ofSlices (List.length_map _) rfl rfl rfl

theorem State.Keeps.admitAll (s : State) : s.Keeps s.admitAll := .eachSlice s _

/-- A change of the Capstan that then writes a block of the context table or the like. -/
theorem State.Keeps.thenCap {s t : State} {f : Capstan → Capstan} (h : s.Keeps t) (k : t.cap.Keeps (f t.cap)) : s.Keeps (t.onCap f) :=
  h.trans (.onCap k)

/-! ### The Capstan's functions -/

theorem Capstan.keeps_record (c : Capstan) (head : LogRec) (tail : Option LogRec) : c.Keeps (c.record head tail) where
  n := c.record_n head tail
  slices := by rw [c.record_hl]
  logline h := Capstan.record_sound h head tail
  port h := Capstan.record_held h head tail
  repairs := by rw [c.record_hl]; exact id
  active := by rw [c.record_active]; exact id
  contexts := by rw [c.record_ctxs]; exact id

theorem Capstan.keeps_note (c : Capstan) (code : Nat) (data : List Byte) (tail : Option (List Byte)) : c.Keeps (c.note code data tail) :=
  c.keeps_record _ _

theorem Capstan.keeps_event (c : Capstan) (i : Irq) : c.Keeps (c.event i) where
  n := c.event_n i
  slices := by rw [c.event_hl]
  logline := by rw [c.event_log]; exact id
  port h := Capstan.event_held h i
  repairs := by rw [c.event_hl]; exact id
  active := by rw [c.event_active]; exact id
  contexts := by rw [c.event_ctxs]; exact id

theorem Capstan.keeps_refillPort (c : Capstan) : c.Keeps c.refillPort := by
  rw [c.refillPort_eq]
  exact ⟨rfl, rfl, id, Capstan.refillPort_held, id, id, id⟩

theorem Capstan.keeps_message (c : Capstan) (k : Nat) : c.Keeps (c.message k) := by
  rw [c.message_eq k]
  exact ⟨rfl, rfl, id, fun h => Capstan.message_held h k, id, id, id⟩

theorem Capstan.keeps_compareMark (c : Capstan) : c.Keeps c.compareMark := by
  rw [c.compareMark_onlyLogs]
  exact ⟨rfl, rfl, Capstan.compareMark_sound, Capstan.compareMark_held, id, id, id⟩

theorem Capstan.keeps_captureFault (c : Capstan) (cls slice : Nat) (inCapstan : Bool) (unit detail : Nat) :
    c.Keeps (c.captureFault cls slice inCapstan unit detail) := by
  unfold Capstan.captureFault
  dsimp only
  split
  · exact Capstan.Keeps.after (Capstan.keeps_note _ _ _ _) ⟨rfl, rfl, id, id, id, id, id⟩
  · exact Capstan.Keeps.after ((Capstan.keeps_note _ _ _ _).trans (Capstan.keeps_event _ _)) ⟨rfl, rfl, id, id, id, id, id⟩

/-- A change of contexts that keeps their ids. -/
theorem ctxsRise_map {ctxs new : List Ctx} (h : ctxsRise ctxs) (hid : new.map (·.id) = ctxs.map (·.id)) : ctxsRise new := by
  have hids : (new.map (·.id)).Pairwise (· < ·) := by rw [hid]; exact List.pairwise_map.mpr h
  exact List.pairwise_map.mp hids

theorem Capstan.keeps_onCtx (c : Capstan) (id : Nat) (f : Ctx → Ctx) (hid : ∀ x, (f x).id = x.id) : c.Keeps (c.onCtx id f) :=
  ⟨rfl, rfl, fun h => h, fun h => h, fun h => h, fun h => h, fun h => ctxsRise_map h (map_updateWhere (·.id) _ f c.ctxs hid)⟩

theorem Capstan.keeps_overrun (c : Capstan) (x : Ctx) : c.Keeps (c.overrun x) := by
  unfold Capstan.overrun
  split
  · exact .refl c
  · refine Capstan.Keeps.trans ?_ (Capstan.keeps_note _ _ _ _)
    exact c.keeps_onCtx _ _ fun _ => rfl

theorem Capstan.keeps_endCmd (c : Capstan) (code detail : Nat) : c.Keeps (c.endCmd code detail) := by
  unfold Capstan.endCmd
  split
  · exact .refl c
  · dsimp only
    split
    · exact ⟨rfl, rfl, id, id, id, id, id⟩
    · exact Capstan.Keeps.after (Capstan.keeps_note _ _ _ _) ⟨rfl, rfl, id, id, id, id, id⟩

theorem Capstan.keeps_cmdDone (c : Capstan) (op : CtxOp) (ctx : Nat) : c.Keeps (c.cmdDone op ctx) := by
  unfold Capstan.cmdDone
  split
  · exact c.keeps_endCmd 1 0
  · exact .refl c

theorem Capstan.keeps_refuseCmd (c : Capstan) (op : CtxOp) (ctx code : Nat) : c.Keeps (c.refuseCmd op ctx code) :=
  Capstan.Keeps.after (Capstan.keeps_note _ _ _ _) ⟨rfl, rfl, id, id, id, id, id⟩

theorem Capstan.keeps_startEpoch (c : Capstan) : c.Keeps c.startEpoch := by
  unfold Capstan.startEpoch
  split
  · exact ⟨rfl, rfl, id, id, id, id, id⟩
  · exact Capstan.Keeps.after (Capstan.keeps_note _ _ _ _) ⟨rfl, rfl, id, id, id, id, id⟩

theorem Capstan.keeps_loseLink (c : Capstan) (slice port : Nat) : c.Keeps (c.loseLink slice port) := by
  unfold Capstan.loseLink
  extract_lets mate new
  split
  · exact .refl c
  · exact Capstan.Keeps.after ((Capstan.keeps_captureFault _ _ _ _ _ _).trans (Capstan.keeps_startEpoch _)) ⟨rfl, rfl, id, id, id, id, id⟩

theorem Capstan.keeps_missDeadline (c : Capstan) (x : Ctx) : c.Keeps (c.missDeadline x) := by
  refine Capstan.Keeps.trans ?_ ((Capstan.keeps_note _ _ _ _).trans (Capstan.keeps_event _ _))
  exact c.keeps_onCtx _ _ fun _ => rfl

theorem Capstan.keeps_endStart (c : Capstan) (st : StartState) : c.Keeps (c.endStart st) :=
  Capstan.Keeps.after (Capstan.keeps_note _ _ _ _) ⟨rfl, rfl, id, id, id, id, id⟩

theorem Capstan.keeps_onStart (c : Capstan) (f : StartUp → StartUp) : c.Keeps (c.onStart f) := ⟨rfl, rfl, id, id, id, id, id⟩

theorem Capstan.keeps_onMgt (c : Capstan) (f : Mgmt → Mgmt) : c.Keeps (c.onMgt f) := ⟨rfl, rfl, id, id, id, id, id⟩

theorem Capstan.keeps_failStart (c : Capstan) (f : Failure) : c.Keeps (c.failStart f) := by
  unfold Capstan.failStart
  dsimp only
  split
  · exact (c.keeps_onStart _).trans (Capstan.keeps_endStart _ _)
  · exact c.keeps_onStart _

theorem Capstan.keeps_discovered (c : Capstan) (bs : List Byte) : c.Keeps (c.discovered bs) := by
  unfold Capstan.discovered
  split
  · exact c.keeps_failStart _
  · split
    · exact c.keeps_failStart _
    · exact c.keeps_onStart _

theorem Capstan.keeps_headerIn (c : Capstan) (bs : List Byte) : c.Keeps (c.headerIn bs) := by
  unfold Capstan.headerIn
  dsimp only
  split
  · exact Capstan.Keeps.after (Capstan.keeps_failStart _ _) ⟨rfl, rfl, id, id, id, id, id⟩
  · split
    · exact Capstan.Keeps.after (Capstan.keeps_onStart _ _) ⟨rfl, rfl, id, id, id, id, id⟩
    · exact ⟨rfl, rfl, id, id, id, id, id⟩

theorem Capstan.keeps_assignProxy (c : Capstan) (dead : Nat) : c.Keeps (c.assignProxy dead) := by
  unfold Capstan.assignProxy
  dsimp only
  split
  · exact ⟨rfl, rfl, id, id, id, id, id⟩
  · exact Capstan.Keeps.after (Capstan.keeps_captureFault _ _ _ _ _ _) ⟨rfl, rfl, id, id, id, id, id⟩

theorem Capstan.keeps_startTime (c : Capstan) (frame : Option Nat) : c.Keeps (c.startTime frame) := ⟨rfl, rfl, id, id, id, id, id⟩

theorem Capstan.keeps_onDeath (c : Capstan) (i : Nat) (f : Death → Death) : c.Keeps (c.onDeath i f) := ⟨rfl, rfl, id, id, id, id, id⟩

theorem Capstan.keeps_probed (c : Capstan) (i : Nat) (clean : Bool) : c.Keeps (c.probed i clean) :=
  Capstan.Keeps.after ((Capstan.keeps_onDeath _ _ _).trans (Capstan.keeps_assignProxy _ _)) ⟨rfl, List.length_set, id, id, id, id, id⟩

theorem Capstan.keeps_declareDead (c : Capstan) (i : Nat) (stopped probeDone : Bool) : c.Keeps (c.declareDead i stopped probeDone) := by
  unfold Capstan.declareDead
  extract_lets d _ declared
  have hdeclared : c.Keeps declared := ⟨rfl, List.length_set, id, id, id, id, id⟩
  refine Capstan.Keeps.after (Capstan.keeps_startEpoch _) ?_
  split
  · exact hdeclared
  · exact hdeclared.trans (Capstan.keeps_captureFault _ _ _ _ _ _)

theorem Capstan.keeps_setTimeState (c : Capstan) (st : Nat) (e : BitVec 32) : c.Keeps (c.setTimeState st e) := by
  unfold Capstan.setTimeState
  split
  · exact .refl c
  · exact Capstan.Keeps.after (Capstan.keeps_note _ _ _ _) ⟨rfl, rfl, id, id, id, id, id⟩

theorem Capstan.keeps_alignTime (c : Capstan) (m sinceMark : Nat) : c.Keeps (c.alignTime m sinceMark) := by
  unfold Capstan.alignTime
  dsimp only
  split
  · exact Capstan.Keeps.after (Capstan.keeps_setTimeState _ _ _) ⟨rfl, rfl, id, id, id, id, id⟩
  · exact Capstan.Keeps.after (Capstan.keeps_setTimeState _ _ _) ⟨rfl, rfl, id, id, id, id, id⟩

theorem Capstan.keeps_timeFrame (c : Capstan) (bits : BitVec 128) (decodes : Bool) (sinceMark : Nat) :
    c.Keeps (c.timeFrame bits decodes sinceMark) := by
  unfold Capstan.timeFrame
  split
  · exact ⟨rfl, rfl, id, id, id, id, id⟩
  next m _ =>
    extract_lets _ counted aligned
    have haligned : c.Keeps aligned := by
      have hcounted : c.Keeps counted := ⟨rfl, rfl, id, id, id, id, id⟩
      simp only [aligned]
      split
      · exact hcounted.trans (Capstan.keeps_alignTime _ _ _)
      · exact hcounted
    exact haligned.trans ⟨rfl, rfl, id, id, id, id, id⟩

theorem Capstan.keeps_endSession (c : Capstan) (reason : Nat) : c.Keeps (c.endSession reason) := by
  unfold Capstan.endSession
  split
  · exact .refl c
  · exact Capstan.Keeps.after (Capstan.keeps_note _ _ _ _) ⟨rfl, rfl, id, id, id, id, id⟩

theorem Capstan.keeps_fail (c : Capstan) (off : Nat) : c.Keeps (c.fail off) := by
  unfold Capstan.fail
  extract_lets pending log captured unlogged sent _ closed
  have hcaptured : c.Keeps captured := c.keeps_captureFault _ _ _ _ _
  have hunlogged : c.Keeps unlogged := by
    simp only [unlogged]
    split
    · exact ⟨hcaptured.n, hcaptured.slices, fun h => h, hcaptured.port, hcaptured.repairs, hcaptured.active, hcaptured.contexts⟩
    · exact hcaptured
  have hsent : unlogged.Keeps sent := by
    simp only [sent]
    split
    · exact Capstan.keeps_message _ _
    · exact .refl _
  have hclosed : sent.Keeps closed := Capstan.Keeps.after (Capstan.keeps_endSession _ _) ⟨rfl, rfl, id, id, id, id, id⟩
  exact (hunlogged.trans (hsent.trans hclosed)).trans ⟨rfl, rfl, id, id, id, id, id⟩

theorem Capstan.keeps_takeRecord (c : Capstan) (o : OutRec) : c.Keeps (c.takeRecord o) := by
  unfold Capstan.takeRecord
  extract_lets late noted written
  have hnoted : c.Keeps noted := by
    simp only [noted]
    split
    · split
      · exact .refl c
      · exact c.keeps_onCtx _ _ fun _ => rfl
    · exact .refl c
  have hwritten : noted.Keeps written := by
    simp only [written]
    split
    · split
      · exact .refl _
      · exact Capstan.keeps_record _ _ _
    · exact .refl _
  refine (hnoted.trans hwritten).trans ?_
  split
  · exact Capstan.keeps_event _ _
  · exact .refl _

theorem Capstan.keeps_writeMask (c : Capstan) (v : Reg) : c.Keeps (c.writeMask v) := by
  unfold Capstan.writeMask
  dsimp only
  refine Capstan.Keeps.after (Capstan.Keeps.foldl (fun c k => ?_) _ _) ⟨rfl, rfl, id, id, id, id, id⟩
  split
  · exact c.keeps_message k
  · exact .refl c

theorem Capstan.keeps_writeMark (c : Capstan) (thresh : Bool) (v : Reg) : c.Keeps (c.writeMark thresh v) := by
  unfold Capstan.writeMark
  dsimp only
  refine Capstan.Keeps.after (Capstan.keeps_compareMark _) ⟨rfl, rfl, fun h => ?_, id, id, id, id⟩
  cases thresh <;> exact Logline.sound_congr rfl rfl rfl h

theorem Capstan.keeps_messageTaken (c : Capstan) : c.Keeps c.messageTaken :=
  Capstan.Keeps.after (Capstan.keeps_refillPort _) ⟨rfl, rfl, id, fun h => by simp only [List.length_drop]; omega, id, id, id⟩

theorem Capstan.keeps_expireChallenge (c : Capstan) : c.Keeps c.expireChallenge := by
  unfold Capstan.expireChallenge
  split
  · exact c.keeps_onMgt _
  · exact .refl c

theorem Capstan.keeps_expireLockout (c : Capstan) : c.Keeps c.expireLockout := by
  unfold Capstan.expireLockout
  split
  · exact c.keeps_onMgt _
  · exact .refl c

theorem Capstan.keeps_expireSession (c : Capstan) : c.Keeps c.expireSession := by
  unfold Capstan.expireSession
  split
  · exact c.keeps_endSession _
  · exact .refl c

theorem Capstan.keeps_expire (c : Capstan) : c.Keeps c.expire :=
  c.keeps_expireChallenge.trans ((Capstan.keeps_expireLockout _).trans (Capstan.keeps_expireSession _))

theorem Capstan.keeps_refuseOpen (c : Capstan) (key status : Nat) : c.Keeps (c.refuseOpen key status) := by
  unfold Capstan.refuseOpen
  extract_lets counted
  have hcounted : c.Keeps counted := (c.keeps_note _ _ _).trans (Capstan.keeps_onMgt _ _)
  refine hcounted.trans ?_
  split
  · exact .refl _
  · split
    · exact Capstan.keeps_onMgt _ _
    · exact Capstan.keeps_onMgt _ _

/-- A change of the Logline in which no record changes its SEQ. -/
theorem Logline.lose_sound {l : Logline} (h : l.sound) (area : Bool) (i : Nat) : (l.lose area i).sound := by
  obtain ⟨⟨hfirst, hlast, hempty⟩, hnumLast, hnumFirst⟩ := h
  cases area with
  | true =>
    refine ⟨⟨by simpa [Logline.lose] using hfirst, hlast, by simpa [Logline.lose] using hempty⟩, hnumLast, fun hlt => ?_⟩
    exact consecutive_updateAt (hnumFirst (by simpa [Logline.lose] using hlt)) (fun r => { r with lost := true }) (fun _ => rfl) i
  | false =>
    refine ⟨⟨hfirst, by simpa [Logline.lose] using hlast, ?_⟩, consecutive_updateAt hnumLast (fun r => { r with lost := true }) (fun _ => rfl) _,
      hnumFirst⟩
    refine hempty.imp_left fun hnil => ?_
    simp [Logline.lose, hnil, updateAt]

theorem Capstan.keeps_lose (c : Capstan) (area : Bool) (is : List Nat) : c.Keeps { c with log := is.foldl (fun l i => l.lose area i) c.log } := by
  refine ⟨rfl, rfl, fun h => ?_, id, id, id, id⟩
  generalize c.log = l at h
  induction is generalizing l with
  | nil => exact h
  | cons i is ih => exact ih _ (Logline.lose_sound h area i)

/-- LOG_CLEAR empties the last runnings, or both areas, and then writes its record (R556). -/
theorem Capstan.keeps_clearLog (c : Capstan) (key scope : Nat) : c.Keeps (c.clearLog key scope).1 := by
  unfold Capstan.clearLog
  dsimp only
  refine Capstan.Keeps.after (Capstan.Keeps.trans (Capstan.keeps_note _ _ _ _) ⟨rfl, rfl, Logline.sound_congr rfl rfl rfl, id, id, id, id⟩) ⟨rfl, rfl, fun h => ?_, id, id, id, id⟩
  obtain ⟨⟨hfirst, -, -⟩, -, hnumFirst⟩ := h
  split
  · exact ⟨⟨Nat.zero_le _, Nat.zero_le _, Or.inl rfl⟩, consecutive_nil _, fun _ => consecutive_nil _⟩
  · exact ⟨⟨hfirst, Nat.zero_le _, Or.inl rfl⟩, consecutive_nil _, hnumFirst⟩

end Sys2Proof.Machine
end

section
/-!
What every command keeps, continued: the operations of the whole block, the delivery of notices, and each command.
-/

namespace Sys2Proof.Machine

/-! ### Passes, contexts and notices -/

theorem State.keeps_endPass (s : State) (c : Ctx) : s.Keeps (s.endPass c) := by
  unfold State.endPass
  extract_lets reported ended
  have hended : s.Keeps ended := by
    refine ((State.Keeps.eachSlice s _).thenCap (Capstan.Keeps.trans (Capstan.keeps_overrun _ c) ?_)).trans (.broadcast _)
    refine Capstan.keeps_onCtx _ _ _ fun x => ?_
    unfold Ctx.passOver
    dsimp only
    split
    · rfl
    · split <;> rfl
  refine hended.trans (.ite (fun _ => ?_) fun _ => .ite (fun _ => .admitAll _) fun _ => .refl _)
  exact (State.Keeps.onCap (Capstan.keeps_cmdDone _ _ _)).trans (.admitAll _)

theorem State.keeps_endIfEmpty (s : State) (ctx : Nat) : s.Keeps (s.endIfEmpty ctx) := by
  unfold State.endIfEmpty
  split
  · exact .refl s
  · exact .ite (fun _ => s.keeps_endPass _) fun _ => .refl s

theorem State.keeps_boundaryOf (s : State) (ctx : Nat) (tick : Option Nat) : s.Keeps (s.boundaryOf ctx tick) := by
  unfold State.boundaryOf
  split
  · exact .refl s
  · refine .ite (fun _ => ?_) fun _ => .refl s
    refine State.Keeps.trans (State.Keeps.trans (State.Keeps.onCap ?_) (.eachSlice _ _)) (State.keeps_endIfEmpty _ _)
    exact s.cap.keeps_onCtx _ _ fun _ => rfl

theorem Ctx.takeFault_id (c : Ctx) (fclass fcause batch qindex addr : Nat) : (c.takeFault fclass fcause batch qindex addr).id = c.id := by
  unfold Ctx.takeFault
  dsimp only
  split <;> rfl

theorem State.keeps_ctxFault (s : State) (ctx fclass fcause batch qindex addr : Nat) :
    s.Keeps (s.ctxFault ctx fclass fcause batch qindex addr) := by
  unfold State.ctxFault
  split
  · exact .refl s
  · refine .ite (fun _ => .refl s) fun _ => ?_
    refine State.Keeps.trans ((State.Keeps.onCap ?_).trans (.broadcast _)) ((State.keeps_boundaryOf _ _ _).trans (.admitAll _))
    exact s.cap.keeps_onCtx _ _ fun x => x.takeFault_id _ _ _ _ _

theorem State.keeps_overruns (s : State) : s.Keeps s.overruns := by
  unfold State.overruns
  refine .ite (fun _ => .refl s) fun _ => ?_
  exact .onCap (Capstan.Keeps.foldl (fun c x => c.keeps_overrun x) _ _)

theorem State.keeps_capTakes (s : State) (n : Notice) : s.Keeps (s.capTakes n) := by
  unfold State.capTakes
  cases n with
  | send m => exact .ofSlices rfl rfl rfl rfl
  | activate slice ctx => exact .ite (fun _ => .refl s) fun _ => .onCap ⟨rfl, rfl, id, id, id, id, id⟩
  | ctxFault ctx fclass fcause batch qindex addr => exact s.keeps_ctxFault _ _ _ _ _ _
  | loan slice ctx core batchId missing => exact .ite (fun _ => .onCap ⟨rfl, rfl, id, id, id, id, id⟩) fun _ => .ite (fun _ => .onCap ⟨rfl, rfl, id, id, id, id, id⟩) fun _ => .onCap ⟨rfl, rfl, id, id, id, id, id⟩
  | page asid page => exact .ite (fun _ => .refl s) fun _ => .onCap ⟨rfl, rfl, id, id, id, id, id⟩
  | fault slice cls unit detail =>
    cases detail with
    | some d => exact .onCap (Capstan.keeps_captureFault _ _ _ _ _ _)
    | none => exact .ofCap (Capstan.keeps_captureFault _ _ _ _ _ _) rfl rfl (Nat.le_succ _)
  | dropped count held => cases held <;> exact .onCap ⟨rfl, rfl, Logline.sound_congr rfl rfl rfl, id, id, id, id⟩
  | lost home handle qindex => exact .atSlice s _ _
  | ended home handle qindex => exact .atSlice s _ _
  | repair r =>
    refine .onCap ?_
    split
    next hroom => exact ⟨rfl, rfl, id, id, fun _ => by simp only [List.length_append, List.length_singleton]; omega, id, id⟩
    · exact .refl _
  | linkLost slice port => exact .onCap (Capstan.keeps_loseLink _ _ _)

theorem State.keeps_notify (s : State) (n : Notice) : s.Keeps (s.notify n) := .ite (fun _ => .onCap ⟨rfl, rfl, id, id, id, id, id⟩) fun _ => s.keeps_capTakes n

theorem State.keeps_readMail (s : State) (i : Nat) : s.Keeps (s.readMail i) := by
  unfold State.readMail
  split
  · exact .refl s
  · exact State.Keeps.after (State.Keeps.foldl State.keeps_notify _ _) (.setSlice ..)

theorem keeps_deliverAll (s : State) : s.Keeps (deliverAll s) := (State.Keeps.foldl State.keeps_readMail _ s).trans (State.keeps_overruns _)

theorem keeps_deliver (s : State) (i : Nat) : s.Keeps (deliver s i) := (s.keeps_readMail i).trans (keeps_deliverAll _)

/-! ### Submissions, loans and activations -/

theorem State.keeps_endPage (s : State) (asid page : Nat) (f : Capstan → Slice → Slice) : s.Keeps (s.endPage asid page f) :=
  ((State.Keeps.onCap ⟨rfl, rfl, id, id, id, id, id⟩).trans (.eachSlice _ _)).trans (keeps_deliverAll _)

theorem Capstan.keeps_lend (c : Capstan) (l : Loan) : c.Keeps (c.lend l) := by
  unfold Capstan.lend
  split <;> exact ⟨rfl, rfl, id, id, id, id, id⟩

theorem State.keeps_moveOwner (s : State) (i : Nat) (c : Ctx) (block holder : Nat) : s.Keeps (s.moveOwner i c block holder) :=
  .ite (fun _ => .ofSlices (List.length_map _) rfl rfl rfl) fun _ => .atSlice s _ _

theorem State.keeps_entryPoison (s : State) (ctx : Nat) : s.Keeps (s.entryPoison ctx) := by
  unfold State.entryPoison
  extract_lets a fresh faulted
  have hfaulted : s.Keeps faulted := s.keeps_ctxFault _ _ _ _ _ _
  exact hfaulted.thenCap ((Capstan.keeps_note _ _ _ _).trans (.ite (fun _ => Capstan.keeps_event _ _) fun _ => .refl _))

theorem State.keeps_loadSlot (s : State) (ctx : Nat) (reads : List EntryRead) : s.Keeps (s.loadSlot ctx reads) := by
  unfold State.loadSlot
  split
  · exact .refl s
  · exact .eachSlice s _

theorem freeNumber_spec {n k : Nat} {used : List Nat} (h : freeNumber n used = some k) : k < n ∧ k ∉ used := by
  unfold freeNumber at h
  have hfree := List.find?_some h
  exact ⟨List.mem_range.mp (List.mem_of_find?_eq_some h), by simpa using hfree⟩

/-- A slot taken is a free one of the 64 (R469). -/
theorem Capstan.keeps_takeSlot (c : Capstan) {slot : Nat} (ctx : Nat) (wait : List (Nat × Nat)) (h : c.freeSlot = some slot) :
    c.Keeps { c with active := c.active ++ [(slot, ctx)], actWait := wait } := by
  refine ⟨rfl, rfl, id, id, id, ?_, id⟩
  rintro ⟨hbound, honce⟩
  obtain ⟨hslot, hfree⟩ := freeNumber_spec h
  refine ⟨fun a ha => ?_, List.pairwise_append.mpr ⟨honce, List.pairwise_singleton _ _, fun a ha b hb hab => ?_⟩⟩
  · rcases List.mem_append.mp ha with ha | ha
    · exact hbound a ha
    · rw [List.mem_singleton.mp ha]; exact hslot
  · have hslot : a.1 = slot := by rw [hab, List.mem_singleton.mp hb]
    exact hfree (hslot ▸ List.mem_map_of_mem ha)

/-- Slots given back. -/
theorem slotsOnce_filter {active : List (Nat × Nat)} (h : slotsOnce active) (p : Nat × Nat → Bool) : slotsOnce (active.filter p) :=
  ⟨fun a ha => h.1 a (List.mem_filter.mp ha).1, h.2.filter p⟩

/-! ### Context commands and passes -/

theorem State.keeps_runCmd (s : State) (k : CtxCmd) : s.Keeps (s.runCmd k) := by
  unfold State.runCmd
  split
  · exact .refl s
  · exact .refl s
  · dsimp only
    refine State.Keeps.trans (State.Keeps.onCap ?_) (.ite (fun _ => State.keeps_endPass _ _) fun _ => State.keeps_boundaryOf _ _ _)
    exact s.cap.keeps_onCtx _ _ fun _ => rfl
  · exact (s.keeps_boundaryOf _ _).thenCap (Capstan.keeps_cmdDone _ _ _)
  · refine State.Keeps.trans (State.Keeps.onCap ?_) (.broadcast _)
    exact s.cap.keeps_onCtx _ _ fun _ => rfl

theorem State.keeps_command (s : State) (v : Nat) : s.Keeps (s.command v) := by
  have hrefused (op : CtxOp) (ctx code : Nat) : s.Keeps (s.onCap (fun c => c.refuseCmd op ctx code)) :=
    .onCap (Capstan.keeps_refuseCmd _ _ _ _)
  unfold State.command
  dsimp only
  split
  · exact .refl s
  · refine .ite (fun _ => hrefused _ _ _) fun _ => .ite (fun _ => hrefused _ _ _) fun _ => .ite (fun _ => hrefused _ _ _) fun _ =>
      .ite (fun _ => hrefused _ _ _) fun _ => .ite (fun _ => hrefused _ _ _) fun _ => ?_
    exact .ite (fun _ => .onCap ⟨rfl, rfl, id, id, id, id, id⟩) fun _ => State.Keeps.trans (.onCap ⟨rfl, rfl, id, id, id, id, id⟩) (State.keeps_runCmd _ _)

theorem State.keeps_resumeCmd (s : State) (ctx : Nat) : s.Keeps (s.resumeCmd ctx) := by
  unfold State.resumeCmd
  split
  · exact .refl s
  · refine .ite (fun _ => .ite (fun _ => ?_) fun _ => ?_) fun _ => .refl s
    · exact State.Keeps.trans (.onCap ⟨rfl, rfl, id, id, id, id, id⟩) (State.keeps_runCmd _ _)
    · exact .onCap (Capstan.keeps_endCmd _ _ _)

/-- A context entered in the table in place of the one before keeps the table in rising order. -/
theorem ctxsRise_insert {ctxs : List Ctx} (h : ctxsRise ctxs) (x : Ctx) :
    ctxsRise (insertBy (fun a b => decide (a.id < b.id)) x (ctxs.filter (fun y => y.id != x.id))) :=
  (insertBy_pairwise (fun c : Ctx => c.id) x _ (h.filter _) fun y hy => by simpa using (List.mem_filter.mp hy).2).1

theorem State.keeps_makeValid (s : State) (ctx : Nat) (f b : Bytes) : s.Keeps (s.makeValid ctx f b) := by
  unfold State.makeValid
  refine State.Keeps.trans (State.Keeps.trans (State.Keeps.onCap ?_) (.broadcast _)) (.eachSlice _ _)
  exact ⟨rfl, rfl, id, id, id, id, fun h => ctxsRise_insert h _⟩

theorem State.keeps_makePending (s : State) (k : CtxCmd) (b : Bytes) : s.Keeps (s.makePending k b) := by
  unfold State.makePending
  refine State.Keeps.thenCap (State.Keeps.trans (State.Keeps.onCap ?_) (.ite (fun _ => State.keeps_boundaryOf _ _ _) fun _ => .refl _))
    (Capstan.keeps_cmdDone _ _ _)
  exact s.cap.keeps_onCtx _ _ fun _ => rfl

theorem State.keeps_entryRead (s : State) (k : CtxCmd) (entry : List Byte) (poison : Bool) : s.Keeps (s.entryRead k entry poison) := by
  unfold State.entryRead
  dsimp only
  refine .ite (fun _ => .onCap ((Capstan.keeps_note _ _ _ _).trans (Capstan.keeps_endCmd _ _ _))) fun _ => ?_
  split
  · exact .onCap (Capstan.keeps_endCmd _ _ _)
  · exact .ite (fun _ => s.keeps_makeValid _ _ _) fun _ => s.keeps_makePending _ _

theorem Ctx.beginPass_id (c : Ctx) : c.beginPass.id = c.id := by
  unfold Ctx.beginPass
  dsimp only
  split
  · split <;> rfl
  · rfl

theorem Ctx.run_id (now : Nat) (c : Ctx) : (c.run now).id = c.id := by
  unfold Ctx.run
  extract_lets started
  split <;> rfl

theorem State.keeps_rereadGen (s : State) (id : Nat) : s.Keeps (s.rereadGen id) := by
  unfold State.rereadGen
  extract_lets reread
  refine State.Keeps.thenCap (.eachSlice s _) ?_
  exact Capstan.keeps_onCtx _ _ _ fun _ => rfl

theorem State.keeps_rereadMap (s : State) (id : Nat) (maps : List MapRead) : s.Keeps (s.rereadMap id maps) := by
  unfold State.rereadMap
  extract_lets reread
  have hreread : s.Keeps reread := .eachSlice s _
  split
  · exact hreread.thenCap (Capstan.keeps_note _ _ _ _)
  · exact hreread

theorem State.keeps_haltStart (s : State) (ctx : Nat) : s.Keeps (s.haltStart ctx) := by
  refine (s.keeps_entryPoison ctx).thenCap ?_
  exact Capstan.keeps_onCtx _ _ _ fun _ => rfl

theorem State.keeps_startPass (s : State) (ctx : Nat) (reads : List EntryRead) (maps : List MapRead) : s.Keeps (s.startPass ctx reads maps) := by
  unfold State.startPass
  extract_lets loaded started ended
  have hloaded : s.Keeps loaded := (State.Keeps.onCap (s.cap.keeps_onCtx ctx Ctx.beginPass Ctx.beginPass_id)).trans (State.keeps_loadSlot _ _ _)
  have hstarted : loaded.Keeps started := .ite (fun _ => State.keeps_haltStart _ _) fun _ =>
    ((State.keeps_rereadGen _ _).trans (State.keeps_rereadMap _ _ _)).thenCap (Capstan.keeps_onCtx _ _ _ (Ctx.run_id _))
  have hended : started.Keeps ended := .onCap ((Capstan.keeps_cmdDone _ _ _).trans (Capstan.keeps_cmdDone _ _ _))
  exact ((hloaded.trans hstarted).trans hended).trans ((State.keeps_resumeCmd _ _).trans (.admitAll _))

theorem State.keeps_endReported (s : State) (ctx : Nat) : s.Keeps (s.endReported ctx) := .ite (fun _ => s.keeps_endIfEmpty _) fun _ => .refl s

theorem State.keeps_recheckPasses (s : State) : s.Keeps s.recheckPasses := State.Keeps.foldl State.keeps_endReported _ s

theorem State.keeps_reportEmpty (s : State) (i ctx : Nat) : s.Keeps (s.reportEmpty i ctx) := by
  refine .ite (fun _ => .refl s) fun _ => (State.Keeps.atSlice s _ _).thenCap ?_
  exact Capstan.keeps_onCtx _ _ _ fun _ => rfl

theorem State.keeps_tickCtx (t : Nat) (s : State) (x : Ctx) : s.Keeps (s.tickCtx t x) := by
  unfold State.tickCtx
  refine .ite (fun _ => .refl s) fun _ => ?_
  split
  · exact s.keeps_boundaryOf _ _
  · refine .onCap (Capstan.Keeps.after (Capstan.keeps_note _ _ _ _) ?_)
    exact Capstan.keeps_onCtx _ _ _ fun _ => rfl
  · exact .refl s
  · exact .refl s

theorem State.keeps_tickAll (s : State) (t : Nat) : s.Keeps (s.tickAll t) := State.Keeps.foldl (State.keeps_tickCtx t) _ s

theorem State.keeps_tickAt (s : State) (t : Nat) : s.Keeps (s.tickAt t) := .ite (fun _ => s.keeps_tickAll t) fun _ => .onCap ⟨rfl, rfl, id, id, id, id, id⟩

theorem State.keeps_syncEdge (s : State) : s.Keeps s.syncEdge := by
  unfold State.syncEdge
  dsimp only
  exact .ite (fun _ => .onCap ⟨rfl, rfl, id, id, id, id, id⟩) fun _ => State.Keeps.trans (.onCap ⟨rfl, rfl, id, id, id, id, id⟩) (State.keeps_tickAt _ _)

theorem State.keeps_timerTick (s : State) : s.Keeps s.timerTick := by
  unfold State.timerTick
  dsimp only
  exact .ite (fun _ => State.Keeps.trans (.onCap ⟨rfl, rfl, id, id, id, id, id⟩) (State.keeps_tickAt _ _)) fun _ => .refl s

/-! ### Registers -/

theorem State.keeps_captureError (s : State) (write mgt : Bool) (code off : Nat) : s.Keeps (s.captureError write mgt code off) := .onCap ⟨rfl, rfl, id, id, id, id, id⟩

theorem State.keeps_respond (s : State) (data : Reg) (code : Nat) : s.Keeps (s.respond data code) := .onCap ⟨rfl, rfl, id, id, id, id, id⟩

theorem Capstan.keeps_selectRecord (c : Capstan) (v : Reg) : c.Keeps (c.selectRecord v) where
  n := rfl
  slices := rfl
  logline := Logline.sound_congr rfl rfl rfl
  port := id
  repairs := id
  active := id
  contexts := id

theorem State.keeps_writeCap (s : State) (off : Nat) (v : Reg) : s.Keeps (s.writeCap off v) := by
  refine .ite (fun _ => s.keeps_command _) fun _ => .onCap ?_
  refine .ite (fun _ => ⟨rfl, rfl, id, id, id, id, id⟩) fun _ => .ite (fun _ => Capstan.keeps_writeMask _ _) fun _ => .ite (fun _ => ⟨rfl, rfl, id, id, id, id, id⟩) fun _ => .ite (fun _ => ⟨rfl, rfl, id, id, id, id, id⟩) fun _ =>
    .ite (fun _ => ⟨rfl, rfl, id, id, id, id, id⟩) fun _ => .ite (fun _ => ⟨rfl, rfl, id, id, id, id, id⟩) fun _ => ?_
  exact .ite (fun _ => Capstan.keeps_writeMark _ _ _) fun _ => .ite (fun _ => Capstan.keeps_writeMark _ _ _) fun _ =>
    .ite (fun _ => Capstan.keeps_selectRecord _ _) fun _ => .refl _

theorem State.keeps_writeTarget (s : State) (t : Target) (v : Reg) : s.Keeps (s.writeTarget t v) := by
  cases t with
  | cap off => exact s.keeps_writeCap off v
  | slice i off => exact .atSlice s i (fun env sl => sl.writeReg env off v)

theorem State.keeps_readTarget (s : State) (t : Target) : s.Keeps (s.readTarget t).2 := by
  cases t with
  | cap off => exact .refl s
  | slice i off => exact .atSlice s i (fun _ sl => sl.readReg off)

theorem State.keeps_doWrite (s : State) (off size : Nat) (v : Reg) : s.Keeps (s.doWrite off size v) := by
  unfold State.doWrite
  split
  · exact (s.keeps_captureError _ _ _ _).trans (State.keeps_respond _ _ _)
  · exact ((s.keeps_writeTarget _ _).trans (State.keeps_respond _ _ _)).trans (keeps_deliverAll _)

theorem State.keeps_doRead (s : State) (off size : Nat) : s.Keeps (s.doRead off size) := by
  unfold State.doRead
  split
  · exact (s.keeps_captureError _ _ _ _).trans (State.keeps_respond _ _ _)
  · exact (s.keeps_readTarget _).trans (State.keeps_respond _ _ _)

theorem State.keeps_access (s : State) (a : HeldAccess) : s.Keeps (s.access a) :=
  .ite (fun _ => .refl s) fun _ => .ite (fun _ => .onCap ⟨rfl, rfl, id, id, id, id, id⟩) fun _ => .ite (fun _ => s.keeps_doWrite _ _ _) fun _ => s.keeps_doRead _ _

theorem State.keeps_loseRegister (s : State) (off size : Nat) : s.Keeps (s.loseRegister off size) := by
  unfold State.loseRegister
  split
  · exact .onCap ⟨rfl, rfl, id, id, id, id, id⟩
  · exact .refl s

/-! ### Power and the start -/

/-- The engine without power holds the invariant whatever it held (R612), and keeps its slices. -/
theorem State.keeps_off (s : State) (power : Power) : s.Keeps (s.off power) where
  pending := rfl
  fresh := Nat.le_refl _
  inv h :=
    { slices := ⟨by simpa [State.off, resetCapstan] using h.slices.1, by simp [State.off, resetCapstan]⟩
      logline := ⟨⟨Nat.zero_le _, Nat.zero_le _, Or.inl rfl⟩, consecutive_nil _, fun _ => consecutive_nil _⟩
      port := Nat.zero_le _
      repairs := Nat.zero_le _
      active := ⟨fun _ ha => absurd ha List.not_mem_nil, List.Pairwise.nil⟩
      contexts := List.Pairwise.nil }

theorem State.keeps_begin (s : State) : s.Keeps s.begin :=
  (s.keeps_off .running).trans (.ofCap ⟨rfl, rfl, id, id, id, id, id⟩ (List.length_map _) rfl (Nat.le_refl _))

theorem State.keeps_settleStart (s : State) : s.Keeps s.settleStart := .ite (fun _ => .ofSlices (List.length_map _) rfl rfl rfl) fun _ => .refl s

/-- The states of the slices: one for each slice. -/
theorem State.keeps_setStates (s : State) (routers : List Nat) : s.Keeps (s.setStates routers) where
  pending := rfl
  fresh := Nat.le_refl _
  inv h :=
    { slices := ⟨h.slices.1, (List.length_map _).trans h.slices.1⟩
      logline := h.logline
      port := h.port
      repairs := h.repairs
      active := h.active
      contexts := h.contexts }

theorem State.keeps_load (s : State) : s.Keeps s.load := by
  unfold State.load
  refine .ite (fun _ => .refl s) fun _ => ?_
  extract_lets loaded checked
  have hchecked : s.Keeps checked := State.Keeps.trans (State.Keeps.trans (.onCap ⟨rfl, rfl, id, id, id, id, id⟩) (.eachSlice _ _)) (State.keeps_setStates _ _)
  refine hchecked.trans (.ite (fun _ => .onCap ?_) fun _ => .ite (fun _ => .onCap (Capstan.keeps_note _ _ _ _)) fun _ => .refl _)
  exact (Capstan.keeps_onStart _ _).trans (Capstan.keeps_endStart _ _)

theorem State.keeps_repairCapstan (s : State) (d : Nat × Nat) : s.Keeps (s.repairCapstan d) := by
  unfold State.repairCapstan
  extract_lets x r data
  have hnoted : s.Keeps ((s.capTakes (.repair r)).onCap (fun c => c.note 0x1001 data)) :=
    (s.keeps_capTakes _).thenCap (Capstan.keeps_note _ _ _ _)
  exact { pending := hnoted.pending, fresh := Nat.le_succ _, inv := fun h => { hnoted.inv h with } }

theorem State.keeps_selfTested (s : State) (f : Selftest) : s.Keeps (s.selfTested f) := by
  unfold State.selfTested
  extract_lets mine tested mapped fail
  have htested : s.Keeps tested :=
    ((State.Keeps.eachSlice s _).trans (keeps_deliverAll _)).trans (State.Keeps.foldl State.keeps_repairCapstan _ _)
  have hmapped : tested.Keeps mapped := State.Keeps.trans (.onCap (Capstan.keeps_onStart _ _)) (State.keeps_setStates _ _)
  have hfail (code : Nat) : mapped.Keeps (fail code) := .onCap ((Capstan.keeps_onStart _ _).trans (Capstan.keeps_endStart _ _))
  refine (htested.trans hmapped).trans (.ite (fun _ => hfail _) fun _ => .ite (fun _ => hfail _) fun _ => .ite (fun _ => ?_) fun _ => ?_)
  · exact .onCap (Capstan.keeps_endStart _ _)
  · exact State.keeps_load _

theorem State.keeps_imageRead (s : State) (bs : List Byte) : s.Keeps (s.imageRead bs) := by
  unfold State.imageRead
  split
  · exact .onCap (Capstan.keeps_failStart _ _)
  · exact State.Keeps.trans (.onCap ⟨rfl, rfl, id, id, id, id, id⟩) (State.keeps_load _)

theorem State.keeps_isolateUnreached (s : State) : s.Keeps s.isolateUnreached := by
  unfold State.isolateUnreached
  extract_lets far stopped
  have hstopped : s.Keeps stopped := .eachSlice s _
  exact hstopped.thenCap ⟨rfl, by simp only [List.length_map, indexed_length], id, id, id, id, id⟩

theorem State.keeps_shutIsolated (s : State) : s.Keeps s.shutIsolated := by
  unfold State.shutIsolated
  exact .eachSlice s _

theorem State.keeps_writeTables (s : State) : s.Keeps s.writeTables := by
  unfold State.writeTables
  exact .eachSlice s _

theorem State.keeps_startMesh (s : State) : s.Keeps s.startMesh := by
  unfold State.startMesh
  extract_lets trained linked split
  have hlinked : s.Keeps linked := (State.Keeps.ofSlices (t := trained) (List.length_map _) rfl rfl rfl).thenCap ⟨rfl, rfl, id, id, id, id, id⟩
  have hsplit : linked.Keeps split := (State.keeps_isolateUnreached _).trans (State.keeps_shutIsolated _)
  refine (hlinked.trans hsplit).trans (State.Keeps.trans (.onCap ?_) (State.keeps_writeTables _))
  exact Capstan.Keeps.foldl Capstan.keeps_assignProxy _ _

theorem State.keeps_becomeReady (s : State) (frame : Option Nat) : s.Keeps (s.becomeReady frame) := by
  unfold State.becomeReady
  extract_lets started ready
  have hready : s.Keeps ready := (s.keeps_startMesh.thenCap (Capstan.keeps_startTime _ _)).trans (.eachSlice _ _)
  exact hready.thenCap (Capstan.Keeps.after (Capstan.keeps_note _ _ _ _) ⟨rfl, rfl, id, id, id, id, id⟩)

theorem State.keeps_startTime (s : State) (frame : Option (BitVec 128 × Bool × Nat)) : s.Keeps (s.startTime frame) := by
  unfold State.startTime
  refine .ite (fun _ => s.keeps_becomeReady _) fun _ => ?_
  extract_lets bad counted
  have hcounted : s.Keeps counted := .ite (fun _ => .onCap ⟨rfl, rfl, id, id, id, id, id⟩) fun _ => .refl s
  refine hcounted.trans ?_
  split
  · exact State.keeps_becomeReady _ _
  · exact .ite (fun _ => State.keeps_becomeReady _ _) fun _ => .refl _

/-! ### Death, epochs, links and the restart -/

theorem State.keeps_takeCasks (s : State) (dead proxy : Nat) : s.Keeps (s.takeCasks dead proxy) := by
  unfold State.takeCasks
  split
  · exact .refl s
  · refine ((State.Keeps.atSlice s _ _).trans ((State.Keeps.atSlice _ _ _).trans (.atSlice _ _ _))).trans (State.Keeps.foldl (fun s k => ?_) _ _)
    unfold State.moveOwners
    split
    · exact .refl s
    · exact State.Keeps.foldl (fun s b => s.keeps_moveOwner _ _ _ _) _ s

theorem State.keeps_beginDuties (s : State) : s.Keeps s.beginDuties :=
  State.Keeps.foldl (fun (s : State) (p : Nat × Nat) => (s.keeps_takeCasks p.1 p.2).thenCap (Capstan.keeps_onDeath _ _ _)) _ s

theorem State.keeps_checkBeats (s : State) : s.Keeps s.checkBeats := by
  unfold State.checkBeats
  extract_lets unanswered probed
  have hprobed : s.Keeps probed :=
    (State.Keeps.onCap (Capstan.Keeps.foldl (fun c d => c.keeps_probed _ _) _ _)).trans (State.keeps_beginDuties _)
  exact (hprobed.thenCap (Capstan.Keeps.foldl (fun c i => c.keeps_declareDead _ _ _) _ _)).trans (State.keeps_recheckPasses _)

theorem State.keeps_endEpoch (s : State) : s.Keeps s.endEpoch := by
  unfold State.endEpoch
  extract_lets kept ended again far routed following reached
  have hrouted : s.Keeps routed := State.Keeps.trans (State.Keeps.trans (.ofSlices (t := kept) rfl rfl rfl rfl) (.onCap ⟨rfl, rfl, id, id, id, id, id⟩)) (State.keeps_writeTables _)
  have hfollowing : routed.Keeps following := .onCap (.ite (fun _ => Capstan.keeps_startEpoch _) fun _ => .refl _)
  have hreached : following.Keeps reached := .eachSlice _ _
  refine (hrouted.trans (hfollowing.trans hreached)).trans (State.Keeps.trans (.onCap ?_) (State.keeps_beginDuties _))
  exact Capstan.Keeps.foldl (fun c i => (c.keeps_declareDead _ _ _).trans (Capstan.keeps_probed _ _ _)) _ _

theorem State.keeps_endIfDrained (s : State) : s.Keeps s.endIfDrained := .ite (fun _ => s.keeps_endEpoch) fun _ => .refl s

theorem State.keeps_reportDrained (s : State) (i : Nat) : s.Keeps (s.reportDrained i) := (State.Keeps.atSlice s i _).thenCap ⟨rfl, rfl, id, id, id, id, id⟩

theorem State.keeps_onLink (s : State) (i p m : Nat) (f : Module → Module) : s.Keeps (s.onLink i p m f) := by
  unfold State.onLink
  dsimp only
  split
  · exact (State.Keeps.atSlice s _ _).trans (.atSlice _ _ _)
  · exact .atSlice s _ _

theorem State.keeps_beginRetrain (s : State) (i p m : Nat) : s.Keeps (s.beginRetrain i p m) :=
  .ite (fun _ => (State.Keeps.atSlice s _ _).trans (State.keeps_onLink _ _ _ _ _)) fun _ => .refl s

theorem State.keeps_retrained (s : State) (i p m : Nat) : s.Keeps (s.retrained i p m) := by
  unfold State.retrained
  extract_lets again worked
  have hworked : s.Keeps worked := (s.keeps_onLink _ _ _ _).trans (.atSlice _ _ _)
  split
  · exact hworked.trans (.atSlice _ _ _)
  · exact hworked

theorem State.keeps_moduleLost (s : State) (i p m : Nat) : s.Keeps (s.moduleLost i p m) := by
  unfold State.moduleLost
  extract_lets down rekey move here both
  have hhere : s.Keeps here := (s.keeps_onLink _ _ _ _).trans ((State.Keeps.atSlice _ _ _).trans (.atSlice _ _ _))
  have hboth : here.Keeps both := by
    simp only [both]
    split
    · exact .atSlice _ _ _
    · exact .refl _
  exact (hhere.trans hboth).trans (.ite (fun _ => .atSlice _ _ _) fun _ => .refl _)

theorem State.keeps_takeFrame (s : State) (bits : BitVec 128) (decodes : Bool) (sinceMark : Nat) : s.Keeps (s.takeFrame bits decodes sinceMark) := by
  have hcap : s.Keeps { s with cap := s.cap.timeFrame bits decodes sinceMark } := .ofCap (Capstan.keeps_timeFrame _ _ _ _) rfl rfl (Nat.le_refl _)
  exact hcap.trans (.ite (fun _ => .refl _) fun _ => .eachSlice _ _)

theorem State.keeps_resume (s : State) : s.Keeps s.resume := by
  unfold State.resume
  extract_lets notices accesses taken told served ticks
  have htold : s.Keeps told :=
    State.Keeps.trans (.onCap ⟨rfl, rfl, id, id, id, id, id⟩) ((State.Keeps.foldl State.keeps_notify _ taken).thenCap (Capstan.keeps_refillPort _))
  have hserved : told.Keeps served := State.Keeps.foldl State.keeps_access _ _
  exact (htold.trans hserved).trans (State.Keeps.trans (.onCap ⟨rfl, rfl, id, id, id, id, id⟩) (State.Keeps.foldl State.keeps_tickAll _ _))

/-! ### The management port -/

theorem State.keeps_answer (s : State) (f : Capstan → List Byte) : s.Keeps (s.onCap (fun c => c.answer (f c))) := .onCap ⟨rfl, rfl, id, id, id, id, id⟩

theorem State.keeps_plainCmd (s : State) (tag cnt : Nat) (f : State → Nat × List Byte × State) (hf : ∀ s : State, s.Keeps (f s).2.2) :
    s.Keeps (s.plainCmd tag cnt f) :=
  .ite (fun _ => .refl s) fun _ => (State.Keeps.onCap s.cap.keeps_expire).trans
    (.ite (fun _ => State.keeps_answer _ _) fun _ => (hf _).trans (State.keeps_answer _ _))

theorem State.keeps_issueChallenge (s : State) (key : Nat) : s.Keeps (s.issueChallenge key).2.2 := .ofCap ⟨rfl, rfl, id, id, id, id, id⟩ rfl rfl (Nat.le_succ _)

theorem Capstan.keeps_openSession (c : Capstan) (key : Nat) (k nt nh : List Byte) : c.Keeps (c.openSession key k nt nh).1 := by
  unfold Capstan.openSession
  dsimp only
  exact Capstan.Keeps.after (Capstan.keeps_note _ _ _ _) (c.keeps_onMgt _)

theorem State.keeps_openResponse (s : State) (key : Nat) (nh p : List Byte) : s.Keeps (s.openResponse key nh p).2.2 := by
  unfold State.openResponse
  extract_lets ch spent refuse
  have hspent : s.Keeps spent := .onCap ⟨rfl, rfl, id, id, id, id, id⟩
  have hrefuse (st : Nat) : s.Keeps (refuse st).2.2 :=
    hspent.thenCap (f := fun c => c.refuseOpen key st) (Capstan.keeps_refuseOpen _ _ _)
  split
  · exact hrefuse _
  · split
    · exact hrefuse _
    · exact hrefuse _
    · split
      · exact hrefuse _
      next k x _ _ _ =>
        exact hspent.thenCap (f := fun _ => (spent.cap.openSession key k x.nt nh).1) (Capstan.keeps_openSession _ _ _ _ _)

theorem State.keeps_sessionCmd (s : State) (cmd tag cnt right : Nat) (body mac : List Byte) (f : State → Session → Nat × List Byte × State)
    (hf : ∀ (s : State) (x : Session), s.Keeps (f s x).2.2) : s.Keeps (s.sessionCmd cmd tag cnt right body mac f) := by
  unfold State.sessionCmd
  refine .ite (fun _ => .refl s) fun _ => ?_
  extract_lets expired refuse
  have hexpired : s.Keeps expired := .onCap s.cap.keeps_expire
  have hrefuse (st : Nat) : s.Keeps (refuse st) := hexpired.trans (State.keeps_answer _ _)
  refine .ite (fun _ => hrefuse _) fun _ => ?_
  split
  · exact hrefuse _
  next x _ =>
    refine .ite (fun _ => hexpired.trans (State.keeps_answer _ _)) fun _ => .ite (fun _ => hrefuse _) fun _ => hexpired.trans ?_
    unfold State.accept
    extract_lets renewed done
    have hdone : renewed.Keeps done.2.2 := by
      simp only [done]
      split
      · exact hf _ _
      · exact .refl _
    exact State.Keeps.trans (.onCap ⟨rfl, rfl, id, id, id, id, id⟩) (hdone.thenCap ⟨rfl, rfl, id, id, id, id, id⟩)

end Sys2Proof.Machine
end

section
/-!
What every command keeps, concluded: each command of `exec`, one cycle of the clock, and the reset state.
-/

namespace Sys2Proof.Machine

/-- The state that an outcome answers keeps what `s` keeps. -/
def State.KeptBy (s : State) (o : Out') : Prop := ∀ t, o = .next t → s.Keeps t

theorem State.Keeps.next {s t : State} (h : s.Keeps t) : s.KeptBy (.next t) := by
  rintro _ ⟨⟩
  exact h

theorem State.keptBy_same (s : State) : s.KeptBy (.next s) := (State.Keeps.refl s).next

theorem State.KeptBy.ite {s : State} {o u : Out'} {p : Prop} [Decidable p] (h : p → s.KeptBy o) (k : ¬p → s.KeptBy u) :
    s.KeptBy (if p then o else u) := by
  split
  · exact h ‹_›
  · exact k ‹_›

/-! ### The shared operations of the commands -/

theorem onSlice_kept (i : Nat) (s : State) (f : Capstan → Slice → Slice) : s.KeptBy (onSlice deliver i s f) := by
  unfold onSlice
  split
  · exact s.keptBy_same
  · exact (State.Keeps.after (keeps_deliver _ i) (.setSlice ..)).next

theorem onLive_kept (i : Nat) (s : State) (f : Capstan → Slice → Slice) : s.KeptBy (onLive i s f) := onSlice_kept i s _

theorem onPowered_kept (i : Nat) (s : State) (f : Capstan → Slice → Slice) : s.KeptBy (onPowered i s f) := onSlice_kept i s _

theorem onRouter_kept (i : Nat) (s : State) (f : Capstan → Slice → Slice) : s.KeptBy (onRouter i s f) := onSlice_kept i s _

theorem State.takeMsg_cap {s s' : State} {slice idx : Nat} {m : RopeMsg} (h : s.takeMsg slice idx = some (m, s')) : s.Keeps s' := by
  unfold State.takeMsg at h
  split at h
  · split at h
    · cases h
      exact .ofSlices rfl rfl rfl rfl
    · cases h
  · cases h

theorem onArrival_kept (slice idx : Nat) (s : State) (f : Capstan → Slice → RopeMsg → Option Slice) : s.KeptBy (onArrival slice idx s f) := by
  unfold onArrival
  split
  · exact s.keptBy_same
  · split
    · exact s.keptBy_same
    next m s' htake =>
      refine .ite (fun _ => ?_) fun _ => s.keptBy_same
      split
      · exact s.keptBy_same
      · exact (State.Keeps.after (State.Keeps.after (keeps_deliver _ _) (.setSlice ..)) (State.takeMsg_cap htake)).next

theorem busWrite_kept (s : State) (off : Nat) (v : Reg) : s.KeptBy (.next (s.busWrite off v)) := (s.keeps_access _).next

theorem sliceWrite_kept (slice off : Nat) (v : Reg) (s : State) : s.KeptBy (sliceWrite slice off v s) := busWrite_kept s _ v

theorem submit_kept (die core off : Nat) (isG : Bool) (mask : Nat) (s : State) : s.KeptBy (submit die core off isG mask s) := by
  unfold submit
  split
  · exact s.keptBy_same
  · split
    · exact s.keptBy_same
    · exact onLive_kept _ _ _

theorem State.keeps_ccc (s : State) (bs : List Byte) : s.Keeps (s.ccc bs) := .onCap ⟨rfl, rfl, id, id, id, id, id⟩

/-! ### Submissions, loans, activations, pages -/

theorem execSubmissionRePresented_kept (die core off : Nat) (isG : Bool) (mask : BitVec 64) (batchId : Nat) (s : State) :
    s.KeptBy (execSubmissionRePresented die core off isG mask batchId s) := by
  unfold execSubmissionRePresented
  split
  · exact s.keptBy_same
  · refine .ite (fun _ => s.keptBy_same) fun _ => ?_
    split
    · exact s.keptBy_same
    · exact onLive_kept _ _ _

theorem execCaskBlockGiven_kept (slice block : Nat) (s : State) : s.KeptBy (execCaskBlockGiven slice block s) := by
  unfold execCaskBlockGiven
  split
  · exact s.keptBy_same
  · refine .ite (fun _ => s.keptBy_same) fun _ => ?_
    split
    · exact s.keptBy_same
    · exact ((((State.Keeps.atSlice _ _ _).trans (State.keeps_moveOwner _ _ _ _ _)).trans (.atSlice _ _ _)).thenCap
        (Capstan.keeps_lend _ _)).next

theorem execActivationGranted_kept (reads : List EntryRead) (s : State) : s.KeptBy (execActivationGranted reads s) := by
  unfold execActivationGranted
  refine .ite (fun _ => s.keptBy_same) fun _ => ?_
  split
  next hslot =>
    extract_lets granted loaded poisoned
    have hloaded : s.Keeps loaded := State.Keeps.trans (.onCap (s.cap.keeps_takeSlot _ _ hslot)) (State.keeps_loadSlot _ _ _)
    have hpoisoned : loaded.Keeps poisoned := .ite (fun _ => State.keeps_entryPoison _ _) fun _ => .refl _
    exact (hloaded.trans (hpoisoned.trans ((State.Keeps.admitAll _).trans (keeps_deliverAll _)))).next
  · exact s.keptBy_same

theorem execActivationEnd_kept (ctx : Nat) (s : State) : s.KeptBy (execActivationEnd ctx s) := by
  refine .ite (fun _ => s.keptBy_same) fun _ => State.Keeps.next (State.Keeps.thenCap (.eachSlice s _) ?_)
  exact ⟨rfl, rfl, id, id, id, fun h => slotsOnce_filter h _, id⟩

theorem execPageResponse_kept (asid page : Nat) (ok : Bool) (s : State) : s.KeptBy (execPageResponse asid page ok s) := by
  refine .ite (fun _ => s.keptBy_same) fun _ => ?_
  split
  · exact s.keptBy_same
  · exact (s.keeps_endPage _ _ _).next

theorem execPageTimeout_kept (asid page : Nat) (s : State) : s.KeptBy (execPageTimeout asid page s) := by
  refine .ite (fun _ => s.keptBy_same) fun _ => ?_
  split
  · exact s.keptBy_same
  · exact .ite (fun _ => s.keptBy_same) fun _ => (s.keeps_endPage _ _ _).next

theorem execReplayRelease_kept (slice batch : Nat) (reads : Decodes) (s : State) : s.KeptBy (execReplayRelease slice batch reads s) :=
  .ite (fun _ => onLive_kept _ _ _) fun _ => onLive_kept _ _ _

/-! ### Contexts and passes -/

theorem execContextEntryRead_kept (entry : List Byte) (poison : Bool) (s : State) : s.KeptBy (execContextEntryRead entry poison s) := by
  unfold execContextEntryRead
  split
  · exact s.keptBy_same
  · exact .ite (fun _ => s.keptBy_same) fun _ => ((s.keeps_entryRead _ _ _).trans (keeps_deliverAll _)).next

theorem execPassStart_kept (ctx : Nat) (reads : List EntryRead) (maps : List MapRead) (s : State) : s.KeptBy (execPassStart ctx reads maps s) :=
  .ite (fun _ => ((s.keeps_startPass _ _ _).trans (keeps_deliverAll _)).next) fun _ => s.keptBy_same

theorem execSlicePassEmpty_kept (slice ctx : Nat) (s : State) : s.KeptBy (execSlicePassEmpty slice ctx s) := by
  unfold execSlicePassEmpty
  split
  · exact s.keptBy_same
  · exact .ite (fun _ => s.keptBy_same) fun _ =>
      (((s.keeps_reportEmpty _ _).trans (State.keeps_endReported _ _)).trans (keeps_deliverAll _)).next

theorem execFrameTick_kept (s : State) : s.KeptBy (execFrameTick s) :=
  .ite (fun _ => s.keptBy_same) fun _ =>
    ((State.Keeps.ite (fun _ => s.keeps_syncEdge) fun _ => s.keeps_timerTick).trans (keeps_deliverAll _)).next

theorem execDeadlineMissed_kept (ctx : Nat) (s : State) : s.KeptBy (execDeadlineMissed ctx s) := by
  unfold execDeadlineMissed
  extract_lets x late passed
  have hpassed : s.Keeps passed := by
    refine .onCap ?_
    exact s.cap.keeps_onCtx _ _ fun _ => rfl
  refine .ite (fun _ => s.keptBy_same) fun _ => State.Keeps.next (hpassed.trans (State.Keeps.trans ?_ (keeps_deliverAll _)))
  exact .ite (fun _ => .onCap (Capstan.keeps_missDeadline _ _)) fun _ => .refl _

/-! ### Registers, power and the start -/

theorem execLogRsel_kept (value : Reg) (decodes : Bool) (s : State) : s.KeptBy (execLogRsel value decodes s) := by
  unfold execLogRsel
  extract_lets v read
  have hread : s.Keeps read := .ite (fun _ => .refl s) fun _ => .onCap ⟨rfl, rfl, fun h => Logline.lose_sound h _ _, id, id, id, id⟩
  exact (hread.trans (State.keeps_access _ _)).next

theorem execRegisterReadError_kept (off size : Nat) (lost : Bool) (s : State) : s.KeptBy (execRegisterReadError off size lost s) := by
  unfold execRegisterReadError
  extract_lets read
  have hread : s.Keeps read := .ite (fun _ => s.keeps_loseRegister _ _) fun _ => .refl s
  split
  · exact (hread.trans (State.keeps_access _ _)).next
  · exact hread.next

theorem execReadClear_kept (off : Nat) (s : State) : s.KeptBy (execReadClear off s) :=
  .ite (fun _ => (s.keeps_access _).next) fun _ => s.keptBy_same

theorem execIrqMessageAccepted_kept (s : State) : s.KeptBy (execIrqMessageAccepted s) :=
  .ite (fun _ => (State.Keeps.onCap s.cap.keeps_messageTaken).next) fun _ => s.keptBy_same

theorem execEngineReset_kept (svcRail : Bool) (s : State) : s.KeptBy (execEngineReset svcRail s) := by
  refine .ite (fun _ => s.keptBy_same) fun _ => State.Keeps.next ?_
  exact State.Keeps.after (State.Keeps.setCap (s.off .inReset) ⟨rfl, rfl, id, id, id, id, id⟩) (s.keeps_off .inReset)

theorem execTestReset_kept (wrapper : Bool) (s : State) : s.KeptBy (execTestReset wrapper s) := State.Keeps.next (.onCap ⟨rfl, rfl, id, id, id, id, id⟩)

theorem execPowerStart_kept (s : State) : s.KeptBy (execPowerStart s) := .ite (fun _ => s.keeps_begin.next) fun _ => s.keptBy_same

theorem execEngineResetRelease_kept (s : State) : s.KeptBy (execEngineResetRelease s) :=
  .ite (fun _ => s.keeps_begin.next) fun _ => s.keptBy_same

theorem execNvmGrant_kept (s : State) : s.KeptBy (execNvmGrant s) :=
  .ite (fun _ => (State.Keeps.onCap (Capstan.keeps_onStart _ _)).next) fun _ => s.keptBy_same

theorem execDiscoveryDone_kept (sfdp : List Byte) (s : State) : s.KeptBy (execDiscoveryDone sfdp s) :=
  .ite (fun _ => (State.Keeps.onCap (Capstan.keeps_discovered _ _)).next) fun _ => s.keptBy_same

theorem execImageHeaderArrived_kept (bytes : List Byte) (s : State) : s.KeptBy (execImageHeaderArrived bytes s) :=
  .ite (fun _ => (State.Keeps.onCap (Capstan.keeps_headerIn _ _)).next) fun _ => s.keptBy_same

theorem execHintsArrived_kept (bytes : List Byte) (s : State) : s.KeptBy (execHintsArrived bytes s) :=
  .ite (fun _ => State.Keeps.next (.onCap (Capstan.keeps_onStart _ _))) fun _ => s.keptBy_same

theorem execSelftestDone_kept (found : Selftest) (s : State) : s.KeptBy (execSelftestDone found s) :=
  .ite (fun _ => ((s.keeps_selfTested _).trans (State.keeps_settleStart _)).next) fun _ => s.keptBy_same

theorem execImageReadDone_kept (bytes : List Byte) (s : State) : s.KeptBy (execImageReadDone bytes s) :=
  .ite (fun _ => ((s.keeps_imageRead _).trans (State.keeps_settleStart _)).next) fun _ => s.keptBy_same

theorem execRopeTrainingDone_kept (up : List (Nat × Nat × Nat)) (s : State) : s.KeptBy (execRopeTrainingDone up s) :=
  .ite (fun _ => ((State.Keeps.eachSlice s _).thenCap (Capstan.keeps_onStart _ _)).next) fun _ => s.keptBy_same

theorem execEngineTimeStart_kept (frame : Option (BitVec 128 × Bool × Nat)) (s : State) : s.KeptBy (execEngineTimeStart frame s) :=
  .ite (fun _ => ((s.keeps_startTime _).trans (keeps_deliverAll _)).next) fun _ => s.keptBy_same

/-! ### Death, epochs, links, time, the restart -/

theorem execHeartbeat_kept (slice : Nat) (s : State) : s.KeptBy (execHeartbeat slice s) := by
  unfold execHeartbeat
  split
  · exact s.keptBy_same
  · refine .ite (fun _ => s.keptBy_same) fun _ => ?_
    extract_lets beaten beats
    have hbeaten : s.Keeps beaten := .atSlice s _ _
    exact (State.Keeps.ite (fun _ => hbeaten.thenCap ⟨rfl, rfl, id, id, id, id, id⟩) fun _ => hbeaten).next

theorem execRouterProbeAnswer_kept (slice : Nat) (clean : Bool) (s : State) : s.KeptBy (execRouterProbeAnswer slice clean s) := by
  unfold execRouterProbeAnswer
  split
  · exact s.keptBy_same
  · refine .ite (fun _ => ?_) fun _ => s.keptBy_same
    extract_lets pass answered
    have hanswered : s.Keeps answered := .ite (fun _ => .atSlice s _ _) fun _ => .refl s
    exact ((hanswered.thenCap (Capstan.keeps_probed _ _ _)).trans (State.keeps_beginDuties _)).next

theorem execHeartbeatCheck_kept (s : State) : s.KeptBy (execHeartbeatCheck s) :=
  .ite (fun _ => (s.keeps_checkBeats.trans (keeps_deliverAll _)).next) fun _ => s.keptBy_same

theorem execFencesConfirmed_kept (die : Nat) (s : State) (mesh mem : Bool) : s.KeptBy (execFencesConfirmed die s mesh mem) :=
  .ite (fun _ => s.keptBy_same) fun _ => ((State.Keeps.onCap (Capstan.keeps_onDeath _ _ _)).trans (State.keeps_beginDuties _)).next

theorem execJournalReadDone_kept (die : Nat) (entries : List (Option JournalRead)) (s : State) : s.KeptBy (execJournalReadDone die entries s) := by
  unfold execJournalReadDone
  extract_lets due read
  split
  · refine .ite (fun _ => s.keptBy_same) fun _ => ?_
    extract_lets emptied
    have hread : s.Keeps read := .onCap (Capstan.keeps_onDeath _ _ _)
    have hemptied : read.Keeps emptied := .onCap ⟨rfl, rfl, id, id, id, id, fun h => ctxsRise_map h (by rw [List.map_map]; rfl)⟩
    exact ((hread.trans hemptied).trans ((State.Keeps.atSlice _ _ _).trans ((keeps_deliverAll _).trans (State.keeps_recheckPasses _)))).next
  · exact s.keptBy_same

theorem execEpochDrainReport_kept (slice : Nat) (s : State) : s.KeptBy (execEpochDrainReport slice s) := by
  unfold execEpochDrainReport
  split
  · exact s.keptBy_same
  · exact .ite (fun _ => (((s.keeps_reportDrained _).trans (State.keeps_endIfDrained _)).trans
      ((State.keeps_recheckPasses _).trans (keeps_deliverAll _))).next) fun _ => s.keptBy_same

theorem execHoldCleared_kept (slice : Nat) (s : State) : s.KeptBy (execHoldCleared slice s) := by
  unfold execHoldCleared
  split
  · exact s.keptBy_same
  · exact .ite (fun _ => (((State.Keeps.atSlice s _ _).trans (State.keeps_recheckPasses _)).trans (keeps_deliverAll _)).next)
      fun _ => s.keptBy_same

theorem execFlitReceived_kept (slice port module : Nat) (flit : Flit) (s : State) : s.KeptBy (execFlitReceived slice port module flit s) := by
  unfold execFlitReceived
  split
  · exact s.keptBy_same
  · split
    · exact .ite (fun _ => s.keptBy_same) fun _ =>
        (((State.Keeps.atSlice s _ _).trans (State.keeps_beginRetrain _ _ _ _)).trans (keeps_deliverAll _)).next
    · exact s.keptBy_same

theorem execRetrainDone_kept (slice port module : Nat) (ok : Bool) (s : State) : s.KeptBy (execRetrainDone slice port module ok s) := by
  unfold execRetrainDone
  split
  · exact s.keptBy_same
  · exact .ite (fun _ => ((State.Keeps.ite (fun _ => s.keeps_retrained _ _ _) fun _ => s.keeps_moduleLost _ _ _).trans
      (keeps_deliverAll _)).next) fun _ => s.keptBy_same

theorem execTimebaseFrame_kept (bits : BitVec 128) (decodes : Bool) (sinceMark : Nat) (s : State) :
    s.KeptBy (execTimebaseFrame bits decodes sinceMark s) :=
  .ite (fun _ => (s.keeps_takeFrame _ _ _).next) fun _ =>
    .ite (fun _ => ((s.keeps_startTime _).trans (keeps_deliverAll _)).next) fun _ => s.keptBy_same

theorem execTimebaseHoldover_kept (s : State) : s.KeptBy (execTimebaseHoldover s) := by
  refine .ite (fun _ => State.Keeps.next (.onCap ?_)) fun _ => s.keptBy_same
  exact Capstan.Keeps.after (Capstan.keeps_setTimeState _ _ _) ⟨rfl, rfl, id, id, id, id, id⟩

theorem execLockstepMismatch_kept (lost : Option Nat) (s : State) : s.KeptBy (execLockstepMismatch lost s) := by
  refine .ite (fun _ => State.Keeps.next (.onCap ?_)) fun _ => s.keptBy_same
  cases lost with
  | some off => exact s.cap.keeps_fail off
  | none => exact Capstan.Keeps.after (Capstan.keeps_captureFault _ _ _ _ _ _) ⟨rfl, rfl, id, id, id, id, id⟩

theorem execCapstanRestartDone_kept (s : State) : s.KeptBy (execCapstanRestartDone s) := by
  unfold execCapstanRestartDone
  refine .ite (fun _ => s.keptBy_same) fun _ => ?_
  split
  · exact s.keptBy_same
  · extract_lets ended resumed
    have hended : s.Keeps ended := .onCap ⟨rfl, rfl, id, id, id, id, id⟩
    have hresumed : ended.Keeps resumed := (State.Keeps.eachSlice _ _).trans (State.keeps_resume _)
    exact ((hended.trans hresumed).trans ((State.keeps_endIfDrained _).trans ((State.Keeps.admitAll _).trans
      ((keeps_deliverAll _).trans (State.keeps_recheckPasses _))))).next

theorem execLoglineRecordArrival_kept (slice : Nat) (s : State) : s.KeptBy (execLoglineRecordArrival slice s) := by
  unfold execLoglineRecordArrival
  split
  · exact s.keptBy_same
  · split
    · exact s.keptBy_same
    · exact .ite (fun _ => ((State.Keeps.atSlice s _ _).thenCap (Capstan.keeps_takeRecord _ _)).next) fun _ => s.keptBy_same

/-! ### The management port -/

theorem execSessionIdleTimeout_kept (s : State) : s.KeptBy (execSessionIdleTimeout s) :=
  (State.Keeps.ite (fun _ => .onCap s.cap.keeps_expireSession) fun _ => .refl s).next

theorem execChallengeExpiry_kept (s : State) : s.KeptBy (execChallengeExpiry s) :=
  (State.Keeps.ite (fun _ => .onCap s.cap.keeps_expireChallenge) fun _ => .refl s).next

theorem execLockoutExpiry_kept (s : State) : s.KeptBy (execLockoutExpiry s) :=
  (State.Keeps.ite (fun _ => .onCap s.cap.keeps_expireLockout) fun _ => .refl s).next

theorem execGetStatus_kept (tag cnt : Nat) (body : List Byte) (s : State) : s.KeptBy (execGetStatus tag cnt body s) :=
  .ite (fun _ => s.keptBy_same) fun _ => ((State.Keeps.onCap s.cap.keeps_expire).trans (State.keeps_answer _ _)).next

theorem execOpenChallenge_kept (tag cnt : Nat) (body : List Byte) (s : State) : s.KeptBy (execOpenChallenge tag cnt body s) := by
  refine (s.keeps_plainCmd _ _ _ fun s => ?_).next
  dsimp only
  split
  · exact .refl s
  · split
    · exact .refl s
    · split
      · exact .refl s
      · split
        · exact .refl s
        · exact s.keeps_issueChallenge _

theorem execOpenResponse_kept (tag cnt : Nat) (body : List Byte) (s : State) : s.KeptBy (execOpenResponse tag cnt body s) := by
  unfold execOpenResponse
  extract_lets counted
  have hcounted : s.Keeps counted := .ite (fun _ => .onCap ⟨rfl, rfl, id, id, id, id, id⟩) fun _ => .refl s
  refine (hcounted.trans (State.keeps_plainCmd _ _ _ _ fun s => ?_)).next
  split
  · dsimp only
    exact .onCap ⟨rfl, rfl, id, id, id, id, id⟩
  · exact s.keeps_openResponse _ _ _

theorem execClose_kept (tag cnt : Nat) (body mac : List Byte) (s : State) : s.KeptBy (execClose tag cnt body mac s) := by
  refine (s.keeps_sessionCmd _ _ _ _ _ _ _ fun s x => ?_).next
  split
  · exact State.Keeps.onCap (f := fun c => c.endSession 0x01) (Capstan.keeps_endSession _ _)
  · exact .refl s

theorem execLogHead_kept (tag cnt : Nat) (body mac : List Byte) (s : State) : s.KeptBy (execLogHead tag cnt body mac s) := by
  refine (s.keeps_sessionCmd _ _ _ _ _ _ _ fun s x => ?_).next
  split <;> exact .refl s

theorem execLogRead_kept (tag cnt : Nat) (body mac : List Byte) (lost : List Nat) (s : State) : s.KeptBy (execLogRead tag cnt body mac lost s) := by
  refine (s.keeps_sessionCmd _ _ _ _ _ _ _ fun s x => ?_).next
  dsimp only
  split
  · exact .refl s
  · dsimp only
    refine State.Keeps.onCap ?_
    exact s.cap.keeps_lose _ _

theorem execRegRead_kept (tag cnt : Nat) (body mac : List Byte) (s : State) : s.KeptBy (execRegRead tag cnt body mac s) := by
  refine (s.keeps_sessionCmd _ _ _ _ _ _ _ fun s x => ?_).next
  split
  · exact .refl s
  · split
    · exact s.keeps_captureError _ _ _ _
    · exact s.keeps_readTarget _

theorem execRegWrite_kept (tag cnt : Nat) (body mac : List Byte) (s : State) : s.KeptBy (execRegWrite tag cnt body mac s) := by
  refine (s.keeps_sessionCmd _ _ _ _ _ _ _ fun s x => ?_).next
  split
  · exact .refl s
  · split
    · exact s.keeps_captureError _ _ _ _
    · split
      · exact (s.keeps_writeTarget _ _).trans (keeps_deliverAll _)
      · exact .refl s

theorem execLogClear_kept (tag cnt : Nat) (body mac : List Byte) (s : State) : s.KeptBy (execLogClear tag cnt body mac s) := by
  refine (s.keeps_sessionCmd _ _ _ _ _ _ _ fun s x => ?_).next
  dsimp only
  split
  · exact .refl s
  · exact State.Keeps.onCap (f := fun _ => (s.cap.clearLog _ _).1) (Capstan.keeps_clearLog _ _ _)

theorem execCmd_kept (frame : List Byte) (s : State) : s.KeptBy (execCmd frame s) := by
  unfold execCmd
  extract_lets tag cnt body mac
  split
  · exact execGetStatus_kept _ _ _ _
  · exact execOpenChallenge_kept _ _ _ _
  · exact execOpenResponse_kept _ _ _ _
  · exact execClose_kept _ _ _ _ _
  · exact execLogHead_kept _ _ _ _ _
  · exact execLogRead_kept _ _ _ _ _ _
  · exact execRegRead_kept _ _ _ _ _
  · exact execRegWrite_kept _ _ _ _ _
  · exact execLogClear_kept _ _ _ _ _
  · exact s.keptBy_same

theorem execBadFrame_kept (frame : List Byte) (s : State) : s.KeptBy (execBadFrame frame s) := by
  unfold execBadFrame
  extract_lets refuse
  have hrefuse (st : Nat) : s.Keeps (refuse st) := s.keeps_answer _
  exact .ite (fun _ => s.keptBy_same) fun _ => .ite (fun _ => (hrefuse _).next) fun _ => .ite (fun _ => execCmd_kept _ s) fun _ => (hrefuse _).next

theorem execResponseRead_kept (s : State) : s.KeptBy (execResponseRead s) :=
  .ite (fun _ => State.Keeps.next (.onCap ⟨rfl, rfl, id, id, id, id, id⟩)) fun _ => State.Keeps.next (.onCap ⟨rfl, rfl, id, id, id, id, id⟩)

theorem execEntdaa_kept (addr : BitVec 7) (s : State) : s.KeptBy (execEntdaa addr s) :=
  .ite (fun _ => State.Keeps.next (.onCap ⟨rfl, rfl, id, id, id, id, id⟩)) fun _ => s.keptBy_same

theorem execRstdaa_kept (s : State) : s.KeptBy (execRstdaa s) :=
  .ite (fun _ => (State.Keeps.onCap ((Capstan.keeps_endSession _ _).trans (Capstan.keeps_onMgt _ _))).next) fun _ => s.keptBy_same

theorem execGetstatusCcc_kept (s : State) : s.KeptBy (execGetstatusCcc s) := by
  refine State.Keeps.next ((s.keeps_ccc _).trans (.ofCap (.refl _) rfl rfl ?_))
  exact Nat.le_succ _

/-! ### Every command -/

/-- What a command answers keeps the queue, the counter of free values and the invariant. -/
theorem exec_kept (c : Instr) (s : State) : s.KeptBy (exec c s) := by
  cases c with
  | nsub _ _ _ => rw [exec_nsub, execNsub]; exact submit_kept _ _ _ _ _ s
  | nsubG _ _ _ _ => rw [exec_nsubG, execNsubG]; exact submit_kept _ _ _ _ _ s
  | submissionRePresented _ _ _ _ _ _ => exact execSubmissionRePresented_kept _ _ _ _ _ _ _
  | descriptorReadDone _ _ _ => rw [exec_descriptorReadDone, execDescriptorReadDone]; exact onLive_kept _ s _
  | activationGranted _ => exact execActivationGranted_kept _ _
  | activationEnd _ => exact execActivationEnd_kept _ _
  | indexReadDone _ _ _ _ => rw [exec_indexReadDone, execIndexReadDone]; exact onLive_kept _ s _
  | caskBlockGiven _ _ => exact execCaskBlockGiven_kept _ _ _
  | reservationsGranted _ _ => rw [exec_reservationsGranted, execReservationsGranted]; exact onLive_kept _ s _
  | recordsReadDone _ _ _ _ => rw [exec_recordsReadDone, execRecordsReadDone]; exact onLive_kept _ s _
  | ledgerAcknowledged _ _ => rw [exec_ledgerAcknowledged, execLedgerAcknowledged]; exact onLive_kept _ s _
  | binFlushAge _ _ => rw [exec_binFlushAge, execBinFlushAge]; exact onLive_kept _ s _
  | overflowBinMove _ _ _ => rw [exec_overflowBinMove, execOverflowBinMove]; exact onLive_kept _ s _
  | gatherAge _ _ => rw [exec_gatherAge, execGatherAge]; exact onLive_kept _ s _
  | binRelease _ _ _ => rw [exec_binRelease, execBinRelease]; exact onLive_kept _ s _
  | boxNodeVisit _ _ _ _ => rw [exec_boxNodeVisit, execBoxNodeVisit]; exact onLive_kept _ s _
  | nodeCacheFill _ _ _ _ => rw [exec_nodeCacheFill, execNodeCacheFill]; exact onLive_kept _ s _
  | primitiveTest _ _ _ _ => rw [exec_primitiveTest, execPrimitiveTest]; exact onLive_kept _ s _
  | tileReservationComplete _ _ _ _ => rw [exec_tileReservationComplete, execTileReservationComplete]; exact onLive_kept _ s _
  | tileStep _ _ _ _ _ => rw [exec_tileStep, execTileStep]; exact onLive_kept _ s _
  | tileComplete _ _ _ _ _ => rw [exec_tileComplete, execTileComplete]; exact onLive_kept _ s _
  | gatherRun _ _ _ => rw [exec_gatherRun, execGatherRun]; exact onLive_kept _ s _
  | pointerQueueSend _ _ _ => rw [exec_pointerQueueSend, execPointerQueueSend]; exact onLive_kept _ s _
  | migrate _ _ _ => rw [exec_migrate, execMigrate]; exact onArrival_kept _ _ s _
  | migratePtr _ _ _ => rw [exec_migratePtr, execMigratePtr]; exact onArrival_kept _ _ s _
  | result _ _ _ => rw [exec_result, execResult]; exact onArrival_kept _ _ s _
  | resultWriteAck _ _ _ => rw [exec_resultWriteAck, execResultWriteAck]; exact onLive_kept _ s _
  | bankUnavailable _ _ => rw [exec_bankUnavailable, execBankUnavailable]; exact onLive_kept _ s _
  | bankRetryTimer _ _ _ => rw [exec_bankRetryTimer, execBankRetryTimer]; exact onLive_kept _ s _
  | journalWriteSettled _ => rw [exec_journalWriteSettled, execJournalWriteSettled]; exact onLive_kept _ s _
  | maintDesc _ _ => rw [exec_maintDesc, execMaintDesc]; exact onArrival_kept _ _ s _
  | maintConditionsMet _ => rw [exec_maintConditionsMet, execMaintConditionsMet]; exact onLive_kept _ s _
  | maintAck _ _ => rw [exec_maintAck, execMaintAck]; exact onArrival_kept _ _ s _
  | fillSectorArrival _ _ _ _ _ _ _ => rw [exec_fillSectorArrival, execFillSectorArrival]; exact onLive_kept _ s _
  | evictionWriteAck _ _ _ => rw [exec_evictionWriteAck, execEvictionWriteAck]; exact onLive_kept _ s _
  | gate _ _ => rw [exec_gate, execGate]; exact sliceWrite_kept _ _ _ s
  | ungate _ _ => rw [exec_ungate, execUngate]; exact sliceWrite_kept _ _ _ s
  | wayCleanSweep _ _ => rw [exec_wayCleanSweep, execWayCleanSweep]; exact onLive_kept _ s _
  | wayGated _ _ => rw [exec_wayGated, execWayGated]; exact onLive_kept _ s _
  | wayAwake _ _ => rw [exec_wayAwake, execWayAwake]; exact onLive_kept _ s _
  | streamBlockIssue _ _ _ _ => rw [exec_streamBlockIssue, execStreamBlockIssue]; exact onLive_kept _ s _
  | streamBurstFetch _ _ => rw [exec_streamBurstFetch, execStreamBurstFetch]; exact onLive_kept _ s _
  | streamTransferComplete _ _ _ => rw [exec_streamTransferComplete, execStreamTransferComplete]; exact onLive_kept _ s _
  | creditReturn _ _ _ _ => rw [exec_creditReturn, execCreditReturn]; exact onLive_kept _ s _
  | translationResponse _ _ _ => rw [exec_translationResponse, execTranslationResponse]; exact onLive_kept _ s _
  | pageResponse _ _ _ => exact execPageResponse_kept _ _ _ _
  | pageTimeout _ _ => exact execPageTimeout_kept _ _ _
  | hitchRefetchDone _ _ _ => rw [exec_hitchRefetchDone, execHitchRefetchDone]; exact onLive_kept _ s _
  | replayRelease _ _ _ => exact execReplayRelease_kept _ _ _ _
  | scrub _ _ _ => rw [exec_scrub, execScrub]; exact onLive_kept _ s _
  | rotationStep _ => rw [exec_rotationStep, execRotationStep]; exact onLive_kept _ s _
  | rotationTestDone _ _ _ => rw [exec_rotationTestDone, execRotationTestDone]; exact onLive_kept _ s _
  | frameTick => exact execFrameTick_kept _
  | slicePassEmpty _ _ => exact execSlicePassEmpty_kept _ _ _
  | passStart _ _ _ => exact execPassStart_kept _ _ _ _
  | deadlineMissed _ => exact execDeadlineMissed_kept _ _
  | validate _ => rw [exec_validate, execValidate]; exact busWrite_kept s _ _
  | invalidate _ => rw [exec_invalidate, execInvalidate]; exact busWrite_kept s _ _
  | stage _ _ => rw [exec_stage, execStage]; exact busWrite_kept s _ _
  | boundary _ => rw [exec_boundary, execBoundary]; exact busWrite_kept s _ _
  | clearFault _ => rw [exec_clearFault, execClearFault]; exact busWrite_kept s _ _
  | powerStart => exact execPowerStart_kept _
  | nvmGrant => exact execNvmGrant_kept _
  | discoveryDone _ => exact execDiscoveryDone_kept _ _
  | imageHeaderArrived _ => exact execImageHeaderArrived_kept _ _
  | hintsArrived bytes => exact execHintsArrived_kept bytes _
  | imageReadDone _ => exact execImageReadDone_kept _ _
  | selftestDone _ => exact execSelftestDone_kept _ _
  | ropeTrainingDone _ => exact execRopeTrainingDone_kept _ _
  | engineTimeStart _ => exact execEngineTimeStart_kept _ _
  | engineTimeSync _ => rw [exec_engineTimeSync, execEngineTimeSync]; exact onSlice_kept _ s _
  | timebaseFrame _ _ _ => exact execTimebaseFrame_kept _ _ _ _
  | timebaseHoldover => exact execTimebaseHoldover_kept _
  | heartbeat _ => exact execHeartbeat_kept _ _
  | heartbeatCheck => exact execHeartbeatCheck_kept _
  | routerProbeAnswer _ _ => exact execRouterProbeAnswer_kept _ _ _
  | fencesConfirmed _ _ _ => exact execFencesConfirmed_kept _ _ _ _
  | journalReadDone _ _ => exact execJournalReadDone_kept _ _ _
  | epochChange _ => rw [exec_epochChange, execEpochChange]; exact onSlice_kept _ s _
  | epochDrainReport _ => exact execEpochDrainReport_kept _ _
  | holdCleared _ => exact execHoldCleared_kept _ _
  | flitReceived _ _ _ _ => exact execFlitReceived_kept _ _ _ _ _
  | credit _ _ _ _ _ _ => rw [exec_credit, execCredit]; exact onRouter_kept _ s _
  | creditReturnTimer _ _ => rw [exec_creditReturnTimer, execCreditReturnTimer]; exact onRouter_kept _ s _
  | retrainDone _ _ _ _ => exact execRetrainDone_kept _ _ _ _ _
  | lockstepMismatch _ => exact execLockstepMismatch_kept _ _
  | capstanRestartDone => exact execCapstanRestartDone_kept _
  | loglineRecordArrival _ => exact execLoglineRecordArrival_kept _ _
  | rateLimiterToken _ => rw [exec_rateLimiterToken, execRateLimiterToken]; exact onSlice_kept _ s _
  | logRsel _ _ => exact execLogRsel_kept _ _ _
  | logMarkWrite _ _ => rw [exec_logMarkWrite, execLogMarkWrite]; exact busWrite_kept s _ _
  | irqEnableWrite _ => rw [exec_irqEnableWrite, execIrqEnableWrite]; exact busWrite_kept s _ _
  | cntSelWrite _ _ _ => rw [exec_cntSelWrite, execCntSelWrite]; exact sliceWrite_kept _ _ _ s
  | cntCtlWrite _ _ => rw [exec_cntCtlWrite, execCntCtlWrite]; exact sliceWrite_kept _ _ _ s
  | captureRearm _ => rw [exec_captureRearm, execCaptureRearm]; exact sliceWrite_kept _ _ _ s
  | qsDiagSel _ _ => rw [exec_qsDiagSel, execQsDiagSel]; exact sliceWrite_kept _ _ _ s
  | capRepairSel _ => rw [exec_capRepairSel, execCapRepairSel]; exact busWrite_kept s _ _
  | readClear _ => exact execReadClear_kept _ _
  | registerWrite _ _ _ => rw [exec_registerWrite, execRegisterWrite]; exact (s.keeps_access _).next
  | pwrReqOn _ => rw [exec_pwrReqOn, execPwrReqOn]; exact sliceWrite_kept _ _ _ s
  | pwrReqTrim _ _ => rw [exec_pwrReqTrim, execPwrReqTrim]; exact sliceWrite_kept _ _ _ s
  | pwrReqNap _ => rw [exec_pwrReqNap, execPwrReqNap]; exact sliceWrite_kept _ _ _ s
  | trimDrained _ => rw [exec_trimDrained, execTrimDrained]; exact onPowered_kept _ s _
  | layPoweredOn _ => rw [exec_layPoweredOn, execLayPoweredOn]; exact onPowered_kept _ s _
  | napIdleTimer _ => rw [exec_napIdleTimer, execNapIdleTimer]; exact onPowered_kept _ s _
  | napWake _ => rw [exec_napWake, execNapWake]; exact onPowered_kept _ s _
  | stretchWarnRise _ _ => rw [exec_stretchWarnRise, execStretchWarnRise]; exact onPowered_kept _ s _
  | stretchWarnFall _ _ => rw [exec_stretchWarnFall, execStretchWarnFall]; exact onPowered_kept _ s _
  | stretchRestore _ => rw [exec_stretchRestore, execStretchRestore]; exact onPowered_kept _ s _
  | slicePowerLoss _ _ => rw [exec_slicePowerLoss, execSlicePowerLoss]; exact onPowered_kept _ s _
  | powerLoss => rw [exec_powerLoss, execPowerLoss]; exact (s.keeps_off .off).next
  | engineReset _ => exact execEngineReset_kept _ _
  | testReset _ => exact execTestReset_kept _ _
  | getStatus _ _ _ => exact execGetStatus_kept _ _ _ _
  | openChallenge _ _ _ => exact execOpenChallenge_kept _ _ _ _
  | openResponse _ _ _ => exact execOpenResponse_kept _ _ _ _
  | close _ _ _ _ => exact execClose_kept _ _ _ _ _
  | logHead _ _ _ _ => exact execLogHead_kept _ _ _ _ _
  | logRead _ _ _ _ _ => exact execLogRead_kept _ _ _ _ _ _
  | regRead _ _ _ _ => exact execRegRead_kept _ _ _ _ _
  | regWrite _ _ _ _ => exact execRegWrite_kept _ _ _ _ _
  | logClear _ _ _ _ => exact execLogClear_kept _ _ _ _ _
  | responseRead => exact execResponseRead_kept _
  | sessionIdleTimeout => exact execSessionIdleTimeout_kept _
  | challengeExpiry => exact execChallengeExpiry_kept _
  | lockoutExpiry => exact execLockoutExpiry_kept _
  | entdaa _ => exact execEntdaa_kept _ _
  | rstdaa => exact execRstdaa_kept _
  | getpid => rw [exec_getpid, execGetpid]; exact (s.keeps_ccc _).next
  | getbcr => rw [exec_getbcr, execGetbcr]; exact (s.keeps_ccc _).next
  | getdcr => rw [exec_getdcr, execGetdcr]; exact (s.keeps_ccc _).next
  | getstatusCcc => exact execGetstatusCcc_kept _
  | getmwl => rw [exec_getmwl, execGetmwl]; exact (s.keeps_ccc _).next
  | getmrl => rw [exec_getmrl, execGetmrl]; exact (s.keeps_ccc _).next
  | enec _ => rw [exec_enec, execEnec]; exact s.keptBy_same
  | disec _ => rw [exec_disec, execDisec]; exact s.keptBy_same
  | contextEntryRead _ _ => exact execContextEntryRead_kept _ _ _
  | engineResetRelease => exact execEngineResetRelease_kept _
  | badFrame _ => exact execBadFrame_kept _ _
  | unsupportedCcc _ => rw [exec_unsupportedCcc, execUnsupportedCcc]; exact s.keptBy_same
  | irqMessageAccepted => exact execIrqMessageAccepted_kept _
  | registerReadError _ _ _ => exact execRegisterReadError_kept _ _ _ _

/-! ### The clock, and reset -/

theorem keeps_tick (s : State) : s.Keeps (tick s) := by
  refine .ite (fun _ => .refl s) fun _ => ?_
  refine State.Keeps.after (.eachSlice _ _) (.ofCap ?_ rfl rfl (Nat.le_refl _))
  exact ⟨rfl, rfl, id, id, id, id, id⟩

theorem step_of_cons (c : Instr) (rest : List Instr) (s : State) (h : s.pending = c :: rest) : step s = exec c { s with pending := rest } := by
  unfold step
  rw [h]

theorem step_of_nil (s : State) (h : s.pending = []) : step s = .next (tick s) := by
  unfold step
  rw [h]

/-- The queue is not part of the invariant. -/
theorem State.inv_pending {s : State} (h : s.Inv) (rest : List Instr) : State.Inv { s with pending := rest } := { h with }

theorem step_inv {s t : State} (h : s.Inv) (hstep : step s = .next t) : t.Inv := by
  cases hqueue : s.pending with
  | nil =>
    rw [step_of_nil s hqueue] at hstep
    cases hstep
    exact (keeps_tick s).inv h
  | cons c rest =>
    rw [step_of_cons c rest s hqueue] at hstep
    exact (exec_kept c _ t hstep).inv (State.inv_pending h rest)

theorem reset_inv : State.reset.Inv where
  slices := by decide
  logline := ⟨⟨Nat.zero_le _, Nat.zero_le _, Or.inl rfl⟩, consecutive_nil _, fun _ => consecutive_nil _⟩
  port := Nat.zero_le _
  repairs := Nat.zero_le _
  active := ⟨fun _ ha => absurd ha List.not_mem_nil, List.Pairwise.nil⟩
  contexts := List.Pairwise.nil

end Sys2Proof.Machine

open Sys2Proof Sys2Proof.Machine

/-- Settles O1: the two branches of `step`. -/
theorem stepRunsFrontCommand : Obligations.StepRunsFrontCommand := by
  unfold Obligations.StepRunsFrontCommand
  exact ⟨step_of_cons, step_of_nil⟩

/-- Settles O2: every command keeps the queue and never takes a free value back. -/
theorem commandsKeepTheQueue : Obligations.CommandsKeepTheQueue := by
  unfold Obligations.CommandsKeepTheQueue
  intro c s t h
  have hkept := exec_kept c s t h
  exact ⟨hkept.pending, hkept.fresh⟩

/-- Settles O51: the reset state is empty in all that the invariant speaks of. -/
theorem resetHoldsTheInvariant : Obligations.ResetHoldsTheInvariant := by
  unfold Obligations.ResetHoldsTheInvariant
  exact reset_inv

/-- Settles O52: every command, and a cycle of the clock, keeps the invariant. -/
theorem everyStepKeepsTheInvariant : Obligations.EveryStepKeepsTheInvariant := by
  unfold Obligations.EveryStepKeepsTheInvariant
  intro s t h hstep
  exact step_inv h hstep
end

section
/-!
The Logline read by SEQ; contributions combined in any order; granules taken and given back; the short stack, which a visit never fills beyond
eight; pointers, instance masks and the slots that are never hit.
-/

namespace Sys2Proof.Machine

/-! ### A record is found by its SEQ (R541) -/

theorem Logline.oldest_eq {l : Logline} (h : l.sound) : l.oldest = l.next - BitVec.ofNat 32 l.last.length := by
  unfold Logline.oldest
  cases hlast : l.last with
  | nil => simp
  | cons r rest =>
    have hseq := h.2.1 0 r (by rw [hlast]; rfl)
    simpa [hlast] using hseq

/-- The place of a SEQ in the last runnings. -/
theorem Logline.sub_oldest {l : Logline} (h : l.sound) (i : BitVec 32) : i - l.oldest = i - l.next + BitVec.ofNat 32 l.last.length := by
  rw [Logline.oldest_eq h]
  bv_omega

theorem Logline.last_length_le {l : Logline} (h : l.sound) : l.last.length ≤ 7168 := h.1.2.1

theorem Logline.seq_sub_oldest {l : Logline} (h : l.sound) {k : Nat} {r : Stored} (hk : l.last[k]? = some r) : (r.seq - l.oldest).toNat = k := by
  obtain ⟨hlt, -⟩ := List.getElem?_eq_some_iff.mp hk
  have hbound := Logline.last_length_le h
  rw [Logline.sub_oldest h, h.2.1 k r hk]
  bv_omega

theorem Logline.select_last_of_none {l : Logline} (i : BitVec 32) (h : l.last.length ≤ (i - l.oldest).toNat) :
    l.select false i.toNat = if (i - l.next).toNat < 2 ^ 31 then (3, []) else (2, []) := by
  have hnone : l.last[(i - l.oldest).toNat]? = none := List.getElem?_eq_none h
  simp only [Logline.select, BitVec.ofNat_toNat, BitVec.setWidth_eq, Bool.false_eq_true, if_false, hnone, Option.filter_none]
  split <;> rfl

theorem Logline.select_last_of_some {l : Logline} {r : Stored} (i : BitVec 32) (h : l.last[(i - l.oldest).toNat]? = some r)
    (hwritten : 2 ^ 31 ≤ (i - l.next).toNat) : l.select false i.toNat = if r.lost then (2, []) else (1, r.bytes) := by
  have hnot := Nat.not_lt.mpr hwritten
  cases hlost : r.lost <;>
    simp only [Logline.select, BitVec.ofNat_toNat, BitVec.setWidth_eq, Bool.false_eq_true, if_false, if_true, h, Option.filter_some, hlost,
      Bool.not_true, Bool.not_false, if_neg hnot]

/-- A record that stands in the last runnings lies less than 2^31 behind the next SEQ. -/
theorem Logline.written {l : Logline} (h : l.sound) {k : Nat} {r : Stored} (hk : l.last[k]? = some r) : 2 ^ 31 ≤ (r.seq - l.next).toNat := by
  obtain ⟨hlt, -⟩ := List.getElem?_eq_some_iff.mp hk
  have hbound := Logline.last_length_le h
  rw [h.2.1 k r hk]
  bv_omega

theorem Logline.not_yet {l : Logline} (h : l.sound) {i : BitVec 32} (hi : (i - l.next).toNat < 2 ^ 31) :
    l.last.length ≤ (i - l.oldest).toNat := by
  have hbound := Logline.last_length_le h
  rw [Logline.sub_oldest h, BitVec.toNat_add, BitVec.toNat_ofNat]
  omega

/-! ### Contributions (R260) -/

theorem Flags.or_assoc (a b c : Flags) : (a.or b).or c = a.or (b.or c) := by simp [Flags.or, Bool.or_assoc]

theorem Flags.or_comm (a b : Flags) : a.or b = b.or a := by simp [Flags.or, Bool.or_comm]

theorem Flags.or_right_comm (a b c : Flags) : (a.or b).or c = (a.or c).or b := by rw [Flags.or_assoc, Flags.or_comm b c, Flags.or_assoc]

/-- What one contribution adds: an amount to the sum, marks, flags. -/
def contribOf (c : Code) : Comb :=
  match (Fmt.read .fp32 c).1 with
  | .nan => { sum := 0, pinf := false, ninf := false, nan := true, flags := (Fmt.read .fp32 c).2.or flagNan }
  | .inf neg => { sum := 0, pinf := !neg, ninf := neg, nan := false, flags := (Fmt.read .fp32 c).2 }
  | .fin v => { sum := BitVec.ofInt 320 (v * pow2 149).floor, pinf := false, ninf := false, nan := false, flags := (Fmt.read .fp32 c).2 }

/-- Two accumulators joined: sums added, marks and flags united. -/
def Comb.join (a b : Comb) : Comb :=
  { sum := a.sum + b.sum, pinf := a.pinf || b.pinf, ninf := a.ninf || b.ninf, nan := a.nan || b.nan, flags := a.flags.or b.flags }

theorem addContrib_eq_join (b : Comb) (c : Code) : addContrib b c = b.join (contribOf c) := by
  unfold addContrib contribOf
  cases hread : Fmt.read .fp32 c with
  | mk x f => cases x <;> simp [Comb.join, Flags.or_assoc]

theorem Comb.join_right_comm (a b c : Comb) : (a.join b).join c = (a.join c).join b := by
  simp only [Comb.join, Comb.mk.injEq]
  exact ⟨by ac_rfl, Bool.or_right_comm .., Bool.or_right_comm .., Bool.or_right_comm .., Flags.or_right_comm ..⟩

theorem addContrib_comm (b : Comb) (x y : Code) : addContrib (addContrib b x) y = addContrib (addContrib b y) x := by
  simp only [addContrib_eq_join]
  exact Comb.join_right_comm _ _ _

theorem combine_cons (b : Comb) (cs : List Comb) (x : Code) (v : List Code) : combine (b :: cs) (x :: v) = addContrib b x :: combine cs v := rfl

theorem combine_comm (cs : List Comb) (v w : List Code) : combine (combine cs v) w = combine (combine cs w) v := by
  induction cs generalizing v w with
  | nil => rfl
  | cons b cs ih =>
    match v, w with
    | [], [] => rfl
    | [], y :: w => rfl
    | x :: v, [] => rfl
    | x :: v, y :: w => simp only [combine_cons, addContrib_comm b x y, ih v w]

/-! ### Granules (R334, R337) -/

/-- The granules of a list of runs. -/
def granules (runs : List (Nat × Nat)) : Nat := (runs.map (·.2)).sum

@[simp] theorem granules_nil : granules [] = 0 := rfl

@[simp] theorem granules_cons (r : Nat × Nat) (runs : List (Nat × Nat)) : granules (r :: runs) = r.2 + granules runs := rfl

theorem Store.freeCount_eq (st : Store) : st.freeCount = granules st.free := by
  unfold Store.freeCount granules
  rw [List.sum_eq_foldl, List.foldl_map]

theorem takeRuns_granules {n : Nat} {free got rest : List (Nat × Nat)} (h : takeRuns n free = some (got, rest)) :
    granules got = n ∧ granules got + granules rest = granules free := by
  induction free generalizing n got rest with
  | nil =>
    cases n with
    | zero => cases h; exact ⟨rfl, rfl⟩
    | succ n => cases h
  | cons r free ih =>
    obtain ⟨a, l⟩ := r
    cases n with
    | zero => cases h; exact ⟨rfl, Nat.zero_add _⟩
    | succ n =>
      unfold takeRuns at h
      split at h
      next hpart =>
        cases h
        refine ⟨rfl, ?_⟩
        simp only [granules_cons, granules_nil]
        omega
      next hwhole =>
        split at h
        · cases h
        · split at h
          next got' rest' hmore =>
            obtain ⟨hgot, hsum⟩ := ih hmore
            cases h
            simp only [granules_cons]
            omega
          · cases h

theorem addRun_granules (r : Nat × Nat) (free : List (Nat × Nat)) : granules (addRun r free) = r.2 + granules free := by
  induction free generalizing r with
  | nil => rfl
  | cons x free ih =>
    obtain ⟨a, l⟩ := x
    unfold addRun
    split
    · rfl
    · split
      · simp only [granules_cons]; omega
      · split
        · rw [ih]; simp only [granules_cons]; omega
        · simp only [granules_cons, ih]; omega

theorem foldl_addRun_granules (runs free : List (Nat × Nat)) :
    granules (runs.foldl (fun f r => addRun r f) free) = granules free + granules runs := by
  induction runs generalizing free with
  | nil => rfl
  | cons r runs ih => rw [List.foldl_cons, ih, addRun_granules, granules_cons]; omega

theorem Store.place_spec {st st' : Store} {n kind home batch q first : Nat} {guest : Bool}
    (h : st.place n kind home batch q guest = some (first, st')) :
    st'.freeCount + n = st.freeCount ∧ st'.entries.length = st.entries.length + 1 ∧ st'.bad = st.bad := by
  unfold Store.place at h
  split at h
  · cases h
  next runs free htake =>
    obtain ⟨hgot, hsum⟩ := takeRuns_granules htake
    cases h
    refine ⟨?_, by simp [Store.reuse], rfl⟩
    rw [Store.freeCount_eq, Store.freeCount_eq]
    simp only
    omega

theorem Store.giveBack_freeCount {st : Store} (runs : List (Nat × Nat)) (hbad : st.bad = []) :
    (st.giveBack runs).freeCount = st.freeCount + granules runs := by
  rw [Store.freeCount_eq, Store.freeCount_eq]
  simp only [Store.giveBack, hbad, List.any_nil, Bool.false_eq_true, if_false, List.flatMap_singleton']
  exact foldl_addRun_granules runs st.free

/-! ### The short stack (R215) -/

theorem Query.push_stack {q : Query} (h : q.stack.length ≤ 8) (e : Entry) : (q.push e).stack.length ≤ 8 := by
  unfold Query.push
  split
  next hroom => exact Nat.succ_le_of_lt hroom
  · split
    · simp only [List.length_cons, List.length_dropLast]
      omega
    · exact Nat.le_of_ble_eq_true rfl

theorem foldl_push_stack (ds : List Child) (at_ : Query → Child → Entry) {q : Query} (h : q.stack.length ≤ 8) :
    (ds.foldl (fun q d => q.push (at_ q d)) q).stack.length ≤ 8 := by
  induction ds generalizing q with
  | nil => exact h
  | cons d ds ih => exact ih (Query.push_stack h _)

theorem stackEmpty_stack (r : RootRef) {q : Query} (h : q.stack.length ≤ 8) : (Query.stackEmpty r q).query.stack.length ≤ 8 := by
  unfold Query.stackEmpty
  split
  · exact h
  · exact Nat.zero_le _

theorem popStack_stack (r : RootRef) (q : Query) (es : List Entry) (h : es.length ≤ 8) : (popStack r q es).query.stack.length ≤ 8 := by
  induction es generalizing q with
  | nil => exact stackEmpty_stack r (Nat.zero_le _)
  | cons e es ih =>
    have hes : es.length ≤ 8 := Nat.le_of_succ_le h
    unfold popStack
    extract_lets p popped
    have hpopped : popped.stack.length ≤ 8 := hes
    split
    · exact ih _ hes
    · split
      · exact hpopped
      · split
        · exact ih _ hes
        · exact hpopped

theorem Query.pop_stack (r : RootRef) {q : Query} (h : q.stack.length ≤ 8) : (q.pop r).query.stack.length ≤ 8 := popStack_stack r q q.stack h

theorem Query.follow_stack (r : RootRef) {q : Query} (h : q.stack.length ≤ 8) (c : Child) (cnt : Nat) :
    (q.follow r c cnt).query.stack.length ≤ 8 := by
  unfold Query.follow
  extract_lets p here taken
  split
  · exact h
  · split
    · exact Query.pop_stack r h
    · exact h

/-- A step down of a restart keeps the trail that it walks (R218); the stack is the one of the step. -/
theorem Adv.keepTrail_stack {a : Adv} (trail : List Nat) (h : a.query.stack.length ≤ 8) :
    (match a with
      | .go q' => Adv.go { q' with trail := trail }
      | a => a).query.stack.length ≤ 8 := by
  cases a <;> exact h

theorem Query.descend_stack (r : RootRef) {q : Query} (h : q.stack.length ≤ 8) (cs : List Child) : (q.descend r cs).query.stack.length ≤ 8 := by
  unfold Query.descend
  split
  · split
    · exact Query.pop_stack r h
    · exact Query.follow_stack r (foldl_push_stack _ (fun q d => q.entryOf d) h) _ _
  next w _ =>
    extract_lets rank again pushed
    have hpushed : pushed.stack.length ≤ 8 := by
      simp only [pushed]
      split
      · exact foldl_push_stack _ (fun q d => q.entryOf d) h
      · exact h
    split
    · split
      · exact Query.pop_stack r hpushed
      · exact Adv.keepTrail_stack w.trail (Query.follow_stack r (q := { pushed with rewalk := some { w with i := w.i + 1 } }) hpushed _ _)
    · exact Query.pop_stack r hpushed

theorem visitBox_stack (c : TreeCtx) (r : RootRef) (bs : List Byte) {q : Query} (h : q.stack.length ≤ 8) :
    (visitBox c r bs q).query.stack.length ≤ 8 := by
  unfold visitBox
  split
  · exact h
  · exact Query.descend_stack r h _

theorem visitInstance_stack (c : TreeCtx) (r : RootRef) (bs : List Byte) {q : Query} (h : q.stack.length ≤ 8) :
    (visitInstance c r bs q).query.stack.length ≤ 8 := by
  unfold visitInstance
  split
  · exact h
  · extract_lets n root
    split
    · exact Query.pop_stack r h
    · split
      · exact h
      · split
        · exact Query.pop_stack r h
        · extract_lets fr inner
          have hinner : inner.stack.length ≤ 8 := h
          split
          · exact Query.follow_stack r hinner _ _
          next w _ =>
            split
            · exact Query.pop_stack r h
            · exact Adv.keepTrail_stack w.trail (Query.follow_stack r (q := { inner with rewalk := some { w with i := w.i + 1 } }) hinner _ _)

theorem takeHit_stack (q : Query) (h : Hit) : (takeHit q h).stack = q.stack := by
  unfold takeHit
  split
  · extract_lets better
    split <;> rfl
  · rfl

theorem testTriangles_nil (q : Query) : testTriangles [] q = (q, false, 0) := rfl

/-- The equation of one record; `triTest` is made a variable first, for unifying the two sides would else evaluate it. -/
theorem testTriangles_cons (t : Tri) (rest : List Tri) (q : Query) : testTriangles (t :: rest) q =
    match t.verts with
    | none => testTriangles rest q
    | some (a, b, c) =>
      match triTest q.frame.1 q.frame.2 a b c with
      | none => testTriangles rest q
      | some h =>
        if accepts q h then
          let q := takeHit q (triHitEntry q t.prim h)
          if q.mode = 2 then (q, true, 1)
          else
            let r := testTriangles rest q
            (r.1, r.2.1, r.2.2 + 1)
        else testTriangles rest q := by
  delta testTriangles testTriangles._f
  generalize triTest = test
  rfl
theorem testTriangles_stack (ts : List Tri) (q : Query) : (testTriangles ts q).1.stack = q.stack := by
  induction ts generalizing q with
  | nil => rw [testTriangles_nil]
  | cons t ts ih =>
    rw [testTriangles_cons]
    split
    · exact ih q
    · split
      · exact ih q
      · split
        · extract_lets taken r
          have htaken : taken.stack = q.stack := takeHit_stack q _
          split
          · exact htaken
          · exact (ih taken).trans htaken
        · exact ih q

theorem visitTriangles_stack (c : TreeCtx) (r : RootRef) (bs : List Byte) {q : Query} (h : q.stack.length ≤ 8) :
    (visitTriangles c r bs q).1.query.stack.length ≤ 8 := by
  have htested : (testTriangles (triRecords bs) q).1.stack.length ≤ 8 := by rw [testTriangles_stack]; exact h
  unfold visitTriangles
  split
  · exact h
  · dsimp only
    split
    · exact htested
    · exact Query.pop_stack r htested

theorem visitHost_stack (c : TreeCtx) (r : RootRef) (bs : List Byte) {q : Query} (h : q.stack.length ≤ 8) :
    (visitHost c r bs q).1.query.stack.length ≤ 8 := by
  unfold visitHost
  split
  · exact h
  · split
    · dsimp only
      split
      · exact h
      · exact Query.pop_stack r (q := { q with parts := q.parts + 1 }) h
    · exact Query.pop_stack r h

end Sys2Proof.Machine

open Sys2Proof Sys2Proof.Machine

/-- Settles O53: the place of a SEQ in the last runnings is its distance from the oldest. -/
theorem recordsAreFoundBySeq : Obligations.RecordsAreFoundBySeq := by
  unfold Obligations.RecordsAreFoundBySeq
  intro l h
  refine ⟨fun k r hk => ?_, fun i hi => ?_, fun i hnext hold => ?_⟩
  · exact Logline.select_last_of_some r.seq (by rw [Logline.seq_sub_oldest h hk]; exact hk) (Logline.written h hk)
  · rw [Logline.select_last_of_none i (Logline.not_yet h hi), if_pos hi]
  · rw [Logline.select_last_of_none i hold, if_neg (Nat.not_lt.mpr hnext)]

/-- Settles O54: a contribution is joined to the accumulator, and joining is commutative on the right. -/
theorem combinationIsOrderFree : Obligations.CombinationIsOrderFree := by
  unfold Obligations.CombinationIsOrderFree
  exact ⟨addContrib_comm, combine_comm⟩

/-- Settles O55: the granules of the runs taken and of the runs left are those that were free. -/
theorem granulesAreConserved : Obligations.GranulesAreConserved := by
  unfold Obligations.GranulesAreConserved
  exact ⟨fun n free got rest h => takeRuns_granules h, fun st st' n kind home batch q first guest h => Store.place_spec h,
    fun st runs hbad => Store.giveBack_freeCount runs hbad⟩

/-- Settles O56: a push onto a full stack discards the bottom entry, and nothing else makes the stack longer. -/
theorem shortStacksHoldEight : Obligations.ShortStacksHoldEight := by
  unfold Obligations.ShortStacksHoldEight
  intro t r bs q h
  exact ⟨visitBox_stack t r bs h, visitInstance_stack t r bs h, visitHost_stack t r bs h, visitTriangles_stack t r bs h,
    fun cs => Query.descend_stack r h cs⟩
end

section
/-!
Pointers and their placements, the masks of instances, and the slots of a box node that are never hit (R52, R85, R91).
-/

namespace Sys2Proof.Machine

/-! ### Pointers (R83 to R85) -/

theorem ptrOf_place (w : Nat) : (ptrOf w).place = w / 16 % 4 := by
  simp [ptrOf, field, Nat.shiftRight_eq_div_pow]

theorem ptrOf_home (w : Nat) : (ptrOf w).home = w / 2 ^ 49 % 2 ^ 15 := by
  simp only [ptrOf, field, Nat.shiftRight_eq_div_pow]

theorem ptrOf_bad_of_reserved {w : Nat} (h : w / 16 % 4 = 3) : (ptrOf w).bad = true := by
  have hplace : field w 5 4 = 3 := by rw [← h]; simp [field, Nat.shiftRight_eq_div_pow]
  simp [ptrOf, hplace]

theorem follow_bad (r : RootRef) (q : Query) (c : Child) (cnt : Nat) (h : (ptrOf c.ptr).bad = true) :
    q.follow r c cnt = .fault { q with trail := trailAt q.trail q.pathDepth c.rank } { cause := .badPointer, addr := q.next.addr } := by
  unfold Query.follow
  rw [if_pos h]

/-- A sound pointer to a node leads there; the query keeps its instance levels. -/
theorem follow_go (r : RootRef) (q : Query) (c : Child) (cnt : Nat) (hbad : (ptrOf c.ptr).bad = false) (hempty : (ptrOf c.ptr).ckind ≠ 0)
    (hhost : (ptrOf c.ptr).ckind ≠ 7) :
    ∃ q', q.follow r c cnt = .go q' ∧ q'.insts = q.insts ∧ q'.next.addr = (ptrOf c.ptr).addr := by
  unfold Query.follow
  extract_lets p here taken
  have hgo : ¬((decide (p.ckind = 0) || (decide (p.ckind = 7) && taken.skipHost)) = true) := by
    simp [p, hempty, hhost]
  rw [if_neg (by simp [p, hbad]), if_neg hgo]
  exact ⟨_, rfl, rfl, rfl⟩

/-! ### Instance nodes (R52) -/

theorem visitInstance_masked {t : TreeCtx} (r : RootRef) {bs : List Byte} {q : Query} (hkind : instKindFault t q.next.addr bs = none)
    (hmask : q.mask &&& (instNode bs).imask = 0) : visitInstance t r bs q = q.pop r := by
  unfold visitInstance
  rw [hkind]
  exact if_pos hmask

theorem frame_append (q : Query) (insts : List InstFrame) (f : InstFrame) (h : q.insts = insts ++ [f]) : q.frame = (f.o, f.d) := by
  unfold Query.frame
  rw [h, List.getLast?_concat]

theorem visitInstance_enters {t : TreeCtx} (r : RootRef) {bs : List Byte} {q : Query} {o d : V3}
    (hkind : instKindFault t q.next.addr bs = none) (hmask : q.mask &&& (instNode bs).imask ≠ 0)
    (hsound : withDepth q (instFault q.next.addr q.insts.length bs) = none) (hwalk : q.rewalk = none)
    (hframe : enterFrame (instNode bs).xform q.frame.1 q.frame.2 = some (o, d)) (hbad : (ptrOf (instNode bs).root).bad = false)
    (hempty : (ptrOf (instNode bs).root).ckind ≠ 0) (hhost : (ptrOf (instNode bs).root).ckind ≠ 7) :
    ∃ q', visitInstance t r bs q = .go q' ∧ q'.frame = (o, d) ∧ q'.insts.length = q.insts.length + 1 ∧
      q'.next.addr = (ptrOf (instNode bs).root).addr := by
  let inner : Query := { q with insts := q.insts ++ [{ addr := q.next.addr, id := (instNode bs).id, o := o, d := d, outer := q.cnt + 1 }] }
  let root : Child := { rank := 0, ptr := (instNode bs).root, tnear := q.next.tnear, gate := q.gate, taken := true }
  obtain ⟨q', hgo, hinsts, haddr⟩ := follow_go r inner root 0 hbad hempty hhost
  have hvisit : visitInstance t r bs q = inner.follow r root 0 := by
    simp only [visitInstance, hkind, hsound, hframe, hwalk]
    exact (if_neg hmask).trans (by rw [← hwalk])
  refine ⟨q', hvisit.trans hgo, frame_append q' _ _ hinsts, ?_, haddr⟩
  rw [hinsts]
  exact List.length_append

/-! ### Triangles know no mask (R52) -/

/-- The query with another mask. -/
def Query.withMask (q : Query) (m : Nat) : Query := { q with mask := m }

theorem Query.withMask_frame (q : Query) (m : Nat) : (q.withMask m).frame = q.frame := rfl

theorem accepts_withMask (q : Query) (m : Nat) (h : TriHit) : accepts (q.withMask m) h = accepts q h := rfl

theorem triHitEntry_withMask (q : Query) (m prim : Nat) (h : TriHit) : triHitEntry (q.withMask m) prim h = triHitEntry q prim h := rfl

theorem takeHit_withMask (q : Query) (m : Nat) (h : Hit) : takeHit (q.withMask m) h = (takeHit q h).withMask m := by
  by_cases hmode : q.mode = 1
  · cases hclosest : q.closest with
    | none => simp [takeHit, Query.withMask, hmode, hclosest]
    | some c => cases hbefore : h.before c <;> simp [takeHit, Query.withMask, hmode, hclosest, hbefore]
  · simp [takeHit, Query.withMask, hmode]

theorem testTriangles_withMask (ts : List Tri) (q : Query) (m : Nat) :
    testTriangles ts (q.withMask m) = ((testTriangles ts q).1.withMask m, (testTriangles ts q).2) := by
  induction ts generalizing q with
  | nil => rw [testTriangles_nil, testTriangles_nil]
  | cons t ts ih =>
    rw [testTriangles_cons, testTriangles_cons]
    simp only [Query.withMask_frame, accepts_withMask, triHitEntry_withMask, takeHit_withMask, ih]
    have hmode (x : Query) : (x.withMask m).mode = x.mode := rfl
    split
    · rfl
    · split
      · rfl
      · split
        · simp only [hmode]
          split <;> rfl
        · rfl

/-! ### Slots that are never hit (R91) -/

theorem insertBy_perm {α : Type} (lt : α → α → Bool) (x : α) (xs : List α) : (insertBy lt x xs).Perm (x :: xs) := by
  induction xs with
  | nil => exact .refl _
  | cons y ys ih =>
    simp only [insertBy]
    split
    · exact .refl _
    · exact (ih.cons y).trans (.swap x y ys)

theorem sortBy_perm {α : Type} (lt : α → α → Bool) (xs : List α) : (sortBy lt xs).Perm xs := by
  have hfold (acc : List α) : (xs.foldl (fun acc x => insertBy lt x acc) acc).Perm (acc ++ xs) := by
    induction xs generalizing acc with
    | nil => rw [List.append_nil]; exact .refl _
    | cons x xs ih => exact (ih _).trans (((insertBy_perm lt x acc).append_right xs).trans List.perm_middle.symm)
  exact hfold []

theorem map_indexed_snd {α β : Type} (f : α → β) (xs : List α) : (indexed xs).map (fun e => f e.2) = xs.map f := by
  have hsnd : (indexed xs).map Prod.snd = xs := List.map_snd_zip (Nat.le_of_eq (by rw [List.length_range]))
  calc (indexed xs).map (fun e => f e.2) = ((indexed xs).map Prod.snd).map f := by rw [List.map_map]; rfl
    _ = xs.map f := by rw [hsnd]

theorem map_filterMap_box (slots : List Slot) (f : Box → Num × Bool) :
    (slots.filterMap (fun s => s.box.map (fun b => (s.ptr, f b)))).map (·.1) = (slots.filter (fun x => x.box.isSome)).map (·.ptr) := by
  induction slots with
  | nil => rfl
  | cons x xs ih => cases hbox : x.box <;> simp [hbox, ih]

/-- The children of a box node are its slots with a box, each once, in some order. -/
theorem boxChildren_perm (slots : List Slot) (o d : V3) (tmin tmax : Num) (skip : Bool) (g : Code) :
    ((boxChildren slots o d tmin tmax skip g).map (·.ptr)).Perm ((slots.filter (fun x => x.box.isSome)).map (·.ptr)) := by
  unfold boxChildren
  extract_lets tested ranked
  have hptrs : (indexed ranked).map (fun e => e.2.1) = ranked.map (·.1) := map_indexed_snd _ _
  rw [List.map_map, ← map_filterMap_box slots (fun b => slabTest b o d tmin tmax)]
  exact hptrs ▸ (sortBy_perm _ tested).map _

/-- A slot with a box is not EMPTY, and on no axis does its QLO exceed its QHI. -/
theorem boxSlots_box {bs : List Byte} {x : Slot} (hx : x ∈ boxSlots bs) (hbox : x.box.isSome) :
    ∃ k < 8, x.ptr = le bs (64 + 8 * k) 8 ∧ x.ptr % 16 ≠ 0 ∧ ∀ a < 3, byteAt bs (16 + 6 * k + 2 * a) ≤ byteAt bs (17 + 6 * k + 2 * a) := by
  simp only [boxSlots, List.mem_map, List.mem_range] at hx
  obtain ⟨k, hk, rfl⟩ := hx
  simp only [Option.isSome_ite', Bool.not_eq_true, Bool.or_eq_false_iff, decide_eq_false_iff_not, Nat.not_lt] at hbox
  obtain ⟨⟨⟨hptr, hx⟩, hy⟩, hz⟩ := hbox
  refine ⟨k, hk, rfl, hptr, fun a ha => ?_⟩
  rw [show 17 + 6 * k + 2 * a = 16 + 6 * k + (2 * a + 1) by omega]
  obtain rfl | rfl | rfl : a = 0 ∨ a = 1 ∨ a = 2 := by omega
  · exact hx
  · exact hy
  · exact hz

theorem boxChildren_box {bs : List Byte} {o d : V3} {tmin tmax : Num} {skip : Bool} {g : Code} {ch : Child}
    (h : ch ∈ boxChildren (boxSlots bs) o d tmin tmax skip g) :
    ∃ k < 8, ch.ptr = le bs (64 + 8 * k) 8 ∧ ch.ptr % 16 ≠ 0 ∧ ∀ a < 3, byteAt bs (16 + 6 * k + 2 * a) ≤ byteAt bs (17 + 6 * k + 2 * a) := by
  have hptr := (boxChildren_perm (boxSlots bs) o d tmin tmax skip g).mem_iff.mp (List.mem_map_of_mem h)
  obtain ⟨x, hx, hsame⟩ := List.mem_map.mp hptr
  obtain ⟨hslot, hbox⟩ := List.mem_filter.mp hx
  rw [← hsame]
  exact boxSlots_box hslot hbox

theorem boxChildren_length (slots : List Slot) (o d : V3) (tmin tmax : Num) (skip : Bool) (g : Code) :
    (boxChildren slots o d tmin tmax skip g).length = (slots.filter (fun x => x.box.isSome)).length := by
  simpa using (boxChildren_perm slots o d tmin tmax skip g).length_eq

end Sys2Proof.Machine

open Sys2Proof Sys2Proof.Machine

/-- Settles O58: the fields of a pointer, the two tests before an instance is entered, and the slots that have a box. -/
theorem pointersInstancesAndSlots : Obligations.PointersInstancesAndSlots := by
  unfold Obligations.PointersInstancesAndSlots
  refine ⟨fun parent w => ⟨fun h => ?_, fun h => ?_, fun h => ?_⟩, fun r q c n h => ?_, fun t r bs q hkind hmask => ?_,
    fun t r bs q o d hkind hmask hsound hwalk hframe hbad hempty hhost =>
      visitInstance_enters r hkind hmask hsound hwalk hframe hbad hempty hhost,
    fun ts q m => (congrArg Prod.snd (testTriangles_withMask ts q m) : (testTriangles ts (q.withMask m)).2 = _),
    fun bs o d tmin tmax skip g => ⟨fun ch hch => boxChildren_box hch, boxChildren_length _ o d tmin tmax skip g⟩⟩
  · simp [placedBy, ptrOf_place, h]
  · simp [placedBy, ptrOf_place, h]
  · simp [placedBy, ptrOf_place, ptrOf_home, h]
  · exact ⟨_, follow_bad r q c n (ptrOf_bad_of_reserved h)⟩
  · refine visitInstance_masked r hkind (hmask.elim id fun hzero => ?_)
    rw [hzero, Nat.zero_and]
end

section
/-!
Power and clocks of a slice: the stretch of its clocks (R604, R621), its nap (R616), the requests to PWR_REQ (R617).
-/

namespace Sys2Proof.Machine

/-! ### Commands of a slice's power -/

theorem State.mail_of_powered {s : State} {i : Nat} {sl : Slice} (h : s.powered i sl) : sl.mail = [] := s.mail_of i sl h.1 h.2.2.2

/-- A command of a slice's power whose effect on the slice is `t`, which tells nothing more than the slice does. -/
theorem onPowered_eq {s : State} {i : Nat} {sl t : Slice} {f : Capstan → Slice → Slice} (h : s.powered i sl)
    (he : f (sl.view s.cap) sl = t) (hmail : t.mail = sl.mail) : onPowered i s f = .next (s.put i t) := by
  rw [onPowered_quiet i s sl f h (by rw [he, hmail, State.mail_of_powered h]), he]

theorem onPowered_same {s : State} {i : Nat} {sl : Slice} {f : Capstan → Slice → Slice} (h : s.powered i sl)
    (he : f (sl.view s.cap) sl = sl) : onPowered i s f = .next s := by
  rw [onPowered_eq h he rfl, s.put_self i sl h.1]

/-! ### Stretch (R604) -/

theorem exec_droopRise {s : State} {i : Nat} {sl : Slice} (h : s.powered i sl) (hlow : sl.pwr.droopNow = false) :
    exec (.stretchWarnRise i true) s = .next (s.put i { sl with pwr := { sl.pwr with
      droopNow := true, droopHold := none, droops := min 65535 (sl.pwr.droops + 1) } }) := by
  rw [exec_stretchWarnRise, execStretchWarnRise]
  exact onPowered_eq h (by simp [hlow, satAdd]) rfl

theorem exec_thermRise {s : State} {i : Nat} {sl : Slice} (h : s.powered i sl) (hlow : sl.pwr.thermNow = false) :
    exec (.stretchWarnRise i false) s = .next (s.put i { sl with pwr := { sl.pwr with
      thermNow := true, thermHold := none, heats := min 65535 (sl.pwr.heats + 1) } }) := by
  rw [exec_stretchWarnRise, execStretchWarnRise]
  exact onPowered_eq h (by simp [hlow, satAdd]) rfl

theorem exec_droopFall {s : State} {i : Nat} {sl : Slice} (h : s.powered i sl) (hhigh : sl.pwr.droopNow = true) :
    exec (.stretchWarnFall i true) s = .next (s.put i { sl with pwr := { sl.pwr with
      droopNow := false, droopHold := some (sl.time + 2000) } }) := by
  rw [exec_stretchWarnFall, execStretchWarnFall]
  exact onPowered_eq h (by simp [hhigh]) rfl

theorem exec_thermFall {s : State} {i : Nat} {sl : Slice} (h : s.powered i sl) (hhigh : sl.pwr.thermNow = true) :
    exec (.stretchWarnFall i false) s = .next (s.put i { sl with pwr := { sl.pwr with
      thermNow := false, thermHold := some (sl.time + 200000) } }) := by
  rw [exec_stretchWarnFall, execStretchWarnFall]
  exact onPowered_eq h (by simp [hhigh]) rfl

theorem holdOver_some (now t : Nat) : holdOver now (some t) = if now < t then some t else none := by
  simp [holdOver, Option.filter_some]

theorem exec_stretchRestore_holds {s : State} {i : Nat} {sl : Slice} {d t : Nat} (h : s.powered i sl) (hdroop : sl.pwr.droopHold = some d)
    (htherm : sl.pwr.thermHold = some t) :
    exec (.stretchRestore i) s = .next (s.put i { sl with pwr := { sl.pwr with
      droopHold := if sl.time < d then some d else none, thermHold := if sl.time < t then some t else none } }) := by
  rw [exec_stretchRestore, execStretchRestore]
  exact onPowered_eq h (by simp only [hdroop, htherm, holdOver_some]) rfl

/-! ### Nap (R616) -/

theorem exec_napIdleTimer_naps {s : State} {i : Nat} {sl : Slice} (h : s.powered i sl) (hstate : sl.pwr.state = 2)
    (hop : sl.pwr.pendingOp = none) (hidle : sl.idle = true) (htime : sl.pwr.idleSince + 20000 ≤ sl.time) :
    exec (.napIdleTimer i) s = .next (s.put i { sl with pwr := { sl.pwr with napping := true } }) := by
  rw [exec_napIdleTimer, execNapIdleTimer]
  exact onPowered_eq h (by simp [hstate, hop, hidle, htime]) rfl

theorem exec_napIdleTimer_waits {s : State} {i : Nat} {sl : Slice} (h : s.powered i sl)
    (hnot : sl.pwr.state ≠ 2 ∨ sl.pwr.pendingOp ≠ none ∨ sl.idle = false ∨ sl.time < sl.pwr.idleSince + 20000) :
    exec (.napIdleTimer i) s = .next s := by
  rw [exec_napIdleTimer, execNapIdleTimer]
  refine onPowered_same h (if_neg fun hall => ?_)
  simp only [Bool.and_eq_true, decide_eq_true_eq, Option.isNone_iff_eq_none] at hall
  obtain ⟨⟨⟨hstate, hop⟩, hidle⟩, htime⟩ := hall
  rcases hnot with hnot | hnot | hnot | hnot
  · exact hnot hstate
  · exact hnot hop
  · exact Bool.noConfusion (hnot.symm.trans hidle)
  · omega

theorem exec_napWake_wakes {s : State} {i : Nat} {sl : Slice} (h : s.powered i sl) (hnap : sl.pwr.napping = true) :
    exec (.napWake i) s = .next (s.put i { sl with pwr := { sl.pwr with napping := false, idleSince := sl.time } }) := by
  rw [exec_napWake, execNapWake]
  exact onPowered_eq h (by simp [Slice.wake, hnap]) rfl

end Sys2Proof.Machine

open Sys2Proof Sys2Proof.Machine

/-- Settles O3: each command of the clocks changes the slice's power state as it says, and tells nothing. -/
theorem clocksStretchAndSlicesNap : Obligations.ClocksStretchAndSlicesNap := by
  unfold Obligations.ClocksStretchAndSlicesNap
  exact ⟨⟨fun _ _ _ => exec_droopRise, fun _ _ _ => exec_thermRise, fun _ _ _ => exec_droopFall, fun _ _ _ => exec_thermFall,
    fun _ _ _ _ _ => exec_stretchRestore_holds⟩, fun _ _ _ => exec_napIdleTimer_naps, fun _ _ _ => exec_napWake_wakes,
    fun _ _ _ => exec_napIdleTimer_waits⟩
end

section
/-!
The requests to PWR_REQ (R614 to R617), a lay that trims and returns, and the loss of a slice's power (R503, R612). What a slice moves between
the bins and gathers of its lays changes its Mash, and the counters with it, and nothing else.
-/

namespace Sys2Proof.Machine

/-! ### Moves in the Mash -/

/-- Only the Mash and the counters differ. -/
def Slice.onlyMash (sl t : Slice) : Prop := t = { sl with mash := t.mash, cnt := t.cnt }

theorem Slice.onlyMash.refl (sl : Slice) : sl.onlyMash sl := rfl

theorem Slice.onlyMash.trans {sl t u : Slice} (h : sl.onlyMash t) (k : t.onlyMash u) : sl.onlyMash u := by
  unfold Slice.onlyMash at *
  rw [k, h]

theorem Slice.onlyMash.foldl {α : Type} {f : Slice → α → Slice} (h : ∀ (sl : Slice) (x : α), sl.onlyMash (f sl x)) (xs : List α) (sl : Slice) :
    sl.onlyMash (xs.foldl f sl) := by
  induction xs generalizing sl with
  | nil => exact .refl sl
  | cons x xs ih => exact (h sl x).trans (ih _)

section
variable {sl t : Slice} (h : sl.onlyMash t)
include h

theorem Slice.onlyMash.mail : t.mail = sl.mail := by rw [h]
theorem Slice.onlyMash.work : t.work = sl.work := by rw [h]
theorem Slice.onlyMash.pwr : t.pwr = sl.pwr := by rw [h]
theorem Slice.onlyMash.cache : t.cache = sl.cache := by rw [h]
theorem Slice.onlyMash.store : t.store = sl.store := by rw [h]

end

theorem Slice.forceOldest_onlyMash (sl : Slice) (lay bank : Nat) : sl.onlyMash (sl.forceOldest lay bank) := by
  unfold Slice.forceOldest
  dsimp only
  split <;> rfl

theorem Slice.takeBin_onlyMash (sl : Slice) (b : Bin) : sl.onlyMash (sl.takeBin b) := by
  unfold Slice.takeBin
  split
  · rfl
  · exact Slice.onlyMash.trans (t := { sl with mash := sl.mash.addOverflow b.lay b.bank b.members }) rfl (Slice.forceOldest_onlyMash _ _ _)

theorem Slice.rebin_onlyMash (sl : Slice) : sl.onlyMash sl.rebin := by
  unfold Slice.rebin
  extract_lets m left filled
  exact Slice.onlyMash.trans (t := { sl with mash := filled }) rfl
    (Slice.onlyMash.foldl (fun (x : Slice) (b : Bin) => x.takeBin_onlyMash { b with lay := sl.layOf b.obj }) _ _)

theorem Slice.binQuery_onlyMash (env : Capstan) (sl : Slice) (q : Query) : sl.onlyMash (sl.binQuery env q) := by
  unfold Slice.binQuery
  extract_lets lay bank
  dsimp only
  split
  · rfl
  · split
    · rfl
    · exact Slice.onlyMash.trans (t := { sl with mash := sl.mash.addOverflow lay bank [q] }) rfl (Slice.forceOldest_onlyMash _ _ _)

theorem Slice.gatherQuery_onlyMash (env : Capstan) (sl : Slice) (q : Query) : sl.onlyMash (sl.gatherQuery env q) := by
  unfold Slice.gatherQuery
  dsimp only
  split
  · rfl
  · split
    · rfl
    · split <;> rfl

theorem Slice.returned_onlyMash (env : Capstan) (sl : Slice) (q : Query) : sl.onlyMash (sl.returned env q) := by
  unfold Slice.returned
  split
  · exact Slice.gatherQuery_onlyMash _ _ _
  · exact Slice.binQuery_onlyMash _ _ _

/-! ### Walkers -/

theorem Slice.setWalker_walkers (sl : Slice) (lay i : Nat) (f : Walker → Walker) :
    (sl.setWalker lay i f).walkers lay = updateAt f i (sl.walkers lay) := by
  unfold Slice.setWalker Slice.walkers
  split <;> rfl

/-- The first `n` entries of a list set to `a`, one after the other. -/
theorem foldl_updateAt_getElem? {α : Type} (a : α) (n k : Nat) (xs : List α) :
    ((List.range n).foldl (fun xs i => updateAt (fun _ => a) i xs) xs)[k]? = if k < n then xs[k]?.map (fun _ => a) else xs[k]? := by
  induction n with
  | zero => rfl
  | succ n ih =>
    rw [List.range_succ, List.foldl_append, List.foldl_cons, List.foldl_nil, updateAt_getElem?, ih]
    rcases Nat.lt_trichotomy k n with hlt | heq | hgt
    · rw [if_neg (by omega), if_pos hlt, if_pos (by omega)]
    · subst heq
      rw [if_pos rfl, if_neg (by omega), if_pos (by omega)]
    · rw [if_neg (by omega), if_neg (by omega), if_neg (by omega)]

/-- Every walker of a lay returns its packets (R614 step 2). -/
def Slice.emptyWalkers (sl : Slice) (lay : Nat) : Slice := (List.range 8).foldl (fun sl w => sl.setWalker lay w (fun _ => emptyWalker)) sl

theorem Slice.emptyWalkers_walkers (sl : Slice) (lay : Nat) :
    (sl.emptyWalkers lay).walkers lay = (List.range 8).foldl (fun xs i => updateAt (fun _ => emptyWalker) i xs) (sl.walkers lay) := by
  unfold Slice.emptyWalkers
  induction List.range 8 generalizing sl with
  | nil => rfl
  | cons w ws ih => rw [List.foldl_cons, List.foldl_cons, ih, Slice.setWalker_walkers]

theorem Slice.mem_emptyWalkers {sl : Slice} {lay : Nat} (hcount : (sl.walkers lay).length = 8) {w : Walker}
    (hw : w ∈ (sl.emptyWalkers lay).walkers lay) : w = emptyWalker := by
  rw [Slice.emptyWalkers_walkers] at hw
  obtain ⟨k, hk⟩ := List.mem_iff_getElem?.mp hw
  rw [foldl_updateAt_getElem?] at hk
  split at hk
  · obtain ⟨x, -, rfl⟩ := Option.map_eq_some_iff.mp hk
    rfl
  next hge =>
    obtain ⟨hlt, -⟩ := List.getElem?_eq_some_iff.mp hk
    omega

/-- Emptying the walkers of a lay changes its walkers alone. -/
theorem Slice.emptyWalkers_rest (sl : Slice) (lay : Nat) :
    (sl.emptyWalkers lay).mail = sl.mail ∧ (sl.emptyWalkers lay).pwr = sl.pwr ∧ (sl.emptyWalkers lay).work.layOff = sl.work.layOff := by
  have hone (x : Slice) (w : Nat) : (x.setWalker lay w (fun _ => emptyWalker)).mail = x.mail ∧
      (x.setWalker lay w (fun _ => emptyWalker)).pwr = x.pwr ∧
      (x.setWalker lay w (fun _ => emptyWalker)).work.layOff = x.work.layOff := by
    unfold Slice.setWalker
    split <;> exact ⟨rfl, rfl, rfl⟩
  unfold Slice.emptyWalkers
  induction List.range 8 generalizing sl with
  | nil => exact ⟨rfl, rfl, rfl⟩
  | cons w ws ih =>
    obtain ⟨hmail, hpwr, hlay⟩ := ih (sl.setWalker lay w (fun _ => emptyWalker))
    obtain ⟨omail, opwr, olay⟩ := hone sl w
    exact ⟨hmail.trans omail, hpwr.trans opwr, hlay.trans olay⟩

theorem Slice.returnPackets_eq (env : Capstan) (sl : Slice) (lay : Nat) :
    (sl.emptyWalkers lay).onlyMash (sl.returnPackets env lay) :=
  Slice.onlyMash.foldl (fun (x : Slice) (q : Query) => x.returned_onlyMash env q) _ _

/-! ### Requests to PWR_REQ (R617) -/

/-- A write to PWR_REQ of a slice that neither naps nor has stopped. -/
theorem sliceWrite_powerRequest {s : State} {i : Nat} {sl t : Slice} {v : Reg} (h : s.answers i sl) (hstopped : sl.stopped = false)
    (he : sl.powerRequest (sl.view s.cap) v.toNat = t) (hmail : t.mail = sl.mail) :
    sliceWrite i 0x4808 v s = .next ((s.put i t).respond 0 0) := by
  have hwrite : sl.writeReg (sl.view s.cap) 0x4808 v = t := by
    rw [Slice.writeReg_pwrReq, hstopped, he]
    rfl
  obtain ⟨hat, -, -, -, -, -, hsettled⟩ := id h
  rw [sliceWrite_quiet s i 0x4808 sl v h (by decide) (by decide) rfl (by rw [hwrite, hmail, s.mail_of i sl hat hsettled]), hwrite]

theorem Slice.wake_of_awake {sl : Slice} (h : sl.pwr.napping = false) : sl.wake = sl := by
  unfold Slice.wake
  rw [h]
  rfl

/-- A request while no change of power is under way goes by its STATE. -/
theorem Slice.powerRequest_free {sl : Slice} (env : Capstan) {v : Nat} (hnap : sl.pwr.napping = false) (hop : sl.pwr.pendingOp = none)
    (hv : v % 4 ≠ 3) :
    sl.powerRequest env v = if v % 4 = 0 then sl.requestOn else if v % 4 = 1 then sl.requestTrim env (v / 4 % 2) else sl.requestNap := by
  simp only [Slice.powerRequest, field_powerState, field_powerLay, Slice.wake_of_awake hnap, hop]
  rw [if_neg hv]
  rfl

theorem Slice.powerRequest_busy {sl : Slice} (env : Capstan) {v op : Nat} (hnap : sl.pwr.napping = false) (hop : sl.pwr.pendingOp = some op)
    (hv : v % 4 ≠ 3) : sl.powerRequest env v = sl.powerOutcome powerBusy := by
  simp only [Slice.powerRequest, field_powerState, Slice.wake_of_awake hnap, hop]
  rw [if_neg hv]
  rfl

theorem Slice.powerOutcome_done (sl : Slice) : sl.powerOutcome powerDone = { sl with pwr := { sl.pwr with result := 0x10100 } } := rfl
theorem Slice.powerOutcome_accepted (sl : Slice) : sl.powerOutcome powerAccepted = { sl with pwr := { sl.pwr with result := 0x10200 } } := rfl
theorem Slice.powerOutcome_busy (sl : Slice) : sl.powerOutcome powerBusy = { sl with pwr := { sl.pwr with result := 0x10300 } } := rfl

theorem Slice.requestOn_trimmed {sl : Slice} {lay : Nat} (hoff : sl.work.layOff = some lay) :
    sl.requestOn = { sl with pwr := { sl.pwr with pendingOp := some 0, result := 0x10200 } } := by
  simp only [Slice.requestOn, hoff, Option.isSome_some, if_true, Slice.powerOutcome_accepted]

theorem Slice.requestOn_whole {sl : Slice} (hoff : sl.work.layOff = none) (hstate : sl.pwr.state ≠ 0) :
    sl.requestOn = { sl with pwr := { sl.pwr with state := 0, result := 0x10100 } } := by
  simp only [Slice.requestOn, hoff, Option.isSome_none, Bool.false_eq_true, if_false, if_neg hstate, Slice.powerOutcome_done]

theorem Slice.requestNap_new {sl : Slice} (hstate : sl.pwr.state ≠ 2) :
    sl.requestNap = { sl with pwr := { sl.pwr with state := 2, idleSince := sl.time, result := 0x10100 } } := by
  simp only [Slice.requestNap, if_neg hstate, Slice.powerOutcome_done]

theorem Slice.requestTrim_starts {sl : Slice} {lay : Nat} (env : Capstan) (hoff : sl.work.layOff = none) (hother : ¬(1 - lay) ∈ sl.work.layRetired) :
    sl.requestTrim env lay = sl.startTrim env lay := by
  simp only [Slice.requestTrim, hoff, if_neg hother]

/-- What a lay that begins to trim comes to (R614): the walkers it had are empty, its request is accepted. -/
theorem Slice.startTrim_spec (env : Capstan) {sl : Slice} {lay : Nat} (hcount : (sl.walkers lay).length = 8) :
    (sl.startTrim env lay).mail = sl.mail ∧ (sl.startTrim env lay).pwr.pendingOp = some 1 ∧ (sl.startTrim env lay).pwr.trimLay = lay ∧
      (sl.startTrim env lay).pwr.result = 0x10200 ∧ (sl.startTrim env lay).work.layOff = some lay ∧
      ∀ w ∈ (sl.startTrim env lay).walkers lay, w = emptyWalker := by
  unfold Slice.startTrim
  extract_lets _ _ begun
  have hbegun : begun.walkers lay = sl.walkers lay := rfl
  have hrebin := begun.rebin_onlyMash
  have hmoved := Slice.returnPackets_eq env begun.rebin lay
  obtain ⟨hmail, hpwr, hlay⟩ := begun.rebin.emptyWalkers_rest lay
  have hwalkers : begun.rebin.walkers lay = sl.walkers lay := by
    rw [← hbegun]
    unfold Slice.walkers
    rw [hrebin.work]
  have hmovedWalkers : (begun.rebin.returnPackets env lay).walkers lay = (begun.rebin.emptyWalkers lay).walkers lay := by
    unfold Slice.walkers
    rw [hmoved.work]
  rw [Slice.powerOutcome_accepted]
  refine ⟨?_, ?_, ?_, rfl, ?_, fun w hw => ?_⟩
  · exact (hmoved.mail.trans hmail).trans hrebin.mail
  · show (begun.rebin.returnPackets env lay).pwr.pendingOp = some 1
    rw [hmoved.pwr, hpwr, hrebin.pwr]
  · show (begun.rebin.returnPackets env lay).pwr.trimLay = lay
    rw [hmoved.pwr, hpwr, hrebin.pwr]
  · show (begun.rebin.returnPackets env lay).work.layOff = some lay
    rw [hmoved.work, hlay, hrebin.work]
  · have hw' : w ∈ (begun.rebin.emptyWalkers lay).walkers lay := hmovedWalkers ▸ hw
    exact Slice.mem_emptyWalkers (by rw [hwalkers, hcount]) hw'

theorem exec_pwrReqTrim_starts {s : State} {i lay : Nat} {sl : Slice} (h : s.answers i sl) (hstopped : sl.stopped = false)
    (hnap : sl.pwr.napping = false) (hop : sl.pwr.pendingOp = none) (hoff : sl.work.layOff = none) (hlay : lay < 2)
    (hother : ¬(1 - lay) ∈ sl.work.layRetired) (hcount : (sl.walkers lay).length = 8) :
    exec (.pwrReqTrim i lay) s = .next ((s.put i (sl.startTrim (sl.view s.cap) lay)).respond 0 0) := by
  have hvalue := pwrReqTrim_toNat lay
  refine sliceWrite_powerRequest h hstopped ?_ (Slice.startTrim_spec _ hcount).1
  rw [Slice.powerRequest_free _ hnap hop (by omega), if_neg (by omega), if_pos (by omega)]
  rw [show (fields [1, place lay 1 2]).toNat / 4 % 2 = lay by omega]
  exact Slice.requestTrim_starts _ hoff hother

end Sys2Proof.Machine

open Sys2Proof Sys2Proof.Machine

/-- Settles O4: each request by its STATE, and whether a change of power is under way. -/
theorem powerRequestsAreAnswered : Obligations.PowerRequestsAreAnswered := by
  unfold Obligations.PowerRequestsAreAnswered
  refine ⟨fun s i sl h hstopped hnap hop hoff hstate => ?_, fun s i lay sl h hstopped hnap hop hoff => ?_,
    fun s i sl h hstopped hnap hop hstate => ?_, fun s i lay sl h hstopped hnap hop hoff hlay hother hcount => ?_,
    fun s i lay sl op h hstopped hnap hop hlay => ?_⟩
  · refine sliceWrite_powerRequest h hstopped ?_ rfl
    exact (Slice.powerRequest_free _ hnap hop (by decide)).trans (Slice.requestOn_whole hoff hstate)
  · refine sliceWrite_powerRequest h hstopped ?_ rfl
    exact (Slice.powerRequest_free _ hnap hop (by decide)).trans (Slice.requestOn_trimmed hoff)
  · refine sliceWrite_powerRequest h hstopped ?_ rfl
    exact (Slice.powerRequest_free _ hnap hop (by decide)).trans (Slice.requestNap_new hstate)
  · obtain ⟨-, hpending, htrim, hresult, hoff', hwalkers⟩ := Slice.startTrim_spec (sl.view s.cap) hcount
    have hlt : i < s.slices.length := (List.getElem?_eq_some_iff.mp h.1).1
    refine ⟨_, sl.startTrim (sl.view s.cap) lay, exec_pwrReqTrim_starts h hstopped hnap hop hoff hlay hother hcount, ?_, hpending, htrim,
      hoff', hresult, fun w hw => ?_, rfl, rfl, rfl⟩
    · exact List.getElem?_set_self hlt
    · rw [hwalkers w hw]
      exact ⟨rfl, rfl⟩
  · have hbusy (v : Nat) (hv : v % 4 ≠ 3) : sl.powerRequest (sl.view s.cap) v = { sl with pwr := { sl.pwr with result := 0x10300 } } :=
      Slice.powerRequest_busy _ hnap hop hv
    have hvalue := pwrReqTrim_toNat lay
    exact ⟨sliceWrite_powerRequest h hstopped (hbusy _ (by decide)) rfl, sliceWrite_powerRequest h hstopped (hbusy _ (by omega)) rfl,
      sliceWrite_powerRequest h hstopped (hbusy _ (by decide)) rfl⟩
end

section
/-!
A lay that has drained, and a lay that has power again (R614, R615): its bins and gathers pass to the lays their objects belong to.
-/

namespace Sys2Proof.Machine

/-! ### A lay is off (R614) -/

theorem exec_trimDrained_ends {s : State} {i : Nat} {sl : Slice} (h : s.powered i sl) (hop : sl.pwr.pendingOp = some 1)
    (hjobs : sl.jobs sl.pwr.trimLay = []) :
    exec (.trimDrained i) s = .next (s.put i { sl with
      cache := sl.cache.dropLay sl.pwr.trimLay, pwr := { sl.pwr with pendingOp := none, state := 1, result := 0x10100 } }) := by
  rw [exec_trimDrained, execTrimDrained]
  refine onPowered_eq h ?_ rfl
  simp only [Slice.trimDrained, hop, hjobs, List.isEmpty_nil, decide_true, Bool.and_self, if_true, Slice.powerOutcome_done]

theorem Cache.dropLay_spec (c : Cache) {lay : Nat} (hlay : lay < 2) :
    (c.dropLay lay).node lay = [] ∧ (c.dropLay lay).nodeMiss lay = [] ∧ (c.dropLay lay).node (1 - lay) = c.node (1 - lay) ∧
      (c.dropLay lay).lines = c.lines := by
  rcases Nat.lt_or_ge lay 1 with h | h
  · obtain rfl : lay = 0 := by omega
    exact ⟨rfl, rfl, rfl, rfl⟩
  · obtain rfl : lay = 1 := by omega
    exact ⟨rfl, rfl, rfl, rfl⟩

/-! ### A lay has power again (R615) -/

/-- A query stands in a bin, or in an overflow bin. -/
def Mash.binned (m : Mash) (q : Query) : Prop := (∃ b ∈ m.bins, q ∈ b.members) ∨ ∃ o ∈ m.overflow, q ∈ o.2.2

/-- What a change of the Mash to `m'` keeps while it files the members `qs`: the gathers, the bins at the lays that `lay` gives. -/
structure Mash.Filed (lay : Nat → Nat) (m m' : Mash) (qs : List Query) : Prop where
  gathers : m'.gathers = m.gathers
  gatherWait : m'.gatherWait = m.gatherWait
  restores : m'.restores = m.restores
  lays : (∀ b ∈ m.bins, b.lay = lay b.obj) → ∀ b ∈ m'.bins, b.lay = lay b.obj
  binned : ∀ q, m'.binned q ↔ m.binned q ∨ q ∈ qs

theorem Mash.Filed.trans {lay : Nat → Nat} {m m' m'' : Mash} {qs rs : List Query} (h : m.Filed lay m' qs) (k : m'.Filed lay m'' rs) :
    m.Filed lay m'' (qs ++ rs) where
  gathers := k.gathers.trans h.gathers
  gatherWait := k.gatherWait.trans h.gatherWait
  restores := k.restores.trans h.restores
  lays := k.lays ∘ h.lays
  binned q := by rw [k.binned, h.binned, List.mem_append, or_assoc]

theorem Mash.Filed.refl (lay : Nat → Nat) (m : Mash) : m.Filed lay m [] := ⟨rfl, rfl, rfl, id, fun q => by simp⟩

theorem Mash.mem_addOverflow (m : Mash) (lay bank : Nat) (qs : List Query) (q : Query) :
    (∃ o ∈ (m.addOverflow lay bank qs).overflow, q ∈ o.2.2) ↔ (∃ o ∈ m.overflow, q ∈ o.2.2) ∨ q ∈ qs := by
  unfold Mash.addOverflow
  dsimp only
  split
  next hany =>
    obtain ⟨x, hx, hhere⟩ := List.any_eq_true.mp hany
    constructor
    · rintro ⟨o, ho, hq⟩
      obtain ⟨y, hy, rfl⟩ := List.mem_map.mp ho
      split at hq
      · exact (List.mem_append.mp hq).imp_left fun hq => ⟨y, hy, hq⟩
      · exact .inl ⟨y, hy, hq⟩
    · rintro (⟨o, ho, hq⟩ | hq)
      · refine ⟨_, List.mem_map_of_mem ho, ?_⟩
        split
        · exact List.mem_append_left _ hq
        · exact hq
      · refine ⟨_, List.mem_map_of_mem hx, ?_⟩
        rw [if_pos hhere]
        exact List.mem_append_right _ hq
  · simp only [List.mem_append, List.mem_singleton]
    constructor
    · rintro ⟨o, ho | rfl, hq⟩
      · exact .inl ⟨o, ho, hq⟩
      · exact .inr hq
    · rintro (⟨o, ho, hq⟩ | hq)
      · exact ⟨o, .inl ho, hq⟩
      · exact ⟨_, .inr rfl, hq⟩

theorem Mash.addOverflow_filed (lay : Nat → Nat) (m : Mash) (l bank : Nat) (qs : List Query) : m.Filed lay (m.addOverflow l bank qs) qs where
  gathers := rfl
  gatherWait := rfl
  restores := rfl
  lays := id
  binned q := by
    unfold Mash.binned
    rw [Mash.mem_addOverflow, ← or_assoc]
    rfl

/-- The oldest bin of a bank made ready: the bins keep their keys and their members. -/
theorem Slice.forceOldest_filed (lay : Nat → Nat) (sl : Slice) (l bank : Nat) : sl.mash.Filed lay (sl.forceOldest l bank).mash [] := by
  unfold Slice.forceOldest
  extract_lets here
  split
  · exact .refl lay _
  next v _ =>
    refine ⟨rfl, rfl, rfl, fun hlays b hb => ?_, fun q => ?_⟩
    · obtain ⟨x, hx, rfl⟩ := List.mem_map.mp hb
      split <;> exact hlays x hx
    · have hbins : (∃ b ∈ updateWhere v.same (fun b => { b with ready := some .age }) sl.mash.bins, q ∈ b.members) ↔
          ∃ b ∈ sl.mash.bins, q ∈ b.members := by
        constructor
        · rintro ⟨b, hb, hq⟩
          obtain ⟨x, hx, rfl⟩ := List.mem_map.mp hb
          refine ⟨x, hx, ?_⟩
          split at hq <;> exact hq
        · rintro ⟨x, hx, hq⟩
          refine ⟨_, List.mem_map_of_mem hx, ?_⟩
          split <;> exact hq
      simp only [List.not_mem_nil, or_false]
      exact or_congr_left hbins

theorem Slice.takeBin_filed (lay : Nat → Nat) (sl : Slice) (b : Bin) (hb : b.lay = lay b.obj) :
    sl.mash.Filed lay (sl.takeBin b).mash b.members := by
  unfold Slice.takeBin
  split
  · refine ⟨rfl, rfl, rfl, fun hlays x hx => ?_, fun q => ?_⟩
    · rcases List.mem_append.mp hx with hx | hx
      · exact hlays x hx
      · rw [List.mem_singleton.mp hx]; exact hb
    · simp only [Mash.binned, List.mem_append, List.mem_singleton]
      constructor
      · rintro (⟨x, hx | rfl, hq⟩ | ho)
        · exact .inl (.inl ⟨x, hx, hq⟩)
        · exact .inr hq
        · exact .inl (.inr ho)
      · rintro ((⟨x, hx, hq⟩ | ho) | hq)
        · exact .inl ⟨x, .inl hx, hq⟩
        · exact .inr ho
        · exact .inl ⟨b, .inr rfl, hq⟩
  · have hadd := sl.mash.addOverflow_filed lay b.lay b.bank b.members
    have hforce := Slice.forceOldest_filed lay { sl with mash := sl.mash.addOverflow b.lay b.bank b.members } b.lay b.bank
    simpa using hadd.trans hforce

theorem foldl_addOverflow_filed (lay : Nat → Nat) (qs : List Query) (m : Mash) :
    m.Filed lay (qs.foldl (fun (l : Mash) q => l.addOverflow (lay q.next.addr) (bankOf q.next.addr) [q]) m) qs := by
  induction qs generalizing m with
  | nil => exact .refl lay m
  | cons q qs ih => exact (m.addOverflow_filed lay _ _ [q]).trans (ih _)

theorem foldl_takeBin_filed (lay : Nat → Nat) (bs : List Bin) (sl : Slice) :
    sl.mash.Filed lay (bs.foldl (fun (x : Slice) b => x.takeBin { b with lay := lay b.obj }) sl).mash (bs.flatMap (·.members)) := by
  induction bs generalizing sl with
  | nil => exact .refl lay _
  | cons b bs ih => exact (sl.takeBin_filed lay { b with lay := lay b.obj } rfl).trans (ih _)

/-- Every bin, overflow bin and gather stands at the lay its object belongs to, with the members there were. -/
theorem Slice.rebin_spec (sl : Slice) :
    sl.rebin.mash.gathers = sl.mash.gathers.map (fun (g : Gather) => { g with lay := sl.layOf g.leaf }) ∧
      (∀ b ∈ sl.rebin.mash.bins, b.lay = sl.layOf b.obj) ∧ ∀ q, sl.rebin.mash.binned q ↔ sl.mash.binned q := by
  unfold Slice.rebin
  extract_lets m left filled
  have hfilled := foldl_addOverflow_filed sl.layOf (m.overflow.flatMap (fun o => o.2.2)) left
  have htaken := foldl_takeBin_filed sl.layOf m.bins { sl with mash := filled }
  have hall := hfilled.trans htaken
  refine ⟨hall.gathers, hall.lays fun b hb => absurd hb List.not_mem_nil, fun q => ?_⟩
  rw [hall.binned]
  have hleft : ¬left.binned q := by
    rintro (⟨b, hb, -⟩ | ⟨o, ho, -⟩)
    · exact List.not_mem_nil hb
    · exact List.not_mem_nil ho
  rw [or_iff_right hleft]
  simp only [List.mem_append, List.mem_flatMap, Mash.binned, m]
  exact or_comm

/-- A bank takes bins while it has 2,048 descriptors or fewer to give. -/
theorem foldl_takeBin_fits (lay : Nat → Nat) (bs : List Bin) (sl : Slice) (hfit : sl.mash.bins.length + bs.length ≤ 2048) :
    (bs.foldl (fun (x : Slice) b => x.takeBin { b with lay := lay b.obj }) sl).mash =
      { sl.mash with bins := sl.mash.bins ++ bs.map (fun b => { b with lay := lay b.obj }) } := by
  induction bs generalizing sl with
  | nil => simp
  | cons b bs ih =>
    have hfree : sl.mash.bankFree (lay b.obj) b.bank = true := by
      have hle : (sl.mash.bins.filter (fun x => x.lay = lay b.obj && x.bank = b.bank)).length ≤ sl.mash.bins.length := List.length_filter_le _ _
      rw [List.length_cons] at hfit
      exact decide_eq_true (by omega)
    have htaken : sl.takeBin { b with lay := lay b.obj } =
        { sl with mash := { sl.mash with bins := sl.mash.bins ++ [{ b with lay := lay b.obj }] } } := if_pos hfree
    rw [List.foldl_cons, htaken, ih]
    · simp
    · simp only [List.length_append, List.length_cons, List.length_nil] at *
      omega

theorem Slice.rebin_fits {sl : Slice} (hoverflow : sl.mash.overflow = []) (hfit : sl.mash.bins.length ≤ 2048) :
    sl.rebin.mash.overflow = [] ∧ sl.rebin.mash.bins.map (·.members) = sl.mash.bins.map (·.members) := by
  unfold Slice.rebin
  extract_lets m left filled
  have hfilled : filled = left := by simp only [filled, m, hoverflow, List.flatMap_nil, List.foldl_nil]
  rw [foldl_takeBin_fits sl.layOf m.bins { sl with mash := filled } (by rw [hfilled]; simpa [left] using hfit), hfilled]
  exact ⟨rfl, by simp [left, m]⟩

/-- The slice with both its lays at work again, before its bins and gathers are filed. -/
def Slice.whole (sl : Slice) : Slice :=
  { sl with pwr := { sl.pwr with pendingOp := none, state := 0 }, work := { sl.work with layOff := none } }

/-- The lay has power again: an ON request is DONE. -/
theorem Slice.poweredOn_eq {sl : Slice} (hop : sl.pwr.pendingOp = some 0) (hnap : sl.pwr.napping = false) :
    sl.poweredOn = sl.whole.rebin.powerOutcome powerDone := by
  have hawake : sl.whole.rebin.wake = sl.whole.rebin := Slice.wake_of_awake (by rw [(Slice.rebin_onlyMash _).pwr]; exact hnap)
  rw [← hawake, Slice.poweredOn, hop]
  rfl

theorem Slice.poweredOn_pwr (sl : Slice) :
    (sl.whole.rebin.powerOutcome powerDone).pwr = { sl.pwr with pendingOp := none, state := 0, result := 0x10100 } := by
  show { sl.whole.rebin.pwr with result := 0x10100 } = _
  rw [sl.whole.rebin_onlyMash.pwr]
  rfl

end Sys2Proof.Machine

open Sys2Proof Sys2Proof.Machine

/-- Settles O5: what a lay that is off discards, and where each member of a bin or gather stands once a lay is on again. -/
theorem layTrimsAndReturns : Obligations.LayTrimsAndReturns := by
  unfold Obligations.LayTrimsAndReturns
  refine ⟨fun s i sl => exec_trimDrained_ends, fun c lay => c.dropLay_spec, fun s i sl h hop hnap => ?_⟩
  have honly := sl.whole.rebin_onlyMash
  obtain ⟨hgathers, hlays, hbinned⟩ := sl.whole.rebin_spec
  have hlayOf (a : Nat) : (sl.whole.rebin.powerOutcome powerDone).layOf a = sl.whole.layOf a := Slice.layOf_congr _ _ honly.work a
  refine ⟨sl.whole.rebin.powerOutcome powerDone, ?_, honly.work, sl.poweredOn_pwr, honly.cache, honly.store, ?_, fun b hb => ?_,
    fun g hg => ?_, hbinned, Slice.rebin_fits (sl := sl.whole)⟩
  · rw [exec_layPoweredOn, execLayPoweredOn]
    exact onPowered_eq h (Slice.poweredOn_eq hop hnap) honly.mail
  · show sl.whole.rebin.mash.gathers.map (·.members) = _
    rw [hgathers, List.map_map]
    rfl
  · rw [hlayOf]
    exact hlays b hb
  · obtain ⟨x, -, rfl⟩ := List.mem_map.mp (hgathers ▸ hg : g ∈ sl.whole.mash.gathers.map _)
    rw [hlayOf]
end

section
/-!
A slice stops when it loses its power (R503, R612): what its notice makes the Capstan capture, and that a stopped slice does nothing of its work.
-/

namespace Sys2Proof.Machine

/-! ### Events are counted by class (R578) -/

theorem Capstan.refillPort_counts (c : Capstan) : c.refillPort.irq.counts = c.irq.counts := by
  unfold Capstan.refillPort
  split <;> rfl

theorem Capstan.message_counts (c : Capstan) (k : Nat) : (c.message k).irq.counts = c.irq.counts := by
  unfold Capstan.message
  dsimp only
  split
  · rfl
  · exact Capstan.refillPort_counts _

theorem Capstan.event_counts (c : Capstan) (i : Irq) : (c.event i).irq.counts = updateAt (fun n => satAdd 0xFFFF n 1) i.cls c.irq.counts := by
  unfold Capstan.event
  dsimp only
  split
  · exact Capstan.message_counts _ _
  · rfl

/-- The comparison with the threshold counts events of its own class alone. -/
theorem Capstan.compareMark_counts (c : Capstan) {k : Nat} (hk : k ≠ 3) : c.compareMark.irq.counts[k]? = c.irq.counts[k]? := by
  unfold Capstan.compareMark
  split
  · rw [Capstan.event_counts, updateAt_getElem?]
    exact if_neg hk
  · rfl

theorem Capstan.note_counts (c : Capstan) (code : Nat) (data : List Byte) {k : Nat} (hk : k ≠ 3) :
    (c.note code data).irq.counts[k]? = c.irq.counts[k]? := Capstan.compareMark_counts _ hk

/-! ### CAP_FAULT (R524) -/

/-- The value that a fault gives CAP_FAULT (R524). -/
def faultValue (cls slice : Nat) (inCapstan : Bool) (unit detail : Nat) : Reg :=
  BitVec.ofNat 64 (1 + place cls 8 8 + place slice 5 16 + flag inCapstan 21 + place unit 8 24 + place detail 32 32)

theorem Capstan.captureFault_hl (c : Capstan) (cls slice : Nat) (inCapstan : Bool) (unit detail : Nat) :
    (c.captureFault cls slice inCapstan unit detail).hl =
      { c.hl with fault := faultValue cls slice inCapstan unit detail, faultTime := BitVec.ofNat 64 c.now } := by
  unfold Capstan.captureFault
  dsimp only
  split
  · rw [Capstan.note_hl]; rfl
  · rw [Capstan.event_hl, Capstan.note_hl]; rfl

@[simp] theorem Capstan.captureFault_ctxs (c : Capstan) (cls slice : Nat) (inCapstan : Bool) (unit detail : Nat) :
    (c.captureFault cls slice inCapstan unit detail).ctxs = c.ctxs := by
  unfold Capstan.captureFault
  dsimp only
  split
  · rw [Capstan.note_ctxs]
  · rw [Capstan.event_ctxs, Capstan.note_ctxs]

@[simp] theorem Capstan.captureFault_next (c : Capstan) (cls slice : Nat) (inCapstan : Bool) (unit detail : Nat) :
    (c.captureFault cls slice inCapstan unit detail).log.next = c.log.next + 1 := by
  unfold Capstan.captureFault
  dsimp only
  split
  · rw [Capstan.note_next]
  · rw [Capstan.event_log, Capstan.note_next]

/-- A fault that is not REGISTER_ERROR's class counts a fault notice. -/
theorem Capstan.captureFault_counts (c : Capstan) {cls : Nat} (slice : Nat) (inCapstan : Bool) (unit detail : Nat) (hcls : cls ≠ 1) :
    (c.captureFault cls slice inCapstan unit detail).irq.counts[2]? = (c.irq.counts[2]?).map (fun n => min 0xFFFF (n + 1)) := by
  unfold Capstan.captureFault
  dsimp only
  rw [if_neg hcls, Capstan.event_counts, updateAt_getElem?]
  refine (if_pos rfl).trans ?_
  rw [Capstan.note_counts _ _ _ (by decide)]
  rfl

theorem faultValue_toNat (cls slice : Nat) (inCapstan : Bool) (unit detail : Nat) :
    (faultValue cls slice inCapstan unit detail).toNat =
      1 + cls % 2 ^ 8 * 2 ^ 8 + slice % 2 ^ 5 * 2 ^ 16 + flag inCapstan 21 + unit % 2 ^ 8 * 2 ^ 24 + detail % 2 ^ 32 * 2 ^ 32 := by
  simp only [faultValue, place, Nat.shiftLeft_eq, BitVec.toNat_ofNat]
  cases inCapstan <;> simp only [flag, if_true, if_false, Bool.false_eq_true] <;> omega

/-- A captured fault is VALID. -/
theorem faultValue_valid (cls slice : Nat) (inCapstan : Bool) (unit detail : Nat) : (faultValue cls slice inCapstan unit detail).getLsbD 0 = true := by
  rw [BitVec.getLsbD, faultValue_toNat, Nat.testBit_zero]
  cases inCapstan <;> simp only [flag, if_true, if_false, Bool.false_eq_true, decide_eq_true_eq] <;> omega

theorem faultValue_class (cls slice : Nat) (inCapstan : Bool) (unit detail : Nat) :
    (faultValue cls slice inCapstan unit detail).toNat / 2 ^ 8 % 2 ^ 8 = cls % 2 ^ 8 := by
  rw [faultValue_toNat]
  cases inCapstan <;> simp only [flag, if_true, if_false, Bool.false_eq_true] <;> omega

theorem faultValue_slice (cls slice : Nat) (inCapstan : Bool) (unit detail : Nat) :
    (faultValue cls slice inCapstan unit detail).toNat / 2 ^ 16 % 2 ^ 5 = slice % 32 := by
  rw [faultValue_toNat]
  cases inCapstan <;> simp only [flag, if_true, if_false, Bool.false_eq_true] <;> omega

/-! ### The notice of a fault reaches the Capstan -/

/-- A slice that tells one fault of unknown detail: it is captured, and nothing else is told. -/
theorem deliver_fault {s : State} {i cls slice unit : Nat} {sl : Slice} (hi : i < s.slices.length) (hsettled : s.settled) (hdecides : s.decides)
    (hmail : sl.mail = [.fault slice cls unit none]) :
    deliver (s.put i sl) i = { s.put i { sl with mail := [] } with
      fresh := s.fresh + 1, cap := s.cap.captureFault cls slice false unit ((Config.freeBits s.fresh).toNat % 2 ^ 32) } := by
  obtain ⟨-, hrestart, hfailed⟩ := hdecides
  have hread : (s.put i sl).readMail i = { s.put i { sl with mail := [] } with
      fresh := s.fresh + 1, cap := s.cap.captureFault cls slice false unit ((Config.freeBits s.fresh).toNat % 2 ^ 32) } := by
    simp [State.readMail, State.put, hi, hmail, State.notify, Notice.toCapstan, hrestart, hfailed, State.capTakes]
  unfold deliver
  rw [hread, deliverAll_settled]
  obtain ⟨hmails, hctxs⟩ := s.settled_put i { sl with mail := [] } hsettled rfl
  exact ⟨hmails, by simpa using hctxs⟩

/-- The slice as the loss of its rail, or its trip, leaves it. -/
def Slice.unpowered (sl : Slice) (trip : Bool) : Slice :=
  { sl with stopped := true, pwr := { sl.pwr with rail := sl.pwr.rail && trip, tripped := sl.pwr.tripped || trip } }

theorem exec_slicePowerLoss_stops {s : State} {i : Nat} {sl : Slice} (trip : Bool) (h : s.powered i sl) (hdecides : s.decides) :
    exec (.slicePowerLoss i trip) s = .next { s.put i { sl.unpowered trip with mail := [] } with
      fresh := s.fresh + 1
      cap := s.cap.captureFault classSliceStop sl.id false 0xFF ((Config.freeBits s.fresh).toNat % 2 ^ 32) } := by
  have hmail := State.mail_of_powered h
  obtain ⟨hat, hpower, hstopped, hsettled⟩ := h
  have hlt : i < s.slices.length := (List.getElem?_eq_some_iff.mp hat).1
  have hstop : exec (.slicePowerLoss i trip) s =
      .next (deliver (s.put i ((sl.unpowered trip).tell (.fault sl.id classSliceStop 0xFF none))) i) := by
    simp [exec_slicePowerLoss, execSlicePowerLoss, onPowered, onSlice, hat, hpower, hstopped, Slice.stop, Slice.unpowered, State.put]
  rw [hstop, deliver_fault hlt hsettled hdecides (by rw [Slice.tell_mail]; exact congrArg (· ++ _) hmail)]
  rfl

end Sys2Proof.Machine

open Sys2Proof Sys2Proof.Machine

/-- Settles O6: the stop's notice is captured as SLICE_STOP, and a stopped slice does not work. -/
theorem sliceStopsOnPowerLoss : Obligations.SliceStopsOnPowerLoss := by
  unfold Obligations.SliceStopsOnPowerLoss
  refine ⟨fun s i sl trip h hdecides => ?_, fun s i sl lay n reads mesh hat hstopped hsettled => ?_⟩
  · have hlt : i < s.slices.length := (List.getElem?_eq_some_iff.mp h.1).1
    refine ⟨_, { sl.unpowered trip with mail := [] }, exec_slicePowerLoss_stops trip h hdecides, List.getElem?_set_self hlt, rfl, rfl, rfl, rfl,
      rfl, ?_, ?_, ?_, Capstan.captureFault_next .., Capstan.captureFault_counts _ _ _ _ _ (by decide), rfl⟩
    all_goals rw [Capstan.captureFault_hl]
    · exact faultValue_valid ..
    · exact faultValue_class ..
    · exact faultValue_slice ..
  · have hidle : sl.works s.cap = false := by simp [Slice.works, hstopped]
    have hlive (f : Capstan → Slice → Slice) : onLive i s f = .next s := onLive_idle i s sl f hat hidle hsettled
    rw [exec_binFlushAge, exec_gatherAge, exec_binRelease, exec_boxNodeVisit, exec_primitiveTest, exec_gatherRun, exec_streamBurstFetch,
      exec_streamBlockIssue, execBinFlushAge, execGatherAge, execBinRelease, execBoxNodeVisit, execPrimitiveTest, execGatherRun,
      execStreamBurstFetch, execStreamBlockIssue]
    refine ⟨hlive _, hlive _, hlive _, hlive _, hlive _, hlive _, hlive _, hlive _, ?_⟩
    simp [exec_heartbeat, execHeartbeat, hat, hidle]
end

section
/-!
The counter registers of a slice (R356, R359, R583 to R590): a write has its effect on the counters alone, and a read of a register with RC
fields clears them. What a read does is said once, for every register of a slice window.
-/

namespace Sys2Proof.Machine

/-! ### The indexed registers of a slice window -/

theorem indexAt_of_lt {base step n k : Nat} (hstep : 0 < step) (hk : k < n) : indexAt base step n (base + step * k) = some k := by
  simp [indexAt, Nat.mul_div_cancel_left k hstep, hk]

theorem indexAt_below {base step n off : Nat} (h : off < base) : indexAt base step n off = none := by
  simp [indexAt, Nat.not_le.mpr h]

theorem indexAt_beyond {base step n off : Nat} (hstep : 0 < step) (h : base + step * n ≤ off) : indexAt base step n off = none := by
  have hindex : ¬ (off - base) / step < n := by
    rw [Nat.div_lt_iff_lt_mul hstep, Nat.mul_comm]
    omega
  simp [indexAt, hindex]

/-- CNT_SELk stands at `0x5100 + 8 k` (R583). -/
theorem Slice.reg?_cntSel (env : Capstan) (sl : Slice) {k : Nat} (hk : k < 16) : sl.reg? env (0x5100 + 8 * k) = some (sl.cnt.sels.getD k 0) := by
  have hself : indexAt 0x5100 8 16 (0x5100 + 8 * k) = some k := indexAt_of_lt (by decide) hk
  have hbeyond (base step n : Nat) (hstep : 0 < step) (h : base + step * n ≤ 0x5100) : indexAt base step n (0x5100 + 8 * k) = none :=
    indexAt_beyond hstep (by omega)
  have hne (o : Nat) (ho : o < 0x5100) : ¬ 0x5100 + 8 * k = o := by omega
  simp [Slice.reg?, hself, hbeyond, hne]

/-- CNTk stands at `0x5180 + 8 k` (R583). -/
theorem Slice.reg?_cnt (env : Capstan) (sl : Slice) {k : Nat} (hk : k < 16) : sl.reg? env (0x5180 + 8 * k) = some (sl.cnt.vals.getD k 0) := by
  have hself : indexAt 0x5180 8 16 (0x5180 + 8 * k) = some k := indexAt_of_lt (by decide) hk
  have hbeyond (base step n : Nat) (hstep : 0 < step) (h : base + step * n ≤ 0x5180) : indexAt base step n (0x5180 + 8 * k) = none :=
    indexAt_beyond hstep (by omega)
  have hne (o : Nat) (ho : o < 0x5180) : ¬ 0x5180 + 8 * k = o := by omega
  simp [Slice.reg?, hself, hbeyond, hne]

theorem Slice.writeReg_cntSel (env : Capstan) (sl : Slice) {k : Nat} (v : Reg) (hk : k < 16) :
    sl.writeReg env (0x5100 + 8 * k) v = { sl with cnt := sl.cnt.writeSel k v } := by
  have hself : indexAt 0x5100 8 16 (0x5100 + 8 * k) = some k := indexAt_of_lt (by decide) hk
  have hne (o : Nat) (ho : o < 0x5100) : ¬ 0x5100 + 8 * k = o := by omega
  simp [Slice.writeReg, hself, hne]

theorem Slice.readReg_cnt (sl : Slice) {k : Nat} (hk : k < 16) :
    sl.readReg (0x5180 + 8 * k) = { sl with cnt := { sl.cnt with vals := sl.cnt.vals.set k 0 } } := by
  have hself : indexAt 0x5180 8 16 (0x5180 + 8 * k) = some k := indexAt_of_lt (by decide) hk
  have hne (o : Nat) (ho : o < 0x5180) : ¬ 0x5180 + 8 * k = o := by omega
  simp [Slice.readReg, hself, hne]

/-- SC_LOCK_LOSS holds its two counts (R356). -/
theorem Slice.reg?_lockLoss (env : Capstan) (sl : Slice) (hlost : sl.cache.lost < 2 ^ 32) (hoverflow : sl.cache.overflow < 2 ^ 32) :
    sl.reg? env 0x3828 = some (BitVec.ofNat 64 (sl.cache.lost + 2 ^ 32 * sl.cache.overflow)) := by
  have hread : sl.reg? env 0x3828 = some (fields [place sl.cache.lost 32 0, place sl.cache.overflow 32 32]) := rfl
  rw [hread, place_of_lt 0 hlost, place_of_lt 32 hoverflow, fields, List.sum_cons, List.sum_cons, List.sum_nil, Nat.pow_zero, Nat.mul_one,
    Nat.add_zero, reg, Nat.mul_comm sl.cache.overflow]

/-! ### Writes -/

/-- A write whose effect on the slice is known, and which the slice does not tell of. -/
theorem sliceWrite_effect {s : State} {i o : Nat} {sl sl' : Slice} {v : Reg} (h : s.answers i sl) (ho : o < 0x10000) (h8 : o % 8 = 0)
    (r : ((resetSlice i).reg? s.cap o).isSome) (e : sl.writeReg (sl.view s.cap) o v = sl') (hmail : sl'.mail = sl.mail) :
    sliceWrite i o v s = .next ((s.put i sl').respond 0 0) := by
  obtain ⟨hat, -, -, -, -, -, hsettled⟩ := id h
  rw [sliceWrite_quiet s i o sl v h ho h8 r (by rw [e, hmail]; exact s.mail_of i sl hat hsettled), e]

/-! ### Reads (R15) -/

/-- A read of a register of a slice that answers has its value as the response, and clears its RC fields. -/
theorem State.busRead_slice {s : State} {i o : Nat} {sl : Slice} {x : Reg} (h : s.answers i sl) (ho : o < 0x10000) (h8 : o % 8 = 0)
    (r : ((resetSlice i).reg? s.cap o).isSome) (hx : sl.reg? s.cap o = some x) :
    s.busRead (sliceWindow + 0x10000 * i + o) = (s.put i (sl.readReg o)).respond x 0 := by
  have hdecode := s.decode_slice i o sl h ho h8 r
  obtain ⟨hat, hpower, -⟩ := h
  have hwindow : toCapstan (sliceWindow + 0x10000 * i + o) = false := by
    refine decide_eq_false ?_
    unfold sliceWindow
    omega
  have hread : s.readTarget (.slice i o) = (x, s.put i (sl.readReg o)) := by
    simp [State.readTarget, State.valueOf, State.atSlice, hat, hx, State.put]
  simp [State.busRead, State.access, State.doRead, hpower, hwindow, hdecode, hread]

theorem exec_readClear_slice {s : State} {i o : Nat} {sl sl' : Slice} {x : Reg} (h : s.answers i sl) (ho : o < 0x10000) (h8 : o % 8 = 0)
    (hrc : (o = 0x3828 || (indexAt 0x5008 8 5 o).isSome || (indexAt 0x5180 8 16 o).isSome) = true)
    (r : ((resetSlice i).reg? s.cap o).isSome) (hx : sl.reg? s.cap o = some x) (hcleared : sl.readReg o = sl') :
    exec (.readClear (0x100000 + 0x10000 * i + o)) s = .next ((s.put i sl').respond x 0) := by
  have hisRc : isRc (sliceWindow + 0x10000 * i + o) = true := by
    have hoff := (sliceWindow_split i o ho).2
    have hlow : sliceWindow ≤ sliceWindow + 0x10000 * i + o := by omega
    simp only [isRc, hoff, hrc, hlow, decide_true, Bool.and_true]
  have hread := State.busRead_slice h ho h8 r hx
  rw [exec_readClear, execReadClear]
  refine (if_pos hisRc).trans (congrArg _ ?_)
  rw [← hcleared]
  exact hread

end Sys2Proof.Machine

open Sys2Proof Sys2Proof.Machine

/-- Settles O7: each command is a write to its register, whose effect is on the counters or on the diagnosis selection. -/
theorem counterRegistersAreWritten : Obligations.CounterRegistersAreWritten := by
  unfold Obligations.CounterRegistersAreWritten
  refine ⟨fun s i sl v h => ?_, fun s i k sl v h hk => ?_, fun s i sl h => ?_, fun s i sl v h => ?_⟩
  · rw [exec_cntCtlWrite, execCntCtlWrite]
    exact sliceWrite_effect h (by decide) (by decide) rfl rfl rfl
  · rw [exec_cntSelWrite, execCntSelWrite, Nat.mod_eq_of_lt hk]
    exact sliceWrite_effect h (by omega) (by omega) (by rw [Slice.reg?_cntSel _ _ hk]; rfl) (Slice.writeReg_cntSel _ sl v hk) rfl
  · rw [exec_captureRearm, execCaptureRearm]
    exact sliceWrite_effect h (by decide) (by decide) rfl rfl rfl
  · rw [exec_qsDiagSel, execQsDiagSel]
    exact sliceWrite_effect h (by decide) (by decide) rfl rfl rfl

/-- Settles O8: each read is of a register with RC fields, which it clears. -/
theorem readsClearCounters : Obligations.ReadsClearCounters := by
  unfold Obligations.ReadsClearCounters
  refine ⟨fun s i k sl h hk => ?_, fun s i sl h => ?_, fun s i sl h => ?_, fun s i sl h => ⟨?_, ?_, ?_⟩, fun s i sl h hlost hoverflow => ?_⟩
  · have hrc : (indexAt 0x5180 8 16 (0x5180 + 8 * k)).isSome = true := by rw [indexAt_of_lt (by decide) hk]; rfl
    have hread := exec_readClear_slice (o := 0x5180 + 8 * k) h (by omega) (by omega) (by rw [hrc, Bool.or_true]) (by rw [Slice.reg?_cnt _ _ hk]; rfl)
      (sl.reg?_cnt _ hk) (sl.readReg_cnt hk)
    rwa [← Nat.add_assoc] at hread
  · exact exec_readClear_slice h (by decide) (by decide) rfl rfl rfl rfl
  · exact exec_readClear_slice h (by decide) (by decide) rfl rfl rfl rfl
  · exact exec_readClear_slice h (by decide) (by decide) rfl rfl rfl rfl
  · exact exec_readClear_slice h (by decide) (by decide) rfl rfl rfl rfl
  · exact exec_readClear_slice h (by decide) (by decide) rfl rfl rfl rfl
  · exact exec_readClear_slice h (by decide) (by decide) rfl rfl (sl.reg?_lockLoss _ hlost hoverflow) rfl
end

section
/-!
The Capstan's registers (R15, R526, R543, R561, R578) and the accesses that the port cannot serve (R568, R569, R570). A write to the Capstan
window that leaves the contexts alone tells nothing, so it is its effect and its response.
-/

namespace Sys2Proof.Machine

/-! ### Writes to the Capstan window -/

/-- A write to the Capstan window whose effect is known. -/
theorem State.busWrite_capEffect {s : State} {o : Nat} {v x : Reg} {c : Capstan} (h : s.decides) (hsettled : s.settled) (ho : o < 0x40000)
    (h8 : o % 8 = 0) (hreg : s.cap.reg? o = some x) (heffect : s.writeCap o v = s.withCap c) (hctxs : c.ctxs = s.cap.ctxs) :
    s.busWrite o v = (s.withCap c).respond 0 0 := by
  obtain ⟨hpower, hrestart, hfailed⟩ := h
  obtain ⟨hmail, hoverrun⟩ := hsettled
  have hkept : (s.withCap c).settled := ⟨hmail, by rw [show (s.withCap c).cap.ctxs = s.cap.ctxs from hctxs]; exact hoverrun⟩
  rw [s.busWrite_cap o v hpower hrestart hfailed ho h8 (Option.isSome_of_eq_some hreg), heffect,
    deliverAll_settled _ (State.respond_settled _ 0 0 hkept)]

/-- While the Capstan restarts an access to its window waits (R570). -/
theorem State.access_held {s : State} {a : HeldAccess} {since : Nat} (hpower : s.cap.su.power = .running)
    (hrestart : s.cap.hl.restarting = some since) (hoff : a.off < 0x40000) :
    s.access a = s.withCap { s.cap with hl := { s.cap.hl with accesses := s.cap.hl.accesses ++ [a] } } := by
  simp [State.access, hpower, hrestart, toCapstan, hoff, State.onCap, State.withCap]

/-! ### Accesses that cannot be served -/

/-- The state that an access with an error response leaves (R569, R576). -/
def State.refused (s : State) (write : Bool) (code off : Nat) : State :=
  (s.withCap { s.cap with irq := { s.cap.irq with
    regErr := BitVec.ofNat 64 (1 + (if write then 2 else 0) + code * 256 + off % 2 ^ 22 * 65536) } }).respond 0 code

theorem State.captureError_eq (s : State) (write : Bool) {code : Nat} (off : Nat) (hcode : code < 256) :
    (s.captureError write false code off).respond 0 code = s.refused write code off := by
  have hvalue : fields [1, flag write 1, flag false 2, place code 8 8, place off 22 16] =
      BitVec.ofNat 64 (1 + (if write then 2 else 0) + code * 256 + off % 2 ^ 22 * 65536) := by
    rw [place_of_lt 8 hcode, place, Nat.shiftLeft_eq, fields, reg]
    simp [flag, Nat.add_assoc]
  rw [State.refused, ← hvalue]
  rfl

theorem State.access_error {s : State} {a : HeldAccess} {code : Nat} (hpower : s.cap.su.power = .running)
    (hheld : toCapstan a.off = false ∨ s.cap.hl.restarting = none) (hdecode : s.decodeAccess a.off a.size = .error code) (hcode : code < 256) :
    s.access a = s.refused a.write code a.off := by
  have hnow : (toCapstan a.off && s.cap.hl.restarting.isSome) = false := by
    rcases hheld with hwindow | hrestart
    · rw [hwindow, Bool.false_and]
    · rw [hrestart, Option.isSome_none, Bool.and_false]
  rw [← s.captureError_eq a.write a.off hcode]
  cases hwrite : a.write <;> simp [State.access, State.doWrite, State.doRead, hpower, hnow, hwrite, hdecode]

/-- A read that has an error response: no word is lost by it. -/
theorem exec_registerReadError_error {s : State} {off size code : Nat} (lost : Bool) (hpower : s.cap.su.power = .running)
    (hrestart : s.cap.hl.restarting = none) (hdecode : s.decodeAccess off size = .error code) (hcode : code < 256) :
    exec (.registerReadError off size lost) s = .next (s.refused false code off) := by
  have hlose : s.loseRegister off size = s := by rw [State.loseRegister, hdecode]
  have haccess : s.access { write := false, off := off, size := size, value := 0 } = s.refused false code off :=
    State.access_error hpower (.inr hrestart) hdecode hcode
  rw [exec_registerReadError, execRegisterReadError, hlose, ite_self, hdecode, haccess]

/-- A read that finds its word lost, and has an error response for it. -/
theorem exec_registerReadError_lose {s s' : State} {off size code : Nat} (hpower : s.cap.su.power = .running) (hlose : s.loseRegister off size = s')
    (hpower' : s'.cap.su.power = .running) (hheld : toCapstan off = false ∨ s'.cap.hl.restarting = none)
    (hdecode : s'.decodeAccess off size = .error code) (hcode : code < 256) :
    exec (.registerReadError off size true) s = .next (s'.refused false code off) := by
  have haccess : s'.access { write := false, off := off, size := size, value := 0 } = s'.refused false code off :=
    State.access_error hpower' hheld hdecode hcode
  rw [exec_registerReadError, execRegisterReadError, if_pos (by simp [hpower]), hlose, hdecode, haccess]

/-- A write and a read with an error response. -/
theorem exec_access_error {s : State} {off size code : Nat} (v : Reg) (lost : Bool) (hpower : s.cap.su.power = .running)
    (hrestart : s.cap.hl.restarting = none) (hdecode : s.decodeAccess off size = .error code) (hcode : code < 256) :
    exec (.registerWrite off size v) s = .next (s.refused true code off) ∧
      exec (.registerReadError off size lost) s = .next (s.refused false code off) :=
  ⟨congrArg _ (State.access_error hpower (.inr hrestart) hdecode hcode), exec_registerReadError_error lost hpower hrestart hdecode hcode⟩

/-! ### The lowest code that applies (R568) -/

theorem State.decode_size (s : State) (off : Nat) {size : Nat} (h : size ≠ 8) : s.decodeAccess off size = .error 1 := by
  simp [State.decodeAccess, h]

theorem State.decode_alignment (s : State) {off : Nat} (h : off % 8 ≠ 0) : s.decodeAccess off 8 = .error 2 := by
  simp [State.decodeAccess, h]

theorem State.decode_noWindow (s : State) {off : Nat} (h8 : off % 8 = 0) (hcap : 0x40000 ≤ off) (h : off < 0x100000 ∨ 0x300000 ≤ off) :
    s.decodeAccess off 8 = .error 3 := by
  have hwindow : (decide (off < sliceWindow) || decide (0x300000 ≤ off)) = true := by
    rw [Bool.or_eq_true, decide_eq_true_eq, decide_eq_true_eq]
    exact h
  simp [State.decodeAccess, h8, Nat.not_lt.mpr hcap, hwindow]

/-- The decoding of CNT_CTL in the window of any slice number. -/
theorem State.decode_cntCtl (s : State) {i : Nat} (hi : i < 32) :
    s.decodeAccess (0x100000 + 0x10000 * i + 0x5000) 8 =
      if s.cap.n ≤ i || s.slices.length ≤ i then .error 4
      else if s.cap.hl.slices.getD i .absent = .deadPass || s.cap.hl.slices.getD i .absent = .deadIsolated then .error 5
      else if (0x100000 + 0x10000 * i + 0x5000) ∈ s.cap.hl.lost then .error 6
      else .ok (.slice i 0x5000) := by
  obtain ⟨hindex, hoffset⟩ := sliceWindow_split i 0x5000 (by decide)
  have hcap : ¬ 0x100000 + 0x10000 * i + 0x5000 < 0x40000 := by omega
  have hlow : ¬ 0x100000 + 0x10000 * i + 0x5000 < 0x100000 := by omega
  have hhigh : ¬ 0x300000 ≤ 0x100000 + 0x10000 * i + 0x5000 := by omega
  have h8 : (0x100000 + 0x10000 * i + 0x5000) % 8 = 0 := by omega
  have hreg : ((resetSlice i).reg? s.cap 0x5000).isNone = false := rfl
  unfold sliceWindow at hindex hoffset
  simp only [State.decodeAccess, sliceWindow, hindex, hoffset, hreg, h8, if_neg hcap, hlow, hhigh, decide_false, Bool.or_false]
  rfl

theorem State.decode_cntCtl_lost {s : State} {i : Nat} (hi : i < 32) (hn : i < s.cap.n) (hlen : i < s.slices.length)
    (hlive : s.cap.hl.slices.getD i .absent = .live) (hlost : (0x100000 + 0x10000 * i + 0x5000) ∈ s.cap.hl.lost) :
    s.decodeAccess (0x100000 + 0x10000 * i + 0x5000) 8 = .error 6 := by
  rw [s.decode_cntCtl hi, if_neg (by simp [hn, hlen]), hlive, if_neg (by decide), if_pos hlost]

/-- A read that finds the word of a slice's register lost: the register is lost from then on (R568). -/
theorem exec_registerReadError_lost {s : State} {i : Nat} {sl : Slice} (h : s.answers i sl) :
    exec (.registerReadError (0x100000 + 0x10000 * i + 0x5000) 8 true) s =
      .next ((s.withCap { s.cap with hl := { s.cap.hl with lost := s.cap.hl.lost ++ [0x100000 + 0x10000 * i + 0x5000] } }).refused false 6
        (0x100000 + 0x10000 * i + 0x5000)) := by
  have hdecode : s.decodeAccess (0x100000 + 0x10000 * i + 0x5000) 8 = .ok (.slice i 0x5000) := s.decode_slice i 0x5000 sl h (by decide) (by decide) rfl
  obtain ⟨hat, hpower, hi, hn, hlive, -, -⟩ := h
  have hlen : i < s.slices.length := (List.getElem?_eq_some_iff.mp hat).1
  have hlose : s.loseRegister (0x100000 + 0x10000 * i + 0x5000) 8 =
      s.withCap { s.cap with hl := { s.cap.hl with lost := s.cap.hl.lost ++ [0x100000 + 0x10000 * i + 0x5000] } } := by
    rw [State.loseRegister, hdecode]; rfl
  have hlost := State.decode_cntCtl_lost
    (s := s.withCap { s.cap with hl := { s.cap.hl with lost := s.cap.hl.lost ++ [0x100000 + 0x10000 * i + 0x5000] } })
    hi hn hlen hlive (List.mem_append_right _ (List.mem_singleton_self _))
  have hwindow : toCapstan (0x100000 + 0x10000 * i + 0x5000) = false := by
    rw [toCapstan, decide_eq_false_iff_not]
    omega
  exact exec_registerReadError_lose hpower hlose hpower (.inl hwindow) hlost (by decide)

theorem State.decode_lostCap (s : State) (hfailed : s.cap.hl.failed = true) (hlost : 0x100 ∈ s.cap.hl.lost) :
    s.decodeAccess 0x100 8 = .error 6 := by
  have hreg : s.cap.reg? 0x100 = some (reg s.cap.irq.mask) := rfl
  simp [State.decodeAccess, hfailed, hlost, hreg]

end Sys2Proof.Machine

open Sys2Proof Sys2Proof.Machine

/-- Settles O9: each write is its register's effect, and an access in a restart joins those that wait. -/
theorem capstanRegistersAreWritten : Obligations.CapstanRegistersAreWritten := by
  unfold Obligations.CapstanRegistersAreWritten
  refine ⟨⟨fun s v h hsettled => ?_, fun s v h hsettled => ?_, fun s v h hsettled => ?_, fun s v h hsettled => ?_, fun s i sl v h => ?_⟩,
    fun s since off size v hpower hrestart hoff => congrArg _ (State.access_held hpower hrestart hoff)⟩
  · rw [exec_capRepairSel, execCapRepairSel]
    exact congrArg _ (State.busWrite_capEffect h hsettled (by decide) (by decide) rfl rfl rfl)
  · rw [exec_registerWrite_cap]
    exact congrArg _ (State.busWrite_capEffect h hsettled (by decide) (by decide) rfl rfl rfl)
  · rw [exec_registerWrite_cap]
    exact congrArg _ (State.busWrite_capEffect h hsettled (by decide) (by decide) rfl rfl rfl)
  · exact exec_registerWrite_noEffect h hsettled (by decide) (by decide) s.cap.reg?_logHead (s.writeCap_logHead v)
  · rw [exec_registerWrite_slice]
    exact sliceWrite_effect h (by decide) (by decide) rfl rfl rfl

/-- Settles O10: the codes of R568 in their order, each with the access that has it. -/
theorem badAccessesAreCaptured : Obligations.BadAccessesAreCaptured := by
  unfold Obligations.BadAccessesAreCaptured
  refine ⟨fun s off size v lost h hsize => ?_, fun s off v lost h h8 => ?_, fun s off v lost h h8 hcap hwindow => ?_, fun s i v lost h hi hn => ?_,
    fun s i sl h => ?_, fun s v lost hpower hrestart hfailed hlost => ?_, fun s i v lost h hi hn hlen hdead => ?_⟩
  · obtain ⟨hpower, hrestart, -⟩ := h
    exact exec_access_error v lost hpower hrestart (s.decode_size off hsize) (by decide)
  · obtain ⟨hpower, hrestart, -⟩ := h
    exact exec_access_error v lost hpower hrestart (s.decode_alignment h8) (by decide)
  · obtain ⟨hpower, hrestart, -⟩ := h
    exact exec_access_error v lost hpower hrestart (s.decode_noWindow h8 hcap hwindow) (by decide)
  · obtain ⟨hpower, hrestart, -⟩ := h
    have hdecode := s.decode_cntCtl hi
    rw [if_pos (by simp [hn])] at hdecode
    exact exec_access_error v lost hpower hrestart hdecode (by decide)
  · exact exec_registerReadError_lost h
  · have herror := exec_access_error v lost hpower hrestart (s.decode_lostCap hfailed hlost) (by decide)
    rw [State.refused, State.refused] at herror
    exact herror
  · obtain ⟨hpower, hrestart, -⟩ := h
    have hdecode := s.decode_cntCtl hi
    rw [if_neg (by simp [hn, hlen]), if_pos (by simpa using hdead)] at hdecode
    exact exec_access_error v lost hpower hrestart hdecode (by decide)
end

section
/-!
The Logline's and the interrupts' registers (R530, R541, R543, R561, R578, R600), and how a record of a slice arrives (R528, R535, R536).
-/

namespace Sys2Proof.Machine

theorem State.decides.acts {s : State} (h : s.decides) : s.cap.acts = true := by
  obtain ⟨hpower, hrestart, hfailed⟩ := h
  simp [Capstan.acts, hpower, hrestart, hfailed]

/-- A command of a slice whose effect on the slice is `t`, which tells nothing more than the slice does. -/
theorem onSlice_eq {s : State} {i : Nat} {sl t : Slice} {f : Capstan → Slice → Slice} (hat : s.slices[i]? = some sl) (hsettled : s.settled)
    (he : f (sl.view s.cap) sl = t) (hmail : t.mail = sl.mail) : onSlice deliver i s f = .next (s.put i t) := by
  rw [onSlice_quiet i s sl f hat hsettled (by rw [he, hmail, s.mail_of i sl hat hsettled]), he]

theorem onSlice_same {s : State} {i : Nat} {sl : Slice} {f : Capstan → Slice → Slice} (hat : s.slices[i]? = some sl) (hsettled : s.settled)
    (he : f (sl.view s.cap) sl = sl) : onSlice deliver i s f = .next s := by
  rw [onSlice_eq hat hsettled he rfl, s.put_self i sl hat]

/-- A fold of which one step alone changes the value. -/
theorem foldl_once {α β : Type} {f : β → α → β} {b b' : β} {k : α} {xs : List α} (hnodup : xs.Nodup) (hk : k ∈ xs)
    (hbefore : ∀ x ∈ xs, x ≠ k → f b x = b) (hat : f b k = b') (hafter : ∀ x ∈ xs, x ≠ k → f b' x = b') : xs.foldl f b = b' := by
  obtain ⟨pre, post, rfl⟩ := List.append_of_mem hk
  obtain ⟨-, htail, hdisjoint⟩ := List.nodup_append.mp hnodup
  have hpost : ∀ x ∈ post, x ≠ k := by
    rintro x hx rfl
    exact (List.nodup_cons.mp htail).1 hx
  have hpre : ∀ x ∈ pre, x ≠ k := fun x hx => hdisjoint x hx k List.mem_cons_self
  rw [List.foldl_append, List.foldl_cons,
    foldl_still f b pre (fun x hx => hbefore x (List.mem_append_left _ hx) (hpre x hx)), hat,
    foldl_still f b' post (fun x hx => hafter x (List.mem_append_right _ (List.mem_cons_of_mem _ hx)) (hpost x hx))]

/-! ### CAP_IRQ_MASK (R578) -/

/-- The four enables of a value. -/
theorem enables_toNat (v : Reg) : field v.toNat 3 0 = v.toNat % 16 := rfl

theorem enables_testBit {v : Reg} {k : Nat} (hk : k < 4) : bit (v.toNat % 16) k = v.getLsbD k := by
  rw [bit, show (16 : Nat) = 2 ^ 4 from rfl, Nat.testBit_mod_two_pow, decide_eq_true hk, Bool.true_and, BitVec.getLsbD]

/-- No message is sent where every class that is enabled was so, or has nothing pending. -/
theorem Capstan.writeMask_still (c : Capstan) {v : Reg}
    (h : ∀ k < 4, v.getLsbD k = true → c.irq.mask.testBit k = true ∨ c.irq.pend.testBit k = false) :
    c.writeMask v = { c with irq := { c.irq with mask := v.toNat % 16 } } := by
  refine foldl_still _ _ _ fun k hk => if_neg ?_
  rw [enables_toNat, enables_testBit (List.mem_range.mp hk)]
  rcases hbit : v.getLsbD k with _ | _
  · simp
  · rcases h k (List.mem_range.mp hk) hbit with hold | hpend
    · simp [bit, hold]
    · simp [bit, hpend]

/-- A message that nothing waits before, and that the port has room for, is held there (R600). -/
theorem Capstan.message_joinsPort {c : Capstan} {k addr data : Nat} (hrestart : c.hl.restarting = none) (hm : c.img.irqs.getD k (0, 0) = (addr, data))
    (haddr : addr ≠ 0) (hsend : c.maySend = true) (hwait : c.irq.wait = []) (hroom : c.irq.held.length < 16) :
    c.message k = { c with irq := { c.irq with held := c.irq.held ++ [(addr, data)] } } := by
  have htake : 16 - c.irq.held.length = (15 - c.irq.held.length) + 1 := by omega
  unfold Capstan.message
  rw [hm]
  simp [haddr, hsend, Capstan.refillPort, hrestart, hwait, htake]

/-- One class alone is enabled, its event pending: its message is held. -/
theorem Capstan.writeMask_sends {c : Capstan} {k addr data : Nat} (hk : k < 4) (hrestart : c.hl.restarting = none) (hmask : c.irq.mask = 0)
    (hpend : c.irq.pend.testBit k = true) (hm : c.img.irqs.getD k (0, 0) = (addr, data)) (haddr : addr ≠ 0) (hsend : c.maySend = true)
    (hwait : c.irq.wait = []) (hroom : c.irq.held.length < 16) :
    c.writeMask (BitVec.ofNat 64 (2 ^ k)) = { c with irq := { c.irq with mask := 2 ^ k, held := c.irq.held ++ [(addr, data)] } } := by
  have hvalue : field (BitVec.ofNat 64 (2 ^ k)).toNat 3 0 = 2 ^ k :=
    (by decide : ∀ j < 4, field (BitVec.ofNat 64 (2 ^ j)).toNat 3 0 = 2 ^ j) k hk
  have hnew (j : Nat) : bit (2 ^ k) j = decide (k = j) := Nat.testBit_two_pow
  have hpending : bit c.irq.pend k = true := hpend
  unfold Capstan.writeMask
  rw [hvalue, hmask]
  refine foldl_once List.nodup_range (List.mem_range.mpr hk) (fun j _ hj => ?_) ?_ (fun j _ hj => ?_)
  · simp [hnew, Ne.symm hj]
  · refine (if_pos (by rw [hnew, hpending, decide_eq_true rfl]; simp [bit])).trans ?_
    exact Capstan.message_joinsPort (c := { c with irq := { c.irq with mask := 2 ^ k } }) hrestart hm haddr hsend hwait hroom
  · simp [hnew, Ne.symm hj]

/-- A message leaves the port, and the oldest that wait take its place (R600). -/
theorem Capstan.messageTaken_eq {c : Capstan} {m : Nat × Nat} {rest : List (Nat × Nat)} (hrestart : c.hl.restarting = none)
    (hheld : c.irq.held = m :: rest) :
    c.messageTaken = { c with irq := { c.irq with
      held := rest ++ c.irq.wait.take (16 - rest.length), wait := c.irq.wait.drop (16 - rest.length) } } := by
  simp [Capstan.messageTaken, Capstan.refillPort, hrestart, hheld]

/-! ### LOG_RSEL (R541, R561) -/

/-- The latch holds what a selection finds. -/
def Capstan.latched (c : Capstan) (found : Nat × List Byte) : Capstan :=
  { c with log := { c.log with rstat := found.1, word0 := reg (le found.2 0 8), word1 := reg (le found.2 8 8), word2 := reg (le found.2 16 8)
                               word3 := reg (le found.2 24 8) } }

theorem Capstan.selectRecord_eq (c : Capstan) (v : Reg) : c.selectRecord v = c.latched (c.log.select (v.getLsbD 32) (v.toNat % 2 ^ 32)) := rfl

/-- The value that selects record `k` of the first runnings. -/
theorem firstSelection {k : Nat} (hk : k < 1024) :
    (BitVec.ofNat 64 (2 ^ 32 + k)).getLsbD 32 = true ∧ (BitVec.ofNat 64 (2 ^ 32 + k)).toNat % 2 ^ 32 = k := by
  have hvalue : (BitVec.ofNat 64 (2 ^ 32 + k)).toNat = 2 ^ 32 + k := by rw [BitVec.toNat_ofNat]; omega
  refine ⟨?_, by rw [hvalue]; omega⟩
  rw [BitVec.getLsbD, hvalue, Nat.testBit_two_pow_add_eq, Nat.testBit_lt_two_pow (by omega)]
  rfl

theorem Logline.select_first {l : Logline} {k : Nat} {r : Stored} (h : l.first[k]? = some r) (hlost : r.lost = false) :
    l.select true k = (1, r.bytes) := by
  simp [Logline.select, h, hlost]

theorem Logline.select_firstLost {l : Logline} {k : Nat} {r : Stored} (h : l.first[k]? = some r) (hlost : r.lost = true) :
    l.select true k = (2, []) := by
  simp [Logline.select, h, hlost]

/-- What is selected in the first runnings, written to LOG_RSEL. -/
theorem State.busWrite_logRsel {s : State} (v : Reg) (h : s.decides) (hsettled : s.settled) :
    s.busWrite 0x0428 v = (s.withCap (s.cap.latched (s.cap.log.select (v.getLsbD 32) (v.toNat % 2 ^ 32)))).respond 0 0 :=
  State.busWrite_capEffect h hsettled (by decide) (by decide) rfl rfl rfl

/-- A selected record whose words do not decode is lost before it is read (R530). -/
theorem exec_logRsel_lost (v : Reg) (s : State) : exec (.logRsel v false) s =
    .next ((s.withCap { s.cap with log := s.cap.log.lose (v.getLsbD 32) (v.toNat % 2 ^ 32) }).busWrite 0x0428 v) := rfl

theorem updateAt_eq_set {α : Type} {f : α → α} {k : Nat} {x : α} {xs : List α} (h : xs[k]? = some x) : updateAt f k xs = xs.set k (f x) := by
  refine List.ext_getElem? fun j => ?_
  obtain ⟨hlt, -⟩ := List.getElem?_eq_some_iff.mp h
  rw [updateAt_getElem?, List.getElem?_set]
  by_cases hj : k = j
  · subst hj
    rw [h, if_pos rfl, if_pos rfl, if_pos hlt]
    rfl
  · simp [hj, Ne.symm hj]

/-! ### LOG_MARK (R543) -/

theorem Capstan.compareMark_still {c : Capstan} (h : c.log.thresh = 0 ∨ c.unread < c.log.thresh) : c.compareMark = c := by
  refine if_neg ?_
  rcases h with hthresh | hunread
  · simp [hthresh]
  · simp [Nat.not_le.mpr hunread]

/-- The threshold is reached: its event is counted and pending, and its message not enabled. -/
theorem Capstan.compareMark_reached {c : Capstan} (harmed : c.log.armed = true) (hthresh : c.log.thresh ≠ 0) (hunread : c.log.thresh ≤ c.unread)
    (hmask : c.irq.mask.testBit 3 = false) :
    c.compareMark = { c with
      log := { c.log with armed := false }
      irq := { c.irq with pend := c.irq.pend ||| 8, counts := updateAt (fun n => min 0xFFFF (n + 1)) 3 c.irq.counts } } := by
  refine (if_pos (by simp [harmed, hthresh, hunread])).trans ?_
  unfold Capstan.event
  exact if_neg (by simp [bit, Irq.cls, hmask])

/-! ### A record arrives (R528, R535) -/

theorem Capstan.takeRecord_first {c : Capstan} (r : LogRec) (hthresh : c.log.thresh = 0) (hroom : c.log.first.length < 1024) :
    c.takeRecord { head := some r, tail := none, irq := none, arith := none } = { c with log := { c.log with
      next := c.log.next + 1
      first := c.log.first ++ [{ seq := c.log.next, bytes := r.bytes c.log.next.toNat c.img.package, isHead := false }] } } := by
  have hopen : (1024 - c.log.first.length != 0) = true := by
    rw [bne_iff_ne]
    omega
  have hstill := Capstan.compareMark_still (c := c.store r false true) (.inl hthresh)
  have hrecord : c.record r none = (c.store r false (1024 - c.log.first.length != 0)).compareMark := rfl
  rw [hopen, hstill] at hrecord
  exact hrecord

end Sys2Proof.Machine

open Sys2Proof Sys2Proof.Machine

/-- Settles O11: the fold over the four classes sends for the one that is newly enabled and pending; an accepted message leaves the port. -/
theorem interruptMessagesAreSent : Obligations.InterruptMessagesAreSent := by
  unfold Obligations.InterruptMessagesAreSent
  refine ⟨⟨fun s v h hsettled hstill => ?_, fun s k addr data h hsettled hk hmask hpend hm haddr hsend hwait hroom => ?_⟩, fun s m rest h hheld => ?_⟩
  · rw [exec_irqEnableWrite, execIrqEnableWrite]
    exact congrArg _ (State.busWrite_capEffect h hsettled (by decide) (by decide) rfl (congrArg s.withCap (s.cap.writeMask_still hstill)) rfl)
  · rw [exec_irqEnableWrite, execIrqEnableWrite]
    exact congrArg _ (State.busWrite_capEffect h hsettled (by decide) (by decide) rfl
      (congrArg s.withCap (Capstan.writeMask_sends hk h.2.1 hmask hpend hm haddr hsend hwait hroom)) rfl)
  · obtain ⟨hpower, hrestart, -⟩ := h
    rw [exec_irqMessageAccepted, execIrqMessageAccepted, if_pos hpower]
    exact congrArg (fun c => Host.Outcome.next (s.withCap c)) (Capstan.messageTaken_eq hrestart hheld)

/-- Settles O12: LOG_RSEL is the latch of what the selection finds, and LOG_MARK one comparison with the threshold. -/
theorem loglineRegistersAct : Obligations.LoglineRegistersAct := by
  unfold Obligations.LoglineRegistersAct
  refine ⟨⟨fun s v h hsettled => ?_, fun s k r h hsettled hk hr => ?_, fun s k r h hsettled hk hr hlost => ?_⟩,
    fun s v h hsettled hbelow => ?_, fun s v h hsettled hthresh hmask hreached => ?_, fun s v h hsettled hzero => ?_⟩
  · exact ⟨s.withCap (s.cap.latched (s.cap.log.select (v.getLsbD 32) (v.toNat % 2 ^ 32))), congrArg _ (State.busWrite_logRsel v h hsettled),
      rfl, rfl, rfl, rfl, rfl, rfl⟩
  · obtain ⟨harea, hindex⟩ := firstSelection hk
    have hlose : s.cap.log.lose true k = { s.cap.log with first := s.cap.log.first.set k { r with lost := true } } := by
      rw [Logline.lose, if_pos rfl, updateAt_eq_set hr]
    have hfound : (s.cap.log.lose true k).first[k]? = some { r with lost := true } := by
      rw [hlose]
      exact List.getElem?_set_self (List.getElem?_eq_some_iff.mp hr).1
    have hselect := Logline.select_firstLost hfound rfl
    have hwrite := State.busWrite_logRsel (s := s.withCap { s.cap with log := s.cap.log.lose true k }) (BitVec.ofNat 64 (2 ^ 32 + k)) h hsettled
    rw [harea, hindex, show (s.withCap { s.cap with log := s.cap.log.lose true k }).cap.log = s.cap.log.lose true k from rfl, hselect, hlose] at hwrite
    rw [exec_logRsel_lost, harea, hindex, hlose]
    exact congrArg _ hwrite
  · obtain ⟨harea, hindex⟩ := firstSelection hk
    have hwrite := State.busWrite_logRsel (BitVec.ofNat 64 (2 ^ 32 + k)) h hsettled
    rw [harea, hindex, Logline.select_first hr hlost] at hwrite
    exact congrArg _ hwrite
  · rw [exec_logMarkWrite, execLogMarkWrite]
    exact congrArg _ (State.busWrite_capEffect h hsettled (by decide) (by decide) rfl
      (congrArg s.withCap (Capstan.compareMark_still
        (c := { s.cap with log := { s.cap.log with armed := true, mark := BitVec.ofNat 32 v.toNat } }) hbelow)) rfl)
  · rw [exec_logMarkWrite, execLogMarkWrite]
    exact congrArg _ (State.busWrite_capEffect h hsettled (by decide) (by decide) rfl
      (congrArg s.withCap (Capstan.compareMark_reached (c := { s.cap with log := { s.cap.log with armed := true, mark := BitVec.ofNat 32 v.toNat } })
        rfl hthresh hreached hmask)) rfl)
  · have hvalue : min (field v.toNat 12 0) 7168 = 0 := by rw [show field v.toNat 12 0 = 0 from hzero]; rfl
    rw [exec_logMarkWrite, execLogMarkWrite]
    refine congrArg _ (State.busWrite_capEffect h hsettled (by decide) (by decide) rfl (congrArg s.withCap ?_) rfl)
    unfold Capstan.writeMark
    dsimp only
    rw [if_pos rfl, hvalue]
    exact Capstan.compareMark_still (c := { s.cap with log := { s.cap.log with armed := true, thresh := 0 } }) (.inl rfl)

/-- Settles O13: one record without a tail is stored in the first runnings; a token is one more, at most 256. -/
theorem recordsArriveAndLimitersFill : Obligations.RecordsArriveAndLimitersFill := by
  unfold Obligations.RecordsArriveAndLimitersFill
  refine ⟨fun s i sl r rest h hat hout hthresh hroom => ?_, fun s i sl h hon hdue => ?_, fun s i sl h hearly => ?_⟩
  · have htaken := Capstan.takeRecord_first r hthresh hroom
    rw [exec_loglineRecordArrival, execLoglineRecordArrival, hat]
    simp only [hout, h.acts, if_true]
    rw [show s.atSlice i (fun _ sl => { sl with outbox := rest }) = s.put i { sl with outbox := rest } by simp [State.atSlice, hat, State.put]]
    exact congrArg (fun c => Host.Outcome.next ((s.put i { sl with outbox := rest }).withCap c)) htaken
  · obtain ⟨hat, hpower, hstopped, hsettled⟩ := id h
    rw [exec_rateLimiterToken, execRateLimiterToken]
    exact onSlice_eq hat hsettled (if_pos (by simp [hpower, hon, hstopped, hdue])) rfl
  · obtain ⟨hat, -, -, hsettled⟩ := id h
    rw [exec_rateLimiterToken, execRateLimiterToken]
    exact onSlice_same hat hsettled (if_neg (by simp [Nat.not_le.mpr hearly]))
end

section
/-!
Engine time (R606 to R611): the slices' copies, CAP_TIMEBASE, the frames on SYNC_IN and holdover.
-/

namespace Sys2Proof.Machine

/-! ### A copy after one cycle (R606) -/

/-- Only the counters differ. -/
def Slice.onlyCounted (sl t : Slice) : Prop := t = { sl with cnt := t.cnt }

theorem Slice.onlyCounted.refl (sl : Slice) : sl.onlyCounted sl := rfl

theorem Slice.onlyCounted.trans {a b c : Slice} (h : a.onlyCounted b) (k : b.onlyCounted c) : a.onlyCounted c := by
  unfold Slice.onlyCounted at *
  rw [k, h]

theorem Slice.count_onlyCounted (sl : Slice) (ev qual : Nat) (ctx : Option Nat) (k : Nat) : sl.onlyCounted (sl.count ev qual ctx k) := rfl

/-- A fold each step of which counts at most. -/
theorem Slice.onlyCounted.foldl {α : Type} {f : Slice → α → Slice} (h : ∀ (sl : Slice) (x : α), sl.onlyCounted (f sl x)) (xs : List α) (sl : Slice) :
    sl.onlyCounted (xs.foldl f sl) := by
  induction xs generalizing sl with
  | nil => exact .refl sl
  | cons x xs ih => exact (h sl x).trans (ih (f sl x))

theorem Slice.countCycles_onlyCounted (env : Capstan) (k : Nat) (sl : Slice) : sl.onlyCounted (sl.countCycles env k) := by
  unfold Slice.countCycles
  dsimp only
  refine .trans (.trans ?_ (.foldl (fun sl x => ?_) _ _)) (.foldl (fun sl x => ?_) _ _)
  · split
    · exact sl.count_onlyCounted _ _ _ _
    · exact .trans (.trans (sl.count_onlyCounted _ _ _ _) (Slice.count_onlyCounted _ _ _ _ _)) (Slice.count_onlyCounted _ _ _ _ _)
  · split
    · exact sl.count_onlyCounted _ _ _ _
    · exact .refl sl
  · split
    · exact sl.count_onlyCounted _ _ _ _
    · exact .refl sl

/-- The fields of a slice's copy of engine time. -/
def Slice.copy (sl : Slice) : Nat × Nat × Nat × Int × Nat := (sl.time, sl.timeLow, sl.period, sl.timeFix, sl.fixPhase)

theorem Slice.onlyCounted.copy {sl t : Slice} (h : sl.onlyCounted t) : t.copy = sl.copy := by rw [h]; rfl

theorem Slice.markBusy_copy (sl : Slice) : sl.markBusy.copy = sl.copy := by
  unfold Slice.markBusy
  split <;> rfl

/-- A cycle of a slice that spills nothing runs its copy, and leaves it else as it is. -/
theorem Slice.tick_copy (env : Capstan) (k : Nat) {sl : Slice} (hon : env.tb.on = true) (hspill : sl.store.spilling = false) :
    (sl.tick env k).copy = sl.cycle.copy := by
  have hkept : sl.cycle.store.spilling = false := hspill
  unfold Slice.tick
  simp only [hon, if_true, hkept, Bool.false_eq_true, if_false]
  split
  · rfl
  · rw [Slice.markBusy_copy, (Slice.countCycles_onlyCounted env k sl.cycle).copy]

/-- The increments of a cycle: five, one more or one less. -/
theorem Slice.increments_eq (sl : Slice) :
    sl.increments = if sl.timeFix = 0 ∨ sl.fixPhase + 5 < 64 then 5 else if 0 < sl.timeFix then 6 else 4 := by
  simp only [Slice.increments, Bool.or_eq_true, decide_eq_true_eq]
  rfl

/-- A copy gains the increments of the cycle, and what is to be corrected lessens by those beyond five. -/
theorem Slice.cycle_copy (sl : Slice) : sl.time ≤ sl.cycle.time ∧ sl.cycle.timeLow < 2 ^ 31 ∧
    sl.cycle.time * 2 ^ 31 + sl.cycle.timeLow = sl.time * 2 ^ 31 + sl.timeLow + sl.increments * sl.period ∧ sl.cycle.period = sl.period ∧
    sl.cycle.timeFix = sl.timeFix + 5 - sl.increments ∧ sl.cycle.fixPhase = (sl.fixPhase + 5) % 64 := by
  have hdiv := Nat.div_add_mod (sl.timeLow + sl.increments * sl.period) halfNs
  unfold halfNs at hdiv
  refine ⟨Nat.le_add_right _ _, Nat.mod_lt _ (by decide), ?_, rfl, ?_, rfl⟩
  · simp only [Slice.cycle, halfNs]
    omega
  · simp only [Slice.cycle, sclkCycles]
    omega

/-- The state of which a cycle of the slices is one. -/
def State.clocked (s : State) : State :=
  s.withCap { s.cap with su := { s.cap.su with upTime := s.cap.su.upTime + 5 }, tb := s.cap.tb.cycle }

theorem State.clocked_on (s : State) : s.clocked.cap.tb.on = s.cap.tb.on := by
  show s.cap.tb.cycle.on = s.cap.tb.on
  unfold TimeBase.cycle
  split <;> rfl

theorem State.tick_eq {s : State} (hpower : s.cap.su.power = .running) :
    tick s = s.clocked.eachSlice (fun env sl => sl.tick env (env.su.upTime / 5)) := if_neg (by simp [hpower])

/-! ### CAP_TIMEBASE (R611) -/

theorem Capstan.timebaseReg_toNat (c : Capstan) : c.timebaseReg.toNat =
    c.tb.state % 8 + c.tb.error.toNat * 2 ^ 4 + min c.tb.frames 0xFFFF * 2 ^ 36 + min c.tb.bad 0xFFF * 2 ^ 52 := by
  have herror : c.tb.error.toNat < 2 ^ 32 := c.tb.error.isLt
  rw [Capstan.timebaseReg, place_of_lt 4 herror, place_of_lt 36 (by omega), place_of_lt 52 (by omega), place, Nat.shiftLeft_eq, fields, List.sum_cons,
    List.sum_cons, List.sum_cons, List.sum_cons, List.sum_nil, reg, BitVec.toNat_ofNat]
  omega

theorem Capstan.timebaseReg_fields (c : Capstan) : c.timebaseReg.toNat % 8 = c.tb.state % 8 ∧ c.timebaseReg.toNat / 8 % 2 = 0 ∧
    c.timebaseReg.toNat / 2 ^ 4 % 2 ^ 32 = c.tb.error.toNat ∧ c.timebaseReg.toNat / 2 ^ 36 % 2 ^ 16 = min c.tb.frames 0xFFFF ∧
    c.timebaseReg.toNat / 2 ^ 52 = min c.tb.bad 0xFFF := by
  have hvalue := c.timebaseReg_toNat
  have herror : c.tb.error.toNat < 2 ^ 32 := c.tb.error.isLt
  omega

/-! ### Frames (R608, R610) -/

/-- Whether the second half of a frame is the complement of its first. -/
theorem frameMs_none {bits : BitVec 128} {d : Bool} (h : d = false ∨ bits.toNat / 2 ^ 64 ≠ 2 ^ 64 - 1 - bits.toNat % 2 ^ 64) :
    frameMs bits d = none := by
  refine if_neg fun hvalid => ?_
  obtain ⟨hd, hhalf⟩ := Bool.and_eq_true_iff.mp hvalid
  rcases h with hfalse | hother
  · exact absurd hd (by rw [hfalse]; decide)
  · exact hother (of_decide_eq_true hhalf)

theorem frameMs_some {bits : BitVec 128} (h : bits.toNat / 2 ^ 64 = 2 ^ 64 - 1 - bits.toNat % 2 ^ 64) :
    frameMs bits true = some (bits.toNat % 2 ^ 64) :=
  if_pos (Bool.and_eq_true_iff.mpr ⟨rfl, decide_eq_true h⟩)

theorem Capstan.timeFrame_bad {c : Capstan} {bits : BitVec 128} {d : Bool} (since : Nat) (h : frameMs bits d = none) :
    c.timeFrame bits d since = { c with tb := { c.tb with bad := min 0xFFF (c.tb.bad + 1) } } := by
  rw [Capstan.timeFrame, h]
  rfl

/-- The Capstan with one valid frame more. -/
def Capstan.framed (c : Capstan) : Capstan := { c with tb := { c.tb with frames := min 0xFFFF (c.tb.frames + 1) } }

/-- The Capstan that has a valid frame now. -/
def Capstan.dated (c : Capstan) : Capstan := { c with tb := { c.tb with lastFrame := some c.tb.time } }

theorem Capstan.timeFrame_good {c : Capstan} {bits : BitVec 128} (since : Nat) {m : Nat} (h : frameMs bits true = some m) :
    c.timeFrame bits true since =
      (if 2 ≤ c.tb.state then c.framed.alignTime m since else c.framed).dated := by
  rw [Capstan.timeFrame, h]
  rfl

/-- The error of a frame (R610): engine time at the mark less the frame's milliseconds. -/
def Capstan.timeError (c : Capstan) (m since : Nat) : Int := (c.now : Int) - since - m * 1000000

/-- The Capstan with the error of a frame, which is slewed away. -/
def Capstan.slewing (c : Capstan) (e : Int) : Capstan := { c with tb := { c.tb with error := errorCode e, slew := 2 * e } }

theorem Capstan.alignTime_slews {c : Capstan} {m since : Nat} {e : Int} (he : c.timeError m since = e) (hlow : -50000 ≤ e) :
    c.alignTime m since = (c.slewing e).setTimeState (if 50000 < e then 4 else 2) (errorCode e) := by
  unfold Capstan.timeError at he
  unfold Capstan.alignTime
  rw [he]
  exact if_neg (by omega)

theorem Capstan.alignTime_steps {c : Capstan} {m since : Nat} {e : Int} (he : c.timeError m since = e) (hlow : e < -50000) :
    c.alignTime m since =
      (Capstan.stepTime { c with tb := { c.tb with error := errorCode e } } (-e).toNat).setTimeState 2 (errorCode e) := by
  unfold Capstan.timeError at he
  unfold Capstan.alignTime
  rw [he]
  exact if_pos hlow

theorem Capstan.setTimeState_same {c : Capstan} {st : Nat} (e : BitVec 32) (h : c.tb.state = st) : c.setTimeState st e = c := if_pos h

/-- A change of STATE is all that `setTimeState` does to the timebase, and it has its record. -/
theorem Capstan.setTimeState_tb (c : Capstan) (st : Nat) (e : BitVec 32) : (c.setTimeState st e).tb = { c.tb with state := st } := by
  unfold Capstan.setTimeState
  split
  next hsame => rw [← hsame]
  · rw [Capstan.note_tb]

theorem Capstan.setTimeState_next (c : Capstan) (st : Nat) (e : BitVec 32) :
    (c.setTimeState st e).log.next = c.log.next + (if c.tb.state = st then 0 else 1) := by
  unfold Capstan.setTimeState
  split
  · exact (BitVec.add_zero _).symm
  · exact Capstan.note_next _ _ _

theorem Capstan.setTimeState_ctxs (c : Capstan) (st : Nat) (e : BitVec 32) : (c.setTimeState st e).ctxs = c.ctxs := by
  unfold Capstan.setTimeState
  split
  · rfl
  · rw [Capstan.note_ctxs]

theorem timeGap_eq (t copy : Nat) :
    timeGap t copy = if -2 ≤ (t : Int) - copy ∧ (t : Int) - copy ≤ 2 then 0 else (t : Int) - copy := by
  simp only [timeGap, Bool.and_eq_true, decide_eq_true_eq]

theorem errorCode_of_small {e : Int} (hlow : -50000 ≤ e) (hhigh : e ≤ 50000) : errorCode e = BitVec.ofInt 32 e := by
  rw [errorCode, Int.min_eq_right (by omega), Int.max_eq_right (by omega)]

/-- A frame that does not step engine time changes the Capstan alone. -/
theorem State.takeFrame_still {s : State} {bits : BitVec 128} {d : Bool} {since : Nat} {c : Capstan} (h : s.cap.timeFrame bits d since = c)
    (htime : c.tb.time = s.cap.tb.time) : s.takeFrame bits d since = s.withCap c := by
  unfold State.takeFrame
  dsimp only
  rw [h, htime, Nat.sub_self]
  rfl

theorem State.takeFrame_step {s : State} {bits : BitVec 128} {d : Bool} {since k : Nat} {c : Capstan} (h : s.cap.timeFrame bits d since = c)
    (htime : c.tb.time = s.cap.tb.time + k) (hk : k ≠ 0) :
    s.takeFrame bits d since =
      { s.withCap c with slices := s.slices.map (fun sl => if sl.stopped then sl else { sl with time := sl.time + k }) } := by
  unfold State.takeFrame
  dsimp only
  rw [h, htime, Nat.add_sub_cancel_left]
  exact if_neg hk

theorem exec_timebaseFrame_on {s : State} (bits : BitVec 128) (d : Bool) (since : Nat) (h : s.decides) (hon : s.cap.tb.on = true)
    (hmode : 2 ≤ s.cap.img.syncMode) : exec (.timebaseFrame bits d since) s = .next (s.takeFrame bits d since) := by
  rw [exec_timebaseFrame, execTimebaseFrame, if_pos (by simp [h.acts, hon, hmode])]

theorem TimeBase.silent_of_lastFrame {t : TimeBase} {l : Nat} (hlast : t.lastFrame = some l) (hsilent : l + 6000000 ≤ t.time) :
    t.silent = true := by
  rw [TimeBase.silent, hlast, Option.any_some]
  exact decide_eq_true hsilent

/-- A frame of the wait of step 8 that is not valid is counted (R608, R609). -/
theorem State.startTime_bad {s : State} {bits : BitVec 128} {d : Bool} (since : Nat) (hmode : 2 ≤ s.cap.img.syncMode)
    (hwait : s.cap.su.upTime < s.cap.su.waitFrom + 2400000) (h : frameMs bits d = none) :
    s.startTime (some (bits, d, since)) = s.withCap { s.cap with tb := { s.cap.tb with bad := min 0xFFF (s.cap.tb.bad + 1) } } := by
  have hlong : ¬ s.cap.su.waitFrom + frameWait ≤ s.cap.su.upTime := Nat.not_le.mpr hwait
  simp [State.startTime, Nat.not_lt.mpr hmode, h, Capstan.firstFrame, State.onCap, hlong, State.withCap, satAdd]

/-- A valid frame while engine time is not based on one (R608, R609). -/
theorem exec_timebaseFrame_free {s : State} {bits : BitVec 128} (since : Nat) (h : s.decides) (hon : s.cap.tb.on = true)
    (hmode : 2 ≤ s.cap.img.syncMode) (hgood : bits.toNat / 2 ^ 64 = 2 ^ 64 - 1 - bits.toNat % 2 ^ 64) (hstate : s.cap.tb.state < 2) :
    exec (.timebaseFrame bits true since) s = .next (s.withCap { s.cap with tb := { s.cap.tb with
      frames := min 0xFFFF (s.cap.tb.frames + 1), lastFrame := some s.cap.tb.time } }) := by
  have hframe := s.cap.timeFrame_good since (frameMs_some hgood)
  rw [if_neg (Nat.not_le.mpr hstate)] at hframe
  rw [exec_timebaseFrame_on bits true since h hon hmode]
  exact congrArg _ (State.takeFrame_still hframe rfl)

/-- A valid frame whose error is slewed away (R610). -/
theorem State.takeFrame_slews {s : State} {bits : BitVec 128} {since : Nat} {e : Int}
    (hgood : bits.toNat / 2 ^ 64 = 2 ^ 64 - 1 - bits.toNat % 2 ^ 64) (hstate : 2 ≤ s.cap.tb.state)
    (he : s.cap.timeError (bits.toNat % 2 ^ 64) since = e) (hlow : -50000 ≤ e) :
    s.takeFrame bits true since =
      s.withCap ((s.cap.framed.slewing e).setTimeState (if 50000 < e then 4 else 2) (errorCode e)).dated := by
  have hframe := s.cap.timeFrame_good since (frameMs_some hgood)
  have htime : ((s.cap.framed.slewing e).setTimeState (if 50000 < e then 4 else 2) (errorCode e)).tb.time = s.cap.tb.time := by
    rw [Capstan.setTimeState_tb]
    rfl
  rw [if_pos hstate, Capstan.alignTime_slews (c := s.cap.framed) he hlow] at hframe
  exact State.takeFrame_still hframe htime

/-- A valid frame that engine time lags behind by more than 50 us while it is aligned (R610). -/
theorem State.takeFrame_steps {s : State} {bits : BitVec 128} {since : Nat} {e : Int}
    (hgood : bits.toNat / 2 ^ 64 = 2 ^ 64 - 1 - bits.toNat % 2 ^ 64) (hstate : s.cap.tb.state = 2)
    (he : s.cap.timeError (bits.toNat % 2 ^ 64) since = e) (hlow : e < -50000) :
    s.takeFrame bits true since =
      { s.withCap (Capstan.stepTime { s.cap.framed with tb := { s.cap.framed.tb with error := errorCode e } } (-e).toNat).dated with
        slices := s.slices.map (fun sl => if sl.stopped then sl else { sl with time := sl.time + 2 * (-e).toNat }) } := by
  have hframe := s.cap.timeFrame_good since (frameMs_some hgood)
  rw [if_pos (by omega), Capstan.alignTime_steps (c := s.cap.framed) he hlow, Capstan.setTimeState_same _ (by exact hstate)] at hframe
  exact State.takeFrame_step (k := 2 * (-e).toNat) hframe rfl (by omega)

end Sys2Proof.Machine

open Sys2Proof Sys2Proof.Machine

/-- Settles O14: the copy by the arithmetic of one cycle, a frame by its error, holdover as a change of STATE. -/
theorem engineTimeFollowsItsSources : Obligations.EngineTimeFollowsItsSources := by
  unfold Obligations.EngineTimeFollowsItsSources
  refine ⟨⟨fun s i sl d h hdecides hon hd => ?_, fun s i n sl hempty hpower hon hat hspill hn => ?_⟩, fun c => ?_,
    ⟨fun s bits since d h hon hmode hbad => ?_, fun s bits since d hstep htrained hoff hsettled hmode hwait hbad => ?_,
      fun s bits since h hon hmode hgood hstate => ?_, fun s bits since e h hon hmode hgood hstate he hlow hhigh => ?_,
      fun s bits since st e h hon hmode hgood hstate he hlow hst => ?_, fun s bits since e h hon hmode hgood hstate he hlow => ?_⟩,
    fun s l h hstate hlast hsilent => ?_⟩
  · obtain ⟨hat, -, hstopped, hsettled⟩ := id h
    rw [exec_engineTimeSync, execEngineTimeSync]
    refine onSlice_eq hat hsettled ((if_pos (by simp [Capstan.acts, hdecides.1, hdecides.2.1, hdecides.2.2, hon, hstopped])).trans ?_) rfl
    subst hd
    exact congrArg (fun k => ({ sl with timeFix := k } : Slice)) (timeGap_eq _ _)
  · have hstep : step s = .next (tick s) := by simp [step, hempty]
    obtain ⟨hmono, hlow, hsum, hperiod, hfix, hphase⟩ := sl.cycle_copy
    rw [sl.increments_eq, ← hn] at hsum hfix
    have hcopy := Slice.tick_copy (sl.view (s.clocked).cap) (s.clocked.cap.su.upTime / 5) (sl := sl) (s.clocked_on.trans hon) hspill
    simp only [Slice.copy, Prod.mk.injEq] at hcopy
    obtain ⟨htime, htimeLow, hper, htimeFix, hfixPhase⟩ := hcopy
    refine ⟨_, sl.tick (sl.view s.clocked.cap) (s.clocked.cap.su.upTime / 5), hstep.trans (congrArg _ (s.tick_eq hpower)), by rw [State.eachSlice, List.getElem?_map]; exact congrArg _ hat, ?_⟩
    rw [htime, htimeLow, hper, htimeFix, hfixPhase]
    exact ⟨hmono, hlow, hsum, hperiod, hfix, hphase⟩
  · exact ⟨rfl, c.timebaseReg_fields⟩
  · rw [exec_timebaseFrame_on bits d since h hon hmode]
    exact congrArg _ (State.takeFrame_still (Capstan.timeFrame_bad since (frameMs_none hbad)) rfl)
  · have hframe := State.startTime_bad since hmode hwait (frameMs_none hbad)
    rw [exec_timebaseFrame, execTimebaseFrame, if_neg (by simp [hoff]), if_pos (by simp [Capstan.awaitsTime, hstep, htrained, hmode]), hframe]
    exact congrArg _ (deliverAll_settled _ hsettled)
  · exact exec_timebaseFrame_free since h hon hmode hgood hstate
  · rw [exec_timebaseFrame_on bits true since h hon hmode, State.takeFrame_slews hgood (Nat.le_of_eq hstate.symm) he.symm hlow, ← errorCode_of_small hlow hhigh,
      if_neg (Int.not_lt.mpr hhigh), Capstan.setTimeState_same (c := s.cap.framed.slewing e) _ hstate]
    rfl
  · have htb := Capstan.setTimeState_tb (s.cap.framed.slewing e) st (errorCode e)
    rw [exec_timebaseFrame_on bits true since h hon hmode, State.takeFrame_slews hgood hstate he.symm hlow, ← hst]
    refine ⟨_, rfl, rfl, ?_, Capstan.setTimeState_next _ _ _⟩
    dsimp only [State.withCap, Capstan.dated]
    rw [htb]
    rfl
  · rw [exec_timebaseFrame_on bits true since h hon hmode, State.takeFrame_steps hgood hstate he.symm hlow]
    exact ⟨_, rfl, rfl, rfl, rfl, rfl, rfl⟩
  · have hdue : (s.cap.acts && (s.cap.tb.state = 2 || s.cap.tb.state = 4) && s.cap.tb.silent) = true := by
      rw [TimeBase.silent_of_lastFrame hlast hsilent, h.acts]
      simp [hstate]
    have hother : ¬ s.cap.tb.state = 3 := by omega
    refine ⟨_, (exec_timebaseHoldover s).trans (if_pos hdue), ?_, rfl, ?_, ?_⟩
    · exact Capstan.setTimeState_tb _ _ _
    · exact (Capstan.setTimeState_next _ _ _).trans (congrArg _ (if_neg hother))
    · exact Capstan.setTimeState_ctxs _ _ _
end

section
/-!
The engine without power: a record of the Logline that LOG_RSEL selects and that does not decode is lost also then, since `execLogRsel` marks
it before the access at the register port, which is what asks for power.
-/

namespace Sys2Proof.Machine

/-- Without power an access at the register port changes nothing. -/
theorem State.busWrite_unpowered {s : State} (off : Nat) (v : Reg) (hpower : s.cap.su.power ≠ .running) : s.busWrite off v = s :=
  if_pos (bne_iff_ne.mpr hpower)

/-- An engine without power whose Logline holds one record, in the first runnings. -/
def unpoweredWithRecord : State :=
  State.reset.withCap { State.reset.cap with log := { State.reset.cap.log with
    first := [{ seq := 0, bytes := [], isHead := false, lost := false }] } }

theorem unpoweredWithRecord_power : unpoweredWithRecord.cap.su.power ≠ .running := by decide

theorem unpoweredWithRecord_settled : unpoweredWithRecord.settled := by
  refine ⟨fun x hx => ?_, fun c hc => absurd hc List.not_mem_nil⟩
  obtain ⟨i, -, rfl⟩ := List.mem_map.mp hx
  rfl

/-- LOG_RSEL of that record, which does not decode: the record is lost. -/
theorem exec_logRsel_unpowered : exec (.logRsel (BitVec.ofNat 64 (2 ^ 32)) false) unpoweredWithRecord =
    .next (unpoweredWithRecord.withCap { unpoweredWithRecord.cap with log := unpoweredWithRecord.cap.log.lose true 0 }) := by
  obtain ⟨harea, hindex⟩ := firstSelection (k := 0) (by decide)
  rw [exec_logRsel_lost, show BitVec.ofNat 64 (2 ^ 32) = BitVec.ofNat 64 (2 ^ 32 + 0) from rfl, harea, hindex]
  exact congrArg _ (State.busWrite_unpowered _ _ unpoweredWithRecord_power)

end Sys2Proof.Machine

open Sys2Proof Sys2Proof.Machine

/-- Refutes O15: LOG_RSEL with a record that does not decode changes the Logline of an engine without power. -/
theorem not_powerAndResets : ¬ Obligations.PowerAndResets := by
  unfold Obligations.PowerAndResets
  intro h
  obtain ⟨-, -, -, hlog, -⟩ := h.2 _ _ _ unpoweredWithRecord_power unpoweredWithRecord_settled exec_logRsel_unpowered
    Instr.noConfusion Instr.noConfusion (fun _ => Instr.noConfusion) Instr.noConfusion (fun _ => Instr.noConfusion)
  have hlost : (unpoweredWithRecord.cap.log.lose true 0).first.map (·.lost) = unpoweredWithRecord.cap.log.first.map (·.lost) :=
    congrArg (fun l : Logline => l.first.map (·.lost)) hlog
  exact absurd hlost (by decide)
end

section
/-!
The start (R430 to R456): its steps, self-test, training, and engine time's beginning.
-/

namespace Sys2Proof.Machine

/-! ### The Capstan at a step of the start -/

theorem Capstan.failStart_untested {c : Capstan} (f : Failure) (h : c.su.selftest = false) :
    c.failStart f = { c with su := { c.su with cause := f.1, section_ := f.2, testing := true } } := by
  unfold Capstan.failStart
  refine (if_neg (by simp [Capstan.onStart, h])).trans ?_
  simp [Capstan.onStart, h]

theorem Capstan.discovered_of_mode {c : Capstan} {bs table : List Byte} {m : NvmMode} (htable : basicTable bs = some table)
    (hmode : nvmMode table = some m) : c.discovered bs = { c with su := { c.su with
      step := 3, dtr := bit (dword table 1) 19, density := densityOf table, nvm := some m } } := by
  simp only [Capstan.discovered, htable, hmode, Capstan.onStart]

theorem Capstan.discovered_noTable {c : Capstan} {bs : List Byte} (htable : basicTable bs = none) : c.discovered bs = c.failStart (0x01, 0xFF) := by
  simp only [Capstan.discovered, htable]

theorem Capstan.discovered_noMode {c : Capstan} {bs table : List Byte} (htable : basicTable bs = some table) (hmode : nvmMode table = none) :
    c.discovered bs = c.failStart (0x02, 0xFF) := by
  simp only [Capstan.discovered, htable, hmode]

theorem Capstan.headerIn_sound {c : Capstan} {bs : List Byte} (h : headerFailure bs c.su.density = none) :
    c.headerIn bs = { c with img := { c.img with bytes := bs, headerIn := true }
                             su := { c.su with testing := if hintsLate bs then !c.su.selftest else c.su.testing } } := by
  simp only [Capstan.headerIn, h]
  split <;> rfl

/-- A start that has not reached its end settles nothing. -/
theorem State.settleStart_early {s : State} (h : s.cap.su.step ≠ 9) : s.settleStart = s := if_neg (by simp [h])

theorem Capstan.atStep_step {c : Capstan} {k : Nat} (h : c.atStep k = true) : c.su.step = k := by
  simp only [Capstan.atStep, Bool.and_eq_true, decide_eq_true_eq] at h
  exact h.1.2

/-- The image read, where step 6 has to wait for self-test. -/
theorem State.imageRead_untested {s : State} {bs : List Byte} (h : s.cap.su.selftest = false) (hsound : imageFailure s.cap.n s.cap.su.density bs = none) :
    s.imageRead bs = s.withCap { s.cap with img := { s.cap.img with bytes := bs }, su := { s.cap.su with step := 5, testing := true } } := by
  have htesting : (s.onCap (fun c => { c with img := { c.img with bytes := bs } }.startTest.onStart (fun u => { u with step := 5 }))) =
      s.withCap { s.cap with img := { s.cap.img with bytes := bs }, su := { s.cap.su with step := 5, testing := true } } := by
    simp [State.onCap, State.withCap, Capstan.startTest, Capstan.onStart, h]
  unfold State.imageRead
  simp only [hsound, htesting]
  exact if_pos (by simp [State.withCap, h])

theorem State.imageRead_failed {s : State} {bs : List Byte} {f : Failure} (hfail : imageFailure s.cap.n s.cap.su.density bs = some f) :
    s.imageRead bs = s.withCap (s.cap.failStart f) := by
  simp only [State.imageRead, hfail]
  rfl

theorem exec_imageReadDone_early {s : State} {bs : List Byte} {t : State} (hstep : s.cap.atStep 3 = true) (hheader : s.cap.img.headerIn = true)
    (hread : s.imageRead bs = t) (hearly : t.cap.su.step ≠ 9) : exec (.imageReadDone bs) s = .next t := by
  rw [exec_imageReadDone, execImageReadDone, if_pos (by simp [hstep, hheader]), hread, State.settleStart_early hearly]

/-! ### Self-test (R453, R455) -/

/-- A slice after self-test without a defect. -/
def Slice.mapped (sl : Slice) : Slice :=
  { sl with work := sl.work.mapUnits, stopped := sl.stopped || decide (2 ≤ sl.work.mapUnits.layRetired.length) }

theorem Slice.selfTest_nil (env : Capstan) (sl : Slice) : sl.selfTest env [] = sl.mapped := rfl

/-- The state that self-test without a defect finds, before it decides how the start goes on. -/
def State.tested (s : State) (routers : List Nat) : State :=
  State.setStates
    { s with slices := s.slices.map Slice.mapped
             cap := { s.cap with su := { s.cap.su with testing := false, selftest := true, badRouters := routers } } } routers

/-- The start ends as FAILED with a cause of self-test. -/
def State.testFails (s : State) (code : Nat) : State :=
  s.withCap (Capstan.endStart { s.cap with su := { s.cap.su with cause := code, section_ := 0xFF } } .failed)

theorem State.selfTested_noDefect {s : State} {f : Selftest} (hsettled : s.settled) (hdefects : f.defects = []) (hcapstan : f.capstan = []) :
    s.selfTested f =
      if !f.capstanOk then (s.tested f.deadRouters).testFails 0xF0
      else if (s.tested f.deadRouters).noSlice then (s.tested f.deadRouters).testFails 0xF1
      else if s.cap.su.cause != 0 then (s.tested f.deadRouters).withCap ((s.tested f.deadRouters).cap.endStart .notReady)
      else (s.tested f.deadRouters).load := by
  have htest : (s.eachSlice (fun env sl => sl.selfTest env ((f.defects.filter (fun d => d.1 = sl.id)).map (·.2)))) =
      { s with slices := s.slices.map Slice.mapped } := by
    rw [hdefects]
    rfl
  have hquiet : State.settled { s with slices := s.slices.map Slice.mapped } := by
    obtain ⟨hmail, hctxs⟩ := hsettled
    refine ⟨fun x hx => ?_, hctxs⟩
    obtain ⟨sl, hsl, rfl⟩ := List.mem_map.mp hx
    exact hmail sl hsl
  unfold State.selfTested
  dsimp only
  rw [htest, deliverAll_settled _ hquiet, hcapstan]
  rfl

/-- A slice that is whole survives self-test. -/
theorem State.tested_noSlice {s : State} (h : ∃ sl ∈ s.slices, sl.stopped = false ∧ sl.work.mapUnits.layRetired.length < 2 ∧
    s.cap.hl.slices.getD sl.id .absent ≠ .deadIsolated) : (s.tested []).noSlice = false := by
  obtain ⟨sl, hmem, hstopped, hlays, hstate⟩ := h
  have hlive : SliceState.live ∈ (s.tested []).cap.hl.slices := by
    refine List.mem_map.mpr ⟨sl.mapped, List.mem_map_of_mem hmem, ?_⟩
    refine (if_neg (by simpa [Slice.mapped] using hstate)).trans ?_
    simp [startState, Slice.mapped, hstopped, Nat.not_le.mpr hlays]
  unfold State.noSlice
  rw [List.all_eq_false]
  exact ⟨_, hlive, by decide⟩

theorem exec_selftestRun {s : State} (found : Selftest) (hpower : s.cap.su.power = .running) (htesting : s.cap.su.testing = true) :
    exec (.selftestDone found) s = .next (s.selfTested found).settleStart := by
  rw [exec_selftestDone, execSelftestDone, if_pos (by simp [hpower, htesting])]

theorem State.settleStart_cap (s : State) : s.settleStart.cap = s.cap := by
  unfold State.settleStart
  split <;> rfl

/-- What the end of a start without READY leaves in the Capstan (R452). -/
theorem Capstan.endStart_su (c : Capstan) (st : StartState) :
    (c.endStart st).su = { c.su with state := st, step := 9, startUs := c.sinceT0, faultLow := true } := by
  unfold Capstan.endStart
  dsimp only
  rw [Capstan.note_su]
  rfl

theorem Capstan.endStart_next (c : Capstan) (st : StartState) : (c.endStart st).log.next = c.log.next + 1 := by
  unfold Capstan.endStart
  dsimp only
  rw [Capstan.note_next]
  rfl

theorem State.testFails_end (s : State) (code : Nat) : (s.testFails code).cap.su.state = .failed ∧ (s.testFails code).cap.su.cause = code ∧
    (s.testFails code).cap.su.section_ = 0xFF ∧ (s.testFails code).cap.su.faultLow = true ∧
    (s.testFails code).cap.log.next = s.cap.log.next + 1 := by
  have hsu := Capstan.endStart_su { s.cap with su := { s.cap.su with cause := code, section_ := 0xFF } } .failed
  exact ⟨congrArg (·.state) hsu, congrArg (·.cause) hsu, congrArg (·.section_) hsu, congrArg (·.faultLow) hsu, Capstan.endStart_next _ _⟩

/-- A start that had failed ends after self-test with the cause it has (R452). -/
theorem State.tested_notReady (s : State) (routers : List Nat) :
    let t := (s.tested routers).withCap ((s.tested routers).cap.endStart .notReady)
    t.cap.su.state = .notReady ∧ t.cap.su.cause = s.cap.su.cause ∧ t.cap.su.section_ = s.cap.su.section_ ∧ t.cap.su.step = 9 ∧
      t.cap.su.faultLow = true ∧ t.cap.su.selftest = true ∧ t.cap.log.next = s.cap.log.next + 1 := by
  have hsu := Capstan.endStart_su (s.tested routers).cap .notReady
  exact ⟨congrArg (·.state) hsu, congrArg (·.cause) hsu, congrArg (·.section_) hsu, congrArg (·.step) hsu, congrArg (·.faultLow) hsu,
    congrArg (·.selftest) hsu, Capstan.endStart_next _ _⟩

end Sys2Proof.Machine

open Sys2Proof Sys2Proof.Machine

/-- Settles O16: the steps by the step they are at, the failures by what each check finds, the end of the start by `endStart`. -/
theorem startsAdvanceOrFail : Obligations.StartsAdvanceOrFail := by
  unfold Obligations.StartsAdvanceOrFail
  refine ⟨⟨fun s h => ?_, fun s x table m h htable hmode => ?_, fun s bs h hnot hsound => ?_, fun s bs h hheader => ?_,
    fun s bs h hheader htest hsound => ?_⟩, ⟨fun s x h htest htable => ?_, fun s x table h htest htable hmode => ?_,
    fun s bs f h hheader htest hfail => ?_, fun s found hpower htesting hsettled _ _ hdefects hcapstan hok => ?_⟩,
    fun s found hpower htesting hsettled hcause hdefects hcapstan hok hrouters hwhole => ?_⟩
  · rw [exec_nvmGrant, execNvmGrant, if_pos h]
    rfl
  · rw [exec_discoveryDone, execDiscoveryDone, if_pos h]
    exact congrArg (fun c => Host.Outcome.next (s.withCap c)) (Capstan.discovered_of_mode htable hmode)
  · rw [exec_imageHeaderArrived, execImageHeaderArrived, if_pos (by simp [h, hnot])]
    exact congrArg (fun c => Host.Outcome.next (s.withCap c)) (Capstan.headerIn_sound hsound)
  · rw [exec_hintsArrived, execHintsArrived, if_pos (by simp [h, hheader])]
    rfl
  · exact exec_imageReadDone_early h hheader (State.imageRead_untested htest hsound) (show 5 ≠ 9 by decide)
  · rw [exec_discoveryDone, execDiscoveryDone, if_pos h]
    exact congrArg (fun c => Host.Outcome.next (s.withCap c)) ((Capstan.discovered_noTable htable).trans (Capstan.failStart_untested _ htest))
  · rw [exec_discoveryDone, execDiscoveryDone, if_pos h]
    exact congrArg (fun c => Host.Outcome.next (s.withCap c)) ((Capstan.discovered_noMode htable hmode).trans (Capstan.failStart_untested _ htest))
  · have hread := State.imageRead_failed hfail
    rw [Capstan.failStart_untested f htest] at hread
    exact exec_imageReadDone_early h hheader hread (by simp [State.withCap, Capstan.atStep_step h])
  · have hend := State.selfTested_noDefect hsettled hdefects hcapstan
    rw [if_pos (by simp [hok])] at hend
    refine ⟨_, exec_selftestRun found hpower htesting, ?_⟩
    rw [State.settleStart_cap, hend]
    exact State.testFails_end _ _
  · have hend := State.selfTested_noDefect hsettled hdefects hcapstan
    rw [if_neg (by simp [hok]), hrouters, State.tested_noSlice hwhole, if_neg (by decide), if_pos (by simp [hcause])] at hend
    refine ⟨_, exec_selftestRun found hpower htesting, ?_⟩
    rw [State.settleStart_cap, hend]
    exact State.tested_notReady s []
end

section
/-!
How the engine becomes ready (R400, R453, R456, R609): self-test without a defect, training, and the beginning of engine time. Steps 8 and 9
let no slice tell anything, and leave contexts and image as they are.
-/

namespace Sys2Proof.Machine

/-! ### Self-test without a defect -/

/-- Self-test that ends before the image has passed its checks loads nothing. -/
theorem State.load_early {s : State} (h : s.cap.su.step ≠ 5) : s.load = s := by
  refine if_pos ?_
  simp [Capstan.atStep, h]

theorem State.tested_states (s : State) :
    (s.tested []).cap.hl.slices = (s.tested []).slices.map (fun sl => if s.cap.hl.slices.getD sl.id .absent = .deadIsolated then .deadIsolated
      else if sl.stopped then .deadPass else .live) := by
  refine List.map_congr_left fun sl _ => ?_
  have hstate : startState [] sl = if sl.stopped then .deadPass else .live := by
    cases hstopped : sl.stopped <;> simp [startState, hstopped]
  rw [hstate]
  simp only [decide_eq_true_eq]

/-! ### Nothing is told in steps 8 and 9 -/

/-- The slices have the mail they had, and contexts and image are the same. -/
structure State.Silent (s t : State) : Prop where
  mail : t.slices.map (·.mail) = s.slices.map (·.mail)
  ctxs : t.cap.ctxs = s.cap.ctxs
  img : t.cap.img = s.cap.img

theorem State.Silent.trans {s t u : State} (h : s.Silent t) (k : t.Silent u) : s.Silent u :=
  ⟨k.mail.trans h.mail, k.ctxs.trans h.ctxs, k.img.trans h.img⟩

theorem State.Silent.onCap (s : State) {f : Capstan → Capstan} (hctxs : (f s.cap).ctxs = s.cap.ctxs) (himg : (f s.cap).img = s.cap.img) :
    s.Silent (s.onCap f) := ⟨rfl, hctxs, himg⟩

theorem State.Silent.eachSlice (s : State) {f : Capstan → Slice → Slice} (h : ∀ env sl, (f env sl).mail = sl.mail) : s.Silent (s.eachSlice f) := by
  refine ⟨?_, rfl, rfl⟩
  simp only [State.eachSlice, List.map_map]
  exact List.map_congr_left fun sl _ => h _ sl

theorem State.Silent.length {s t : State} (h : s.Silent t) : t.slices.length = s.slices.length := by
  simpa using congrArg List.length h.mail

theorem State.Silent.settled {s t : State} (h : s.Silent t) (hsettled : s.settled) : t.settled := by
  obtain ⟨hmail, hctxs⟩ := hsettled
  refine ⟨fun x hx => ?_, by rw [h.ctxs]; exact hctxs⟩
  have hmem : x.mail ∈ s.slices.map (·.mail) := h.mail ▸ List.mem_map_of_mem hx
  obtain ⟨y, hy, hsame⟩ := List.mem_map.mp hmem
  rw [← hsame, hmail y hy]

/-! ### The mesh (R416, R455) -/

@[simp] theorem Capstan.captureFault_img (c : Capstan) (cls slice : Nat) (inCapstan : Bool) (unit detail : Nat) :
    (c.captureFault cls slice inCapstan unit detail).img = c.img := by
  unfold Capstan.captureFault
  dsimp only
  split
  · rw [Capstan.note_img]
  · rw [Capstan.event_img, Capstan.note_img]

theorem Capstan.assignProxy_kept (c : Capstan) (dead : Nat) : (c.assignProxy dead).ctxs = c.ctxs ∧ (c.assignProxy dead).img = c.img := by
  unfold Capstan.assignProxy
  dsimp only
  split
  · exact ⟨rfl, rfl⟩
  · exact ⟨Capstan.captureFault_ctxs _ _ _ _ _ _, Capstan.captureFault_img _ _ _ _ _ _⟩

theorem Capstan.assignProxies_kept (ds : List Nat) (c : Capstan) :
    (ds.foldl (fun c d => c.assignProxy d) c).ctxs = c.ctxs ∧ (ds.foldl (fun c d => c.assignProxy d) c).img = c.img := by
  induction ds generalizing c with
  | nil => exact ⟨rfl, rfl⟩
  | cons d ds ih =>
    obtain ⟨hctxs, himg⟩ := c.assignProxy_kept d
    obtain ⟨hrest, hrest'⟩ := ih (c.assignProxy d)
    exact ⟨hrest.trans hctxs, hrest'.trans himg⟩

theorem State.isolateUnreached_silent (s : State) : s.Silent s.isolateUnreached := by
  unfold State.isolateUnreached
  refine .trans (.eachSlice s fun _ sl => ?_) (.onCap _ rfl rfl)
  split <;> rfl

theorem State.shutIsolated_silent (s : State) : s.Silent s.shutIsolated := by
  unfold State.shutIsolated
  exact .eachSlice s fun _ _ => rfl

theorem State.writeTables_silent (s : State) : s.Silent s.writeTables := by
  unfold State.writeTables
  exact .eachSlice s fun _ _ => rfl

theorem State.startMesh_silent (s : State) : s.Silent s.startMesh := by
  unfold State.startMesh
  extract_lets ports links isolated
  have hports : s.Silent ports := ⟨by simp only [ports, List.map_map]; rfl, rfl, rfl⟩
  have hlinks : ports.Silent links := .onCap ports rfl rfl
  have hisolated : links.Silent isolated := links.isolateUnreached_silent.trans (State.shutIsolated_silent _)
  obtain ⟨hctxs, himg⟩ := Capstan.assignProxies_kept isolated.cap.deadIds isolated.cap
  exact ((hports.trans hlinks).trans hisolated).trans (.trans (.onCap isolated hctxs himg) (State.writeTables_silent _))

/-! ### Engine time begins (R456, R609) -/

/-- The state in which the slices are ready and the Capstan has still to say so. -/
def State.timed (s : State) (frame : Option Nat) : State :=
  (s.startMesh.onCap (fun c => c.startTime frame)).eachSlice (fun env sl => sl.ready env)

/-- The Capstan as it becomes ready, before its record. -/
def Capstan.declared (c : Capstan) : Capstan :=
  { c with hl := { c.hl with beats := c.ids.map (fun i => (i, c.tb.time)) }
           su := { c.su with state := .ready, step := 9, startUs := c.sinceT0 } }

theorem State.becomeReady_eq (s : State) (frame : Option Nat) : s.becomeReady frame =
    (s.timed frame).withCap ((s.timed frame).cap.declared.note 0x0001
      (toLe 4 (s.timed frame).cap.declared.su.startUs ++ toLe 4 (s.timed frame).cap.declared.img.revision)) := rfl

theorem State.timed_silent (s : State) (frame : Option Nat) : s.Silent (s.timed frame) := by
  refine s.startMesh_silent.trans (.trans (.onCap _ ?_ ?_) (.eachSlice _ fun _ _ => rfl))
  · rfl
  · rfl

theorem State.becomeReady_silent (s : State) (frame : Option Nat) : s.Silent (s.becomeReady frame) := by
  rw [State.becomeReady_eq]
  refine (s.timed_silent frame).trans ⟨rfl, ?_, ?_⟩
  · exact Capstan.note_ctxs _ _ _ _
  · exact Capstan.note_img _ _ _ _

/-- What engine time starts at (R609). -/
def startsAt (based : Bool) (frame : Option Nat) : Nat × Nat :=
  match frame with
  | some t => if based then (2 * t, 2) else (0, 0)
  | none => if based then (0, 1) else (0, 0)

theorem Capstan.startTime_tb (c : Capstan) (frame : Option Nat) : (c.startTime frame).tb.on = true ∧
    (c.startTime frame).tb.time = (startsAt (2 ≤ c.img.syncMode) frame).1 ∧ (c.startTime frame).tb.state = (startsAt (2 ≤ c.img.syncMode) frame).2 :=
  ⟨rfl, rfl, rfl⟩

/-- What the statement says of an engine that has become ready. -/
structure State.Begun (s t : State) (start mode : Nat) : Prop where
  ready : t.cap.su.state = .ready
  step : t.cap.su.step = 9
  on : t.cap.tb.on = true
  time : t.cap.tb.time = start
  state : t.cap.tb.state = mode
  length : t.slices.length = s.slices.length
  slices : ∀ sl ∈ t.slices, sl.time = start ∧ sl.timeFix = 0 ∧ sl.tokens = 256 ∧ sl.tokenAt = start ∧ sl.cnt.armed = true

theorem State.becomeReady_begun (s : State) (frame : Option Nat) :
    s.Begun (s.becomeReady frame) (startsAt (2 ≤ s.cap.img.syncMode) frame).1 (startsAt (2 ≤ s.cap.img.syncMode) frame).2 := by
  have htime : (s.timed frame).cap.tb.time = (startsAt (2 ≤ s.cap.img.syncMode) frame).1 := by
    rw [← s.startMesh_silent.img]; rfl
  have hstate : (s.timed frame).cap.tb.state = (startsAt (2 ≤ s.cap.img.syncMode) frame).2 := by
    rw [← s.startMesh_silent.img]; rfl
  have hlength := (s.becomeReady_silent frame).length
  rw [State.becomeReady_eq] at hlength ⊢
  refine ⟨?_, ?_, ?_, ?_, ?_, hlength, fun sl hsl => ?_⟩
  · exact congrArg (·.state) (Capstan.note_su _ _ _ _)
  · exact congrArg (·.step) (Capstan.note_su _ _ _ _)
  · exact congrArg (·.on) (Capstan.note_tb _ _ _ _)
  · exact (congrArg (·.time) (Capstan.note_tb (s.timed frame).cap.declared _ _ _)).trans htime
  · exact (congrArg (·.state) (Capstan.note_tb (s.timed frame).cap.declared _ _ _)).trans hstate
  · obtain ⟨x, -, rfl⟩ := List.mem_map.mp hsl
    exact ⟨htime, rfl, rfl, htime, rfl⟩

theorem exec_engineTimeStart_step {s : State} (frame : Option (BitVec 128 × Bool × Nat)) (hstep : s.cap.atStep 6 = true) (htrained : s.cap.su.trained = true) :
    exec (.engineTimeStart frame) s = .next (deliverAll (s.startTime frame)) := by
  rw [exec_engineTimeStart, execEngineTimeStart, if_pos (by simp [Capstan.awaitsTime, hstep, htrained])]

/-- Step 8 ends: the state that has become ready. -/
theorem exec_engineTimeStart_begins {s : State} {frame : Option (BitVec 128 × Bool × Nat)} (first : Option Nat) (hstep : s.cap.atStep 6 = true)
    (htrained : s.cap.su.trained = true) (hsettled : s.settled) (hstart : s.startTime frame = s.becomeReady first) :
    exec (.engineTimeStart frame) s = .next (s.becomeReady first) := by
  rw [exec_engineTimeStart_step frame hstep htrained, hstart, deliverAll_settled _ ((s.becomeReady_silent first).settled hsettled)]

theorem State.startTime_unbased {s : State} (frame : Option (BitVec 128 × Bool × Nat)) (hmode : s.cap.img.syncMode < 2) :
    s.startTime frame = s.becomeReady none := if_pos hmode

theorem State.startTime_frame {s : State} {bits : BitVec 128} (since : Nat) (hmode : 2 ≤ s.cap.img.syncMode)
    (hwait : s.cap.su.upTime ≤ s.cap.su.waitFrom + 2400000) (hgood : bits.toNat / 2 ^ 64 = 2 ^ 64 - 1 - bits.toNat % 2 ^ 64) :
    s.startTime (some (bits, true, since)) = s.becomeReady (some (bits.toNat % 2 ^ 64 * 1000000 + since)) := by
  have hframe := frameMs_some hgood
  have hfirst : s.cap.firstFrame (bits, true, since) = some (bits.toNat % 2 ^ 64 * 1000000 + since) := by
    rw [Capstan.firstFrame, if_pos (by exact hwait), hframe]
    rfl
  simp [State.startTime, Nat.not_lt.mpr hmode, hframe, hfirst]

theorem State.startTime_none {s : State} (hmode : 2 ≤ s.cap.img.syncMode) :
    s.startTime none = if s.cap.su.waitFrom + frameWait ≤ s.cap.su.upTime then s.becomeReady none else s := by
  simp [State.startTime, Nat.not_lt.mpr hmode]

/-- The state in which step 8 ends, as the statement asks for it. -/
theorem exec_engineTimeStart_begun {s : State} {frame : Option (BitVec 128 × Bool × Nat)} {first : Option Nat} {start mode : Nat}
    (hstep : s.cap.atStep 6 = true) (htrained : s.cap.su.trained = true) (hsettled : s.settled) (hstart : s.startTime frame = s.becomeReady first)
    (hat : startsAt (2 ≤ s.cap.img.syncMode) first = (start, mode)) :
    ∃ t, exec (.engineTimeStart frame) s = .next t ∧ t.cap.su.state = .ready ∧ t.cap.su.step = 9 ∧ t.cap.tb.on = true ∧
      t.cap.tb.time = start ∧ t.cap.tb.state = mode ∧ t.slices.length = s.slices.length ∧
      ∀ sl ∈ t.slices, sl.time = start ∧ sl.timeFix = 0 ∧ sl.tokens = 256 ∧ sl.tokenAt = start ∧ sl.cnt.armed = true := by
  have hbegun := s.becomeReady_begun first
  rw [hat] at hbegun
  exact ⟨_, exec_engineTimeStart_begins first hstep htrained hsettled hstart, hbegun.ready, hbegun.step, hbegun.on, hbegun.time, hbegun.state,
    hbegun.length, hbegun.slices⟩

end Sys2Proof.Machine

open Sys2Proof Sys2Proof.Machine

/-- Settles O17: self-test and training change what they find alone; engine time begins by the mode and the frame. -/
theorem theEngineBecomesReady : Obligations.TheEngineBecomesReady := by
  unfold Obligations.TheEngineBecomesReady
  refine ⟨⟨fun s found hpower htesting hsettled hstep hcause hdefects hcapstan hok hrouters hwhole => ?_,
    fun s up hpower hstate htest hcause htrained => ?_⟩, fun s frame hstep htrained hsettled hmode => ?_,
    fun s bits since hstep htrained hsettled hmode hwait hgood => ?_, fun s hstep htrained hsettled hmode => ⟨fun hwait => ?_, fun hwait => ?_⟩⟩
  · have hend := State.selfTested_noDefect hsettled hdefects hcapstan
    have hearly : (s.tested []).cap.su.step ≠ 5 := by
      show s.cap.su.step ≠ 5
      omega
    rw [if_neg (by simp [hok]), hrouters, State.tested_noSlice hwhole, if_neg (by decide), if_neg (by simp [hcause]), State.load_early hearly] at hend
    have hsettle : (s.tested []).settleStart = s.tested [] := State.settleStart_early (by show s.cap.su.step ≠ 9; omega)
    refine ⟨s.tested [], ?_, rfl, rfl, s.tested_states⟩
    rw [exec_selftestRun found hpower htesting, hend, hsettle]
  · rw [exec_ropeTrainingDone, execRopeTrainingDone, if_pos (by simp [hpower, hstate, htest, hcause, htrained])]
    rfl
  · exact exec_engineTimeStart_begun hstep htrained hsettled (State.startTime_unbased frame hmode)
      (by rw [startsAt, decide_eq_false (Nat.not_le.mpr hmode)]; rfl)
  · exact exec_engineTimeStart_begun hstep htrained hsettled (State.startTime_frame since hmode hwait hgood)
      (by rw [startsAt, decide_eq_true hmode]; rfl)
  · refine exec_engineTimeStart_begun hstep htrained hsettled ((State.startTime_none hmode).trans (if_pos hwait)) ?_
    rw [startsAt, decide_eq_true hmode]
    rfl
  · have hwaits : s.startTime none = s := (State.startTime_none hmode).trans (if_neg (Nat.not_le.mpr hwait))
    rw [exec_engineTimeStart_step none hstep htrained, hwaits, deliverAll_settled s hsettled]
end

section
/-!
The management port (R544 to R556): what a request does by the state of the port and of its session, and the common command codes.
-/

namespace Sys2Proof.Machine

/-! ### Numbers and bytes (R9) -/

@[simp] theorem toLe_length (n v : Nat) : (toLe n v).length = n := by
  induction n generalizing v with
  | zero => rfl
  | succ n ih => rw [toLe, List.length_cons, ih]

theorem leNat_toLe (n v : Nat) : leNat (toLe n v) = v % 256 ^ n := by
  induction n generalizing v with
  | zero => rw [Nat.pow_zero, Nat.mod_one]; rfl
  | succ n ih =>
    have hpow : 256 ^ (n + 1) = 256 * 256 ^ n := Nat.pow_succ'
    rw [hpow, Nat.mod_mul, toLe, leNat, ih, BitVec.toNat_ofNat]

/-- The number of `n` bytes at the head of a list. -/
theorem le_append (n v : Nat) (bs : List Byte) : le (toLe n v ++ bs) 0 n = v % 256 ^ n := by
  have htake : (toLe n v ++ bs).take n = toLe n v := by
    rw [List.take_append_of_le_length (by simp), List.take_of_length_le (by simp)]
  rw [le, List.drop_zero, htake, leNat_toLe]

/-- A number whose first bytes are skipped. -/
theorem le_skip {pre bs : List Byte} {off n : Nat} (h : pre.length = off) : le (pre ++ bs) off n = le bs 0 n := by
  rw [le, le, List.drop_append_of_le_length (by omega), List.drop_of_length_le (by omega), List.nil_append, List.drop_zero]

theorem toLe_byte (b : Byte) : toLe 1 b.toNat = [b] := by
  simp [toLe]

/-! ### Requests outside any session (R546, R550) -/

theorem State.managed.expired {s : State} (h : s.managed) : s.onCap Capstan.expire = s := congrArg s.withCap h.2

theorem State.plainCmd_managed {s : State} (tag cnt : Nat) {f : State → Nat × List Byte × State} {r : Nat × List Byte × State} (h : s.managed)
    (hconf : s.cap.unconfigured = false) (hf : f s = r) :
    s.plainCmd tag cnt f = r.2.2.onCap (fun c => c.answer (plainResp r.1 tag cnt r.2.1)) := by
  unfold State.plainCmd
  rw [if_neg (by simp [h.1]), h.expired, ← hf]
  exact if_neg (by simp [hconf])

theorem exec_badFrame_sound {s : State} {f : List Byte} (h : s.managed) (hsound : badFrame f = false) (hknown : knownCmd (byteAt f 0) = true) :
    exec (.badFrame f) s = execCmd f s := by
  rw [exec_badFrame, execBadFrame]
  refine (if_neg (by simp [h.1])).trans ((if_neg (by simp [hsound])).trans (if_pos hknown))

theorem exec_badFrame_bad {s : State} {f : List Byte} (h : s.managed) (hbad : badFrame f = true) :
    exec (.badFrame f) s = .next (s.withCap (s.cap.answer (withCrc (frameBytes 0x01 (byteAt f 1) (le f 4 4) [])))) := by
  rw [exec_badFrame, execBadFrame]
  exact (if_neg (by simp [h.1])).trans (if_pos hbad)

theorem exec_badFrame_unknown {s : State} {f : List Byte} (h : s.managed) (hconf : s.cap.unconfigured = false) (hsound : badFrame f = false)
    (hknown : knownCmd (byteAt f 0) = false) :
    exec (.badFrame f) s = .next (s.withCap (s.cap.answer (withCrc (frameBytes 0x02 (byteAt f 1) (le f 4 4) [])))) := by
  rw [exec_badFrame, execBadFrame]
  refine (if_neg (by simp [h.1])).trans ((if_neg (by simp [hsound])).trans ((if_neg (by simp [hknown])).trans ?_))
  rw [hconf]
  rfl

theorem exec_getStatus_managed {s : State} (tag cnt : Nat) (body : List Byte) (h : s.managed) :
    exec (.getStatus tag cnt body) s = .next (s.withCap (s.cap.answer (plainResp (if body.isEmpty then stOk else stBadBody) tag cnt
      ([s.cap.idReg, s.cap.startReg, s.cap.timeReg, s.cap.log.headReg, s.cap.mgtReg].flatMap (fun r => toLe 8 r.toNat))))) := by
  rw [exec_getStatus, execGetStatus]
  refine (if_neg (by simp [h.1])).trans ?_
  rw [h.expired]
  rfl

/-! ### Sessions are opened (R551, R554) -/

theorem exec_openChallenge_managed {s : State} (tag cnt : Nat) (key : Byte) {k : Nat × Nat × List Byte} (h : s.managed)
    (hconf : s.cap.unconfigured = false) (hlockout : s.cap.mgt.lockout = none) (hkey : s.cap.key? key.toNat = some k)
    (hsession : s.cap.mgt.session = none) :
    exec (.openChallenge tag cnt [key, 0, 0, 0]) s =
      .next ((s.issueChallenge key.toNat).2.2.onCap (fun c => c.answer (plainResp stOk tag cnt (s.issueChallenge key.toNat).2.1))) := by
  have hbody : ([key, 0, 0, 0].length != 4 || !zeroBytes [key, 0, 0, 0] 1 3) = false := rfl
  rw [exec_openChallenge, execOpenChallenge]
  refine congrArg _ (State.plainCmd_managed tag cnt h hconf ?_)
  refine (if_neg (by rw [hbody]; decide)).trans ((if_neg (by simp [hlockout])).trans ((if_neg ?_).trans (if_neg (by simp [hsession]))))
  rw [show byteAt [key, 0, 0, 0] 0 = key.toNat from rfl, hkey]
  exact Bool.false_ne_true

/-- The body of OPEN_RESPONSE in its parts. -/
theorem openResponse_body (key : Byte) {nh p : List Byte} (hnh : nh.length = 32) (hp : p.length = 32) :
    ([key, 0, 0, 0] ++ nh ++ p).length = 68 ∧ zeroBytes ([key, 0, 0, 0] ++ nh ++ p) 1 3 = true ∧ byteAt ([key, 0, 0, 0] ++ nh ++ p) 0 = key.toNat ∧
      (([key, 0, 0, 0] ++ nh ++ p).drop 4).take 32 = nh ∧ (([key, 0, 0, 0] ++ nh ++ p).drop 36).take 32 = p := by
  have hdrop : ([key, 0, 0, 0] ++ nh ++ p).drop 36 = p := by
    rw [List.drop_append_of_le_length (by simp [hnh]), List.drop_of_length_le (by simp [hnh]), List.nil_append]
  refine ⟨by simp [hnh, hp], rfl, rfl, ?_, by rw [hdrop, List.take_of_length_le (by omega)]⟩
  show (nh ++ p).take 32 = nh
  rw [List.take_append_of_le_length (by omega), List.take_of_length_le (by omega)]

theorem exec_openResponse_managed {s : State} (tag cnt : Nat) (key : Byte) {nh p : List Byte} (h : s.managed) (hconf : s.cap.unconfigured = false)
    (hnh : nh.length = 32) (hp : p.length = 32) :
    exec (.openResponse tag cnt ([key, 0, 0, 0] ++ nh ++ p)) s =
      .next ((s.openResponse key.toNat nh p).2.2.onCap (fun c => c.answer (plainResp (s.openResponse key.toNat nh p).1 tag cnt
        (s.openResponse key.toNat nh p).2.1))) := by
  obtain ⟨hlength, hzero, hkey, hnonce, hproof⟩ := openResponse_body key hnh hp
  rw [exec_openResponse, execOpenResponse, if_neg (by simp [hconf])]
  refine congrArg _ (State.plainCmd_managed tag cnt h hconf ?_)
  rw [hlength, hzero, hkey, hnonce, hproof]
  rfl

/-- The proof that R551 asks for. -/
def challengeProof (k : List Byte) (key : Byte) (nt nh : List Byte) : List Byte := hmac k ([0x52, 0x4E, 0x54, 0x31] ++ [key] ++ nt ++ nh)

/-- The state in which the challenge is spent. -/
def State.spent (s : State) : State := s.withCap { s.cap with mgt := { s.cap.mgt with challenge := none } }

theorem State.openResponse_right {s : State} {key : Byte} {id rights : Nat} {k nh p : List Byte} {x : Challenge} (hlockout : s.cap.mgt.lockout = none)
    (hkey : s.cap.key? key.toNat = some (id, rights, k)) (hchallenge : s.cap.mgt.challenge = some x) (hx : x.key = key.toNat)
    (hp : p = challengeProof k key x.nt nh) :
    s.openResponse key.toNat nh p = (stOk, (s.spent.cap.openSession key.toNat k x.nt nh).2,
      s.withCap (s.spent.cap.openSession key.toNat k x.nt nh).1) := by
  have hproof : (p != hmac k (rnt1 ++ toLe 1 key.toNat ++ x.nt ++ nh)) = false := by
    rw [toLe_byte, hp]
    exact bne_self_eq_false _
  unfold State.openResponse
  refine (if_neg (by simp [State.onCap, hlockout])).trans ?_
  have hkey' : (s.onCap (fun c => c.onMgt (fun m => { m with challenge := none }))).cap.key? key.toNat = some (id, rights, k) := hkey
  rw [hchallenge, hkey']
  exact if_neg (by rw [hx, hproof, bne_self_eq_false]; decide)

theorem State.openResponse_wrong {s : State} {key : Byte} {id rights : Nat} {k nh p : List Byte} {x : Challenge} (hlockout : s.cap.mgt.lockout = none)
    (hkey : s.cap.key? key.toNat = some (id, rights, k)) (hchallenge : s.cap.mgt.challenge = some x)
    (hwrong : x.key ≠ key.toNat ∨ p ≠ challengeProof k key x.nt nh) :
    s.openResponse key.toNat nh p = (stOpenFailed, [], s.withCap (s.spent.cap.refuseOpen key.toNat stOpenFailed)) := by
  have hproof : (x.key != key.toNat || p != hmac k (rnt1 ++ toLe 1 key.toNat ++ x.nt ++ nh)) = true := by
    rw [toLe_byte, Bool.or_eq_true, bne_iff_ne, bne_iff_ne]
    exact hwrong
  unfold State.openResponse
  refine (if_neg (by simp [State.onCap, hlockout])).trans ?_
  have hkey' : (s.onCap (fun c => c.onMgt (fun m => { m with challenge := none }))).cap.key? key.toNat = some (id, rights, k) := hkey
  rw [hchallenge, hkey']
  exact if_pos hproof

/-- What a session's opening leaves at the port (R551). -/
theorem Capstan.openSession_mgt (c : Capstan) (key : Nat) (k nt nh : List Byte) :
    (c.openSession key k nt nh).1.mgt = { c.mgt with
      session := some { key := key, number := c.mgt.sessions + 1, ks := hmac k (rnts ++ nt ++ nh), last := 0, lastReq := [], lastResp := []
                        since := c.tb.time }
      sessions := c.mgt.sessions + 1, failRun := 0 } := by
  unfold Capstan.openSession
  dsimp only
  rw [Capstan.note_mgt]
  rfl

theorem Capstan.openSession_next (c : Capstan) (key : Nat) (k nt nh : List Byte) :
    (c.openSession key k nt nh).1.log.next = c.log.next + 1 := Capstan.note_next _ _ _

/-- What a refused answer to a challenge leaves at the port (R554). -/
theorem Capstan.refuseOpen_mgt (c : Capstan) (key : Nat) :
    (c.refuseOpen key stOpenFailed).mgt =
      if 3 ≤ c.mgt.failRun then { c.mgt with fails := satAdd 0xFFFF c.mgt.fails 1, failRun := 0, lockout := some (c.tb.time + oneSecond) }
      else { c.mgt with fails := satAdd 0xFFFF c.mgt.fails 1, failRun := c.mgt.failRun + 1 } := by
  have hmgt : (c.note 0xA002 (toLe 1 key ++ toLe 1 stOpenFailed)).countRefusal.mgt = { c.mgt with fails := satAdd 0xFFFF c.mgt.fails 1 } := by
    rw [Capstan.countRefusal, Capstan.onMgt_mgt, Capstan.note_mgt]
  have htime : (c.note 0xA002 (toLe 1 key ++ toLe 1 stOpenFailed)).countRefusal.tb = c.tb := by
    rw [Capstan.countRefusal, Capstan.onMgt_tb, Capstan.note_tb]
  unfold Capstan.refuseOpen
  refine (congrArg Capstan.mgt (if_neg (by decide))).trans ?_
  rw [hmgt, htime]
  by_cases hrun : 3 ≤ c.mgt.failRun
  · rw [if_pos hrun, if_pos (show 4 ≤ c.mgt.failRun + 1 by omega), Capstan.onMgt_mgt, hmgt]
  · rw [if_neg hrun, if_neg (show ¬ 4 ≤ c.mgt.failRun + 1 by omega), Capstan.onMgt_mgt, hmgt]

end Sys2Proof.Machine

open Sys2Proof Sys2Proof.Machine

/-- Settles O18: GET_STATUS needs no session, and a frame is refused or is its command. -/
theorem requestsWithoutSessionAreAnswered : Obligations.RequestsWithoutSessionAreAnswered := by
  unfold Obligations.RequestsWithoutSessionAreAnswered
  refine ⟨⟨fun s tag cnt h => exec_getStatus_managed tag cnt [] h, fun s tag cnt b bs h => exec_getStatus_managed tag cnt (b :: bs) h⟩,
    fun s f h hbad => exec_badFrame_bad h hbad, fun s f h hconf hsound hknown => exec_badFrame_unknown h hconf hsound hknown,
    fun s f body mac tag cnt h hsound htag hcnt hbody hmac => ?_, fun s h => ?_, fun s haddr => ?_⟩
  · have hcmd (k : Nat) (hk : byteAt f 0 = k) (hknown : knownCmd k = true) : exec (.badFrame f) s = execCmd f s :=
      exec_badFrame_sound h hsound (hk ▸ hknown)
    subst htag hcnt hbody hmac
    refine ⟨fun hk => ?_, fun hk => ?_, fun hk => ?_, fun hk => ?_, fun hk => ?_, fun hk => ?_, fun hk => ?_, fun hk => ?_, fun hk => ?_⟩ <;>
      rw [hcmd _ hk rfl, execCmd, hk] <;> rfl
  · rw [exec_responseRead, execResponseRead, if_pos h.1]
    rfl
  · rw [exec_responseRead, execResponseRead, if_neg (by simp [Capstan.reached, haddr])]
    rfl

/-- Settles O19: a challenge is what `issueChallenge` gives; the answer opens a session or is counted as a failure. -/
theorem challengesOpenSessions : Obligations.ChallengesOpenSessions := by
  unfold Obligations.ChallengesOpenSessions
  refine ⟨fun s tag cnt key k h hconf hlockout hkey hsession => ?_,
    fun s tag cnt id rights key k nh p x h hconf hlockout hkey hchallenge hx hnh hp hproof => ?_,
    fun s tag cnt id rights key k nh p x h hconf hlockout hkey hchallenge hnh hp hwrong => ?_⟩
  · exact ⟨_, toLe_length _ _, exec_openChallenge_managed tag cnt key h hconf hlockout hkey hsession⟩
  · have hopened := State.openResponse_right hlockout hkey hchallenge hx hproof
    have hmgt := Capstan.openSession_mgt s.spent.cap key.toNat k x.nt nh
    have hexec := exec_openResponse_managed tag cnt key h hconf hnh hp
    rw [hopened] at hexec
    exact ⟨_, _, hexec, congrArg (·.session) hmgt, rfl, rfl, rfl, rfl, congrArg (·.sessions) hmgt, congrArg (·.failRun) hmgt,
      congrArg (·.challenge) hmgt, Capstan.openSession_next _ _ _ _ _, rfl⟩
  · have hrefused := State.openResponse_wrong hlockout hkey hchallenge hwrong
    have hmgt := Capstan.refuseOpen_mgt s.spent.cap key.toNat
    have hexec := exec_openResponse_managed tag cnt key h hconf hnh hp
    rw [hrefused] at hexec
    by_cases hrun : 3 ≤ s.cap.mgt.failRun
    · rw [if_pos (by exact hrun)] at hmgt
      refine ⟨_, hexec, congrArg (·.session) hmgt, congrArg (·.challenge) hmgt, congrArg (·.fails) hmgt, rfl, ?_⟩
      rw [if_pos hrun]
      exact ⟨congrArg (·.lockout) hmgt, congrArg (·.failRun) hmgt⟩
    · rw [if_neg (by exact hrun)] at hmgt
      refine ⟨_, hexec, congrArg (·.session) hmgt, congrArg (·.challenge) hmgt, congrArg (·.fails) hmgt, rfl, ?_⟩
      rw [if_neg hrun]
      exact ⟨(congrArg (·.lockout) hmgt).trans hlockout, congrArg (·.failRun) hmgt⟩
end

section
/-!
Requests of a session (R550 to R556): refused, repeated or carried out; and the common command codes (R544, R545).
-/

namespace Sys2Proof.Machine

/-! ### What a request of a session does (R552) -/

theorem frameBytes_ne_nil (first tag cnt : Nat) (body mac : List Byte) : (frameBytes first tag cnt body ++ mac).isEmpty = false := rfl

theorem State.sessionCmd_none {s : State} (cmd tag cnt right : Nat) (body mac : List Byte) (f : State → Session → Nat × List Byte × State)
    (h : s.managed) (hconf : s.cap.unconfigured = false) (hsession : s.cap.mgt.session = none) :
    s.sessionCmd cmd tag cnt right body mac f = s.withCap (s.cap.answer (withCrc (frameBytes 0x04 tag cnt []))) := by
  unfold State.sessionCmd
  rw [if_neg (by simp [h.1]), h.expired]
  refine (if_neg (by simp [hconf])).trans ?_
  rw [hsession]
  rfl

/-- A request of an open session by its sequence, its MAC and whether it repeats the last one. -/
theorem State.sessionCmd_open {s : State} {x : Session} (cmd tag cnt right : Nat) (body mac : List Byte)
    (f : State → Session → Nat × List Byte × State) (h : s.managed) (hconf : s.cap.unconfigured = false) (hsession : s.cap.mgt.session = some x) :
    s.sessionCmd cmd tag cnt right body mac f =
      if cnt = x.last && !x.lastReq.isEmpty && frameBytes cmd tag cnt body ++ mac = x.lastReq then s.withCap (s.cap.answer x.lastResp)
      else if cnt != (x.last + 1) % 2 ^ 32 || mac != frameMac x.ks (frameBytes cmd tag cnt body) then
        s.withCap (s.cap.answer (withCrc (frameBytes 0x05 tag cnt [])))
      else s.accept x cmd tag cnt right body mac f := by
  unfold State.sessionCmd
  rw [if_neg (by simp [h.1]), h.expired]
  refine (if_neg (by simp [hconf])).trans ?_
  rw [hsession]
  rfl

/-- The state in which an accepted request is carried out: its CNT and its moment are kept. -/
def State.accepted (s : State) (x : Session) (cnt : Nat) : State :=
  s.withCap { s.cap with mgt := { s.cap.mgt with session := some { x with last := cnt, since := s.cap.tb.time } } }

/-- A request in sequence with its MAC and its right is carried out. -/
theorem State.sessionCmd_accepted {s : State} {x : Session} {cmd right tag cnt : Nat} {body mac : List Byte}
    {f : State → Session → Nat × List Byte × State} {r : Nat × List Byte × State} (h : s.accepts x cmd right tag cnt body mac)
    (hf : f (s.accepted x cnt) x = r) :
    s.sessionCmd cmd tag cnt right body mac f =
      r.2.2.onCap (fun c => c.keepResp (frameBytes cmd tag cnt body ++ mac) (sessionResp x.ks r.1 tag cnt r.2.1)) := by
  obtain ⟨hmanaged, hconf, hsession, hcnt, hmac, hright⟩ := h
  have hnew : cnt ≠ x.last := by
    intro hlast
    omega
  rw [State.sessionCmd_open cmd tag cnt right body mac f hmanaged hconf hsession, if_neg (by simp [hnew]), if_neg (by simp [hcnt, hmac])]
  have hhas : (s.accepted x cnt).cap.hasRight x right = true := hright
  have hcarried : (if (s.accepted x cnt).cap.hasRight x right then f (s.accepted x cnt) x else (stNoRight, [], s.accepted x cnt)) = r := by
    rw [if_pos hhas, hf]
  rw [← hcarried]
  rfl

/-- The outcome of a command that is an accepted request. -/
theorem State.accepts.carried {s : State} {x : Session} {cmd right tag cnt : Nat} {body mac : List Byte} (h : s.accepts x cmd right tag cnt body mac)
    {o : Out'} {f : State → Session → Nat × List Byte × State} (ho : o = .next (s.sessionCmd cmd tag cnt right body mac f))
    {r : Nat × List Byte × State} (hf : f (s.accepted x cnt) x = r) :
    o = .next (r.2.2.onCap (fun c => c.keepResp (frameBytes cmd tag cnt body ++ mac) (sessionResp x.ks r.1 tag cnt r.2.1))) :=
  ho.trans (congrArg _ (State.sessionCmd_accepted h hf))

/-! ### The requests -/

theorem Capstan.keepResp_mgt (c : Capstan) (req resp : List Byte) : (c.keepResp req resp).mgt =
    { c.mgt with session := c.mgt.session.map (fun (y : Session) => { y with lastReq := req, lastResp := resp }), resp := some resp } := rfl

/-- The end of a session, with its record (R553). -/
theorem Capstan.endSession_open {c : Capstan} {x : Session} (reason : Nat) (h : c.mgt.session = some x) :
    c.endSession reason = { c with mgt := { c.mgt with session := none } }.note 0xA003 (toLe 1 x.key ++ toLe 4 x.number ++ toLe 1 reason) := by
  unfold Capstan.endSession
  rw [h]

theorem Capstan.endSession_none {c : Capstan} (reason : Nat) (h : c.mgt.session = none) : c.endSession reason = c := by
  unfold Capstan.endSession
  rw [h]

theorem Capstan.endSession_mgt {c : Capstan} {x : Session} (reason : Nat) (h : c.mgt.session = some x) :
    (c.endSession reason).mgt = { c.mgt with session := none } := by
  rw [c.endSession_open reason h, Capstan.note_mgt]

theorem Capstan.endSession_next {c : Capstan} {x : Session} (reason : Nat) (h : c.mgt.session = some x) :
    (c.endSession reason).log.next = c.log.next + 1 := by
  rw [c.endSession_open reason h, Capstan.note_next]

/-- One record of the first runnings, read by its index. -/
theorem Logline.readFrom_first {l : Logline} {k : Nat} {r : Stored} (h : l.first[k]? = some r) (hlost : r.lost = false) :
    l.readFrom true 1 k = (0, [r.bytes]) := by
  unfold Logline.readFrom
  rw [Logline.select_first h hlost]
  rfl

/-- The body of LOG_READ for one record of the first runnings. -/
theorem logRead_body {k : Nat} (hk : k < 1024) : ([1, 1, 0, 0] ++ toLe 4 k).length = 8 ∧ zeroBytes ([1, 1, 0, 0] ++ toLe 4 k) 2 2 = true ∧
    le ([1, 1, 0, 0] ++ toLe 4 k) 4 4 = k := by
  have hnumber : le ([1, 1, 0, 0] ++ toLe 4 k) 4 4 = k := by
    rw [le_skip (off := 4) rfl, ← List.append_nil (toLe 4 k), le_append]
    exact Nat.mod_eq_of_lt (by omega)
  exact ⟨by simp, rfl, hnumber⟩

/-- The address in the body of a register request. -/
theorem regRequest_address {i : Nat} (hi : i < 32) (rest : List Byte) :
    le (toLe 4 (0x100000 + 0x10000 * i + 0x5000) ++ rest) 0 4 = 0x100000 + 0x10000 * i + 0x5000 := by
  rw [le_append]
  exact Nat.mod_eq_of_lt (by omega)

/-- The value in the body of REG_WRITE. -/
theorem regWrite_value (off : Nat) {v : Nat} (hv : v < 2 ^ 64) : le (toLe 4 off ++ [0, 0, 0, 0] ++ toLe 8 v) 8 8 = v := by
  rw [le_skip (by rw [List.length_append, toLe_length]; rfl), ← List.append_nil (toLe 8 v), le_append]
  exact Nat.mod_eq_of_lt hv

/-- A record of the Capstan while the first runnings are full and no threshold is set (R532). -/
theorem Capstan.note_full {c : Capstan} (code : Nat) (data : List Byte) (hthresh : c.log.thresh = 0) (hfirst : c.log.first.length = 1024) :
    c.note code data = c.store (c.rec' code data) false false := by
  have hrecord : c.note code data = (c.store (c.rec' code data) false (1024 - c.log.first.length != 0)).compareMark := rfl
  rw [hrecord, hfirst]
  exact Capstan.compareMark_still (c := c.store (c.rec' code data) false false) (.inl hthresh)

/-- LOG_CLEAR of the last runnings, with the first full (R556). -/
theorem Capstan.clearLog_last {c : Capstan} (key : Nat) (hthresh : c.log.thresh = 0) (hfirst : c.log.first.length = 1024) :
    ∃ r, (c.clearLog key 1).2 = c.log.next.toNat ∧ (c.clearLog key 1).1.log.first = c.log.first ∧ (c.clearLog key 1).1.log.last = [r] ∧
      r.seq = c.log.next ∧ (c.clearLog key 1).1.log.clears = min 255 (c.log.clears + 1) ∧ (c.clearLog key 1).1.log.next = c.log.next + 1 := by
  unfold Capstan.clearLog
  extract_lets l first fr seq emptied noted src
  have hnoted : noted = emptied.store (emptied.rec' 0xA004 (toLe 1 key ++ toLe 1 1 ++ toLe 4 first ++ toLe 2 l.last.length ++ toLe 2 fr)) false false :=
    Capstan.note_full _ _ hthresh hfirst
  have hsrc : src = noted.log := rfl
  rw [hsrc, hnoted]
  exact ⟨_, rfl, rfl, rfl, rfl, rfl, rfl⟩

theorem State.readTarget_slice {s : State} {i o : Nat} {sl : Slice} {x : Reg} (hat : s.slices[i]? = some sl) (hx : sl.reg? s.cap o = some x) :
    s.readTarget (.slice i o) = (x, s.put i (sl.readReg o)) := by
  simp [State.readTarget, State.valueOf, State.atSlice, hat, hx, State.put]

theorem State.writeTarget_slice {s : State} {i o : Nat} {sl : Slice} (v : Reg) (hat : s.slices[i]? = some sl) :
    s.writeTarget (.slice i o) v = s.put i (sl.writeReg (sl.view s.cap) o v) := by
  simp [State.writeTarget, State.atSlice, hat, State.put]

end Sys2Proof.Machine

open Sys2Proof Sys2Proof.Machine

/-- Settles O20: each request is accepted, and its answer and effect are those of its command. -/
theorem sessionRequestsAreCarriedOut : Obligations.SessionRequestsAreCarriedOut := by
  unfold Obligations.SessionRequestsAreCarriedOut
  refine ⟨fun s x tag cnt mac h => ?_, fun s x tag cnt mac h => ?_, fun s x tag cnt k r mac hk hr hlost h => ?_,
    fun s x tag cnt i sl mac hanswers h => ?_, fun s x tag cnt i v sl mac hanswers hv h => ?_, fun s x tag cnt mac h hthresh hfirst => ?_⟩
  · have hopen : (s.accepted x cnt).cap.mgt.session = some { x with last := cnt, since := s.cap.tb.time } := rfl
    refine ⟨_, State.accepts.carried h (exec_close _ _ _ _ _) (r := (stOk, [], (s.accepted x cnt).onCap (fun c => c.endSession 0x01))) rfl,
      ?_, rfl, Capstan.endSession_next 0x01 hopen, rfl⟩
    simp only [State.onCap, Capstan.keepResp_mgt, Capstan.endSession_mgt 0x01 hopen, Option.map_none]
  · exact ⟨_, State.accepts.carried h (exec_logHead _ _ _ _ _) rfl, rfl, rfl, rfl, rfl⟩
  · obtain ⟨hlength, hzero, hnumber⟩ := logRead_body hk
    refine ⟨_, State.accepts.carried h (exec_logRead _ _ _ _ _ _) (r := (stOk, [1, 0, 0, 0] ++ r.bytes, s.accepted x cnt)) ?_, rfl, rfl, rfl⟩
    refine (if_neg (by rw [hlength, hzero]; exact Bool.false_ne_true)).trans ?_
    rw [hnumber]
    have hread := Logline.readFrom_first (l := s.cap.log) hr hlost
    refine (congrArg (fun found => (stOk, toLe 1 found.2.length ++ toLe 1 found.1 ++ [0, 0] ++ found.2.flatten, s.accepted x cnt)) hread).trans ?_
    rw [List.flatten_singleton]
    rfl
  · obtain ⟨hat, hpower, hi, hn, hlive, hkept, hsettled⟩ := hanswers
    have hdecode : (s.accepted x cnt).decodeAccess (0x100000 + 0x10000 * i + 0x5000) 8 = .ok (.slice i 0x5000) :=
      State.decode_slice (s.accepted x cnt) i 0x5000 sl ⟨hat, hpower, hi, hn, hlive, hkept, hsettled⟩ (by decide) (by decide) rfl
    have hread : (s.accepted x cnt).readTarget (.slice i 0x5000) = (sl.cnt.ctl, s.accepted x cnt) := by
      rw [State.readTarget_slice (s := s.accepted x cnt) hat rfl]
      exact congrArg _ (State.put_self (s.accepted x cnt) i sl hat)
    refine ⟨_, State.accepts.carried h (exec_regRead _ _ _ _ _) (r := (stOk, toLe 8 sl.cnt.ctl.toNat, s.accepted x cnt)) ?_, rfl, rfl, rfl⟩
    refine (if_neg (by rw [List.length_append, toLe_length]; exact Bool.false_ne_true)).trans ?_
    rw [regRequest_address hi, hdecode]
    exact congrArg (fun found => (stOk, toLe 8 found.1.toNat, found.2)) hread
  · obtain ⟨hat, hpower, hi, hn, hlive, hkept, hsettled⟩ := hanswers
    have hdecode : (s.accepted x cnt).decodeAccess (0x100000 + 0x10000 * i + 0x5000) 8 = .ok (.slice i 0x5000) :=
      State.decode_slice (s.accepted x cnt) i 0x5000 sl ⟨hat, hpower, hi, hn, hlive, hkept, hsettled⟩ (by decide) (by decide) rfl
    have hwrite : deliverAll ((s.accepted x cnt).writeTarget (.slice i 0x5000) (reg v)) =
        (s.accepted x cnt).put i { sl with cnt := { sl.cnt with ctl := reg v &&& 0xFFFF } } := by
      rw [State.writeTarget_slice (s := s.accepted x cnt) (reg v) hat]
      exact deliverAll_settled _ (State.settled_put (s.accepted x cnt) i _ hsettled (s.mail_of i sl hat hsettled))
    refine ⟨_, State.accepts.carried h (exec_regWrite _ _ _ _ _)
      (r := (stOk, [], (s.accepted x cnt).put i { sl with cnt := { sl.cnt with ctl := reg v &&& 0xFFFF } })) ?_, rfl, rfl⟩
    refine (if_neg (by rw [List.length_append, List.length_append, toLe_length, toLe_length]; exact Bool.false_ne_true)).trans ?_
    rw [regWrite_value _ hv, List.append_assoc, regRequest_address hi, hdecode]
    exact congrArg (fun t => (stOk, [], t)) hwrite
  · obtain ⟨r, hseq, hfirst', hlast, hrseq, hclears, hnext⟩ := Capstan.clearLog_last (c := (s.accepted x cnt).cap) x.key hthresh hfirst
    refine ⟨_, r, State.accepts.carried h (exec_logClear _ _ _ _ _)
      (r := (stOk, toLe 4 s.cap.log.next.toNat, (s.accepted x cnt).onCap (fun _ => ((s.accepted x cnt).cap.clearLog x.key 1).1))) ?_,
      hfirst', hlast, hrseq, hclears, hnext, rfl⟩
    refine (if_neg (by decide)).trans ?_
    exact congrArg (fun n => (stOk, toLe 4 n, (s.accepted x cnt).onCap (fun _ => ((s.accepted x cnt).cap.clearLog x.key 1).1))) hseq

/-- Settles O21: the three ways in which a request of a session is not carried out. -/
theorem sessionRequestsAreRefused : Obligations.SessionRequestsAreRefused := by
  unfold Obligations.SessionRequestsAreRefused
  refine ⟨fun s x tag cnt body mac h hconf hsession hcnt hbad => ?_, fun s x tag cnt body mac h hconf hsession hcnt hsame => ?_,
    fun s tag cnt body mac lost h hconf hsession => ?_⟩
  · rw [exec_regWrite, execRegWrite, State.sessionCmd_open _ _ _ _ _ _ _ h hconf hsession, if_neg (by simp [hcnt]),
      if_pos (by rw [Bool.or_eq_true, bne_iff_ne, bne_iff_ne]; exact hbad)]
  · have hkept : x.lastReq.isEmpty = false := by rw [← hsame]; rfl
    rw [exec_regWrite, execRegWrite, State.sessionCmd_open _ _ _ _ _ _ _ h hconf hsession, if_pos (by rw [hkept, decide_eq_true hcnt, decide_eq_true hsame]; rfl)]
  · have hrefused (cmd right : Nat) (f : State → Session → Nat × List Byte × State) :=
      congrArg (Host.Outcome.next (φ := Fault) (ρ := Refusal)) (State.sessionCmd_none cmd tag cnt right body mac f h hconf hsession)
    exact ⟨hrefused _ _ _, hrefused _ _ _, hrefused _ _ _, hrefused _ _ _, hrefused _ _ _, hrefused _ _ _⟩

/-- Settles O23: each code by what it gives. -/
theorem commonCommandCodes : Obligations.CommonCommandCodes := by
  unfold Obligations.CommonCommandCodes
  refine ⟨fun s a hpower haddr => ?_, fun s hpower hsession => ?_, fun s x hpower hsession => ?_, fun s hpower haddr => ?_,
    fun s n => ⟨rfl, rfl, rfl⟩⟩
  · rw [exec_entdaa, execEntdaa, if_pos (by simp [hpower, haddr])]
    rfl
  · rw [exec_rstdaa, execRstdaa, if_pos hpower]
    simp only [State.onCap, Capstan.endSession_none 0x03 hsession]
    rfl
  · refine ⟨_, (exec_rstdaa s).trans (if_pos hpower), ?_, Capstan.endSession_next 0x03 hsession, rfl⟩
    exact congrArg (fun m : Mgmt => { m with addr := none }) (Capstan.endSession_mgt 0x03 hsession)
  · have hgive (bs : List Byte) : s.ccc bs = s.withCap (s.cap.give (some bs)) := by
      rw [State.ccc, State.onCap, if_pos (by simp [hpower, haddr])]
      rfl
    refine ⟨congrArg _ (hgive _), congrArg _ (hgive _), congrArg _ (hgive _), congrArg _ (hgive _), congrArg _ (hgive _), ?_⟩
    have hbytes (n : Nat) : toBe 2 n = [BitVec.ofNat 8 (n / 256), BitVec.ofNat 8 n] := rfl
    refine ⟨BitVec.ofNat 8 ((Config.freeBits s.fresh).toNat % 65536 / 256), BitVec.ofNat 8 ((Config.freeBits s.fresh).toNat % 65536), ?_⟩
    rw [exec_getstatusCcc, execGetstatusCcc, hgive, hbytes]
    rfl
end

section
/-!
Slice death (R502, R504): heartbeats, their check, and the declaration.
-/

namespace Sys2Proof.Machine

/-! ### Passes and duties that stand still -/

/-- No pass drains. -/
abbrev State.undrained (s : State) : Prop := ∀ c ∈ s.cap.ctxs, c.pass ≠ .draining

theorem State.endReported_still {s : State} (h : s.undrained) (ctx : Nat) : s.endReported ctx = s := by
  have hend : s.endIfEmpty ctx = s := by
    unfold State.endIfEmpty
    split
    · rfl
    · next c hc => exact if_neg (by simp [h c (List.mem_of_find?_eq_some hc)])
  unfold State.endReported
  dsimp only
  split
  · exact hend
  · rfl

/-- Where no pass drains none ends. -/
theorem State.recheckPasses_still {s : State} (h : s.undrained) : s.recheckPasses = s :=
  foldl_still _ _ _ (fun ctx _ => State.endReported_still h ctx)

theorem State.beginDuties_none {s : State} (h : s.cap.dueDuties = []) : s.beginDuties = s := by
  unfold State.beginDuties
  rw [h]
  rfl

/-- No duty is due where each death is not fenced, not probed, or has its duty begun. -/
theorem Capstan.dueDuties_none {c : Capstan} (h : ∀ d ∈ c.hl.deaths, (d.fenced && d.probeDone && !d.begun) = false) : c.dueDuties = [] := by
  unfold Capstan.dueDuties
  refine List.filter_eq_nil_iff.mpr fun p _ => ?_
  simp only [List.any_eq_true, not_exists, not_and]
  intro d hd
  have := h d hd
  revert this
  cases d.fenced <;> cases d.probeDone <;> cases d.begun <;> simp

/-! ### The declaration (R504) -/

/-- What a declaration adds to the deaths. -/
def Capstan.death (c : Capstan) (i : Nat) (probeDone : Bool) : Death :=
  { slice := i, probeDone := probeDone, fenced := false, begun := false, read := false, since := c.tb.time }

theorem Capstan.startEpoch_hl {c : Capstan} (h : c.hl.epochBusy = false) :
    c.startEpoch.hl = { c.hl with epoch := (c.hl.epoch + 1) % 65536, epochBusy := true, epochAgain := false, drained := [] } := by
  unfold Capstan.startEpoch
  rw [if_neg (by simp [h])]
  exact Capstan.note_hl _ _ _ _

@[simp] theorem Capstan.startEpoch_ctxs (c : Capstan) : c.startEpoch.ctxs = c.ctxs := by
  unfold Capstan.startEpoch
  split
  · rfl
  · exact Capstan.note_ctxs _ _ _ _

@[simp] theorem Capstan.declareDead_ctxs (c : Capstan) (i : Nat) (stopped probeDone : Bool) : (c.declareDead i stopped probeDone).ctxs = c.ctxs := by
  unfold Capstan.declareDead
  dsimp only
  rw [Capstan.startEpoch_ctxs]
  split
  · rfl
  · exact Capstan.captureFault_ctxs _ _ _ _ _ _

/-- The Capstan's hl after a declaration while no epoch changes; a slice that did not report its stop is captured. -/
theorem Capstan.declareDead_hl {c : Capstan} (i : Nat) (stopped probeDone : Bool) (h : c.hl.epochBusy = false) :
    (c.declareDead i stopped probeDone).hl = { c.hl with
      slices := c.hl.slices.set i .deadIsolated
      deaths := c.hl.deaths ++ [c.death i probeDone]
      fault := if stopped then c.hl.fault else faultValue 0x05 i false 0xFF 0
      faultTime := if stopped then c.hl.faultTime else BitVec.ofNat 64 c.now
      epoch := (c.hl.epoch + 1) % 65536, epochBusy := true, epochAgain := false, drained := [] } := by
  unfold Capstan.declareDead
  dsimp only
  cases stopped
  · simp only [Bool.false_eq_true, if_false]
    rw [Capstan.startEpoch_hl (by rw [Capstan.captureFault_hl]; exact h), Capstan.captureFault_hl]
    rfl
  · simp only [if_true]
    rw [Capstan.startEpoch_hl (by exact h)]
    rfl

/-! ### The check (R502) -/

/-- A check that ends no probe and begins no duty declares the silent slices dead. -/
theorem State.checkBeats_declares {s : State} (hprobed : ∀ d ∈ s.cap.hl.deaths, d.probeDone = true) (hbegun : ∀ d ∈ s.cap.hl.deaths, d.begun = true) :
    s.checkBeats = (s.onCap (fun c => s.silent.foldl (fun c i => c.declareDead i (s.hasStopped i) false) c)).recheckPasses := by
  have hnone : s.cap.hl.deaths.filter (fun d => !d.probeDone && d.since + 2000 ≤ s.cap.tb.time) = [] :=
    List.filter_eq_nil_iff.mpr fun d hd => by simp [hprobed d hd]
  have hduties : s.cap.dueDuties = [] := Capstan.dueDuties_none fun d hd => by simp [hbegun d hd]
  unfold State.checkBeats
  dsimp only
  rw [hnone]
  have hsame : (s.onCap (fun c => ([] : List Death).foldl (fun c d => c.probed d.slice false) c)).beginDuties = s := State.beginDuties_none hduties
  rw [hsame]

theorem exec_heartbeatCheck_due {s : State} (hdecides : s.decides) (hready : s.cap.su.state = .ready) (hwhole : s.cap.tb.time % 2000 < 5) :
    exec .heartbeatCheck s = .next (deliverAll s.checkBeats) := by
  rw [exec_heartbeatCheck, execHeartbeatCheck, if_pos (by simp [hdecides.acts, hready, TimeBase.wholeUs, hwhole])]

theorem State.mem_silent (s : State) (i : Nat) : i ∈ s.silent ↔ i < s.cap.n ∧ s.cap.hl.slices.getD i .absent = .live ∧
    ((∃ b ∈ s.cap.hl.beats, b.1 = i ∧ b.2 + 8000 ≤ s.cap.tb.time) ∨ ∃ sl, s.slices[i]? = some sl ∧ sl.stopped = true) := by
  have hstopped : s.hasStopped i = true ↔ ∃ sl, s.slices[i]? = some sl ∧ sl.stopped = true := by
    unfold State.hasStopped
    cases s.slices[i]? <;> simp
  simp only [State.silent, Capstan.ids, Capstan.isLive, List.mem_filter, List.mem_range, Bool.and_eq_true, Bool.or_eq_true, List.any_eq_true,
    decide_eq_true_eq, hstopped]

end Sys2Proof.Machine

open Sys2Proof Sys2Proof.Machine

/-- Settles O24: a check does what `silent` says, and nothing where no slice is silent. -/
theorem heartbeatsAreWatched : Obligations.HeartbeatsAreWatched := by
  unfold Obligations.HeartbeatsAreWatched
  refine ⟨fun s i sl hat hworks hdecides hon hdue => ?_, fun s htime => ?_, fun s i hdecides hready hwhole hsettled hundrained hdeaths hsilent hbusy _ => ?_,
    fun s hdecides hready hwhole hsettled hundrained hprobed hsilent hbegun => ?_, State.mem_silent⟩
  · rw [exec_heartbeat, execHeartbeat]
    simp only [hat, hworks, hon, hdue, decide_true, Bool.and_self, Bool.not_true, Bool.false_eq_true, if_false, State.atSlice]
    rw [if_pos (by exact hdecides.acts)]
    simp [State.put, State.withCap, State.onCap, updateWhere]
  · rw [exec_heartbeatCheck, execHeartbeatCheck, if_neg (by simp [TimeBase.wholeUs, Nat.not_lt.mpr htime])]
  · have hcheck := State.checkBeats_declares (s := s) (by simp [hdeaths]) (by simp [hdeaths])
    simp only [hsilent, List.foldl_cons, List.foldl_nil] at hcheck
    have hdeclared : (s.cap.declareDead i (s.hasStopped i) false).hl = _ := Capstan.declareDead_hl i _ _ hbusy
    have hctxs := Capstan.declareDead_ctxs s.cap i (s.hasStopped i) false
    have hstill : (s.onCap (fun c => c.declareDead i (s.hasStopped i) false)).undrained := fun c hc => hundrained c (hctxs ▸ hc)
    have hquiet : (s.onCap (fun c => c.declareDead i (s.hasStopped i) false)).settled := ⟨hsettled.1, fun c hc => hsettled.2 c (hctxs ▸ hc)⟩
    rw [State.recheckPasses_still hstill] at hcheck
    refine ⟨_, s.cap.death i false, (exec_heartbeatCheck_due hdecides hready hwhole).trans
      (congrArg Host.Outcome.next ((congrArg deliverAll hcheck).trans (deliverAll_settled _ hquiet))), ?_⟩
    simp only [State.onCap, hdeclared, hdeaths, List.nil_append]
    refine ⟨trivial, trivial, rfl, rfl, rfl, rfl, trivial, trivial, trivial, fun hstopped => ?_⟩
    simp only [hstopped, Bool.false_eq_true, if_false]
    exact faultValue_class ..
  · have hcheck := State.checkBeats_declares hprobed hbegun
    simp only [hsilent, List.foldl_nil] at hcheck
    have hstill : s.checkBeats = s := hcheck.trans (State.recheckPasses_still hundrained)
    rw [exec_heartbeatCheck_due hdecides hready hwhole, hstill, deliverAll_settled _ hsettled]
end

section
/-!
The end of a slice's death (R504, R505, R508): its router's probe, its fences, and the journal that its proxy reads.
-/

namespace Sys2Proof.Machine

/-! ### Deliveries from one slice -/

theorem State.readMail_empty {s : State} {j : Nat} (h : ∀ x, s.slices[j]? = some x → x.mail = []) : s.readMail j = s := by
  unfold State.readMail
  split
  · rfl
  · next x hx =>
    have hsame : { x with mail := [] } = x := by rw [← h x hx]
    rw [h x hx, List.foldl_nil, hsame]
    exact s.put_self j x hx

/-- Where slice `i` alone has something to tell, and what it tells makes no slice tell more, the rounds deliver that. -/
theorem State.readMails_one {s : State} {i : Nat} {is : List Nat} (hi : i ∈ is) (hother : ∀ j, j ≠ i → s.readMail j = s)
    (hafter : ∀ x ∈ (s.readMail i).slices, x.mail = []) : is.foldl State.readMail s = s.readMail i := by
  induction is with
  | nil => cases hi
  | cons j js ih =>
    rw [List.foldl_cons]
    by_cases hj : j = i
    · rw [hj, State.readMails_none _ _ hafter]
    · rw [hother j hj]
      exact ih (by simpa [Ne.symm hj] using hi)

theorem deliverAll_one {s : State} {i : Nat} {sl : Slice} (hi : i < s.slices.length) (hsettled : s.settled)
    (hafter : ∀ x ∈ ((s.put i sl).readMail i).slices, x.mail = []) : deliverAll (s.put i sl) = deliver (s.put i sl) i := by
  have hother (j : Nat) (hj : j ≠ i) : (s.put i sl).readMail j = s.put i sl := by
    refine State.readMail_empty fun x hx => ?_
    rw [State.put, List.getElem?_set_ne (Ne.symm hj)] at hx
    exact s.mail_of j x hx hsettled
  unfold deliver deliverAll
  dsimp only
  rw [State.readMails_one (i := i) (by simp [State.put, hi]) hother hafter, State.readMails_none _ _ hafter]

/-- As `deliver_fault`, where the rounds find the fault's notice. -/
theorem deliverAll_fault {s : State} {i cls slice unit : Nat} {sl : Slice} (hi : i < s.slices.length) (hsettled : s.settled) (hdecides : s.decides)
    (hmail : sl.mail = [.fault slice cls unit none]) :
    deliverAll (s.put i sl) = { s.put i { sl with mail := [] } with
      fresh := s.fresh + 1, cap := s.cap.captureFault cls slice false unit ((Config.freeBits s.fresh).toNat % 2 ^ 32) } := by
  obtain ⟨-, hrestart, hfailed⟩ := id hdecides
  have hread : ((s.put i sl).readMail i).slices = (s.put i { sl with mail := [] }).slices := by
    simp [State.readMail, State.put, hi, hmail, State.notify, Notice.toCapstan, hrestart, hfailed, State.capTakes]
  rw [deliverAll_one hi hsettled (hread ▸ (s.settled_put i { sl with mail := [] } hsettled rfl).1), deliver_fault hi hsettled hdecides hmail]

/-! ### A slice that a change leaves as it is -/

theorem State.atSlice_eq {s : State} {i : Nat} {sl : Slice} {f : Capstan → Slice → Slice} (h : s.slices[i]? = some sl) :
    s.atSlice i f = s.put i (f (sl.view s.cap) sl) := by
  simp only [State.atSlice, h, State.put]

theorem State.atSlice_same {s : State} {i : Nat} {f : Capstan → Slice → Slice} (h : ∀ sl, s.slices[i]? = some sl → f (sl.view s.cap) sl = sl) :
    s.atSlice i f = s := by
  cases hat : s.slices[i]? with
  | none => simp only [State.atSlice, hat]
  | some sl => rw [State.atSlice_eq hat, h sl hat, s.put_self i sl hat]

/-! ### The choice of a proxy (R508) -/

/-- The best of a list by some comparison stands in the list. -/
theorem foldl_best_mem {f : Option Nat → Nat → Option Nat} (hf : ∀ b x, f b x = b ∨ f b x = some x) {xs : List Nat} {b : Option Nat} {r : Nat}
    (h : xs.foldl f b = some r) : b = some r ∨ r ∈ xs := by
  induction xs generalizing b with
  | nil => exact .inl h
  | cons x xs ih =>
    rcases ih h with hx | hx
    · rcases hf b x with hb | hb
      · exact .inl (hb ▸ hx)
      · rw [hb] at hx
        cases hx
        exact .inr List.mem_cons_self
    · exact .inr (List.mem_cons_of_mem _ hx)

theorem Capstan.proxyFor_live {c : Capstan} {dead p : Nat} (h : c.proxyFor dead = some p) : c.isLive p = true := by
  unfold Capstan.proxyFor at h
  have hmem := (foldl_best_mem (fun b x => by cases b <;> grind) h).resolve_left (by simp)
  simp only [List.mem_filter, Bool.and_eq_true] at hmem
  exact hmem.2.1.1

/-- A dead slice's proxy is live. -/
theorem Capstan.assignProxy_live {c : Capstan} {dead p : Nat} (h : (dead, p) ∈ (c.assignProxy dead).hl.proxies) : c.isLive p = true := by
  unfold Capstan.assignProxy at h
  dsimp only at h
  split at h
  · next q hq =>
    rcases List.mem_append.mp h with h | h
    · obtain ⟨x, hx, hsame⟩ := List.mem_map.mp h
      have hne : x.1 ≠ dead := by simpa using (List.mem_filter.mp hx).2
      split at hsame <;> exact absurd (congrArg Prod.fst hsame) hne
    · simp only [List.mem_singleton, Prod.mk.injEq, true_and] at h
      exact h ▸ Capstan.proxyFor_live hq
  · rw [Capstan.captureFault_hl] at h
    simp at h

/-- A proxy's choice changes the proxies and, without one, the fault. -/
theorem Capstan.assignProxy_hl (c : Capstan) (dead : Nat) : (c.assignProxy dead).hl.deaths = c.hl.deaths ∧ (c.assignProxy dead).hl.slices = c.hl.slices := by
  unfold Capstan.assignProxy
  dsimp only
  split
  · exact ⟨rfl, rfl⟩
  · rw [Capstan.captureFault_hl]
    exact ⟨rfl, rfl⟩

/-! ### Probe and fences (R504, R505) -/

theorem updateWhere_one {α : Type} {p : α → Bool} {f : α → α} {x : α} (h : p x = true) : updateWhere p f [x] = [f x] := by
  simp [updateWhere, h]

theorem Capstan.onDeath_one {c : Capstan} {i : Nat} {d : Death} (f : Death → Death) (h : c.hl.deaths = [d]) (hd : d.slice = i) :
    c.onDeath i f = { c with hl := { c.hl with deaths := [f d] } } := by
  have hone : updateWhere (fun d => decide (d.slice = i)) f [d] = [f d] := updateWhere_one (decide_eq_true hd)
  unfold Capstan.onDeath
  rw [h, hone]

theorem exec_fencesConfirmed_acks {s : State} {i : Nat} {d : Death} (mesh mem : Bool) (hpower : s.cap.su.power = .running) (hfailed : s.cap.hl.failed = false)
    (hdeaths : s.cap.hl.deaths = [d]) (hd : d.slice = i) : exec (.fencesConfirmed i mesh mem) s =
      .next (s.withCap { s.cap with hl := { s.cap.hl with deaths := [d.ack mesh mem] } }).beginDuties := by
  rw [exec_fencesConfirmed, execFencesConfirmed, if_neg (by simp [hpower, hfailed]), State.onCap, Capstan.onDeath_one _ hdeaths hd]
  rfl

theorem State.takeCasks_nothing {s : State} {i p : Nat} {sl : Slice} (h : s.slices[i]? = some sl) (hcasks : sl.store.casks = []) (hmaps : sl.store.maps = []) :
    s.takeCasks i p = s := by
  have hdead : s.atSlice i (fun _ sl => { sl with store := { sl.store with
      casks := sl.store.casks.filter (fun k => !s.cap.isActive k.ctx), maps := [] } }) = s := by
    refine State.atSlice_same fun x hx => ?_
    cases hx.symm.trans h
    have hstore : ({ sl.store with casks := sl.store.casks.filter (fun k => !s.cap.isActive k.ctx), maps := [] } : Store) = sl.store := by
      rw [hcasks, List.filter_nil, ← hcasks, ← hmaps]
    rw [hstore]
  simp only [State.takeCasks, h, hdead, hcasks, hmaps, List.filter_nil, List.foldl_nil, List.append_nil]
  rw [State.atSlice_same fun _ _ => rfl, State.atSlice_same fun _ _ => rfl]

/-! ### The probe (R504) -/

theorem Capstan.probed_hl {c : Capstan} {i : Nat} {d : Death} (pass : Bool) (h : c.hl.deaths = [d]) (hd : d.slice = i) :
    (c.probed i pass).hl.deaths = [{ d with probeDone := true }] ∧
      (c.probed i pass).hl.slices = c.hl.slices.set i (if pass then .deadPass else .deadIsolated) := by
  unfold Capstan.probed
  dsimp only
  rw [Capstan.onDeath_one _ (by exact h) hd]
  exact Capstan.assignProxy_hl _ _

theorem Capstan.probed_live {c : Capstan} {i p : Nat} {pass : Bool} (h : (i, p) ∈ (c.probed i pass).hl.proxies) :
    (c.probed i pass).hl.slices.getD p .absent = .live := by
  have hlive := Capstan.assignProxy_live h
  unfold Capstan.probed
  dsimp only
  rw [(Capstan.assignProxy_hl _ _).2]
  simpa [Capstan.isLive] using hlive

/-- Whether a probe's answer leaves the router in pass-through. -/
def State.probePasses (s : State) (d : Death) (clean : Bool) : Bool := clean && decide (s.cap.tb.time ≤ d.since + 2000)

/-- A probe's answer while the die's fences are not confirmed: no duty begins. -/
theorem exec_routerProbeAnswer_probed {s : State} {i : Nat} {d : Death} (clean : Bool) (hdecides : s.decides) (hdeaths : s.cap.hl.deaths = [d])
    (hd : d.slice = i) (hprobe : d.probeDone = false) (hfenced : d.fenced = false) : exec (.routerProbeAnswer i clean) s =
      .next ((if s.probePasses d clean then s.atSlice i (fun _ sl => sl.passThrough) else s).withCap (s.cap.probed i (s.probePasses d clean))) := by
  have hfound : s.cap.hl.deaths.find? (fun d => d.slice = i && !d.probeDone) = some d := by simp [hdeaths, hd, hprobe]
  have hnone (t : State) : (t.withCap (s.cap.probed i (s.probePasses d clean))).beginDuties = t.withCap (s.cap.probed i (s.probePasses d clean)) := by
    refine State.beginDuties_none (Capstan.dueDuties_none ?_)
    rw [State.withCap, (Capstan.probed_hl _ hdeaths hd).1]
    simp [hfenced]
  rw [exec_routerProbeAnswer, execRouterProbeAnswer, hfound]
  refine (if_pos hdecides.acts).trans (congrArg Host.Outcome.next ?_)
  rw [← hnone]
  refine congrArg State.beginDuties ?_
  change State.onCap (if s.probePasses d clean then _ else s) _ = _
  split
  · unfold State.atSlice
    split <;> rfl
  · rfl

theorem State.atSlice_slices (s : State) (i : Nat) (f : Slice → Slice) : (s.atSlice i (fun _ sl => f sl)).slices = updateAt f i s.slices := by
  cases hat : s.slices[i]? with
  | none =>
    simp only [State.atSlice, hat]
    refine List.ext_getElem? fun j => ?_
    rw [updateAt_getElem?]
    split
    · next hj => rw [hj, hat]; rfl
    · rfl
  | some sl => rw [State.atSlice_eq hat, State.put, updateAt_eq_set hat]

/-! ### The journal (R505) -/

/-- FAULT_N is low from the first JOURNAL_LOST, NO_PROXY or failed restart on. -/
theorem Capstan.captureFault_su (c : Capstan) (cls slice : Nat) (inCapstan : Bool) (unit detail : Nat) :
    (c.captureFault cls slice inCapstan unit detail).su = { c.su with faultLow := c.su.faultLow || cls = 0x0A || cls = 0x0B || cls = 0x0C } := by
  unfold Capstan.captureFault
  dsimp only
  split
  · rw [Capstan.note_su]
  · rw [Capstan.event_su, Capstan.note_su]

theorem Capstan.captureFault_low (c : Capstan) {cls : Nat} (slice : Nat) (inCapstan : Bool) (unit detail : Nat)
    (h : cls = 0x0A ∨ cls = 0x0B ∨ cls = 0x0C) : (c.captureFault cls slice inCapstan unit detail).su.faultLow = true := by
  rw [Capstan.captureFault_su]
  rcases h with rfl | rfl | rfl <;> simp

/-- A dead slice that its journal says nothing of, and that left nothing to adopt. -/
structure Slice.LeftNothing (sl : Slice) : Prop where
  batches : sl.ing.batches = []
  pendq : sl.ing.pendq = []
  fromJournal : sl.ing.fromJournal = []
  adopting : sl.ing.adopting = []

theorem Slice.adoptWaiting_none (env : Capstan) (sl : Slice) (h : sl.ing.fromJournal = []) : sl.adoptWaiting env = sl := by
  unfold Slice.adoptWaiting
  rw [h]
  rfl

/-- Where every entry came poisoned, and the dead slice left nothing, the proxy adopts nothing: it tells what is lost. -/
theorem Slice.takeJournal_poisoned {sl dead : Slice} (env : Capstan) {entries : List (Option JournalRead)} (hentries : ∀ e ∈ entries, e = none)
    (h : dead.LeftNothing) (hown : sl.ing.fromJournal = []) :
    sl.takeJournal env dead entries = entries.foldl (fun sl e => sl.journalLost dead.id e) sl := by
  have hbad : entries.filter (fun e => !(e.any (fun x => journalSound x || x.jstate = 0))) = entries :=
    List.filter_eq_self.mpr fun e he => by cases hentries e he; rfl
  have hsound : entries.filterMap (fun e => e.filter journalSound) = [] :=
    List.filterMap_eq_nil_iff.mpr fun e he => by cases hentries e he; rfl
  have hing (es : List (Option JournalRead)) (x : Slice) : (es.foldl (fun sl e => sl.journalLost dead.id e) x).ing = x.ing := by
    induction es generalizing x with
    | nil => rfl
    | cons e es ih => exact ih _
  have hfree : dead.freeItems ([] : List JournalRead) = [] := by simp [Slice.freeItems, h.batches, h.pendq]
  have horder : journalOrder [] = [] := rfl
  unfold Slice.takeJournal
  dsimp only
  rw [hbad, hsound, horder, hfree, h.adopting, h.fromJournal]
  have hnone := (congrArg Ingress.fromJournal (hing entries sl)).trans hown
  generalize entries.foldl (fun sl e => sl.journalLost dead.id e) sl = x at hnone
  simp only [List.foldl_nil, List.filter_nil, List.map_nil, List.append_nil]
  exact x.adoptWaiting_none env hnone

/-- What a journal read leaves in the Capstan before the proxy's notices. -/
def Capstan.journalRead (c : Capstan) (d : Death) (p : Nat) : Capstan :=
  { c with hl := { c.hl with deaths := [{ d with read := true }] }
           ctxs := c.ctxs.map (fun (x : Ctx) => { x with emptied := x.emptied.filter (· != p) }) }

theorem exec_journalReadDone_due {s : State} {die p : Nat} {d : Death} {dead sl : Slice} (entries : List (Option JournalRead))
    (hdeaths : s.cap.hl.deaths = [d]) (hd : d.slice = die) (hbegun : d.begun = true) (hread : d.read = false) (hproxies : s.cap.hl.proxies = [(die, p)])
    (hdead : s.slices[die]? = some dead) (hworking : s.working p sl) :
    exec (.journalReadDone die entries) s = .next (deliverAll ((s.withCap (s.cap.journalRead d p)).atSlice p
      (fun env sl => (sl.takeJournal env dead entries).awaken))).recheckPasses := by
  obtain ⟨hat, hworks, -, -⟩ := hworking
  have hdue : s.cap.hl.deaths.any (fun d => d.slice = die && d.begun && !d.read) = true := by simp [hdeaths, hd, hbegun, hread]
  have hproxy : s.cap.hl.proxies.find? (fun x => x.1 = die) = some (die, p) := by simp [hproxies]
  rw [exec_journalReadDone, execJournalReadDone]
  simp only [hdue, hproxy, hdead, hat, Option.any_some, hworks, Bool.not_true, Bool.or_self, Bool.false_eq_true, if_false]
  simp only [State.onCap, Capstan.onDeath_one _ hdeaths hd]
  rfl

theorem State.journalRead_settled {s : State} {d : Death} {p : Nat} (h : s.settled) : (s.withCap (s.cap.journalRead d p)).settled := by
  refine ⟨h.1, fun c hc => ?_⟩
  obtain ⟨x, hx, rfl⟩ := List.mem_map.mp hc
  exact h.2 x hx

theorem State.journalRead_undrained {s : State} {d : Death} {p : Nat} (h : s.undrained) : (s.withCap (s.cap.journalRead d p)).undrained := by
  intro c hc
  obtain ⟨x, hx, rfl⟩ := List.mem_map.mp hc
  exact h x hx

end Sys2Proof.Machine

open Sys2Proof Sys2Proof.Machine

/-- Settles O25: the probe's answer decides the state of the router and the proxy is chosen; duties begin as `dueDuties` says; a journal without a
sound entry leaves its losses to tell. -/
theorem probesFencesAndJournalsEnd : Obligations.ProbesFencesAndJournalsEnd := by
  unfold Obligations.ProbesFencesAndJournalsEnd
  refine ⟨⟨fun s i d clean hdecides hdeaths hd hprobe hfenced => ?_, fun s i d hpower hfailed hdeaths hd hprobe => ?_,
    fun s i d mesh hpower hfailed hdeaths hd hfenced hother => ?_, fun s i p d sl hpower hfailed hdeaths hd hprobe hbegun hproxies hat hcasks hmaps => ?_⟩,
    fun s die p d dead sl hsettled hdecides hdeaths hd hbegun hread hproxies hne hdead hworking hb hq hj ha hown hundrained => ?_,
    fun s die p d dead sl hsettled hdecides hdeaths hd hbegun hread hproxies hne hdead hworking hid hb hq hj ha hown hundrained => ?_⟩
  · obtain ⟨hread, hstates⟩ := s.cap.probed_hl (s.probePasses d clean) hdeaths hd
    refine ⟨_, exec_routerProbeAnswer_probed clean hdecides hdeaths hd hprobe hfenced, ?_, hread, hstates, fun p => Capstan.probed_live⟩
    change (if s.probePasses d clean then _ else s).slices = if s.probePasses d clean then _ else _
    split
    · exact State.atSlice_slices _ _ _
    · rfl
  · have hacked : d.ack true true = { d with meshAck := true, memAck := true, fenced := true } := by simp [Death.ack]
    rw [exec_fencesConfirmed_acks true true hpower hfailed hdeaths hd, hacked, State.beginDuties_none (Capstan.dueDuties_none ?_)]
    simp [State.withCap, hprobe]
  · have hacked : d.ack mesh (!mesh) = { d with meshAck := d.meshAck || mesh, memAck := d.memAck || !mesh } := by
      cases mesh <;> simp_all [Death.ack]
    rw [exec_fencesConfirmed_acks mesh (!mesh) hpower hfailed hdeaths hd, hacked, State.beginDuties_none (Capstan.dueDuties_none ?_)]
    simp [State.withCap, hfenced]
  · have hacked : d.ack true true = { d with meshAck := true, memAck := true, fenced := true } := by simp [Death.ack]
    rw [exec_fencesConfirmed_acks true true hpower hfailed hdeaths hd, hacked]
    generalize hone : s.withCap { s.cap with hl := { s.cap.hl with deaths := [{ d with meshAck := true, memAck := true, fenced := true }] } } = t
    have hdeath : t.cap.hl.deaths = [{ d with meshAck := true, memAck := true, fenced := true }] := by subst hone; rfl
    have hdue : t.cap.dueDuties = [(i, p)] := by subst hone; simp [Capstan.dueDuties, State.withCap, hproxies, hd, hprobe, hbegun]
    have hcasks' : t.takeCasks i p = t := by subst hone; exact State.takeCasks_nothing hat hcasks hmaps
    unfold State.beginDuties
    rw [hdue, List.foldl_cons, List.foldl_nil, hcasks', State.onCap, Capstan.onDeath_one _ hdeath hd, ← hone]
    rfl
  · have hquiet := State.journalRead_settled (d := d) (p := p) hsettled
    have hsame : (s.withCap (s.cap.journalRead d p)).atSlice p (fun env sl => (sl.takeJournal env dead []).awaken) = s.withCap (s.cap.journalRead d p) := by
      refine State.atSlice_same fun x hx => ?_
      cases hx.symm.trans hworking.1
      rw [Slice.takeJournal_poisoned _ (by simp) ⟨hb, hq, hj, ha⟩ hown]
      simp [Slice.awaken, Slice.wake, hworking.2.2.1]
    refine ⟨_, exec_journalReadDone_due [] hdeaths hd hbegun hread hproxies hdead hworking, ?_⟩
    rw [hsame, deliverAll_settled _ hquiet, State.recheckPasses_still (State.journalRead_undrained hundrained)]
    exact ⟨rfl, rfl, rfl⟩
  · have hquiet := State.journalRead_settled (d := d) (p := p) hsettled
    have hlost : (sl.takeJournal (sl.view (s.cap.journalRead d p)) dead [none]).awaken = sl.tell (.fault die 0x0A 0xFF none) := by
      rw [Slice.takeJournal_poisoned _ (by simp) ⟨hb, hq, hj, ha⟩ hown]
      simp [Slice.awaken, Slice.wake, Slice.journalLost, hid, hworking.2.2.1]
    refine ⟨_, exec_journalReadDone_due [none] hdeaths hd hbegun hread hproxies hdead hworking, ?_⟩
    rw [State.atSlice_eq (by exact hworking.1)]
    have hlt : p < s.slices.length := (List.getElem?_eq_some_iff.mp hworking.1).1
    have hmail : sl.mail = [] := s.mail_of p sl hworking.1 hsettled
    have htold : (sl.tell (.fault die 0x0A 0xFF none)).mail = [.fault die 0x0A 0xFF none] := by rw [Slice.tell_mail, hmail]; rfl
    have hfault := deliverAll_fault (s := s.withCap (s.cap.journalRead d p)) (i := p) hlt hquiet hdecides htold
    have hstill : ∀ c ∈ (deliverAll ((s.withCap (s.cap.journalRead d p)).put p (sl.tell (.fault die 0x0A 0xFF none)))).cap.ctxs, c.pass ≠ .draining := by
      rw [hfault]
      exact fun c hc => State.journalRead_undrained hundrained c (Capstan.captureFault_ctxs .. ▸ hc)
    have hslice : (sl.takeJournal (sl.view (s.withCap (s.cap.journalRead d p)).cap) dead [none]).awaken = _ := hlost
    rw [hslice, State.recheckPasses_still hstill, hfault]
    have hhl := Capstan.captureFault_hl (s.cap.journalRead d p) 0x0A die false 0xFF ((Config.freeBits s.fresh).toNat % 2 ^ 32)
    refine ⟨congrArg (·.deaths) hhl, ?_, ?_⟩
    · exact (congrArg (fun x : Health => x.fault.toNat / 256 % 256) hhl).trans (faultValue_class ..)
    · exact Capstan.captureFault_low _ _ _ _ _ (.inl rfl)
end

section
/-!
Epoch changes (R414 to R417, R506) at a slice whose links are idle, and the end of a change.
-/

namespace Sys2Proof.Machine

theorem Slice.wake_unless {sl : Slice} (h : sl.pwr.napping = false) : sl.wake = sl := if_neg (by simp [h])

/-! ### A slice receives the epoch (R415 steps 2 to 7) -/

/-- Without messages to send no credits go back. -/
theorem Slice.refund_idle {sl : Slice} (h : sl.rope.sendq = []) : sl.refund = sl := by
  unfold Slice.refund
  dsimp only
  rw [h, List.filter_nil, List.foldl_nil, List.filter_nil, ← h]

/-- What links that are idle ask of a port. -/
def Port.idle (p : Port) : Prop := p.buf = [] ∧ p.creditDue = false ∧ ∀ n ∈ p.owed, n < 32

theorem Port.idle_zero {p : Port} (hbuf : p.buf = []) (hdue : p.creditDue = false) (howed : p.owed = [0, 0, 0]) : p.idle :=
  ⟨hbuf, hdue, by rw [howed]; decide⟩

theorem Port.dropPartial_buf {p : Port} (h : p.buf = []) : p.dropPartial.buf = [] := by
  unfold Port.dropPartial
  dsimp only
  rw [h]
  rfl

theorem Port.epochChange_idle {p : Port} (c : Capstan) (i k : Nat) (h : p.idle) : (p.epochChange c i k).idle := by
  obtain ⟨hbuf, hdue, howed⟩ := h
  unfold Port.epochChange
  split
  · exact ⟨hbuf, hdue, howed⟩
  · split
    · exact Port.idle_zero (Port.dropPartial_buf hbuf) rfl rfl
    · split
      · exact ⟨Port.dropPartial_buf hbuf, hdue, howed⟩
      · exact ⟨hbuf, hdue, howed⟩

theorem mem_map_indexed {α β : Type} {f : Nat × α → β} {xs : List α} {y : β} (h : y ∈ (indexed xs).map f) : ∃ e : Nat × α, e.2 ∈ xs ∧ f e = y := by
  obtain ⟨e, he, hy⟩ := List.mem_map.mp h
  exact ⟨e, mem_indexed he, hy⟩

/-- A slice's Rope after cut-through and the ports' change, with the new epoch. -/
def Slice.newEpoch (env : Capstan) (sl : Slice) : RopePort :=
  let cut := sl.cutThrough env
  { cut.rope with epoch := env.hl.epoch, hold := true, drained := false, sendq := []
                  ports := (indexed cut.rope.ports).map (fun (e : Nat × Port) => e.2.epochChange env sl.id e.1) }

theorem Slice.epochChange_idle {sl : Slice} (env : Capstan) (h : sl.linksIdle) :
    sl.epochChange env = ({ sl with rope := sl.newEpoch env }).count 0x508 0 none 1 := by
  obtain ⟨hsend, hports⟩ := h
  have hcut : (sl.cutThrough env).rope.sendq = [] := hsend
  have hchanged : sl.epochChange env = (({ sl with rope := sl.newEpoch env }).count 0x508 0 none 1).pump env := by
    unfold Slice.epochChange
    dsimp only
    rw [Slice.refund_idle hsend, hcut, List.filter_nil]
    rfl
  rw [hchanged]
  refine Slice.pump_idle _ _ ⟨rfl, fun p hp => ?_⟩
  obtain ⟨e, he, rfl⟩ := mem_map_indexed hp
  obtain ⟨f, hf, hsame⟩ := mem_map_indexed he
  exact Port.epochChange_idle _ _ _ (by rw [← hsame]; exact hports f.2 hf)

/-! ### The last report (R415 step 9) -/

theorem exec_epochDrainReport_due {s : State} {i : Nat} {sl : Slice} (h : s.working i sl) (hfailed : s.cap.hl.failed = false)
    (hbusy : s.cap.hl.epochBusy = true) (hhold : sl.rope.hold = true) (hepoch : sl.rope.epoch = s.cap.hl.epoch) (hdrained : s.drainedAt sl = true) :
    exec (.epochDrainReport i) s = .next (deliverAll (s.reportDrained i).endIfDrained.recheckPasses) := by
  obtain ⟨hat, hworks, -, -⟩ := h
  rw [exec_epochDrainReport, execEpochDrainReport]
  simp [hat, hworks, hfailed, hbusy, hhold, hepoch, hdrained]

theorem State.reportDrained_eq {s : State} {i : Nat} {sl : Slice} (h : s.slices[i]? = some sl) :
    s.reportDrained i = (s.put i { sl with rope := { sl.rope with drained := true } }).withCap { s.cap with hl := { s.cap.hl with
      drained := if i ∈ s.cap.hl.drained then s.cap.hl.drained else s.cap.hl.drained ++ [i] } } := by
  unfold State.reportDrained
  rw [State.atSlice_eq h]
  rfl

/-- The state once the messages of the old epoch are gone and no change is under way. -/
def State.changeEnded (s : State) : State :=
  { s with rope := s.rope.filter (fun m => !s.isOld m && s.cap.isLive m.dest)
           cap := { s.cap with hl := { s.cap.hl with epochBusy := false, drained := [] } } }

/-- What follows the end: the tables, a change that arose meanwhile, and the slices that cannot be reached. -/
def State.followEnd (s : State) (again : Bool) (far : List Nat) : State :=
  (((s.writeTables.onCap (fun c => if again then c.startEpoch else c)).eachSlice (fun _ sl => if sl.id ∈ far then { sl with stopped := true } else sl)).onCap
    (fun c => far.foldl (fun c i => (c.declareDead i false true).probed i false) c)).beginDuties

theorem State.endEpoch_eq (s : State) : s.endEpoch = s.changeEnded.followEnd s.cap.hl.epochAgain s.cap.unreachable := rfl

theorem State.writeTables_cap (s : State) : s.writeTables.cap = s.cap := rfl

theorem State.followEnd_alone {s : State} (h : s.cap.hl.deaths = []) : s.followEnd false [] = s.writeTables := by
  have hstop : s.writeTables.eachSlice (fun _ sl => if sl.id ∈ ([] : List Nat) then { sl with stopped := true } else sl) = s.writeTables := by
    simp [State.eachSlice]
  have hduties : s.writeTables.beginDuties = s.writeTables :=
    State.beginDuties_none (Capstan.dueDuties_none (by rw [State.writeTables_cap, h]; simp))
  exact (congrArg State.beginDuties hstop).trans hduties

theorem State.changeEnded_rope (s : State) : ∀ m ∈ s.changeEnded.rope, m.src = m.dest ∨ m.epoch = s.cap.hl.epoch := by
  intro m hm
  have hnew := (List.mem_filter.mp hm).2
  simp only [State.isOld, Bool.and_eq_true, Bool.not_eq_true', Bool.and_eq_false_iff, bne_eq_false_iff_eq] at hnew
  exact hnew.1

/-- The last report ends the change, and no other follows. -/
theorem State.endIfDrained_last {s : State} (hdecides : s.decides) (hbusy : s.cap.hl.epochBusy = true)
    (hlast : ∀ k, k < s.cap.n ∧ s.cap.hl.slices.getD k .absent = .live → k ∈ s.cap.hl.drained) (hagain : s.cap.hl.epochAgain = false)
    (hreach : s.cap.unreachable = []) (hdeaths : s.cap.hl.deaths = []) : s.endIfDrained = s.changeEnded.writeTables := by
  have hall : (s.cap.ids.filter s.cap.isLive).all (fun i => decide (i ∈ s.cap.hl.drained)) = true := by
    refine List.all_eq_true.mpr fun k hk => decide_eq_true (hlast k ?_)
    simpa [Capstan.ids, Capstan.isLive] using hk
  rw [State.endIfDrained, if_pos (by simp [hdecides.acts, hbusy, hall]), State.endEpoch_eq, hagain, hreach, State.followEnd_alone (by exact hdeaths)]

/-! ### HOLD is cleared (R506) -/

theorem Packet.without_members {p : Query → Bool} {x y : Packet} (h : x.without p = some y) : ∀ q ∈ y.members, p q = false := by
  unfold Packet.without at h
  dsimp only at h
  split at h
  · cases h
  · cases h
    intro q hq
    simpa using (List.mem_filter.mp hq).2

theorem Mash.without_members (p : Query → Bool) (m : Mash) : ∀ q, ((∃ b ∈ (m.without p).bins, q ∈ b.members) ∨
    (∃ o ∈ (m.without p).overflow, q ∈ o.2.2) ∨ (∃ g ∈ (m.without p).gathers, q ∈ g.members) ∨ q ∈ (m.without p).gatherWait) → p q = false := by
  intro q hq
  simp only [Mash.without, List.mem_filter, List.mem_map] at hq
  rcases hq with ⟨_, ⟨⟨b, -, rfl⟩, -⟩, hb⟩ | ⟨_, ⟨⟨o, -, rfl⟩, -⟩, ho⟩ | ⟨_, ⟨⟨g, -, rfl⟩, -⟩, hg⟩ | hw
  · simpa using (List.mem_filter.mp hb).2
  · simpa using (List.mem_filter.mp ho).2
  · simpa using (List.mem_filter.mp hg).2
  · simpa using hw.2

theorem Walker.without_members {p : Query → Bool} {w : Walker} {q : Query}
    (h : q ∈ (w.without p).work.toList.flatMap (·.members) ∨ q ∈ (w.without p).parked.flatMap (·.members)) : p q = false := by
  simp only [Walker.without, List.mem_flatMap, Option.mem_toList, Option.bind_eq_some_iff, List.mem_filterMap] at h
  rcases h with ⟨y, ⟨x, -, hx⟩, hq⟩ | ⟨y, ⟨x, -, hx⟩, hq⟩
  · exact Packet.without_members hx q hq
  · exact Packet.without_members hx q hq

theorem Job.without_rows {p : Query → Bool} {j : Job} {q : Query} (h : q ∈ (j.without p).rows ∨ q ∈ (j.without p).waiting) : p q = false := by
  rcases h with h | h
  · simpa using (List.mem_filter.mp h).2
  · simpa using (List.mem_filter.mp h).2

/-- Queries that are removed are gone, wherever they stood. -/
theorem Slice.removeQueries_queries (sl : Slice) (p : Query → Bool) : ∀ q ∈ (sl.removeQueries p).1.queries, p q = false := by
  intro q hq
  simp only [Slice.removeQueries, Slice.dropRestores, Slice.dropBlocks, Slice.queries, List.mem_append, List.mem_flatMap, or_assoc] at hq
  rcases hq with h | h | h | h | h | ⟨r, hr, h⟩ | ⟨w, hw, h⟩ | ⟨j, hj, h⟩ | ⟨x, hx, h⟩
  · exact sl.mash.without_members p q (.inl h)
  · exact sl.mash.without_members p q (.inr (.inl h))
  · exact sl.mash.without_members p q (.inr (.inr (.inl h)))
  · exact sl.mash.without_members p q (.inr (.inr (.inr h)))
  · simpa using (List.mem_filter.mp h).2
  · simp only [Work.without, List.mem_filter, List.mem_map] at hr
    obtain ⟨⟨y, -, rfl⟩, -⟩ := hr
    simpa using (List.mem_filter.mp h).2
  · have hwalker : ∃ y, Walker.without p y = w := by
      rcases hw with hw | hw
      · exact (List.mem_map.mp hw).imp fun _ h => h.2
      · exact (List.mem_map.mp hw).imp fun _ h => h.2
    obtain ⟨y, rfl⟩ := hwalker
    exact Walker.without_members (by simpa using h)
  · have hjob : ∃ y, Job.without p y = j := by
      rcases hj with hj | hj
      · exact (List.mem_map.mp hj).imp fun _ h => h.2
      · exact (List.mem_map.mp hj).imp fun _ h => h.2
    obtain ⟨y, rfl⟩ := hjob
    exact Job.without_rows h
  · obtain ⟨y, -, rfl⟩ := List.mem_map.mp hx
    obtain ⟨m, hm, hq⟩ := List.mem_filterMap.mp h
    have hkept : (m.pointer?.any (fun q => p (q.arriveAt sl.id))) = false := by
      rcases List.mem_append.mp hm with hm | hm
      · simpa using (List.mem_filter.mp hm).2
      · simpa using (List.mem_filter.mp hm).2
    obtain ⟨z, hz, rfl⟩ := Option.map_eq_some_iff.mp hq
    simpa [hz] using hkept

/-- What a slice keeps as it discards what is not its own. -/
theorem Slice.discardOthers_kept (env : Capstan) (sl : Slice) : (sl.discardOthers env).mail = sl.mail ∧ (sl.discardOthers env).ing = sl.ing ∧
    (sl.discardOthers env).cache = sl.cache ∧ (sl.discardOthers env).id = sl.id ∧ (sl.discardOthers env).pwr = sl.pwr ∧
      (sl.discardOthers env).rope.hold = sl.rope.hold := ⟨rfl, rfl, rfl, rfl, rfl, rfl⟩

theorem Slice.discardOthers_idle {sl : Slice} (env : Capstan) (h : sl.linksIdle) : (sl.discardOthers env).linksIdle := by
  obtain ⟨hsend, hports⟩ := h
  refine ⟨?_, fun p hp => ?_⟩
  · show sl.rope.sendq.filter _ = []
    rw [hsend, List.filter_nil]
  · obtain ⟨x, hx, rfl⟩ := List.mem_map.mp (show p ∈ sl.rope.ports.map _ from hp)
    exact hports x hx

theorem Slice.discardOthers_queries (env : Capstan) (sl : Slice) : ∀ q ∈ (sl.discardOthers env).queries, q.home = sl.id := by
  intro q hq
  have := sl.removeQueries_queries (fun q => q.home != sl.id) q hq
  simpa using this

theorem Slice.discardOthers_entries (env : Capstan) (sl : Slice) : ∀ e ∈ (sl.discardOthers env).store.entries, e.home = sl.id := by
  intro e he
  have hkept : e ∈ sl.store.entries.filter (fun e => !(e.home != sl.id)) := he
  simpa using (List.mem_filter.mp hkept).2

theorem Slice.clearHold_idle {sl : Slice} (env : Capstan) (hbatches : sl.ing.batches = []) (hmaint : sl.ing.maintOut = []) (h : sl.linksIdle) :
    sl.clearHold env = ({ sl with rope := { sl.rope with hold := false } }).discardOthers env := by
  have hidle : ({ sl with rope := { sl.rope with hold := false } } : Slice).linksIdle := h
  have hidle' := Slice.discardOthers_idle env hidle
  unfold Slice.clearHold
  dsimp only
  generalize hx : ({ sl with rope := { sl.rope with hold := false } } : Slice).discardOthers env = x at hidle' ⊢
  have hing : x.ing = sl.ing := hx ▸ rfl
  rw [hing, hbatches, List.filter_nil, List.map_nil, List.foldl_nil, hing, hmaint, List.foldl_nil]
  exact Slice.pump_idle _ _ hidle'

end Sys2Proof.Machine

open Sys2Proof Sys2Proof.Machine

/-- Settles O26: the slice's Rope alone takes the new epoch; the last report ends the change; what is not a slice's own goes as its HOLD does. -/
theorem epochsChangeAndEnd : Obligations.EpochsChangeAndEnd := by
  unfold Obligations.EpochsChangeAndEnd
  refine ⟨⟨fun s i sl hworking hdecides hbusy hepoch hprobed hidle => ?_,
    fun s i j sl hworking hfailed hbusy hhold hepoch hdrained hundrained hfirst hj hlive hne hj' => ?_,
    fun s i sl hworking hdecides hbusy hagain hhold hepoch hdrained hundrained hlast hreach hdeaths => ?_⟩,
    fun s i sl hworking hdecides hid hhold hbusy hepoch hbatches hmaint hidle hundrained => ?_⟩
  · obtain ⟨hat, hworks, hawake, hsettled⟩ := hworking
    have hcond : (sl.works (sl.view s.cap) && (sl.view s.cap).acts && (sl.view s.cap).hl.epochBusy && sl.rope.epoch != (sl.view s.cap).hl.epoch &&
        (sl.view s.cap).hl.deaths.all (fun d => d.probeDone)) = true := by
      have hworks' : sl.works (sl.view s.cap) = true := hworks
      have hacts : (sl.view s.cap).acts = true := hdecides.acts
      rw [hworks', hacts, show (sl.view s.cap).hl = s.cap.hl from rfl]
      simpa [hbusy, hepoch] using hprobed
    have hchange := Slice.epochChange_idle (sl.view s.cap) hidle
    have hmail : ((sl.epochChange (sl.view s.cap)).wake).mail = [] := by
      rw [hchange, Slice.wake_unless (by exact hawake)]
      exact s.mail_of i sl hat hsettled
    refine ⟨(sl.epochChange (sl.view s.cap)).wake, ?_, ?_⟩
    · rw [exec_epochChange, execEpochChange, onSlice_quiet i s sl _ hat hsettled (by simpa only [hcond, if_true] using hmail)]
      simp only [hcond, if_true]
    · rw [hchange, Slice.wake_unless (by exact hawake)]
      exact ⟨rfl, rfl, rfl, rfl, rfl, rfl, rfl, rfl, rfl, rfl⟩
  · have hnot : ((s.reportDrained i).cap.ids.filter (s.reportDrained i).cap.isLive).all (fun k => decide (k ∈ (s.reportDrained i).cap.hl.drained)) = false := by
      rw [State.reportDrained_eq hworking.1]
      refine List.all_eq_false.mpr ⟨j, List.mem_filter.mpr ⟨List.mem_range.mpr hj, by simpa [Capstan.isLive, State.withCap] using hlive⟩, ?_⟩
      simp [State.withCap, hfirst, hj', hne]
    have hopen : (s.reportDrained i).endIfDrained = s.reportDrained i := if_neg (by simp [hnot])
    rw [exec_epochDrainReport_due hworking hfailed hbusy hhold hepoch hdrained, hopen, State.reportDrained_eq hworking.1, if_neg hfirst,
      State.recheckPasses_still (by exact hundrained), deliverAll_settled]
    exact s.settled_put i _ hworking.2.2.2 (s.mail_of i sl hworking.1 hworking.2.2.2)
  · obtain ⟨hat, -, -, hsettled⟩ := id hworking
    have hreport := State.reportDrained_eq hat
    have hend := State.endIfDrained_last (s := s.reportDrained i) (by rw [hreport]; exact hdecides) (by rw [hreport]; exact hbusy) (fun k hk => ?_)
      (by rw [hreport]; exact hagain) (by rw [hreport]; exact hreach) (by rw [hreport]; exact hdeaths)
    · have hquiet : (s.reportDrained i).changeEnded.writeTables.settled := (State.writeTables_silent _).settled (by
        rw [hreport]
        exact s.settled_put i _ hsettled (s.mail_of i sl hat hsettled))
      have hstill : (s.reportDrained i).changeEnded.writeTables.undrained := by
        rw [hreport]
        exact hundrained
      have hexec := exec_epochDrainReport_due hworking hdecides.2.2 hbusy hhold hepoch hdrained
      rw [hend, State.recheckPasses_still hstill, deliverAll_settled _ hquiet, hreport] at hexec
      refine ⟨_, hexec, rfl, rfl, rfl, ?_, fun m hm => ?_⟩
      · simp [State.writeTables, State.eachSlice, State.changeEnded, State.put, State.withCap]
      · exact State.changeEnded_rope _ m hm
    · rw [hreport] at hk ⊢
      show k ∈ (if i ∈ s.cap.hl.drained then s.cap.hl.drained else s.cap.hl.drained ++ [i])
      have hknown := hlast k hk.1 hk.2
      split
      · next hi => exact hknown.elim (fun h => h ▸ hi) id
      · exact List.mem_append.mpr (hknown.elim (fun h => .inr (by simp [h])) .inl)
  · obtain ⟨hat, hworks, hawake, hsettled⟩ := hworking
    have hclear := Slice.clearHold_idle (sl.view s.cap) hbatches hmaint hidle
    have hquiet := s.settled_put i (({ sl with rope := { sl.rope with hold := false } } : Slice).discardOthers (sl.view s.cap)) hsettled
      (s.mail_of i sl hat hsettled)
    have hexec : exec (.holdCleared i) s = .next (s.put i (({ sl with rope := { sl.rope with hold := false } } : Slice).discardOthers (sl.view s.cap))) := by
      rw [exec_holdCleared, execHoldCleared, hat]
      dsimp only
      rw [if_pos (by simp [hworks, hdecides.acts, hhold, hbusy, hepoch]), State.atSlice_eq hat, hclear, Slice.wake_unless (by exact hawake),
        State.recheckPasses_still (by exact hundrained), deliverAll_settled _ hquiet]
    refine ⟨_, _, hexec, List.getElem?_set_self (List.getElem?_eq_some_iff.mp hat).1, rfl, fun q hq => ?_, fun e he => ?_, rfl, rfl⟩
    · exact (Slice.discardOthers_queries _ _ q hq).trans hid
    · exact (Slice.discardOthers_entries _ _ e he).trans hid
end

section
/-!
The Capstan's restart and its failure (R510 to R512, R570).
-/

namespace Sys2Proof.Machine

/-- A captured fault says whether it is the Capstan's. -/
theorem faultValue_inCapstan (cls slice : Nat) (inCapstan : Bool) (unit detail : Nat) :
    (faultValue cls slice inCapstan unit detail).getLsbD 21 = inCapstan := by
  rw [BitVec.getLsbD, faultValue_toNat, Nat.testBit_eq_decide_div_mod_eq]
  cases inCapstan <;> simp only [flag, if_true, if_false, Bool.false_eq_true, decide_eq_true_eq, decide_eq_false_iff_not] <;> omega

/-! ### A port that is closed stays closed (R512) -/

theorem Capstan.refillPort_closed (c : Capstan) : c.refillPort.irq.closed = c.irq.closed := by
  unfold Capstan.refillPort
  split <;> rfl

theorem Capstan.message_closed (c : Capstan) (k : Nat) : (c.message k).irq.closed = c.irq.closed := by
  unfold Capstan.message
  dsimp only
  split
  · rfl
  · exact Capstan.refillPort_closed _

theorem Capstan.event_closed (c : Capstan) (i : Irq) : (c.event i).irq.closed = c.irq.closed := by
  unfold Capstan.event
  dsimp only
  split
  · exact Capstan.message_closed _ _
  · rfl

theorem Capstan.compareMark_closed (c : Capstan) : c.compareMark.irq.closed = c.irq.closed := by
  unfold Capstan.compareMark
  split
  · exact Capstan.event_closed _ _
  · rfl

theorem Capstan.note_closed (c : Capstan) (code : Nat) (data : List Byte) : (c.note code data).irq.closed = c.irq.closed :=
  Capstan.compareMark_closed _

/-! ### Sessions end -/

/-- What the end of a session leaves: no session, the rest of management, health and start-up as they were. -/
structure Capstan.Ended (c d : Capstan) : Prop where
  mgt : d.mgt = { c.mgt with session := none }
  hl : d.hl = c.hl
  su : d.su = c.su
  closed : d.irq.closed = c.irq.closed

theorem Capstan.endSession_ended (c : Capstan) (reason : Nat) : c.Ended (c.endSession reason) := by
  cases h : c.mgt.session with
  | none =>
    rw [Capstan.endSession_none reason h]
    exact ⟨by rw [← h], rfl, rfl, rfl⟩
  | some x =>
    rw [Capstan.endSession_open reason h]
    exact ⟨Capstan.note_mgt .., Capstan.note_hl .., Capstan.note_su .., Capstan.note_closed ..⟩

/-! ### The restart fails (R512) -/

/-- The Capstan once it has captured the failure and sent the message that tells it. -/
def Capstan.failing (c : Capstan) (off : Nat) : Capstan :=
  let f := c.captureFault 0x0C 0 true 0xFF 0
  let k := if ofLogline off then { f with log := c.log } else f
  if bit c.irq.pend 2 && bit k.irq.mask 2 then k.message 2 else k

theorem Capstan.failing_kept (c : Capstan) (off : Nat) :
    (c.failing off).hl = (c.captureFault 0x0C 0 true 0xFF 0).hl ∧ (c.failing off).su = (c.captureFault 0x0C 0 true 0xFF 0).su := by
  have hsent (k : Capstan) (b : Bool) : (if b then k.message 2 else k).hl = k.hl ∧ (if b then k.message 2 else k).su = k.su := by
    cases b
    · exact ⟨rfl, rfl⟩
    · rw [if_pos rfl, Capstan.message_eq]
      exact ⟨rfl, rfl⟩
  have hlog (f : Capstan) (b : Bool) : (if b then { f with log := c.log } else f).hl = f.hl ∧ (if b then { f with log := c.log } else f).su = f.su := by
    cases b <;> exact ⟨rfl, rfl⟩
  obtain ⟨hhl, hsu⟩ := hsent (if ofLogline off then { c.captureFault 0x0C 0 true 0xFF 0 with log := c.log } else c.captureFault 0x0C 0 true 0xFF 0) _
  exact ⟨hhl.trans (hlog _ _).1, hsu.trans (hlog _ _).2⟩

theorem Capstan.fail_eq (c : Capstan) (off : Nat) : ∃ e : Capstan, Capstan.Ended { c.failing off with irq := { (c.failing off).irq with closed := true } } e ∧
    c.fail off = { e with hl := { e.hl with failed := true, lost := e.hl.lost ++ [off] }, cmd := none, mgt := { e.mgt with challenge := none } } :=
  ⟨_, Capstan.endSession_ended _ 0x04, rfl⟩

/-! ### The end of a restart (R510, R511) -/

theorem Slice.admitWaiting_none {sl : Slice} (env : Capstan) (h : sl.ing.pendq = []) : sl.admitWaiting env = sl := by
  unfold Slice.admitWaiting
  rw [h, admitList, ← h]

/-- Where no descriptor waits, ingress does not go on. -/
theorem State.admitAll_none {s : State} (h : ∀ sl ∈ s.slices, sl.ing.pendq = []) : s.admitAll = s := by
  have hsame : s.slices.map (fun sl => if sl.works (sl.view s.cap) then sl.admitWaiting (sl.view s.cap) else sl) = s.slices := by
    refine (List.map_congr_left fun sl hsl => ?_).trans (List.map_id _)
    rw [Slice.admitWaiting_none _ (h sl hsl), ite_self]
    rfl
  unfold State.admitAll State.eachSlice
  rw [hsame]

/-- A slice's copy of engine time does not lie behind after a restart. -/
theorem Slice.afterRestart_kept (env : Capstan) (sl : Slice) :
    (sl.afterRestart env).ing = sl.ing ∧ (sl.afterRestart env).mail = sl.mail ∧ env.tb.time ≤ (sl.afterRestart env).time := by
  unfold Slice.afterRestart
  dsimp only
  split
  · exact ⟨rfl, rfl, Nat.le_max_right _ _⟩
  · exact ⟨rfl, rfl, Nat.le_max_right _ _⟩

/-- The state as a restart ends, before what waited for it. -/
def State.restarted (s : State) (since : Nat) : State := (s.onCap (fun c => c.endRestart since)).eachSlice (fun env sl => sl.afterRestart env)

/-- The state at the end of a restart for which nothing waited. -/
theorem State.resume_none {s : State} (hwaiting : s.cap.hl.waiting = []) (haccesses : s.cap.hl.accesses = []) (hticks : s.cap.tb.heldTicks = []) :
    ∃ c : Capstan, s.resume = s.withCap c ∧ c.hl = s.cap.hl ∧ c.ctxs = s.cap.ctxs := by
  have hport (c : Capstan) : c.refillPort.tb = c.tb ∧ c.refillPort.hl = c.hl ∧ c.refillPort.ctxs = c.ctxs := by
    rw [Capstan.refillPort_eq]
    exact ⟨rfl, rfl, rfl⟩
  obtain ⟨htb, hhl, hctxs⟩ := hport { s.cap with hl := { s.cap.hl with waiting := [], accesses := [] } }
  have hnone : s.resume = s.withCap { Capstan.refillPort { s.cap with hl := { s.cap.hl with waiting := [], accesses := [] } } with
      tb := { s.cap.tb with heldTicks := [] } } := by
    unfold State.resume
    simp only [hwaiting, haccesses, List.foldl_nil, State.onCap, htb, hticks]
    rfl
  refine ⟨_, hnone, hhl.trans ?_, hctxs⟩
  rw [← hwaiting, ← haccesses]

end Sys2Proof.Machine

open Sys2Proof Sys2Proof.Machine

/-- Settles O27: the mismatch changes the Capstan alone; the end of a restart makes its windows and the slices' copies fresh. -/
theorem theCapstanRestarts : Obligations.TheCapstanRestarts := by
  unfold Obligations.TheCapstanRestarts
  refine ⟨⟨fun s hdecides => ?_, fun s off hdecides => ?_⟩, fun s since hpower hrestart hwaiting haccesses hbusy hsettled hundrained hpendq hticks => ?_⟩
  · have hexec : exec (.lockstepMismatch none) s = .next (s.withCap s.cap.beginRestart) := by
      rw [exec_lockstepMismatch, execLockstepMismatch, if_pos hdecides.acts]
      rfl
    have hhl := Capstan.captureFault_hl { s.cap with hl := { s.cap.hl with restarting := some s.cap.tb.time } } 0x07 0 true 0xFF 0
    refine ⟨_, hexec, congrArg (·.restarting) hhl, (congrArg (·.failed) hhl).trans hdecides.2.2, ?_, ?_, rfl, Capstan.captureFault_ctxs ..⟩
    · exact (congrArg (fun x : Health => x.fault.toNat / 256 % 256) hhl).trans (faultValue_class ..)
    · exact (congrArg (fun x : Health => x.fault.getLsbD 21) hhl).trans (faultValue_inCapstan ..)
  · have hexec : exec (.lockstepMismatch (some off)) s = .next (s.withCap (s.cap.fail off)) := by
      rw [exec_lockstepMismatch, execLockstepMismatch, if_pos hdecides.acts]
      rfl
    obtain ⟨e, ⟨hmgt, hhl, hsu, hclosed⟩, hfail⟩ := s.cap.fail_eq off
    obtain ⟨hfault, hlow⟩ := s.cap.failing_kept off
    rw [Capstan.captureFault_hl] at hfault
    rw [hfail] at hexec
    have hhealth := hhl.trans hfault
    refine ⟨_, hexec, rfl, ?_, hclosed, congrArg (·.session) hmgt, rfl, rfl, ?_, ?_, rfl⟩
    · show e.hl.lost ++ [off] = _
      rw [hhealth]
    · exact (congrArg (fun x : Health => x.fault.toNat / 256 % 256) hhealth).trans (faultValue_class ..)
    · exact (congrArg (·.faultLow) (hsu.trans hlow)).trans (Capstan.captureFault_low _ _ _ _ _ (.inr (.inr rfl)))
  · obtain ⟨c, hresume, hhl, hctxs⟩ := State.resume_none (s := s.restarted since) hwaiting haccesses hticks
    have hslices : ∀ sl ∈ (s.restarted since).slices, sl.ing.pendq = [] ∧ sl.mail = [] ∧ s.cap.tb.time ≤ sl.time := by
      intro sl hsl
      obtain ⟨x, hx, rfl⟩ := List.mem_map.mp hsl
      obtain ⟨hing, hmail, htime⟩ := Slice.afterRestart_kept (x.view (s.cap.endRestart since)) x
      exact ⟨(congrArg Ingress.pendq hing).trans (hpendq x hx), hmail.trans (hsettled.1 x hx), htime⟩
    have hclosed : ((s.restarted since).withCap c).endIfDrained = (s.restarted since).withCap c :=
      if_neg (by simp [State.withCap, hhl, State.restarted, Capstan.endRestart, hbusy])
    have hadmit : ((s.restarted since).withCap c).admitAll = (s.restarted since).withCap c := State.admitAll_none fun sl hsl => (hslices sl hsl).1
    have hquiet : ((s.restarted since).withCap c).settled := ⟨fun sl hsl => (hslices sl hsl).2.1, fun x hx => hsettled.2 x (hctxs ▸ hx)⟩
    have hexec : exec .capstanRestartDone s = .next ((s.restarted since).withCap c) := by
      rw [exec_capstanRestartDone, execCapstanRestartDone, if_neg (by simp [hpower]), hrestart]
      change Host.Outcome.next (deliverAll (s.restarted since).resume.endIfDrained.admitAll).recheckPasses = _
      rw [hresume, hclosed, hadmit, deliverAll_settled _ hquiet, State.recheckPasses_still (fun x hx => hundrained x (hctxs ▸ hx))]
    refine ⟨_, hexec, congrArg (·.restarting) hhl, congrArg (·.restartCount) hhl, congrArg (·.lastRestart) hhl, fun b hb => ?_,
      fun sl hsl => (hslices sl hsl).2.2, List.length_map _⟩
    have hb' : b ∈ (s.restarted since).cap.hl.beats := hhl ▸ hb
    obtain ⟨x, -, rfl⟩ := List.mem_map.mp hb'
    rfl
end

section
/-!
Flits of the Rope (R401, R402): the body of a message cut into flits, and the bits of a flit.
-/

namespace Sys2Proof.Machine

/-! ### A list cut into pieces of equal length -/

theorem flatMap_pieces {α : Type} (k : Nat) (xs : List α) (n : Nat) :
    (List.range n).flatMap (fun i => (xs.drop (k * i)).take k) = xs.take (k * n) := by
  induction n with
  | zero => simp
  | succ n ih => rw [List.range_succ, List.flatMap_append, ih, List.flatMap_singleton, Nat.mul_succ, List.take_add]

theorem RopeMsg.flits_body (env : Capstan) (m : RopeMsg) : (m.flits env).flatMap (·.body) = bodyOf env m := by
  have hpieces := flatMap_pieces 96 (bodyOf env m) (max 1 (((bodyOf env m).length + 95) / 96))
  rw [List.take_of_length_le (by omega)] at hpieces
  rw [RopeMsg.flits, List.flatMap_map]
  exact hpieces

theorem RopeMsg.flits_length (env : Capstan) (m : RopeMsg) : (m.flits env).length = max 1 (((bodyOf env m).length + 95) / 96) := by
  simp [RopeMsg.flits]

theorem RopeMsg.flits_getElem? {env : Capstan} {m : RopeMsg} {k : Nat} {f : Flit} (h : (m.flits env)[k]? = some f) :
    f = m.flit (bodyOf env m) (m.flits env).length k := by
  rw [RopeMsg.flits_length]
  unfold RopeMsg.flits at h
  dsimp only at h
  rw [List.getElem?_map] at h
  obtain ⟨j, hj, rfl⟩ := Option.map_eq_some_iff.mp h
  obtain ⟨hlt, rfl⟩ := List.getElem?_eq_some_iff.mp hj
  rw [List.getElem_range]

/-! ### Digits in a base -/

/-- The number with the digits of a list, the lowest first. -/
def ofDigits (b : Nat) : List Nat → Nat
  | [] => 0
  | d :: ds => d + b * ofDigits b ds

theorem ofDigits_singleton (b d : Nat) : ofDigits b [d] = d := by rw [ofDigits, ofDigits, Nat.mul_zero, Nat.add_zero]

theorem ofDigits_append (b : Nat) (xs ys : List Nat) : ofDigits b (xs ++ ys) = ofDigits b xs + b ^ xs.length * ofDigits b ys := by
  induction xs with
  | nil => simp [ofDigits]
  | cons x xs ih =>
    rw [List.cons_append, ofDigits, ih, ofDigits, List.length_cons, Nat.pow_succ, Nat.mul_add, Nat.mul_comm (b ^ xs.length) b, Nat.mul_assoc,
      Nat.add_assoc]

/-- Division by a power of the base drops the lowest digits. -/
theorem ofDigits_div_pow {b : Nat} (hb : 0 < b) (n : Nat) {ds : List Nat} (h : ∀ d ∈ ds, d < b) : ofDigits b ds / b ^ n = ofDigits b (ds.drop n) := by
  induction n generalizing ds with
  | zero => rw [Nat.pow_zero, Nat.div_one, List.drop_zero]
  | succ n ih =>
    cases ds with
    | nil => rw [List.drop_nil, ofDigits, Nat.zero_div]
    | cons d ds =>
      have hd := h d List.mem_cons_self
      rw [Nat.pow_succ', ← Nat.div_div_eq_div_mul, ofDigits, Nat.add_mul_div_left _ _ hb, Nat.div_eq_of_lt hd, Nat.zero_add, List.drop_succ_cons,
        ih fun x hx => h x (List.mem_cons_of_mem _ hx)]

theorem ofDigits_range (b : Nat) (c : Nat → Nat) (n : Nat) : ofDigits b ((List.range n).map c) = ((List.range n).map (fun w => c w * b ^ w)).sum := by
  induction n with
  | zero => rfl
  | succ n ih =>
    rw [List.range_succ, List.map_append, List.map_append, ofDigits_append, ih, List.sum_append]
    simp [ofDigits_singleton, Nat.mul_comm]

theorem ofDigits_range_get {b : Nat} {c : Nat → Nat} {n w : Nat} (r : Nat) (hc : ∀ i, c i < b) (hr : r < b) (hw : w < n) :
    ofDigits b ((List.range n).map c ++ [r]) / b ^ w % b = c w := by
  have hdigits : ∀ l ∈ (List.range n).map c ++ [r], l < b := by
    intro l hl
    simp only [List.mem_append, List.mem_map, List.mem_singleton] at hl
    rcases hl with ⟨i, -, rfl⟩ | rfl
    · exact hc i
    · exact hr
  have hdrop : ((List.range n).map c ++ [r]).drop w = c w :: ((List.range n).map c ++ [r]).drop (w + 1) := by
    rw [List.drop_eq_getElem_cons (by simp; omega), List.getElem_append_left (by simpa using hw)]
    simp
  rw [ofDigits_div_pow (Nat.lt_of_le_of_lt (Nat.zero_le _) hr) w hdigits, hdrop, ofDigits, Nat.add_mul_mod_self_left,
    Nat.mod_eq_of_lt (hc w)]

theorem ofDigits_range_rest {b : Nat} {c : Nat → Nat} (n : Nat) {r : Nat} (hc : ∀ i, c i < b) (hr : r < b) :
    ofDigits b ((List.range n).map c ++ [r]) / b ^ n = r := by
  have hdigits : ∀ l ∈ (List.range n).map c ++ [r], l < b := by
    intro l hl
    simp only [List.mem_append, List.mem_map, List.mem_singleton] at hl
    rcases hl with ⟨i, -, rfl⟩ | rfl
    · exact hc i
    · exact hr
  rw [ofDigits_div_pow (Nat.lt_of_le_of_lt (Nat.zero_le _) hr) n hdigits, List.drop_left' (by simp), ofDigits_singleton]

/-! ### The bits of a flit -/

/-- Word `w` of a flit with its check bits. -/
def flitCell (f : Flit) (w : Nat) : Nat := flitWord f w % 2 ^ 128 + (flitCheck f w).toNat * 2 ^ 128

/-- What stands behind the words. -/
def flitTail (f : Flit) : Nat := f.frameSeq % 2 ^ 8 + f.frameMark % 2 ^ 8 * 2 ^ 8

theorem place_cell (v c : Nat) {a k b w : Nat} :
    place v a (b * w) + place c k (b * w + a) = (v % 2 ^ a + c % 2 ^ k * 2 ^ a) * (2 ^ b) ^ w := by
  rw [place, place, Nat.shiftLeft_eq, Nat.shiftLeft_eq, Nat.pow_add, ← Nat.pow_mul, Nat.add_mul, Nat.mul_assoc, Nat.mul_comm (2 ^ a)]

theorem flitCell_lt (f : Flit) (w : Nat) : flitCell f w < 2 ^ 144 := by
  have hword : flitWord f w % 2 ^ 128 < 2 ^ 128 := Nat.mod_lt _ (Nat.two_pow_pos _)
  have hcheck : (flitCheck f w).toNat < 2 ^ 16 := (flitCheck f w).isLt
  unfold flitCell
  omega

theorem flitTail_lt (f : Flit) : flitTail f < 2 ^ 144 := by
  unfold flitTail
  omega

theorem flitBits_eq (f : Flit) : flitBits f = ofDigits (2 ^ 144) ((List.range 7).map (flitCell f) ++ [flitTail f]) := by
  have hcells : (List.range 7).map (fun w => place (flitWord f w) 128 (144 * w) + place (flitCheck f w).toNat 16 (144 * w + 128)) =
      (List.range 7).map (fun w => flitCell f w * (2 ^ 144) ^ w) :=
    List.map_congr_left fun w _ => by rw [place_cell, Nat.mod_eq_of_lt (flitCheck f w).isLt, flitCell]
  have htail : place f.frameSeq 8 1008 + place f.frameMark 8 1016 = flitTail f * (2 ^ 144) ^ 7 :=
    place_cell (a := 8) (k := 8) (b := 144) (w := 7) f.frameSeq f.frameMark
  rw [flitBits, hcells, Nat.add_assoc, htail, ofDigits_append, ofDigits_range, ofDigits_singleton, List.length_map, List.length_range,
    Nat.mul_comm ((2 ^ 144) ^ 7)]

theorem flitBits_word (f : Flit) {w : Nat} (hw : w < 7) : flitBits f / 2 ^ (144 * w) % 2 ^ 128 = flitWord f w % 2 ^ 128 := by
  have hcell := ofDigits_range_get (flitTail f) (flitCell_lt f) (flitTail_lt f) hw
  rw [← flitBits_eq, ← Nat.pow_mul] at hcell
  rw [← Nat.mod_mod_of_dvd _ (Nat.pow_dvd_pow 2 (show 128 ≤ 144 by decide)), hcell, flitCell, Nat.add_mul_mod_self_right, Nat.mod_mod]

theorem flitBits_tail (f : Flit) : flitBits f / 2 ^ 1008 = flitTail f := by
  have hrest := ofDigits_range_rest 7 (flitCell_lt f) (flitTail_lt f)
  rw [← flitBits_eq, ← Nat.pow_mul] at hrest
  exact hrest

theorem flag_eq (b : Bool) (k : Nat) : flag b k = b.toNat * 2 ^ k := by
  cases b <;> simp [flag]

/-- The fields of a flit's header stand at their bits (R402). -/
theorem flitHeader_eq (f : Flit) : flitHeader f = f.vc % 2 ^ 2 + f.first.toNat * 2 ^ 2 + f.last.toNat * 2 ^ 3 + f.mtype % 2 ^ 4 * 2 ^ 4 +
    f.seq % 2 ^ 8 * 2 ^ 8 + f.ack % 2 ^ 8 * 2 ^ 16 + f.nak.toNat * 2 ^ 24 + f.dest % 2 ^ 5 * 2 ^ 26 + f.src % 2 ^ 5 * 2 ^ 31 +
      f.words % 2 ^ 3 * 2 ^ 36 + f.epoch % 2 ^ 16 * 2 ^ 40 + f.mhdr % 2 ^ 64 * 2 ^ 64 := by
  simp only [flitHeader, place, Nat.shiftLeft_eq, flag_eq, Nat.pow_zero, Nat.mul_one]

end Sys2Proof.Machine
end

section
/-!
The link layer's receiving side (R408, R409, R413): what sending leaves of it, and what acceptance and rejection change.
-/

namespace Sys2Proof.Machine

/-! ### Sending leaves the receiving side -/

/-- What a module holds of the flits it receives, with its state. -/
def Module.received (x : Module) : ModState × Nat × Nat × Bool × List Nat × Nat := (x.st, x.expect, x.lastOk, x.nak, x.rejects, x.badMarks)

def Port.received (p : Port) : List (ModState × Nat × Nat × Bool × List Nat × Nat) := p.modules.map Module.received

/-- Nothing is told, the send queue is as it was, and so is the receiving side of each module. -/
structure Slice.Sends (a b : Slice) : Prop where
  mail : b.mail = a.mail
  sendq : b.rope.sendq = a.rope.sendq
  received : b.rope.ports.map Port.received = a.rope.ports.map Port.received

theorem Slice.Sends.refl (a : Slice) : a.Sends a := ⟨rfl, rfl, rfl⟩

theorem Slice.Sends.trans {a b c : Slice} (h : a.Sends b) (k : b.Sends c) : a.Sends c :=
  ⟨k.mail.trans h.mail, k.sendq.trans h.sendq, k.received.trans h.received⟩

theorem map_updateAt_same {α β : Type} {f : α → α} {g : α → β} (h : ∀ x, g (f x) = g x) (k : Nat) (xs : List α) :
    (updateAt f k xs).map g = xs.map g := by
  refine List.ext_getElem? fun j => ?_
  rw [List.getElem?_map, List.getElem?_map, updateAt_getElem?]
  split
  · cases xs[j]? <;> simp [h]
  · rfl

/-- A change of one module that leaves its receiving side. -/
theorem Port.received_updateAt {p q : Port} {m : Nat} {f : Module → Module} (hq : q.modules = updateAt f m p.modules)
    (h : ∀ x, (f x).received = x.received) : q.received = p.received := by
  unfold Port.received
  rw [hq, map_updateAt_same h]

theorem Slice.Sends.onPort (sl : Slice) (k : Nat) {f : Port → Port} (h : ∀ p, (f p).received = p.received) : sl.Sends (sl.onPort k f) :=
  ⟨rfl, rfl, map_updateAt_same h k _⟩

theorem Slice.Sends.count (sl : Slice) (ev qual : Nat) (ctx : Option Nat) (n : Nat) : sl.Sends (sl.count ev qual ctx n) := ⟨rfl, rfl, rfl⟩

/-- As `onPort`, for a port that was read before. -/
theorem Slice.Sends.setPort {sl : Slice} {k : Nat} {p q : Port} (hp : sl.rope.ports[k]? = some p) (h : q.received = p.received) :
    sl.Sends (sl.onPort k (fun _ => q)) := by
  refine ⟨rfl, rfl, ?_⟩
  obtain ⟨hlt, rfl⟩ := List.getElem?_eq_some_iff.mp hp
  have hsame := List.set_getElem_self (as := sl.rope.ports.map Port.received) (i := k) (by simpa using hlt)
  rw [List.getElem_map] at hsame
  rw [Slice.onPort, updateAt_eq_set hp, List.map_set, h, hsame]

theorem Port.received_onModule (p : Port) (m : Nat) {f : Module → Module} (h : ∀ x, (f x).received = x.received) :
    (p.onModule m f).received = p.received := map_updateAt_same h m _

theorem Port.received_release (now : Nat) (f : Flit → Bool) (p : Port) : (p.release now f).received = p.received := by
  have howe (as : List Arrived) (x : Port) : (as.foldl (fun (x : Port) a => x.owe now a.flit.vc) x).modules = x.modules := by
    induction as generalizing x with
    | nil => rfl
    | cons a as ih => exact ih _
  exact congrArg (List.map Module.received) (howe _ _)

theorem Slice.emptyBufs_sends (sl : Slice) : sl.Sends sl.emptyBufs := by
  unfold Slice.emptyBufs
  split
  · exact .refl sl
  · refine ⟨rfl, rfl, ?_⟩
    rw [List.map_map]
    exact List.map_congr_left fun p _ => Port.received_release _ _ p

theorem Port.sendCredit_received (p : Port) (src dest epoch : Nat) : (p.sendCredit src dest epoch).2.received = p.received := by
  unfold Port.sendCredit
  split
  · rfl
  · split
    · exact Port.received_updateAt rfl fun _ => rfl
    · rfl

theorem Port.credits32_received (p : Port) : p.credits32.received = p.received := by
  unfold Port.credits32
  split <;> rfl

theorem Slice.Sends.foldl {α : Type} {f : Slice → α → Slice} (h : ∀ sl x, Slice.Sends sl (f sl x)) (xs : List α) (sl : Slice) : sl.Sends (xs.foldl f sl) := by
  induction xs generalizing sl with
  | nil => exact .refl sl
  | cons x xs ih => exact (h sl x).trans (ih _)

theorem Slice.pumpCredits_sends (env : Capstan) (sl : Slice) : sl.Sends (sl.pumpCredits env) := by
  refine Slice.Sends.foldl (fun sl i => ?_) _ sl
  dsimp only
  split
  · exact .refl sl
  · next p hp =>
    split
    · exact .refl sl
    · exact (Slice.Sends.setPort hp ((Port.sendCredit_received _ _ _ _).trans p.credits32_received)).trans (.count _ _ _ _ _)

theorem Slice.forward_sends (sl : Slice) (pi mi ip idx : Nat) (a : Arrived) : sl.Sends (sl.forward pi mi ip idx a) := by
  unfold Slice.forward
  dsimp only
  refine .trans (.trans ?_ (.onPort _ ip fun p => ?_)) (.onPort _ pi fun p => ?_)
  · exact ⟨rfl, rfl, rfl⟩
  · rfl
  · exact Port.received_updateAt rfl fun _ => rfl

theorem Slice.sendNext_sends {sl t : Slice} {pi mi : Nat} (hsend : sl.rope.sendq = []) (h : sl.sendNext pi mi = some t) : sl.Sends t := by
  unfold Slice.sendNext at h
  dsimp only at h
  split at h
  · cases h
  · split at h
    · cases h
    · next vc x hnext =>
      have hturn (k : Nat) := Slice.Sends.onPort sl pi (f := fun p => { p with modules := updateAt (fun m => { m with turn := k }) mi p.modules })
        fun p => Port.received_updateAt rfl fun _ => rfl
      split at h
      · obtain ⟨a, -, rfl⟩ := Option.map_eq_some_iff.mp h
        exact ((hturn _).trans (.count _ _ _ _ _)).trans (Slice.forward_sends _ _ _ _ _ _)
      · next idx =>
        split at h
        · next hat =>
          have hnone : sl.rope.sendq[idx]? = none := by rw [hsend]; rfl
          cases hnone.symm.trans hat
        · cases h

/-- A round of sending, where the slice has no message of its own to send. -/
theorem Slice.sendRound_sends {sl : Slice} (hsend : sl.rope.sendq = []) : sl.Sends sl.sendRound.2 := by
  unfold Slice.sendRound
  generalize (List.range 4).flatMap (fun pi => (List.range 4).map (fun mi => (pi, mi))) = es
  suffices h : ∀ acc : Bool × Slice, sl.Sends acc.2 → sl.Sends (es.foldl (fun acc e =>
      match acc.2.sendNext e.1 e.2 with
      | some sl => (true, sl)
      | none => acc) acc).2 from h (false, sl) (.refl sl)
  induction es with
  | nil => exact fun _ h => h
  | cons e es ih =>
    refine fun acc hacc => ih _ ?_
    dsimp only
    split
    · next t ht => exact hacc.trans (Slice.sendNext_sends (hacc.sendq.trans hsend) ht)
    · exact hacc

theorem Slice.sendRounds_zero (sl : Slice) : sl.sendRounds 0 = sl := by
  delta Slice.sendRounds
  rfl

/-- The recursion of `sendRounds`, by its compiled body: its equation lemmas evaluate a round of all modules. -/
theorem Slice.sendRounds_succ (sl : Slice) (n : Nat) : sl.sendRounds (n + 1) = if sl.sendRound.1 then sl.sendRound.2.sendRounds n else sl := by
  delta Slice.sendRounds
  dsimp only
  delta Slice.sendRounds._f
  dsimp only
  generalize sl.sendRound = r
  obtain ⟨b, t⟩ := r
  cases b
  · rfl
  · rfl

theorem Slice.sendRounds_sends (fuel : Nat) {sl : Slice} (hsend : sl.rope.sendq = []) : sl.Sends (sl.sendRounds fuel) := by
  induction fuel generalizing sl with
  | zero =>
    rw [Slice.sendRounds_zero]
    exact .refl sl
  | succ fuel ih =>
    have hround := Slice.sendRound_sends hsend
    rw [Slice.sendRounds_succ]
    split
    · exact hround.trans (ih (hround.sendq.trans hsend))
    · exact .refl sl

theorem Slice.pump_sends (env : Capstan) {sl : Slice} (hsend : sl.rope.sendq = []) : sl.Sends (sl.pump env) := by
  have hcredits := sl.emptyBufs_sends.trans (Slice.pumpCredits_sends env _)
  unfold Slice.pump
  dsimp only
  split
  · exact hcredits
  · exact (hcredits.trans (Slice.sendRounds_sends _ (hcredits.sendq.trans hsend))).trans (Slice.pumpCredits_sends env _)

end Sys2Proof.Machine
end

section
/-!
A sound flit (R408, R413): what its acknowledgement and its acceptance change of the port it arrives on.
-/

namespace Sys2Proof.Machine

/-! ### A change of what the modules send -/

/-- A module without its sending side. -/
def Module.receiving (x : Module) : Module := { x with nextSeq := 0, replay := [], replayEnd := 0, turn := 0 }

def Port.receiving (p : Port) : Port := { p with modules := p.modules.map Module.receiving }

/-- The sending side of the modules changes and the slice counts; nothing else does. -/
structure Slice.Acks (a b : Slice) : Prop where
  rest : { b with cnt := a.cnt, rope := { b.rope with ports := [] } } = { a with rope := { a.rope with ports := [] } }
  ports : b.rope.ports.map Port.receiving = a.rope.ports.map Port.receiving

theorem Slice.Acks.refl (a : Slice) : a.Acks a := ⟨rfl, rfl⟩

theorem Slice.Acks.trans {a b c : Slice} (h : a.Acks b) (k : b.Acks c) : a.Acks c := by
  refine ⟨?_, k.ports.trans h.ports⟩
  have hrest := k.rest
  have hsame : { c with cnt := a.cnt, rope := { c.rope with ports := [] } } =
      { ({ c with cnt := b.cnt, rope := { c.rope with ports := [] } } : Slice) with cnt := a.cnt } := rfl
  rw [hsame, hrest]
  exact h.rest

theorem Slice.Acks.count (sl : Slice) (ev qual : Nat) (ctx : Option Nat) (n : Nat) : sl.Acks (sl.count ev qual ctx n) := ⟨rfl, rfl⟩

theorem Slice.Acks.onPort (sl : Slice) (k : Nat) {f : Port → Port} (h : ∀ p, (f p).receiving = p.receiving) : sl.Acks (sl.onPort k f) :=
  ⟨rfl, map_updateAt_same h k _⟩

theorem Slice.Acks.setPort {sl : Slice} {k : Nat} {p q : Port} (hp : sl.rope.ports[k]? = some p) (h : q.receiving = p.receiving) :
    sl.Acks (sl.onPort k (fun _ => q)) := by
  refine ⟨rfl, ?_⟩
  obtain ⟨hlt, rfl⟩ := List.getElem?_eq_some_iff.mp hp
  have hsame := List.set_getElem_self (as := sl.rope.ports.map Port.receiving) (i := k) (by simpa using hlt)
  rw [List.getElem_map] at hsame
  rw [Slice.onPort, updateAt_eq_set hp, List.map_set, h, hsame]

theorem Port.receiving_onModule (p : Port) (m : Nat) {f : Module → Module} (h : ∀ x, (f x).receiving = x.receiving) :
    (p.onModule m f).receiving = p.receiving := by
  unfold Port.receiving Port.onModule
  dsimp only
  rw [map_updateAt_same h]

theorem Module.acked_receiving (x : Module) (ack : Nat) : (x.acked ack).receiving = x.receiving := by
  unfold Module.acked
  split <;> rfl

theorem Module.pushAll_receiving (fs : List Flit) (x : Module) : (fs.foldl Module.push x).receiving = x.receiving := by
  induction fs generalizing x with
  | nil => rfl
  | cons f fs ih => exact ih _

theorem Port.moveKept_receiving (p : Port) : p.moveKept.2.receiving = p.receiving := by
  unfold Port.moveKept
  split
  · rfl
  · next t _ =>
    suffices h : ∀ (ms : List Nat) (acc : Nat × Port), acc.2.receiving = p.receiving → (ms.foldl (fun (acc : Nat × Port) m =>
        match acc.2.modules[m]?, acc.2.modules[t]? with
        | some x, some y =>
          if x.st != .down then acc
          else
            let ks := x.replay.take (128 - y.replay.length)
            let p := acc.2.onModule m (fun x => { x with replay := x.replay.drop ks.length })
            (acc.1 + ks.length, p.onModule t (fun y => ks.foldl Module.push y))
        | _, _ => acc) acc).2.receiving = p.receiving from h _ _ rfl
    intro ms
    induction ms with
    | nil => exact fun _ h => h
    | cons m ms ih =>
      refine fun acc hacc => ih _ ?_
      dsimp only
      split
      · split
        · exact hacc
        · refine ((Port.receiving_onModule _ _ (Module.pushAll_receiving _)).trans (Port.receiving_onModule acc.2 m fun _ => ?_)).trans hacc
          rfl
      · exact hacc

theorem Slice.moveKept_acks (sl : Slice) (port : Nat) : sl.Acks (sl.moveKept port) := by
  unfold Slice.moveKept
  split
  · exact .refl sl
  · next p hp => exact (Slice.Acks.setPort hp p.moveKept_receiving).trans (.count _ _ _ _ _)

theorem Slice.Acks.mail {a b : Slice} (h : a.Acks b) : b.mail = a.mail := by
  have hmail := congrArg Slice.mail h.rest
  exact hmail

theorem Slice.Acks.id {a b : Slice} (h : a.Acks b) : b.id = a.id := by
  have hid := congrArg Slice.id h.rest
  exact hid

/-- Ports that differ in their sending sides alone. -/
theorem Slice.Acks.mem {a b : Slice} (h : a.Acks b) {p : Port} (hp : p ∈ b.rope.ports) : ∃ q ∈ a.rope.ports, q.receiving = p.receiving :=
  List.mem_map.mp (h.ports ▸ List.mem_map_of_mem hp)

theorem Slice.Acks.linksIdle {a b : Slice} (h : a.Acks b) (hidle : a.linksIdle) : b.linksIdle := by
  obtain ⟨hsend, hports⟩ := hidle
  have hrope : ({ b.rope with ports := [] } : RopePort) = { a.rope with ports := [] } := congrArg Slice.rope h.rest
  refine ⟨(congrArg RopePort.sendq hrope).trans hsend, fun p hp => ?_⟩
  obtain ⟨q, hq, hsame⟩ := h.mem hp
  obtain ⟨hbuf, hdue, howed⟩ := hports q hq
  exact ⟨(congrArg Port.buf hsame).symm.trans hbuf, (congrArg Port.creditDue hsame).symm.trans hdue,
    (show q.receiving.owed = p.receiving.owed from congrArg Port.owed hsame) ▸ howed⟩

theorem Slice.Acks.port {a b : Slice} (h : a.Acks b) {k : Nat} {p : Port} (hp : a.rope.ports[k]? = some p) :
    ∃ q, b.rope.ports[k]? = some q ∧ q.receiving = p.receiving := by
  have hmap := congrArg (·[k]?) h.ports
  simp only [List.getElem?_map, hp, Option.map_some] at hmap
  exact Option.map_eq_some_iff.mp hmap

theorem Module.received_receiving {x y : Module} (h : y.receiving = x.receiving) : y.received = x.received := by
  have hsame (z : Module) : z.receiving.received = z.received := rfl
  rw [← hsame, h, hsame]

theorem Port.receiving_module {p q : Port} (h : q.receiving = p.receiving) {m : Nat} {x : Module} (hx : p.modules[m]? = some x) :
    ∃ y, q.modules[m]? = some y ∧ y.receiving = x.receiving := by
  have hmap := congrArg (·[m]?) (congrArg Port.modules h)
  simp only [Port.receiving, List.getElem?_map, hx, Option.map_some] at hmap
  exact Option.map_eq_some_iff.mp hmap

theorem Slice.Sends.port {a b : Slice} (h : a.Sends b) {k m : Nat} {p : Port} {x : Module} (hp : a.rope.ports[k]? = some p) (hx : p.modules[m]? = some x) :
    ∃ q y, b.rope.ports[k]? = some q ∧ q.modules[m]? = some y ∧ y.received = x.received := by
  have hmap := congrArg (·[k]?) h.received
  simp only [List.getElem?_map, hp, Option.map_some] at hmap
  obtain ⟨q, hq, hsame⟩ := Option.map_eq_some_iff.mp hmap
  have hmods := congrArg (·[m]?) hsame
  simp only [Port.received, List.getElem?_map, hx, Option.map_some] at hmods
  obtain ⟨y, hy, hrx⟩ := Option.map_eq_some_iff.mp hmods
  exact ⟨q, y, hq, hy, hrx⟩

/-- On a slice whose links are idle an acknowledgement changes what the modules send, and sends nothing. -/
theorem Slice.takeAck_acks (env : Capstan) {sl : Slice} (port m : Nat) (f : Flit) (hidle : sl.linksIdle) : sl.Acks (sl.takeAck env port m f) := by
  unfold Slice.takeAck
  extract_lets acked x k replayed
  have hacked : sl.Acks acked := .onPort sl port fun p => Port.receiving_onModule _ _ fun x => x.acked_receiving _
  have hreplayed : sl.Acks replayed := by
    simp only [replayed]
    split
    · refine (hacked.trans (.onPort _ port fun p => Port.receiving_onModule _ _ fun x => ?_)).trans (.count _ _ _ _ _)
      rfl
    · exact hacked
  have hmoved := hreplayed.trans (replayed.moveKept_acks port)
  rw [Slice.pump_idle env _ (hmoved.linksIdle hidle)]
  exact hmoved

end Sys2Proof.Machine
end

section
/-!
Flits accepted and rejected (R408, R409, R413, R428).
-/

namespace Sys2Proof.Machine

/-! ### A port takes a flit -/

/-- A module that has accepted a flit. -/
def Module.accepted (f : Flit) (x : Module) : Module := { x with expect := (f.seq + 1) % 256, lastOk := f.seq % 256, nak := false }

/-- A port that has accepted a flit on module `m`. -/
def Port.taken (now m : Nat) (f : Flit) (p : Port) : Port :=
  let p := p.onModule m (Module.accepted f)
  if f.vc = 2 then p
  else
    let rest := p.openMsg.filter (fun o => !(o.1 = m && o.2.1 = f.vc))
    let p : Port := { p with openMsg := if f.last then rest else rest ++ [(m, f.vc, f.epoch)] }
    if !f.first && p.cut.contains (m, f.vc) then
      ({ p with cut := if f.last then p.cut.filter (· != (m, f.vc)) else p.cut }).owe now f.vc
    else { p with cut := p.cut.filter (· != (m, f.vc)), buf := p.buf ++ [{ module := m, flit := f }] }

theorem Slice.acceptFlit_eq (env : Capstan) (sl : Slice) (port m : Nat) (f : Flit) :
    sl.acceptFlit env port m f = ((sl.onPort port (Port.taken sl.time m f)).count 0x502 (port + 4 * f.vc) none 1).pump env := rfl

theorem Port.taken_modules (now m : Nat) (f : Flit) (p : Port) : (p.taken now m f).modules = updateAt (Module.accepted f) m p.modules := by
  unfold Port.taken
  dsimp only
  split
  · rfl
  · split <;> rfl

/-! ### A slice that delivers what it has received -/

theorem Slice.pump_emptied (env : Capstan) {sl : Slice} (h : sl.emptyBufs.linksIdle) : sl.pump env = sl.emptyBufs := by
  have hempty : sl.emptyBufs.emptyBufs = sl.emptyBufs := by
    refine if_pos (List.all_eq_true.mpr fun p hp => ?_)
    simp [(h.2 p hp).1]
  have hpump := Slice.pump_idle env _ h
  unfold Slice.pump at hpump ⊢
  rw [hempty] at hpump
  exact hpump

theorem updateAt_getElem?_same {α : Type} {f : α → α} {k : Nat} {x : α} {xs : List α} (h : xs[k]? = some x) : (updateAt f k xs)[k]? = some (f x) := by
  rw [updateAt_getElem?, if_pos rfl, h]
  rfl

theorem mem_updateAt {α : Type} {f : α → α} {k : Nat} {y : α} {xs : List α} (h : y ∈ updateAt f k xs) : y ∈ xs ∨ ∃ x, xs[k]? = some x ∧ y = f x := by
  obtain ⟨j, hj⟩ := List.mem_iff_getElem?.mp h
  rw [updateAt_getElem?] at hj
  split at hj
  · next hkj =>
    obtain ⟨x, hx, rfl⟩ := Option.map_eq_some_iff.mp hj
    exact .inr ⟨x, hkj ▸ hx, rfl⟩
  · exact .inl (List.mem_of_getElem? hj)

/-- Links are idle where the ports but one are, and the change leaves that one idle. -/
theorem Slice.linksIdle_onPort {sl : Slice} {k : Nat} {f : Port → Port} (hsend : sl.rope.sendq = [])
    (hothers : ∀ (j : Nat) (q : Port), j ≠ k → sl.rope.ports[j]? = some q → q.idle) (hf : ∀ p, sl.rope.ports[k]? = some p → (f p).idle) :
    (sl.onPort k f).linksIdle := by
  refine ⟨hsend, fun p hp => ?_⟩
  obtain ⟨j, hj⟩ := List.mem_iff_getElem?.mp hp
  rw [Slice.onPort, updateAt_getElem?] at hj
  split at hj
  · next hjk =>
    obtain ⟨x, hx, rfl⟩ := Option.map_eq_some_iff.mp hj
    exact hf x (hjk ▸ hx)
  · next hjk => exact hothers j p hjk hj

theorem Slice.linksIdle.port {sl : Slice} (h : sl.linksIdle) {k : Nat} {p : Port} (hp : sl.rope.ports[k]? = some p) : p.idle :=
  h.2 p (List.mem_of_getElem? hp)

theorem mem_updateAt_succ {k n : Nat} {xs : List Nat} (h : ∀ x ∈ xs, x < n) : ∀ y ∈ updateAt (· + 1) k xs, y < n + 1 := by
  intro y hy
  rcases mem_updateAt hy with hy | ⟨x, hx, rfl⟩
  · exact Nat.lt_succ_of_lt (h y hy)
  · exact Nat.succ_lt_succ (h x (List.mem_of_getElem? hx))

/-- What a port takes of a flit that is no CREDIT: its credit is owed where the message was cut, else the flit stands in the buffer. -/
theorem Port.taken_flit (now m : Nat) {f : Flit} (p : Port) (hvc : f.vc ≠ 2) :
    ((p.taken now m f).buf = p.buf ∧ (p.taken now m f).owed = updateAt (· + 1) (vcIndex f.vc) p.owed ∧
        (p.taken now m f).owedSince.isSome = true ∧ (p.taken now m f).creditDue = p.creditDue) ∨
      ((p.taken now m f).buf = p.buf ++ [{ module := m, flit := f }] ∧ (p.taken now m f).owed = p.owed ∧
        (p.taken now m f).creditDue = p.creditDue) := by
  unfold Port.taken
  dsimp only
  rw [if_neg hvc]
  split
  · exact .inl ⟨rfl, rfl, rfl, rfl⟩
  · exact .inr ⟨rfl, rfl, rfl⟩

theorem Port.release_empty {p : Port} (now : Nat) (g : Flit → Bool) (h : p.buf = []) : p.release now g = p := by
  unfold Port.release
  rw [h, List.filter_nil, List.filter_nil, List.foldl_nil, ← h]

theorem Port.release_one {p : Port} (now : Nat) {g : Flit → Bool} {a : Arrived} (h : p.buf = [a]) (hg : g a.flit = true) :
    p.release now g = ({ p with buf := [] }).owe now a.flit.vc := by
  simp [Port.release, h, hg]

/-- One flit in the buffers, which ends here: it leaves, and its credit is owed. -/
theorem Slice.emptyBufs_one {sl : Slice} {k : Nat} {p : Port} {a : Arrived} (hp : sl.rope.ports[k]? = some p) (hbuf : p.buf = [a])
    (hends : sl.ends a.flit = true) (hothers : ∀ (j : Nat) (q : Port), j ≠ k → sl.rope.ports[j]? = some q → q.buf = []) :
    sl.emptyBufs = sl.onPort k (fun p => ({ p with buf := [] } : Port).owe sl.time a.flit.vc) := by
  have hsome : ¬ sl.rope.ports.all (fun p => !p.buf.any (fun a => sl.ends a.flit)) = true := by
    intro hall
    have hnone := List.all_eq_true.mp hall p (List.mem_of_getElem? hp)
    simp [hbuf, hends] at hnone
  have hports : sl.rope.ports.map (Port.release sl.time sl.ends) = updateAt (fun p => ({ p with buf := [] } : Port).owe sl.time a.flit.vc) k sl.rope.ports := by
    refine List.ext_getElem? fun j => ?_
    rw [List.getElem?_map, updateAt_getElem?]
    split
    · next hj =>
      rw [hj, hp, Option.map_some, Option.map_some, Port.release_one _ hbuf hends]
    · next hj =>
      cases hq : sl.rope.ports[j]? with
      | none => rfl
      | some q => rw [Option.map_some, Port.release_empty _ _ (hothers j q hj hq)]
  unfold Slice.emptyBufs
  rw [if_neg hsome, hports]
  rfl

/-- A flit for this slice leaves the receive buffer as it is accepted, and its credit is owed; nothing is sent. -/
theorem Slice.acceptFlit_delivered (env : Capstan) {sl : Slice} {port m : Nat} {f : Flit} {p : Port} (hidle : sl.linksIdle)
    (hp : sl.rope.ports[port]? = some p) (hdest : f.dest = sl.id) (hvc : f.vc ≠ 2) (howed : ∀ n ∈ p.owed, n < 31) :
    ∃ q, (sl.acceptFlit env port m f).rope.ports[port]? = some q ∧ q.buf = [] ∧ q.owed = updateAt (· + 1) (vcIndex f.vc) p.owed ∧
      q.owedSince.isSome = true := by
  obtain ⟨hbuf, hdue, -⟩ := hidle.port hp
  have hless := mem_updateAt_succ (k := vcIndex f.vc) howed
  have hport : (sl.onPort port (Port.taken sl.time m f)).rope.ports[port]? = some (p.taken sl.time m f) := updateAt_getElem?_same hp
  rw [Slice.acceptFlit_eq]
  rcases p.taken_flit sl.time m hvc with ⟨hb, ho, hs, hd⟩ | ⟨hb, ho, hd⟩
  · have hcut : (sl.onPort port (Port.taken sl.time m f)).linksIdle := Slice.linksIdle_onPort hidle.1 (fun j q _ hq => hidle.port hq) fun x hx => by
      cases hx.symm.trans hp
      exact ⟨hb.trans hbuf, hd.trans hdue, ho ▸ hless⟩
    rw [Slice.pump_idle env _ (by exact hcut)]
    exact ⟨_, hport, hb.trans hbuf, ho, hs⟩
  · have hone : (p.taken sl.time m f).buf = [{ module := m, flit := f }] := by rw [hb, hbuf]; rfl
    have hends : (sl.onPort port (Port.taken sl.time m f)).ends f = true := by simp [Slice.ends, Slice.onPort, hdest]
    have hempty := Slice.emptyBufs_one (sl := (sl.onPort port (Port.taken sl.time m f)).count 0x502 (port + 4 * f.vc) none 1) hport hone hends
      fun j q hj hq => (hidle.port (k := j) (((updateAt_getElem? ..).trans (if_neg hj)).symm.trans hq)).1
    have hidle' : ((sl.onPort port (Port.taken sl.time m f)).count 0x502 (port + 4 * f.vc) none 1).emptyBufs.linksIdle := by
      rw [hempty]
      refine Slice.linksIdle_onPort hidle.1 (fun j q hj hq => hidle.port (k := j) (((updateAt_getElem? ..).trans (if_neg hj)).symm.trans hq)) fun x hx => ?_
      cases hx.symm.trans hport
      refine ⟨rfl, hd.trans hdue, ?_⟩
      show ∀ n ∈ updateAt (· + 1) (vcIndex f.vc) (p.taken sl.time m f).owed, n < 32
      rw [ho]
      exact hless
    rw [Slice.pump_emptied env hidle', hempty]
    exact ⟨_, updateAt_getElem?_same hport, rfl, congrArg _ ho, rfl⟩

/-! ### A flit arrives (R408) -/

theorem State.moduleAt_eq {s : State} {i k m : Nat} {sl : Slice} {p : Port} (hat : s.slices[i]? = some sl) (hp : sl.rope.ports[k]? = some p) :
    s.moduleAt i k m = p.modules[m]? := by
  unfold State.moduleAt
  rw [hat, Option.bind_some, hp, Option.bind_some]

theorem Slice.works_routes {env : Capstan} {sl : Slice} (h : sl.works env = true) : sl.routes env = true := by simp [Slice.routes, h]

/-- A flit after which the module has not to retrain. -/
theorem exec_flitReceived_takes {s : State} {i port m : Nat} {sl : Slice} {p : Port} {x : Module} {f : Flit} (h : s.working i sl)
    (hp : sl.rope.ports[port]? = some p) (hx : p.modules[m]? = some x) (hup : x.st = .up) (hdown : p.st ≠ .down)
    (hkeeps : ∀ q y, (sl.takeFlit (sl.view s.cap) port m f p x).rope.ports[port]? = some q → q.modules[m]? = some y → y.mustRetrain = false) :
    exec (.flitReceived i port m f) s = .next (deliverAll (s.put i (sl.takeFlit (sl.view s.cap) port m f p x))) := by
  obtain ⟨hat, hworks, -, -⟩ := h
  have hlt : i < s.slices.length := (List.getElem?_eq_some_iff.mp hat).1
  have hretrain : (s.put i (sl.takeFlit (sl.view s.cap) port m f p x)).beginRetrain i port m = s.put i (sl.takeFlit (sl.view s.cap) port m f p x) := by
    refine if_neg ?_
    unfold State.moduleAt
    rw [State.put, List.getElem?_set_self hlt, Option.bind_some]
    cases hq : (sl.takeFlit (sl.view s.cap) port m f p x).rope.ports[port]? with
    | none => simp
    | some q =>
      cases hy : q.modules[m]? with
      | none => simp [hy]
      | some y => simp [hy, hkeeps q y hq hy]
  rw [exec_flitReceived, execFlitReceived]
  simp only [hat, hp, State.moduleAt_eq hat hp, hx]
  rw [if_neg (by simp [Slice.works_routes hworks, hup, hdown]), State.atSlice_eq hat, hretrain]

/-- The module as a flit's frame mark leaves it, while the marks are right. -/
theorem Module.mark_good {f : Flit} (x : Module) (h : f.frameMark = frameMark) : x.mark f = { x with badMarks := 0 } := by
  unfold Module.mark
  rw [if_pos h]

theorem flitError_none {n : Nat} {p : Port} {m : Nat} {f : Flit} (h : flitError n p m f = none) : f.frameMark = frameMark := by
  unfold flitError at h
  split at h
  · cases h
  · split at h
    · cases h
    · next hframe =>
      refine Decidable.byContradiction fun hne => ?_
      simp [hne] at hframe

/-- A slice that has seen the frame mark of a flit on module `m` (R410). -/
def Slice.marked (sl : Slice) (port m : Nat) (f : Flit) : Slice :=
  (sl.onPort port (fun p => p.onModule m (Module.mark f))).count 0x504 (portQual port m) none f.corrected

theorem Slice.marked_idle {sl : Slice} (port m : Nat) (f : Flit) (h : sl.linksIdle) : (sl.marked port m f).linksIdle :=
  Slice.linksIdle_onPort h.1 (fun _ _ _ hq => h.port hq) fun x hx => show x.idle from h.port hx

theorem Slice.takeFlit_sound {env : Capstan} {sl : Slice} {port m : Nat} {f : Flit} {p : Port} {x : Module} (herr : flitError env.n p m f = none)
    (htype : f.mtype ≠ 0) (hseq : f.seq = x.expect) :
    sl.takeFlit env port m f p x = ((sl.marked port m f).takeAck env port m f).acceptFlit env port m f := by
  unfold Slice.takeFlit
  dsimp only
  rw [herr, if_neg (by simpa using htype), if_pos (by simpa using hseq)]
  simp only [Option.isNone_none, if_true, Slice.marked]

theorem Slice.onPort_getElem? {sl : Slice} {k : Nat} {f : Port → Port} {p : Port} (h : sl.rope.ports[k]? = some p) :
    (sl.onPort k f).rope.ports[k]? = some (f p) := updateAt_getElem?_same h

/-- Nothing is told as a flit is accepted, and its module has accepted it. -/
theorem Slice.acceptFlit_module {env : Capstan} {sl : Slice} {port m : Nat} (f : Flit) {q : Port} {y : Module} (hsend : sl.rope.sendq = [])
    (hq : sl.rope.ports[port]? = some q) (hy : q.modules[m]? = some y) : (sl.acceptFlit env port m f).mail = sl.mail ∧
      ∃ r z, (sl.acceptFlit env port m f).rope.ports[port]? = some r ∧ r.modules[m]? = some z ∧ z.received = (y.accepted f).received := by
  have hcount := Slice.Sends.count (sl.onPort port (Port.taken sl.time m f)) 0x502 (port + 4 * f.vc) none 1
  have hpump := hcount.trans (Slice.pump_sends env (hcount.sendq.trans hsend))
  have htaken : (q.taken sl.time m f).modules[m]? = some (y.accepted f) := by rw [Port.taken_modules, updateAt_getElem?_same hy]
  rw [Slice.acceptFlit_eq]
  exact ⟨hpump.mail, hpump.port (Slice.onPort_getElem? hq) htaken⟩

/-- The module that has taken a sound flit in sequence expects the next one; nothing is told. -/
theorem Slice.takeFlit_module {env : Capstan} {sl : Slice} {port m : Nat} {f : Flit} {p : Port} {x : Module} (herr : flitError env.n p m f = none)
    (htype : f.mtype ≠ 0) (hseq : f.seq = x.expect) (hidle : sl.linksIdle) (hp : sl.rope.ports[port]? = some p) (hx : p.modules[m]? = some x) :
    (sl.takeFlit env port m f p x).mail = sl.mail ∧ ∃ q y, (sl.takeFlit env port m f p x).rope.ports[port]? = some q ∧ q.modules[m]? = some y ∧
      y.received = (x.st, (f.seq + 1) % 256, f.seq % 256, false, x.rejects, 0) := by
  have hmarked : (sl.marked port m f).rope.ports[port]? = some (p.onModule m (Module.mark f)) := Slice.onPort_getElem? hp
  have hacks := Slice.takeAck_acks env port m f (sl.marked_idle port m f hidle)
  obtain ⟨q, hq, hsame⟩ := hacks.port hmarked
  obtain ⟨y, hy, hrx⟩ := Port.receiving_module hsame (updateAt_getElem?_same hx)
  rw [Module.mark_good x (flitError_none herr)] at hrx
  have hfields := Module.received_receiving hrx
  obtain ⟨hmail, r, z, hr, hz, hkept⟩ := Slice.acceptFlit_module (env := env) f (hacks.linksIdle (sl.marked_idle port m f hidle)).1 hq hy
  rw [Slice.takeFlit_sound herr htype hseq]
  refine ⟨hmail.trans hacks.mail, r, z, hr, hz, hkept.trans ?_⟩
  simp only [Module.received, Prod.mk.injEq] at hfields
  obtain ⟨hst, -, -, -, hrejects, hbad⟩ := hfields
  simp only [Module.received, Module.accepted, hst, hrejects, hbad]

/-- A flit for this slice that is taken leaves nothing in the buffer, and its credit is owed. -/
theorem Slice.takeFlit_delivered {env : Capstan} {sl : Slice} {port m : Nat} {f : Flit} {p : Port} {x : Module} (herr : flitError env.n p m f = none)
    (htype : f.mtype ≠ 0) (hseq : f.seq = x.expect) (hidle : sl.linksIdle) (hp : sl.rope.ports[port]? = some p) (hdest : f.dest = sl.id)
    (hvc : f.vc ≠ 2) (howed : ∀ n ∈ p.owed, n < 31) : ∃ q, (sl.takeFlit env port m f p x).rope.ports[port]? = some q ∧ q.buf = [] ∧
      q.owed = updateAt (· + 1) (vcIndex f.vc) p.owed ∧ q.owedSince.isSome = true := by
  have hmarked : (sl.marked port m f).rope.ports[port]? = some (p.onModule m (Module.mark f)) := Slice.onPort_getElem? hp
  have hacks := Slice.takeAck_acks env port m f (sl.marked_idle port m f hidle)
  obtain ⟨q, hq, hsame⟩ := hacks.port hmarked
  have howes : q.receiving.owed = (p.onModule m (Module.mark f)).receiving.owed := congrArg Port.owed hsame
  change q.owed = p.owed at howes
  have hid : ((sl.marked port m f).takeAck env port m f).id = sl.id := hacks.id
  rw [Slice.takeFlit_sound herr htype hseq, ← howes]
  exact Slice.acceptFlit_delivered env (hacks.linksIdle (sl.marked_idle port m f hidle)) hq (hdest.trans hid.symm) hvc (howes ▸ howed)

/-- A module without many rejections or wrong marks has not to retrain. -/
theorem Module.keeps {x y : Module} {rs : List Nat} {e l : Nat} {b : Bool} (h : y.received = (x.st, e, l, b, rs, 0)) (hrejects : rs.length < 16) :
    y.mustRetrain = false := by
  simp only [Module.received, Prod.mk.injEq] at h
  obtain ⟨-, -, -, -, hrs, hbad⟩ := h
  simp [Module.mustRetrain, hrs, hbad, hrejects]

/-! ### A record leaves the slice (R535, R536) -/

/-- What logging changes of a slice: its outbox, its limiter, its losses, and its mail. -/
structure Slice.Logs (a b : Slice) : Prop where
  rest : b = { a with tokens := b.tokens, dropped := b.dropped, droppedFirst := b.droppedFirst, outbox := b.outbox, heldLoss := b.heldLoss
                      heldFirst := b.heldFirst, mail := b.mail }
  mail : b.mail = a.mail ∨ ∃ k held, b.mail = a.mail ++ [.dropped k held]

theorem Slice.log_logs (env : Capstan) (sl : Slice) (code : Nat) (data : List Byte) (x : LogExtra) : sl.Logs (sl.log env code data x) := by
  have hlimit (n : Nat) : sl.Logs (if limitedCode code then { sl with tokens := n } else sl) := by
    split <;> exact ⟨rfl, .inl rfl⟩
  unfold Slice.log
  extract_lets held count out bare sl' before d
  split
  · exact ⟨rfl, .inr ⟨_, _, rfl⟩⟩
  · have hsl : sl.Logs sl' := hlimit _
    have hmail : sl'.mail = sl.mail := by
      simp only [sl']
      split <;> rfl
    split
    · refine ⟨?_, .inr ⟨count, true, congrArg (· ++ _) hmail⟩⟩
      rw [Slice.tell, hsl.rest]
    · split
      · refine ⟨?_, .inl hmail⟩
        rw [hsl.rest]
      · refine ⟨?_, .inl hmail⟩
        rw [hsl.rest]

/-- The Capstan counts a dropped record, or keeps the notice while it restarts. -/
theorem State.notify_dropped (s : State) (k : Nat) (held : Bool) :
    ∃ c : Capstan, s.notify (.dropped k held) = s.withCap c ∧ c.hl.lostLinks = s.cap.hl.lostLinks ∧ c.ctxs = s.cap.ctxs := by
  unfold State.notify
  split
  · exact ⟨_, rfl, rfl, rfl⟩
  · exact ⟨_, rfl, rfl, rfl⟩

/-- A record that is dropped is told, and no more. -/
theorem deliverAll_logs {s : State} {i : Nat} {a b : Slice} (hi : i < s.slices.length) (hsettled : s.settled) (hmail : a.mail = []) (h : a.Logs b) :
    ∃ c : Capstan, deliverAll (s.put i b) = (s.put i { b with mail := [] }).withCap c ∧ c.hl.lostLinks = s.cap.hl.lostLinks ∧ c.ctxs = s.cap.ctxs := by
  rcases h.mail with hm | ⟨k, held, hm⟩
  · have hnone : b.mail = [] := hm.trans hmail
    have hsame : { b with mail := [] } = b := by rw [← hnone]
    exact ⟨s.cap, by rw [hsame, deliverAll_settled _ (s.settled_put i b hsettled hnone)]; rfl, rfl, rfl⟩
  · rw [hmail, List.nil_append] at hm
    obtain ⟨c, hc, hlinks, hctxs⟩ := (s.put i { b with mail := [] }).notify_dropped k held
    have hread : (s.put i b).readMail i = (s.put i { b with mail := [] }).withCap c := by
      rw [← hc]
      simp [State.readMail, State.put, hi, hm]
    have hquiet : ((s.put i { b with mail := [] }).withCap c).settled := by
      obtain ⟨hmails, hover⟩ := s.settled_put i { b with mail := [] } hsettled rfl
      exact ⟨hmails, fun x hx => hover x (hctxs ▸ hx)⟩
    refine ⟨c, ?_, hlinks, hctxs⟩
    rw [deliverAll_one hi hsettled (hread ▸ hquiet.1), deliver, hread, deliverAll_settled _ hquiet]

theorem div_two_pow_add (x a b : Nat) : x / 2 ^ (a + b) = x / 2 ^ a / 2 ^ b := by
  rw [Nat.pow_add, Nat.div_div_eq_div_mul]

/-! ### A flit is rejected (R409, R428) -/

/-- A module that has rejected a flit. -/
def Module.rejected (now : Nat) (x : Module) : Module := { x with nak := true, rejects := x.rejects.filter (fun t => now ≤ t + 20000) ++ [now] }

/-- A module with fewer than 16 rejections and no wrong marks goes on. -/
theorem Module.rejected_keeps {x : Module} (now : Nat) (hmarks : x.badMarks = 0) (h : x.rejects.length < 15) : (x.rejected now).mustRetrain = false := by
  have hfew : (x.rejects.filter (fun t => decide (now ≤ t + 20000))).length ≤ x.rejects.length := List.length_filter_le _ _
  simp only [Module.mustRetrain, Module.rejected, hmarks, List.length_append, List.length_singleton]
  simp
  omega

/-- LINK_ERR as a link error leaves it (R428). -/
def linkErrValue (port m kind epoch : Nat) : Reg := fields [1, place port 2 1, place m 2 3, place kind 3 5, place epoch 16 16]

theorem linkErrValue_toNat (port m kind epoch : Nat) : (linkErrValue port m kind epoch).toNat =
    1 + port % 2 ^ 2 * 2 ^ 1 + m % 2 ^ 2 * 2 ^ 3 + kind % 2 ^ 3 * 2 ^ 5 + epoch % 2 ^ 16 * 2 ^ 16 := by
  simp only [linkErrValue, fields, reg, List.sum_cons, List.sum_nil, place, Nat.shiftLeft_eq, BitVec.toNat_ofNat]
  omega

theorem linkErrValue_valid (port m kind epoch : Nat) : (linkErrValue port m kind epoch).getLsbD 0 = true := by
  rw [BitVec.getLsbD, linkErrValue_toNat, Nat.testBit_zero, decide_eq_true_eq]
  omega

theorem linkErrValue_fields (port m kind epoch : Nat) : (linkErrValue port m kind epoch).toNat / 8 % 4 = m % 4 ∧
    (linkErrValue port m kind epoch).toNat / 32 % 8 = kind % 8 := by
  rw [linkErrValue_toNat]
  omega

theorem Slice.linkError_logs (env : Capstan) (sl : Slice) (port m kind : Nat) :
    ({ sl with rope := { sl.rope with linkErr := linkErrValue port m kind sl.rope.epoch } } : Slice).Logs (sl.linkError env port m kind) :=
  Slice.log_logs _ _ _ _ _

theorem Slice.Logs.rope {a b : Slice} (h : a.Logs b) : b.rope = a.rope := by
  have hrope := congrArg Slice.rope h.rest
  exact hrope

theorem flitError_words {n : Nat} {p : Port} {m : Nat} {f : Flit} (h : f.wordsOk = false) : flitError n p m f = some kindUncorrectable := by
  unfold flitError
  rw [if_pos (by simp [h])]

theorem Slice.takeFlit_rejected {env : Capstan} {sl : Slice} {port m : Nat} {f : Flit} {p : Port} {x : Module} (h : f.wordsOk = false) :
    sl.takeFlit env port m f p x =
      ((sl.marked port m f).onPort port (fun p => p.onModule m (Module.rejected sl.time))).linkError env port m kindUncorrectable := by
  have herr : flitError env.n p m f = some kindUncorrectable := flitError_words h
  unfold Slice.takeFlit
  dsimp only
  rw [herr]
  simp only [Option.isNone_some, Bool.false_and, Bool.false_eq_true, if_false, Bool.false_or]
  rw [if_neg (by simp [kindUncorrectable, kindMalformed])]
  rfl

end Sys2Proof.Machine

open Sys2Proof Sys2Proof.Machine

/-- Settles O28: the flits and their bits; acceptance by what the module expects after it; rejection by its kind. -/
theorem flitsAreAcceptedInSequence : Obligations.FlitsAreAcceptedInSequence := by
  unfold Obligations.FlitsAreAcceptedInSequence
  refine ⟨fun env m => ⟨m.flits_body env, m.flits_length env⟩, fun env m k f hf => ?_, fun f => ?_,
    fun s i port m sl p x f hworking hp hx hup hdown herr htype hseq hlt hrejects hidle => ?_,
    fun s i port m sl p x f hworking hp hx hup hdown hwords hmark hrejects => ?_⟩
  · rw [RopeMsg.flits_getElem? hf]
    have hpart : (((bodyOf env m).drop (96 * k)).take 96).length ≤ 96 := List.length_take_le _ _
    refine ⟨hpart, rfl, rfl, ?_, rfl, rfl, rfl, rfl⟩
    show ((((bodyOf env m).drop (96 * k)).take 96).length + 15) / 16 ≤ 6
    omega
  · have htail := flitBits_tail f
    have hheader := flitHeader_eq f
    have hfirst := Bool.toNat_le f.first
    have hlast := Bool.toNat_le f.last
    have hnak := Bool.toNat_le f.nak
    refine ⟨fun w hw => flitBits_word f hw, ?_, ?_, ?_⟩
    · rw [htail, flitTail]
      omega
    · have hmark : flitBits f / 2 ^ 1016 = flitBits f / 2 ^ 1008 / 2 ^ 8 := div_two_pow_add _ 1008 8
      rw [hmark, htail, flitTail]
      omega
    · rw [hheader]
      generalize f.first.toNat = a at *
      generalize f.last.toNat = b at *
      generalize f.nak.toNat = c at *
      omega
  · obtain ⟨hmail, q, y, hq, hy, hreceived⟩ := Slice.takeFlit_module (env := sl.view s.cap) herr htype hseq hidle hp hx
    have hexec := exec_flitReceived_takes hworking hp hx hup hdown fun q' y' hq' hy' => by
      cases hq.symm.trans hq'
      cases hy.symm.trans hy'
      exact Module.keeps hreceived hrejects
    rw [deliverAll_settled _ (s.settled_put i _ hworking.2.2.2 (hmail.trans (s.mail_of i sl hworking.1 hworking.2.2.2)))] at hexec
    simp only [Module.received, Prod.mk.injEq] at hreceived
    obtain ⟨-, hexpect, hlast, hnak, -, -⟩ := hreceived
    refine ⟨_, _, q, y, hexec, List.getElem?_set_self (List.getElem?_eq_some_iff.mp hworking.1).1, hq, hy, hexpect, hlast.trans (Nat.mod_eq_of_lt hlt),
      hnak, rfl, fun hdest hvc howed => ?_⟩
    obtain ⟨q', hq', hbuf, howes, hsince⟩ := Slice.takeFlit_delivered (env := sl.view s.cap) herr htype hseq hidle hp hdest hvc howed
    cases hq.symm.trans hq'
    exact ⟨hbuf, howes, hsince⟩
  · obtain ⟨hat, -, -, hsettled⟩ := id hworking
    have hlt : i < s.slices.length := (List.getElem?_eq_some_iff.mp hat).1
    have htake := Slice.takeFlit_rejected (env := sl.view s.cap) (sl := sl) (port := port) (m := m) (p := p) (x := x) hwords
    have hlogs := Slice.linkError_logs (sl.view s.cap) ((sl.marked port m f).onPort port (fun p => p.onModule m (Module.rejected sl.time))) port m
      kindUncorrectable
    rw [← htake] at hlogs
    have hport : (sl.takeFlit (sl.view s.cap) port m f p x).rope.ports[port]? = some ((p.onModule m (Module.mark f)).onModule m (Module.rejected sl.time)) := by
      rw [hlogs.rope]
      exact Slice.onPort_getElem? (Slice.onPort_getElem? hp)
    have hmod : ((p.onModule m (Module.mark f)).onModule m (Module.rejected sl.time)).modules[m]? = some ((x.mark f).rejected sl.time) :=
      updateAt_getElem?_same (updateAt_getElem?_same hx)
    have hexec := exec_flitReceived_takes hworking hp hx hup hdown fun q y hq hy => by
      cases hport.symm.trans hq
      cases hmod.symm.trans hy
      rw [Module.mark_good x hmark]
      exact Module.rejected_keeps sl.time rfl hrejects
    obtain ⟨c, hdeliver, -, -⟩ := deliverAll_logs hlt hsettled (by exact s.mail_of i sl hat hsettled) hlogs
    rw [hdeliver] at hexec
    refine ⟨_, _, _, _, hexec, List.getElem?_set_self hlt, hport, hmod, rfl, rfl, rfl, ?_⟩
    change (sl.takeFlit (sl.view s.cap) port m f p x).rope.linkErr.getLsbD 0 = true ∧ (sl.takeFlit (sl.view s.cap) port m f p x).rope.linkErr.toNat / 8 % 4 = m % 4 ∧
      (sl.takeFlit (sl.view s.cap) port m f p x).rope.linkErr.toNat / 32 % 8 = 1
    rw [hlogs.rope]
    exact ⟨linkErrValue_valid .., linkErrValue_fields ..⟩
end

section
/-!
Credits over a link, and the end of a module's retraining (R408 to R413, R428).
-/

namespace Sys2Proof.Machine

/-- A command at a router that works, which tells nothing. -/
theorem onRouter_quiet {i : Nat} {s : State} {sl : Slice} {f : Capstan → Slice → Slice} (w : s.working i sl)
    (n : (f (sl.view s.cap) sl).pwr.napping = false) (m : (f (sl.view s.cap) sl).mail = []) :
    onRouter i s f = .next (s.put i (f (sl.view s.cap) sl)) := by
  have hawake : (f (sl.view s.cap) sl).awaken = f (sl.view s.cap) sl := by simp [Slice.awaken, Slice.wake, n]
  have hworks : sl.works (sl.view s.cap) = true := w.2.1
  unfold onRouter
  rw [onSlice_quiet i s sl _ w.1 w.2.2.2 (by rw [if_pos hworks, hawake]; exact m), if_pos hworks, hawake]

/-! ### The CREDIT flits that leave (R411, R413) -/

/-- What `pumpCredits` does at one port. -/
def Slice.pumpPort (env : Capstan) (sl : Slice) (i : Nat) : Slice :=
  match sl.rope.ports[i]? with
  | none => sl
  | some p =>
    let r := p.credits32.sendCredit sl.id ((env.neighbour sl.id i).getD sl.id) sl.rope.epoch
    if r.1 = 0 && r.2 = p then sl
    else (sl.onPort i (fun _ => r.2)).count 0x501 (i + 4 * 2) none r.1

theorem Slice.pumpCredits_eq (env : Capstan) (sl : Slice) : sl.pumpCredits env = (List.range 4).foldl (Slice.pumpPort env) sl := rfl

theorem Slice.pumpPort_idle {env : Capstan} {sl : Slice} {i : Nat} (h : ∀ p, sl.rope.ports[i]? = some p → p.creditDue = false ∧ ∀ n ∈ p.owed, n < 32) :
    sl.pumpPort env i = sl := by
  unfold Slice.pumpPort
  split
  · rfl
  · next p hp =>
    obtain ⟨hdue, howed⟩ := h p hp
    have hnone (src dest epoch : Nat) : p.sendCredit src dest epoch = (0, p) := by
      unfold Port.sendCredit
      split
      · rfl
      · simp [hdue]
    simp [p.credits32_idle howed, hnone]

/-- The port that has returned what it owes in a CREDIT flit on module `m`. -/
def Port.returned (p : Port) (m src dest epoch : Nat) : Port :=
  { p with modules := updateAt (fun x => x.push (creditFlit src dest epoch p.owed)) m p.modules, owed := [0, 0, 0], owedSince := none, creditDue := false }

theorem Slice.pumpPort_due {env : Capstan} {sl : Slice} {i m : Nat} {p : Port} {x : Module} (hp : sl.rope.ports[i]? = some p) (hlow : p.lowest = some m)
    (hx : p.modules[m]? = some x) (hroom : x.replay.length < 128) (hdue : p.creditDue = true) (hsince : p.owedSince.isSome = true)
    (howed : ∀ n ∈ p.owed, n < 32) : sl.pumpPort env i =
      (sl.onPort i (fun _ => p.returned m sl.id ((env.neighbour sl.id i).getD sl.id) sl.rope.epoch)).count 0x501 (i + 4 * 2) none 1 := by
  have hsend (src dest epoch : Nat) : p.sendCredit src dest epoch = (1, p.returned m src dest epoch) := by
    unfold Port.sendCredit
    rw [hlow]
    exact if_pos (by simp [hdue, hsince, hx, Module.room, hroom])
  unfold Slice.pumpPort
  rw [hp]
  dsimp only
  rw [p.credits32_idle howed, hsend]
  exact if_neg (by simp)

theorem Slice.flitsWaiting_none {sl : Slice} (hsend : sl.rope.sendq = []) (hbuf : ∀ p ∈ sl.rope.ports, p.buf = []) : sl.flitsWaiting = 0 := by
  have hsum : sl.rope.ports.map (fun p => p.buf.length) = sl.rope.ports.map (fun _ => 0) := List.map_congr_left fun p hp => by rw [hbuf p hp]; rfl
  unfold Slice.flitsWaiting
  rw [hsend, hsum]
  simp only [List.map_nil, List.sum_nil, List.map_const', List.sum_replicate_nat, Nat.mul_zero]

/-- Where nothing waits but CREDIT flits, those that are ready leave. -/
theorem Slice.pump_credits (env : Capstan) {sl : Slice} (hbuf : ∀ p ∈ sl.rope.ports, p.buf = [])
    (hbuf' : ∀ p ∈ (sl.pumpCredits env).rope.ports, p.buf = []) (hsend' : (sl.pumpCredits env).rope.sendq = []) :
    sl.pump env = sl.pumpCredits env := by
  have hempty : sl.emptyBufs = sl := if_pos (List.all_eq_true.mpr fun p hp => by simp [hbuf p hp])
  unfold Slice.pump
  rw [hempty]
  exact if_pos (Slice.flitsWaiting_none hsend' hbuf')

/-- A port whose CREDIT flit is ready. -/
def Port.due (p : Port) : Port := { p with creditDue := true }

/-- A slice on whose port `k` a CREDIT flit is due, while its links are idle otherwise. -/
theorem Slice.pump_due {env : Capstan} {sl : Slice} {k m : Nat} {p : Port} {x : Module} (hk : k < 4) (hidle : sl.linksIdle)
    (hp : sl.rope.ports[k]? = some p) (hlow : p.lowest = some m) (hx : p.modules[m]? = some x) (hroom : x.replay.length < 128)
    (hsince : p.owedSince.isSome = true) : (sl.onPort k Port.due).pump env =
      ((sl.onPort k Port.due).onPort k
        (fun _ => p.returned m sl.id ((env.neighbour sl.id k).getD sl.id) sl.rope.epoch)).count 0x501 (k + 4 * 2) none 1 := by
  obtain ⟨hbuf, -, howed⟩ := hidle.port hp
  have hport : (sl.onPort k Port.due).rope.ports[k]? = some p.due := Slice.onPort_getElem? hp
  have hat := Slice.pumpPort_due (env := env) hport hlow hx hroom rfl hsince howed
  have hother (f : Port → Port) (g : Port → Port) {j : Nat} (hj : j ≠ k) {q : Port}
      (hq : ((sl.onPort k f).onPort k g).rope.ports[j]? = some q) : q.idle := by
    rw [Slice.onPort, updateAt_getElem?, if_neg hj, Slice.onPort, updateAt_getElem?, if_neg hj] at hq
    exact hidle.port hq
  have hcredits : (sl.onPort k Port.due).pumpCredits env = ((sl.onPort k Port.due).onPort k
      (fun _ => p.returned m sl.id ((env.neighbour sl.id k).getD sl.id) sl.rope.epoch)).count 0x501 (k + 4 * 2) none 1 := by
    rw [Slice.pumpCredits_eq]
    refine foldl_once List.nodup_range (List.mem_range.mpr hk) (fun j _ hj => Slice.pumpPort_idle fun q hq => ?_) hat
      (fun j _ hj => Slice.pumpPort_idle fun q hq => (hother _ _ hj hq).2)
    rw [Slice.onPort, updateAt_getElem?, if_neg hj] at hq
    exact (hidle.port hq).2
  rw [Slice.pump_credits env ?_ ?_ ?_, hcredits]
  · intro q hq
    rcases mem_updateAt hq with hq | ⟨y, hy, rfl⟩
    · exact (hidle.2 q hq).1
    · exact (hidle.port hy).1
  · rw [hcredits]
    intro q hq
    rcases mem_updateAt hq with hq | ⟨y, hy, rfl⟩
    · rcases mem_updateAt hq with hq | ⟨y, hy, rfl⟩
      · exact (hidle.2 q hq).1
      · exact (hidle.port hy).1
    · exact hbuf
  · rw [hcredits]
    exact hidle.1

/-! ### The two ends of a link (R410) -/

theorem updateAt_same {α : Type} {f : α → α} {k : Nat} {xs : List α} (h : ∀ x, xs[k]? = some x → f x = x) : updateAt f k xs = xs := by
  refine List.ext_getElem? fun j => ?_
  rw [updateAt_getElem?]
  split
  · next hj =>
    cases hx : xs[j]? with
    | none => rfl
    | some x => rw [Option.map_some, h x (hj ▸ hx)]
  · rfl

theorem Port.judge_modules (p : Port) : p.judge.modules = p.modules ∧ (p.idle → p.judge.idle) := by
  unfold Port.judge
  split
  · exact ⟨rfl, id⟩
  · split
    · exact ⟨rfl, id⟩
    · split
      · exact ⟨rfl, id⟩
      · exact ⟨rfl, id⟩

/-- A module changed at one end of its link. -/
def Slice.endOf (k m : Nat) (f : Module → Module) (sl : Slice) : Slice := sl.onPort k (fun x => (x.onModule m f).judge)

theorem State.put_getElem?_ne {s : State} {i j : Nat} {sl : Slice} (h : j ≠ i) : (s.put i sl).slices[j]? = s.slices[j]? :=
  List.getElem?_set_ne (Ne.symm h)

theorem State.put_put (s : State) (i : Nat) (a b : Slice) : (s.put i a).put i b = s.put i b := by
  simp [State.put]

theorem State.put_comm (s : State) {i j : Nat} (a b : Slice) (h : j ≠ i) : (s.put i a).put j b = (s.put j b).put i a := by
  simp only [State.put, List.set_comm _ _ (Ne.symm h)]

theorem State.onLink_eq {s : State} {i j k m : Nat} {sl sr : Slice} (f : Module → Module) (hi : s.slices[i]? = some sl) (hj : s.slices[j]? = some sr)
    (hne : j ≠ i) (hlink : s.cap.neighbour i k = some j) : s.onLink i k m f = (s.put i (sl.endOf k m f)).put j (sr.endOf (facing k) m f) := by
  have hother : (s.put i (sl.endOf k m f)).slices[j]? = some sr := (State.put_getElem?_ne hne).trans hj
  have hfirst : s.atSlice i (fun _ sl => sl.onPort k (fun x => (x.onModule m f).judge)) = s.put i (sl.endOf k m f) := State.atSlice_eq hi
  unfold State.onLink
  dsimp only
  rw [hfirst, show (s.put i (sl.endOf k m f)).cap = s.cap from rfl, hlink]
  exact State.atSlice_eq hother

end Sys2Proof.Machine
end

section
/-!
A module's retraining ends, at both ends of its link (R410).
-/

namespace Sys2Proof.Machine

/-! ### Kept flits stay where they are -/

theorem Port.onModule_same {p : Port} {m : Nat} {f : Module → Module} (h : ∀ x, p.modules[m]? = some x → f x = x) : p.onModule m f = p := by
  unfold Port.onModule
  rw [updateAt_same h]

/-- Where no module that is DOWN keeps flits, none moves. -/
theorem Port.moveKept_nothing {p : Port} (h : ∀ z ∈ p.modules, z.st = .down → z.replay = []) : p.moveKept = (0, p) := by
  unfold Port.moveKept
  split
  · rfl
  · refine foldl_still _ _ _ fun m _ => ?_
    dsimp only
    split
    · next x y hx hy =>
      split
      · rfl
      · next hdown =>
        have hnone : x.replay = [] := h x (List.mem_of_getElem? hx) (by simpa using hdown)
        rw [hnone, List.take_nil, List.length_nil]
        simp only [List.drop_zero, List.foldl_nil]
        rw [Port.onModule_same (p := p) (m := m) fun z _ => rfl, Port.onModule_same fun z _ => rfl]
    · rfl

theorem Slice.moveKept_nothing {sl : Slice} {k : Nat} {p : Port} (hp : sl.rope.ports[k]? = some p) (h : ∀ z ∈ p.modules, z.st = .down → z.replay = []) :
    sl.moveKept k = sl.count 0x503 (portQual k (p.lowest.getD 0)) none 0 := by
  have hsame : sl.onPort k (fun _ => p) = sl := by
    unfold Slice.onPort
    rw [updateAt_same fun x hx => by cases hx.symm.trans hp; rfl]
  unfold Slice.moveKept
  rw [hp]
  dsimp only
  rw [Port.moveKept_nothing h, hsame]

/-! ### An end of a link that changes -/

theorem Slice.endOf_facts {sl : Slice} {k m : Nat} {p : Port} {x : Module} (f : Module → Module) (hidle : sl.linksIdle) (hp : sl.rope.ports[k]? = some p)
    (hx : p.modules[m]? = some x) : (sl.endOf k m f).linksIdle ∧
      (sl.endOf k m f).rope.ports[k]? = some (p.onModule m f).judge ∧ (p.onModule m f).judge.modules = p.modules.set m (f x) := by
  refine ⟨Slice.linksIdle_onPort hidle.1 (fun _ _ _ hq => hidle.port hq) fun y hy =>
    (Port.judge_modules _).2 (show y.idle from hidle.port hy), Slice.onPort_getElem? hp, ?_⟩
  rw [(Port.judge_modules _).1, Port.onModule, updateAt_eq_set hx]

/-- The module works again and sends its unacknowledged flits again. -/
def Slice.resumed (env : Capstan) (k m : Nat) (sl : Slice) : Slice :=
  let kept := ((sl.rope.ports[k]?).bind (fun x => x.modules[m]?)).map (fun x => x.replay.length)
  let sl := sl.onPort k (fun x => x.onModule m Module.resend)
  ((sl.count 0x503 (portQual k m) none (kept.getD 0)).moveKept k).pump env

theorem Slice.resumed_facts (env : Capstan) {sl : Slice} {k m : Nat} {p : Port} (hidle : sl.linksIdle) (hp : sl.rope.ports[k]? = some p)
    (hup : ∀ z ∈ p.modules, z.st ≠ .down) : (sl.resumed env k m).mail = sl.mail ∧
      (sl.resumed env k m).rope.ports[k]? = some (p.onModule m Module.resend) := by
  have hport : (sl.onPort k (fun x => x.onModule m Module.resend)).rope.ports[k]? = some (p.onModule m Module.resend) := Slice.onPort_getElem? hp
  have hkept : ∀ z ∈ (p.onModule m Module.resend).modules, z.st = .down → z.replay = [] := by
    intro z hz hdown
    rcases mem_updateAt hz with hz | ⟨y, hy, rfl⟩
    · exact absurd hdown (hup z hz)
    · exact absurd hdown (hup y (List.mem_of_getElem? hy))
  have hidle' : (sl.onPort k (fun x => x.onModule m Module.resend)).linksIdle :=
    Slice.linksIdle_onPort hidle.1 (fun _ _ _ hq => hidle.port hq) fun y hy => show y.idle from hidle.port hy
  unfold Slice.resumed
  dsimp only
  rw [Slice.moveKept_nothing (by exact hport) hkept, Slice.pump_idle env _ (by exact hidle')]
  exact ⟨rfl, hport⟩

/-- The messages of a module that is DOWN go on on another. -/
def Port.rekeyed (m : Nat) (x : Port) : Port :=
  match x.lowest with
  | some t => { x with openMsg := x.openMsg.map (fun o => if o.1 = m then (t, o.2) else o)
                       cut := x.cut.map (fun o => if o.1 = m then (t, o.2) else o)
                       outOpen := x.outOpen.map (fun o => if o.1 = m then (t, o.2) else o)
                       buf := x.buf.map (fun a => if a.module = m then { a with module := t } else a) }
  | none => x

/-- An end of a link whose module is DOWN. -/
def Slice.bereft (env : Capstan) (k m : Nat) (sl : Slice) : Slice :=
  let low := ((sl.rope.ports[k]?).bind Port.lowest).getD m
  (((sl.onPort k (Port.rekeyed m)).rekeySent k m low).moveKept k).pump env

theorem Port.rekeyed_facts (m : Nat) (p : Port) : (p.rekeyed m).modules = p.modules ∧ (p.rekeyed m).st = p.st ∧ (p.idle → (p.rekeyed m).idle) := by
  unfold Port.rekeyed
  split
  · refine ⟨rfl, rfl, fun h => ⟨?_, h.2⟩⟩
    show p.buf.map _ = []
    rw [h.1, List.map_nil]
  · exact ⟨rfl, rfl, id⟩

theorem Slice.bereft_facts (env : Capstan) {sl : Slice} {k : Nat} (m : Nat) {p : Port} (hidle : sl.linksIdle) (hp : sl.rope.ports[k]? = some p)
    (hkept : ∀ z ∈ p.modules, z.st = .down → z.replay = []) : (sl.bereft env k m).mail = sl.mail ∧
      (sl.bereft env k m).rope.ports[k]? = some (p.rekeyed m) ∧ (sl.bereft env k m).rope.linkErr = sl.rope.linkErr := by
  obtain ⟨hmods, -, -⟩ := p.rekeyed_facts m
  have hport : (sl.onPort k (Port.rekeyed m)).rope.ports[k]? = some (p.rekeyed m) := Slice.onPort_getElem? hp
  have hidle' : (sl.onPort k (Port.rekeyed m)).linksIdle :=
    Slice.linksIdle_onPort hidle.1 (fun _ _ _ hq => hidle.port hq) fun y hy => (y.rekeyed_facts m).2.2 (hidle.port hy)
  have hsent (low : Nat) : ((sl.onPort k (Port.rekeyed m)).rekeySent k m low).linksIdle := by
    refine ⟨?_, hidle'.2⟩
    show (sl.onPort k (Port.rekeyed m)).rope.sendq.map _ = []
    rw [hidle'.1, List.map_nil]
  unfold Slice.bereft
  dsimp only
  rw [Slice.moveKept_nothing (by exact hport) (by rw [hmods]; exact hkept), Slice.pump_idle env _ (by exact hsent _)]
  exact ⟨rfl, hport, rfl⟩

/-! ### Both ends -/

/-- A module that works again, and one that is DOWN. -/
abbrev Module.raised (x : Module) : Module := { x with st := .up }
abbrev Module.lowered (x : Module) : Module := { x with st := .down }

theorem State.atFirst {s : State} {i j : Nat} {a b : Slice} (f : Capstan → Slice → Slice) (hi : i < s.slices.length) (hne : j ≠ i) :
    ((s.put i a).put j b).atSlice i f = (s.put i (f (a.view s.cap) a)).put j b := by
  have hat : ((s.put i a).put j b).slices[i]? = some a := (State.put_getElem?_ne (Ne.symm hne)).trans (List.getElem?_set_self hi)
  rw [State.atSlice_eq hat, State.put_comm _ _ _ hne.symm, State.put_put]
  rfl

theorem State.atSecond {s : State} {i j : Nat} {a b : Slice} (f : Capstan → Slice → Slice) (hj : j < s.slices.length) :
    ((s.put i a).put j b).atSlice j f = (s.put i a).put j (f (b.view s.cap) b) := by
  have hat : ((s.put i a).put j b).slices[j]? = some b := List.getElem?_set_self (by simpa [State.put] using hj)
  rw [State.atSlice_eq hat, State.put_put]
  rfl

theorem State.retrained_eq {s : State} {i j k m : Nat} {sl sr : Slice} (hi : s.slices[i]? = some sl) (hj : s.slices[j]? = some sr)
    (hne : j ≠ i) (hlink : s.cap.neighbour i k = some j) : s.retrained i k m =
      (s.put i ((sl.endOf k m Module.raised).resumed ((sl.endOf k m Module.raised).view s.cap) k m)).put j
        ((sr.endOf (facing k) m Module.raised).resumed ((sr.endOf (facing k) m Module.raised).view s.cap) (facing k) m) := by
  have hlt : i < s.slices.length := (List.getElem?_eq_some_iff.mp hi).1
  have hlt' : j < s.slices.length := (List.getElem?_eq_some_iff.mp hj).1
  have hagain := State.atFirst (s := s) (a := sl.endOf k m Module.raised) (b := sr.endOf (facing k) m Module.raised)
    (fun env sl => sl.resumed env k m) hlt hne
  unfold State.retrained
  dsimp only
  rw [State.onLink_eq _ hi hj hne hlink]
  change (match (State.atSlice _ i (fun env sl => sl.resumed env k m)).cap.neighbour i k with
    | some t => State.atSlice (State.atSlice _ i (fun env sl => sl.resumed env k m)) t (fun env sl => sl.resumed env (facing k) m)
    | none => State.atSlice _ i (fun env sl => sl.resumed env k m)) = _
  rw [hagain]
  dsimp only [State.put]
  rw [hlink]
  exact State.atSecond _ hlt'

/-- What follows the link error at the two ends of a link whose module is DOWN. -/
def State.bereaved (s : State) (i j k m : Nat) (a b : Slice) : State :=
  let e := a.linkError (a.view s.cap) k m kindModuleDown
  (s.put i (e.bereft (e.view s.cap) k m)).put j (b.bereft (b.view s.cap) (facing k) m)

theorem State.moduleLost_eq {s : State} {i j k m : Nat} {sl sr : Slice} {q : Port} (hi : s.slices[i]? = some sl) (hj : s.slices[j]? = some sr)
    (hne : j ≠ i) (hlink : s.cap.neighbour i k = some j)
    (hport : ((s.bereaved i j k m (sl.endOf k m Module.lowered) (sr.endOf (facing k) m Module.lowered)).slices[i]?).bind
      (fun sl => sl.rope.ports[k]?) = some q) (hq : q.st ≠ .down) : s.moduleLost i k m =
      s.bereaved i j k m (sl.endOf k m Module.lowered) (sr.endOf (facing k) m Module.lowered) := by
  have hlt : i < s.slices.length := (List.getElem?_eq_some_iff.mp hi).1
  have hlt' : j < s.slices.length := (List.getElem?_eq_some_iff.mp hj).1
  have herror := State.atFirst (s := s) (a := sl.endOf k m Module.lowered) (b := sr.endOf (facing k) m Module.lowered)
    (fun env sl => sl.linkError env k m kindModuleDown) hlt hne
  have hmove (a b : Slice) := State.atFirst (s := s) (a := a) (b := b) (fun env sl => sl.bereft env k m) hlt hne
  unfold State.moduleLost
  rw [State.onLink_eq _ hi hj hne hlink]
  extract_lets linked rekey move moved both
  have hmoved : moved = _ := (congrArg (fun s => move s i k) herror).trans (hmove _ _)
  have hboth : both = s.bereaved i j k m (sl.endOf k m Module.lowered) (sr.endOf (facing k) m Module.lowered) := by
    have hcap : moved.cap.neighbour i k = some j := by rw [hmoved]; exact hlink
    simp only [both, hcap]
    show moved.atSlice j (fun env sl => sl.bereft env (facing k) m) = _
    rw [hmoved]
    exact State.atSecond _ hlt'
  rw [hboth, hport]
  exact if_neg (by simpa using hq)

theorem exec_retrainDone_ends {s : State} {i k m : Nat} (ok : Bool) {sl : Slice} {p : Port} {x : Module} (h : s.working i sl)
    (hp : sl.rope.ports[k]? = some p) (hx : p.modules[m]? = some x) (hst : x.st = .retraining) :
    exec (.retrainDone i k m ok) s = .next (deliverAll (if ok then s.retrained i k m else s.moduleLost i k m)) := by
  obtain ⟨hat, hworks, -, -⟩ := h
  rw [exec_retrainDone, execRetrainDone, hat]
  exact if_pos (by simp [Slice.works_routes hworks, State.moduleAt_eq hat hp, hx, hst])

/-- Modules none of which is DOWN stay so where one of them is UP. -/
theorem modules_up {ms : List Module} {m : Nat} {y : Module} (h : ∀ z ∈ ms, z.st ≠ .down) (hy : y.st ≠ .down) : ∀ z ∈ ms.set m y, z.st ≠ .down := by
  intro z hz
  rcases List.mem_or_eq_of_mem_set hz with hz | rfl
  · exact h z hz
  · exact hy

/-- Modules of which one that keeps nothing is DOWN. -/
theorem modules_kept {ms : List Module} {m : Nat} {y : Module} (h : ∀ z ∈ ms, z.st ≠ .down) (hy : y.replay = []) :
    ∀ z ∈ ms.set m y, z.st = .down → z.replay = [] := by
  intro z hz hdown
  rcases List.mem_or_eq_of_mem_set hz with hz | rfl
  · exact absurd hdown (h z hz)
  · exact hy

theorem set_getElem?_some {α : Type} {xs : List α} {k : Nat} {x : α} (y : α) (h : xs[k]? = some x) : (xs.set k y)[k]? = some y :=
  List.getElem?_set_self (List.getElem?_eq_some_iff.mp h).1

/-- A port with a working module is not DOWN. -/
theorem Port.judge_works {p : Port} {z : Module} (hdown : p.st ≠ .down) (hz : z ∈ p.modules) (hup : z.st = .up) : p.judge.st ≠ .down := by
  unfold Port.judge
  split
  · exact hdown
  · split
    · simp
    · split
      · next hall =>
        have := List.all_eq_true.mp hall z hz
        simp [hup] at this
      · simp

/-- Retraining that fails: the module is DOWN at both ends, and the loss is captured. -/
theorem exec_retrainDone_lost {s : State} {i j port m k : Nat} {sl sr : Slice} {p q : Port} {x y z : Module} (hworking : s.working i sl)
    (hp : sl.rope.ports[port]? = some p) (hx : p.modules[m]? = some x) (hst : x.st = .retraining) (hlink : s.cap.neighbour i port = some j)
    (hne : j ≠ i) (hj : s.slices[j]? = some sr) (hq : sr.rope.ports[facing port]? = some q) (hy : q.modules[m]? = some y) (hidle : sl.linksIdle)
    (hidle' : sr.linksIdle) (hrx : x.replay = []) (hry : y.replay = []) (hdown : p.st ≠ .down) (hk : k ≠ m)
    (hz : p.modules[k]? = some z) (hzup : z.st = .up) (hups : ∀ z ∈ p.modules ++ q.modules, z.st ≠ .down) :
    ∃ t sl' sr' p' q' x' y', exec (.retrainDone i port m false) s = .next t ∧ t.slices[i]? = some sl' ∧ t.slices[j]? = some sr' ∧
      sl'.rope.ports[port]? = some p' ∧ sr'.rope.ports[facing port]? = some q' ∧ p'.modules[m]? = some x' ∧ q'.modules[m]? = some y' ∧
      x'.st = .down ∧ y'.st = .down ∧ sl'.rope.linkErr.getLsbD 0 = true ∧ sl'.rope.linkErr.toNat / 32 % 8 = 4 ∧
      t.cap.hl.lostLinks = s.cap.hl.lostLinks ∧ t.rope = s.rope := by
  obtain ⟨hlt, -⟩ := List.getElem?_eq_some_iff.mp hworking.1
  obtain ⟨hlt', -⟩ := List.getElem?_eq_some_iff.mp hj
  obtain ⟨haidle, haport, hamods⟩ := Slice.endOf_facts Module.lowered hidle hp hx
  obtain ⟨hbidle, hbport, hbmods⟩ := Slice.endOf_facts Module.lowered hidle' hq hy
  have hlogs := Slice.linkError_logs ((sl.endOf port m Module.lowered).view s.cap) (sl.endOf port m Module.lowered) port m
    kindModuleDown
  generalize hlost : (sl.endOf port m Module.lowered).linkError ((sl.endOf port m Module.lowered).view s.cap) port m
    kindModuleDown = lost at hlogs
  have hrope := hlogs.rope
  have hlidle : lost.linksIdle := by
    unfold Slice.linksIdle
    rw [hrope]
    exact haidle
  have hakept := modules_kept (m := m) (y := x.lowered) (fun z hz => hups z (List.mem_append_left _ hz)) hrx
  have hbkept := modules_kept (m := m) (y := y.lowered) (fun z hz => hups z (List.mem_append_right _ hz)) hry
  obtain ⟨hamail, haport', haerr⟩ := Slice.bereft_facts (lost.view s.cap) (sl := lost) m hlidle (by rw [hrope]; exact haport) (hamods ▸ hakept)
  obtain ⟨hbmail, hbport', -⟩ := Slice.bereft_facts ((sr.endOf (facing port) m Module.lowered).view s.cap) m hbidle hbport
    (hbmods ▸ hbkept)
  have hend : s.bereaved i j port m (sl.endOf port m Module.lowered) (sr.endOf (facing port) m Module.lowered) =
      (s.put j ((sr.endOf (facing port) m Module.lowered).bereft
        ((sr.endOf (facing port) m Module.lowered).view s.cap) (facing port) m)).put i (lost.bereft (lost.view s.cap) port m) := by
    rw [← State.put_comm _ _ _ hne, ← hlost]
    rfl
  generalize (sr.endOf (facing port) m Module.lowered).bereft ((sr.endOf (facing port) m Module.lowered).view s.cap) (facing port) m = other at *
  generalize lost.bereft (lost.view s.cap) port m = moved at *
  have hlt'' : i < (s.put j other).slices.length := by simpa [State.put] using hlt
  have hworks : (p.onModule m Module.lowered).judge.st ≠ .down := by
    refine Port.judge_works (p := p.onModule m Module.lowered) hdown (List.mem_of_getElem? (i := k) ?_) hzup
    rw [Port.onModule, updateAt_getElem?, if_neg hk]
    exact hz
  have hlostEq := State.moduleLost_eq (m := m) (q := (p.onModule m Module.lowered).judge.rekeyed m) hworking.1 hj hne hlink (by
    rw [hend, State.put, List.getElem?_set_self hlt'', Option.bind_some]
    exact haport') (by rw [(Port.rekeyed_facts m _).2.1]; exact hworks)
  have hexec := exec_retrainDone_ends false hworking hp hx hst
  rw [if_neg Bool.false_ne_true, hlostEq, hend] at hexec
  have hquiet := s.settled_put j other hworking.2.2.2 (hbmail.trans (s.mail_of j sr hj hworking.2.2.2))
  have htold : ({ moved with mail := [] } : Slice).Logs (moved) := by
    refine ⟨rfl, ?_⟩
    rw [hamail]
    rcases hlogs.mail with hm | ⟨n, held, hm⟩
    · exact .inl (hm.trans (s.mail_of i sl hworking.1 hworking.2.2.2))
    · exact .inr ⟨n, held, hm.trans (congrArg (· ++ _) (s.mail_of i sl hworking.1 hworking.2.2.2))⟩
  obtain ⟨c, hdeliver, hlinks, -⟩ := deliverAll_logs hlt'' hquiet rfl htold
  rw [hdeliver] at hexec
  have hamod : ((p.onModule m Module.lowered).judge.rekeyed m).modules[m]? = some x.lowered := by
    rw [(Port.rekeyed_facts m _).1, hamods]
    exact set_getElem?_some _ hx
  have hbmod : ((q.onModule m Module.lowered).judge.rekeyed m).modules[m]? = some y.lowered := by
    rw [(Port.rekeyed_facts m _).1, hbmods]
    exact set_getElem?_some _ hy
  have herr : (moved).rope.linkErr = linkErrValue port m kindModuleDown (sl.endOf port m Module.lowered).rope.epoch := by
    rw [haerr, hrope]
  refine ⟨_, _, _, _, _, _, _, hexec, List.getElem?_set_self hlt'', (State.put_getElem?_ne hne).trans (List.getElem?_set_self hlt'), haport', hbport',
    hamod, hbmod, rfl, rfl, ?_, ?_, hlinks, rfl⟩
  · exact (congrArg (fun r : Reg => r.getLsbD 0) herr).trans (linkErrValue_valid ..)
  · exact (congrArg (fun r : Reg => r.toNat / 32 % 8) herr).trans (linkErrValue_fields ..).2

end Sys2Proof.Machine

open Sys2Proof Sys2Proof.Machine

/-- Settles O29: credits by the port they reach or leave; both ends of a retrained link by what each resends or gives up. -/
theorem creditsReturnAndLinksRetrain : Obligations.CreditsReturnAndLinksRetrain := by
  unfold Obligations.CreditsReturnAndLinksRetrain
  refine ⟨⟨fun s i port a b c e x y z sl p hworking hp hup hstamp hcredits hidle => ?_,
    fun s i port m since sl p x hworking hport hp hidle hlow hx hroom hsince => ?_⟩,
    fun s i j port m sl sr p q x y hworking hp hx hst hlink hne hj hq hy hidle hidle' hup => ?_,
    fun s i j port m k sl sr p q x y z hworking hp hx hst hlink hne hj hq hy hidle hidle' hrx hry hunused hdown hk hz hzup hups => ?_⟩
  · have hidle' : ({ sl with rope := { sl.rope with ports := sl.rope.ports.set port { p with credits := [x + a % 4096, y + b % 4096, z + c % 4096] } } } :
        Slice).linksIdle := by
      refine ⟨hidle.1, fun q hq => ?_⟩
      rcases List.mem_or_eq_of_mem_set hq with hq | rfl
      · exact hidle.2 q hq
      · exact show p.idle from hidle.port hp
    have hadd : sl.addCredits (sl.view s.cap) port a b c e =
        { sl with rope := { sl.rope with ports := sl.rope.ports.set port { p with credits := [x + a % 4096, y + b % 4096, z + c % 4096] } } } := by
      unfold Slice.addCredits
      rw [hp]
      dsimp only
      rw [if_neg (by simp [hup, hstamp]), Slice.onPort, updateAt_eq_set hp, hcredits]
      exact Slice.pump_idle _ _ hidle'
    rw [exec_credit, execCredit, onRouter_quiet hworking (by rw [hadd]; exact hworking.2.2.1) (by rw [hadd]; exact s.mail_of i sl hworking.1 hworking.2.2.2),
      hadd]
  · have hdue : sl.onPort port (fun p => if p.owedSince.isSome then { p with creditDue := true } else p) = sl.onPort port Port.due := by
      unfold Slice.onPort
      rw [updateAt_eq_set hp, updateAt_eq_set hp, if_pos (by simp [hsince])]
      rfl
    have hpump := Slice.pump_due (env := sl.view s.cap) hport hidle hp hlow hx hroom (by simp [hsince])
    have hport' : (sl.onPort port Port.due).rope.ports[port]? = some p.due := Slice.onPort_getElem? hp
    refine ⟨_, p.returned m sl.id (((sl.view s.cap).neighbour sl.id port).getD sl.id) sl.rope.epoch,
      x.push (creditFlit sl.id (((sl.view s.cap).neighbour sl.id port).getD sl.id) sl.rope.epoch p.owed),
      (onRouter_quiet (f := fun env sl => (sl.onPort port (fun p => if p.owedSince.isSome then { p with creditDue := true } else p)).pump env) hworking
        ?_ ?_), ?_⟩
    all_goals rw [hdue, hpump]
    · exact hworking.2.2.1
    · exact s.mail_of i sl hworking.1 hworking.2.2.2
    · exact ⟨Slice.onPort_getElem? hport', rfl, rfl, rfl, updateAt_getElem?_same hx, rfl, rfl, rfl⟩
  · obtain ⟨hlt, -⟩ := List.getElem?_eq_some_iff.mp hworking.1
    obtain ⟨hlt', -⟩ := List.getElem?_eq_some_iff.mp hj
    obtain ⟨haidle, haport, hamods⟩ := Slice.endOf_facts Module.raised hidle hp hx
    obtain ⟨hbidle, hbport, hbmods⟩ := Slice.endOf_facts Module.raised hidle' hq hy
    obtain ⟨hamail, haport'⟩ := Slice.resumed_facts ((sl.endOf port m Module.raised).view s.cap) (m := m) haidle haport
      (hamods ▸ modules_up (fun z hz => hup z (List.mem_append_left _ hz)) (by simp))
    obtain ⟨hbmail, hbport'⟩ := Slice.resumed_facts ((sr.endOf (facing port) m Module.raised).view s.cap) (m := m) hbidle hbport
      (hbmods ▸ modules_up (fun z hz => hup z (List.mem_append_right _ hz)) (by simp))
    have hexec := exec_retrainDone_ends true hworking hp hx hst
    rw [if_pos rfl, State.retrained_eq hworking.1 hj hne hlink, deliverAll_settled _ (State.settled_put _ _ _
      (s.settled_put i _ hworking.2.2.2 (hamail.trans (s.mail_of i sl hworking.1 hworking.2.2.2))) (hbmail.trans (s.mail_of j sr hj hworking.2.2.2)))] at hexec
    have hamod : ((p.onModule m Module.raised).judge.onModule m Module.resend).modules[m]? = some x.raised.resend :=
      updateAt_getElem?_same (by rw [hamods]; exact set_getElem?_some _ hx)
    have hbmod : ((q.onModule m Module.raised).judge.onModule m Module.resend).modules[m]? = some y.raised.resend :=
      updateAt_getElem?_same (by rw [hbmods]; exact set_getElem?_some _ hy)
    refine ⟨_, _, _, _, _, _, _, hexec, (State.put_getElem?_ne hne.symm).trans (List.getElem?_set_self hlt), List.getElem?_set_self ?_, haport', hbport',
      hamod, hbmod, rfl, rfl, rfl, rfl, rfl, rfl⟩
    simpa [State.put] using hlt'
  · exact exec_retrainDone_lost hworking hp hx hst hlink hne hj hq hy hidle hidle' hrx hry hdown hk hz hzup hups
end

section
/-!
Bursts and issues of a stream (R363 to R369): a burst moves descriptors, a block whose lines are present only uses them, a result write leaves
for the mesh interface.
-/

namespace Sys2Proof.Machine

/-! ### What is changed of a slice -/

/-- A command of a slice's own work, by what it leaves of the slice. -/
theorem onLive_delivers {s : State} {i : Nat} {sl t : Slice} {f : Capstan → Slice → Slice} (w : s.working i sl) (he : f (sl.view s.cap) sl = t)
    (hnap : t.pwr.napping = false) : onLive i s f = .next (deliver (s.put i t) i) := by
  have hawake : t.awaken = t := by simp [Slice.awaken, Slice.wake, hnap]
  have hworks : sl.works (sl.view s.cap) = true := by simpa using w.2.1
  unfold onLive onSlice
  rw [w.1]
  dsimp only
  rw [if_pos hworks, he, hawake]
  rfl

/-- A command of a slice's own work that tells nothing, by what it leaves of the slice. -/
theorem onLive_eq {s : State} {i : Nat} {sl t : Slice} {f : Capstan → Slice → Slice} (w : s.working i sl) (he : f (sl.view s.cap) sl = t)
    (hnap : t.pwr.napping = sl.pwr.napping) (hmail : t.mail = sl.mail) : onLive i s f = .next (s.put i t) := by
  obtain ⟨hat, -, hawake, hsettled⟩ := id w
  rw [onLive_delivers w he (hnap.trans hawake), deliver_settled _ i (s.settled_put i t hsettled (hmail.trans (s.mail_of i sl hat hsettled)))]

theorem Slice.onStream_eq {sl : Slice} {k : Nat} {st : Stream} (f : Stream → Stream) (h : sl.str.streams[k]? = some st) :
    sl.onStream k f = { sl with str := { sl.str with streams := sl.str.streams.set k (f st) } } := by
  unfold Slice.onStream
  rw [updateAt_eq_set h]

theorem Slice.stop_running {sl : Slice} (unit : Nat) (row : Option Nat) (h : sl.stopped = false) :
    sl.stop unit row = ({ sl with stopped := true }).tell (.fault sl.id classSliceStop unit row) := by
  unfold Slice.stop
  rw [if_neg (by simp [h])]

theorem Slice.whileUp_running {sl : Slice} (f : Slice → Slice) (h : sl.stopped = false) : sl.whileUp f = f sl := by
  unfold Slice.whileUp
  rw [if_neg (by simp [h])]

theorem Slice.running_of_works {sl : Slice} {env : Capstan} (h : sl.works env = true) : sl.stopped = false := by
  unfold Slice.works at h
  simp only [Bool.and_eq_true, Bool.not_eq_true'] at h
  exact h.1.2

theorem faultValue_unit (cls slice : Nat) (inCapstan : Bool) (unit detail : Nat) :
    (faultValue cls slice inCapstan unit detail).toNat / 2 ^ 24 % 2 ^ 8 = unit % 2 ^ 8 := by
  rw [faultValue_toNat]
  cases inCapstan <;> simp only [flag, if_true, if_false, Bool.false_eq_true] <;> omega

/-! ### The burst -/

/-- The slice as a burst of its stream `k`, which is `st`, leaves it, but for what an invalid descriptor does. -/
def Slice.bursting (sl : Slice) (k : Nat) (st : Stream) : Slice :=
  { sl with
    cnt := (sl.count 0x402 k none 1).cnt
    str := { sl.str with streams := sl.str.streams.set k { st with ring := st.ring.drop 8, window := st.window ++ st.ring.take 8 } } }

theorem Slice.burst_eq (env : Capstan) {sl : Slice} {k : Nat} {st : Stream} (h : sl.str.streams[k]? = some st) (room : st.window.length ≤ 8)
    (some_ : st.ring ≠ []) :
    sl.burst env k =
      if (st.ring.take 8).any Block.bad then (sl.bursting k st).stop 0x12 none else (sl.bursting k st).feedAll env := by
  unfold Slice.burst
  rw [h]
  dsimp only
  rw [if_neg (by simp [some_]; omega), Slice.onStream_eq _ h]
  rfl

theorem exec_burst_sound {s : State} {i k : Nat} {sl : Slice} {st : Stream} (w : s.working i sl) (h : sl.str.streams[k]? = some st)
    (room : st.window.length ≤ 8) (some_ : st.ring ≠ []) (good : ∀ b ∈ st.ring.take 8, b.bad = false) (calm : sl.calm) :
    exec (.streamBurstFetch i k) s = .next (s.put i (sl.bursting k st)) := by
  have hburst : sl.burst (sl.view s.cap) k = sl.bursting k st := by
    have hgood : (st.ring.take 8).any Block.bad = false := by simpa [List.any_eq_false] using good
    rw [Slice.burst_eq _ h room some_, hgood]
    exact (sl.bursting k st).feedAll_calm _ calm
  rw [exec_streamBurstFetch, execStreamBurstFetch]
  exact onLive_eq w hburst rfl rfl

theorem exec_burst_bad {s : State} {i k : Nat} {sl : Slice} {st : Stream} {b : Block} (w : s.working i sl) (hdecides : s.decides)
    (h : sl.str.streams[k]? = some st) (room : st.window.length ≤ 8) (mem : b ∈ st.ring.take 8) (bad : b.bad = true) :
    exec (.streamBurstFetch i k) s = .next { s.put i { sl.bursting k st with stopped := true, mail := [] } with
      fresh := s.fresh + 1
      cap := s.cap.captureFault classSliceStop sl.id false 0x12 ((Config.freeBits s.fresh).toNat % 2 ^ 32) } := by
  obtain ⟨hat, hworks, hnap, hsettled⟩ := id w
  have hmail := s.mail_of i sl hat hsettled
  have hlt : i < s.slices.length := (List.getElem?_eq_some_iff.mp hat).1
  have hstopped : (sl.bursting k st).stopped = false := Slice.running_of_works hworks
  have hburst : sl.burst (sl.view s.cap) k =
      ({ sl.bursting k st with stopped := true }).tell (.fault sl.id classSliceStop 0x12 none) := by
    have hsome : st.ring ≠ [] := fun e => by simp [e] at mem
    have hbad : (st.ring.take 8).any Block.bad = true := List.any_eq_true.mpr ⟨b, mem, bad⟩
    rw [Slice.burst_eq _ h room hsome, hbad, if_pos rfl, Slice.stop_running _ _ hstopped]
    rfl
  rw [exec_streamBurstFetch, execStreamBurstFetch]
  refine (onLive_delivers w (by exact hburst) (by exact hnap)).trans ?_
  rw [deliver_fault hlt hsettled hdecides (by rw [Slice.tell_mail]; exact congrArg (· ++ _) hmail)]
  rfl

/-! ### A block whose lines are present -/

theorem Block.part_ne_stream (b : Block) : b.part ≠ .stream := by
  unfold Block.part
  split <;> simp

theorem Cache.mem_touch (c : Cache) (set way : Nat) (l : Line) : l ∈ (c.touch set way).lines ↔ l ∈ c.lines := by
  simp only [Cache.touch, List.mem_append, List.mem_filter]
  by_cases h : (l.set = set && l.way = way) = true <;> simp [h]

/-- Nothing but counters and the order of the lines in the slice cache differs. -/
def Slice.Touches (sl t : Slice) : Prop :=
  t = { sl with cnt := t.cnt, cache := { sl.cache with lines := t.cache.lines } } ∧ ∀ l, l ∈ t.cache.lines ↔ l ∈ sl.cache.lines

theorem Slice.Touches.refl (sl : Slice) : sl.Touches sl := ⟨rfl, fun _ => Iff.rfl⟩

theorem Slice.Touches.trans {a b c : Slice} (h : a.Touches b) (k : b.Touches c) : a.Touches c := by
  refine ⟨?_, fun l => (k.2 l).trans (h.2 l)⟩
  rw [k.1, h.1]

theorem Slice.Touches.find {sl t : Slice} (h : sl.Touches t) (env : Capstan) (part : Part) (ctx addr : Nat) :
    (t.cache.find env part ctx addr).isSome = (sl.cache.find env part ctx addr).isSome := by
  rw [Bool.eq_iff_iff, Cache.find, Cache.find, List.find?_isSome, List.find?_isSome]
  simp only [h.2]

/-- A read of a line that is present in the TREE or WEIGHT ways. -/
theorem Slice.readLine_present (env : Capstan) (sl : Slice) (who : Requester) {part : Part} (ctx addr sector : Nat) (hpart : part ≠ .stream)
    (h : (sl.cache.find env part ctx addr).isSome = true) : sl.Touches (sl.readLine env who part ctx addr sector).2 := by
  obtain ⟨l, hl⟩ := Option.isSome_iff_exists.mp h
  have hseen : (sl.count 0x303 part.code (some ctx) 1).cache.seen env part ctx addr = some (l.data, l.poison) := by
    unfold Cache.seen
    rw [if_neg (by simp [hpart])]
    have : (sl.count 0x303 part.code (some ctx) 1).cache.find env part ctx addr = some l := hl
    rw [this]
  have hused : (sl.count 0x303 part.code (some ctx) 1).cache.used env part ctx addr = sl.cache.touch l.set l.way := by
    unfold Cache.used
    have : (sl.count 0x303 part.code (some ctx) 1).cache.find env part ctx addr = some l := hl
    rw [this]
    rfl
  unfold Slice.readLine
  dsimp only
  rw [hseen]
  dsimp only
  rw [hused]
  exact ⟨rfl, fun x => sl.cache.mem_touch l.set l.way x⟩

theorem Slice.readLines_present (env : Capstan) (who : Requester) {part : Part} (ctx : Nat) (hpart : part ≠ .stream) (as : List Nat) (sl : Slice)
    (h : ∀ a ∈ as, (sl.cache.find env part ctx a).isSome = true) :
    sl.Touches (as.foldl (fun sl a => (sl.readLine env who part ctx a 0).2) sl) := by
  induction as generalizing sl with
  | nil => exact .refl sl
  | cons a as ih =>
    have hfirst := sl.readLine_present env who ctx a 0 hpart (h a List.mem_cons_self)
    exact hfirst.trans (ih _ (fun x hx => (hfirst.find env part ctx x).trans (h x (List.mem_cons_of_mem a hx))))

/-- The stream `st` once its first block `b` is issued. -/
theorem Stream.issue_first {st : Stream} {b : Block} {rest : List Block} (reserve : Bool) (handles : List Reg) (hwindow : st.window = b :: rest)
    (hstarved : st.starved = false) :
    st.issue b b.need reserve handles = { st with
      window := rest, next := (st.next + 1) % 2 ^ 32
      transfers := st.transfers ++ [{ index := st.next, block := b, credits := b.need, reserve := reserve, handles := handles, done := false }]
      heldReserve := st.heldReserve + (if reserve then b.need else 0), heldShared := st.heldShared + (if reserve then 0 else b.need) } := by
  unfold Stream.issue
  rw [hwindow, List.erase_cons_head, ← hstarved]

/-- The next block is issued: its buffers are taken, then its transfer begins. -/
theorem Slice.issueBlock_granted (env : Capstan) {sl t : Slice} {k : Nat} {st : Stream} {b : Block} {rest : List Block} {reserve : Bool}
    {hs : List Reg} (h : sl.str.streams[k]? = some st) (hresume : st.resume = none) (hstarved : st.starved = false) (hroom : st.outstanding < 8)
    (hwindow : st.window = b :: rest) (hgrant : sl.str.grant env k b.need st = some reserve)
    (hbuffers : sl.blockBuffers env k st.next b = some (hs, t)) :
    sl.issueBlock env k =
      ((t.onStream k (fun s => s.issue b b.need reserve hs)).count 0x404 k none (if reserve then 0 else 1)).startBlock env k st.next b hs := by
  unfold Slice.issueBlock
  rw [h]
  dsimp only
  rw [if_neg (by simp [hresume, hstarved]; omega), hwindow, List.head?_cons]
  dsimp only
  rw [hgrant]
  dsimp only
  rw [hbuffers]

/-- An issue without words to read, of a stream of a slice that works. -/
theorem exec_issue {s : State} {i k : Nat} {sl t : Slice} (w : s.working i sl) (he : sl.issueBlock (sl.view s.cap) k = t)
    (hnap : t.pwr.napping = sl.pwr.napping) (hmail : t.mail = sl.mail) : exec (.streamBlockIssue i k) s = .next (s.put i t) := by
  rw [exec_streamBlockIssue, execStreamBlockIssue]
  refine onLive_eq w ?_ hnap hmail
  rw [Slice.decodeAll, List.foldl_nil, Slice.whileUp_running _ (Slice.running_of_works w.2.1), ← he]
  rfl

/-- A write that may leave, behind none that waits, leaves under a free ID. -/
theorem Slice.issueCompl_write {sl : Slice} {w : MeshWrite} {id : Nat} (hop : w.op = .write) (hwait : sl.ing.meshWait = [])
    (hleave : sl.mayLeave [] w = true) (hid : sl.ing.freeId = some id) :
    sl.issueCompl w = ({ sl with ing := { sl.ing with
      meshOut := sl.ing.meshOut ++ [{ w with id := id, waiting := false }], nextId := (id + 1) % 256 } }).startTransfer w := by
  have hleave' : ({ sl with ing := { sl.ing with meshWait := [w] } } : Slice).mayLeave [] w = true := hleave
  unfold Slice.issueCompl Slice.pumpMesh
  rw [hwait, List.nil_append]
  simp only [leaveAll]
  rw [if_pos hleave']
  unfold Slice.issueMesh
  rw [if_pos hop]
  have hid' : ({ sl.ing with meshWait := [w] } : Ingress).freeId = some id := hid
  dsimp only
  rw [hid', Option.getD_some]
  unfold Slice.startTransfer
  split <;> simp [Slice.onStream, ← hwait]

/-- The write of a result block leaves; of its stream only transfers change. -/
theorem Slice.startBlock_result (env : Capstan) {sl : Slice} {k index id : Nat} {b : Block} {w : MeshWrite} {st : Stream} (hs : List Reg)
    (huse : b.use = .result w) (h : sl.str.streams[k]? = some st) (hop : w.op = .write) (hwait : sl.ing.meshWait = [])
    (hleave : sl.mayLeave [] { w with block := some (k, index) } = true) (hid : sl.ing.freeId = some id) :
    ∃ ts, sl.startBlock env k index b hs = { sl with
      str := { sl.str with streams := sl.str.streams.set k { st with transfers := ts } }
      ing := { sl.ing with
        meshOut := sl.ing.meshOut ++ [{ w with block := some (k, index), id := id, waiting := false }], nextId := (id + 1) % 256 } } := by
  have hlt : k < sl.str.streams.length := (List.getElem?_eq_some_iff.mp h).1
  unfold Slice.startBlock
  rw [huse]
  dsimp only
  rw [Slice.onStream_eq _ h, Slice.issueCompl_write (by exact hop) (by exact hwait) (by exact hleave) (by exact hid)]
  unfold Slice.startTransfer
  dsimp only
  rw [Slice.onStream_eq _ (List.getElem?_set_self hlt)]
  dsimp only
  rw [List.set_set]
  exact ⟨_, rfl⟩

theorem StreamUnit.queue_setQueue (u : StreamUnit) (k n : Nat) : (u.setQueue k ((u.queue k).drop n)).queue k = (u.queue k).drop n := by
  unfold StreamUnit.setQueue StreamUnit.queue
  rw [List.getD_eq_getElem?_getD, List.getElem?_set_self']
  rcases h : u.splice[k]? with _ | x <;> simp [List.getD_eq_getElem?_getD, h]

/-- A fetch of lines that are present: the cache's order and the counters are all that differs. -/
theorem Slice.fetchLines_present (env : Capstan) (sl : Slice) (i index : Nat) (b : Block)
    (h : ∀ a ∈ b.lines, (sl.cache.find env b.part b.ctx a).isSome = true) : sl.Touches (sl.fetchLines env i index b) :=
  Slice.readLines_present env _ _ b.part_ne_stream _ sl h

/-- A FETCH block whose lines are present is issued. -/
theorem exec_issue_fetch {s : State} {i k lay job : Nat} {sl : Slice} {st : Stream} {b : Block} {rest : List Block} {reserve : Bool}
    (w : s.working i sl) (hk : k < 8) (h : sl.str.streams[k]? = some st) (hresume : st.resume = none) (hstarved : st.starved = false)
    (hroom : st.outstanding < 8) (hwindow : st.window = b :: rest) (huse : b.use = .fetch lay job)
    (hgrant : sl.str.grant s.cap k b.need st = some reserve)
    (hlines : ∀ a ∈ b.lines, (sl.cache.find (sl.view s.cap) b.part b.ctx a).isSome = true) :
    ∃ sl', exec (.streamBlockIssue i k) s = .next (s.put i sl') ∧ sl'.cache.misses = sl.cache.misses ∧ sl'.ing = sl.ing ∧
      sl'.str = { sl.str with streams := sl.str.streams.set k (st.issue b b.need reserve []) } := by
  have hbuffers : sl.blockBuffers (sl.view s.cap) k st.next b = some ([], sl) := by
    unfold Slice.blockBuffers
    rw [if_pos (by simp [isFetch, hk])]
  have hissue := Slice.issueBlock_granted (sl.view s.cap) h hresume hstarved hroom hwindow hgrant hbuffers
  rw [Slice.onStream_eq _ h] at hissue
  unfold Slice.startBlock at hissue
  rw [huse] at hissue
  dsimp only at hissue
  have htouch := Slice.fetchLines_present (sl.view s.cap)
    (({ sl with str := { sl.str with streams := sl.str.streams.set k (st.issue b b.need reserve []) } } : Slice).count 0x404 k none
      (if reserve then 0 else 1)) k st.next b hlines
  rw [← hissue] at htouch
  refine ⟨_, exec_issue w rfl ?_ ?_, ?_, ?_, ?_⟩
  all_goals rw [htouch.1]; rfl

/-- The block of a result write is issued: its write leaves at once. -/
theorem exec_issue_result {s : State} {i k id : Nat} {sl : Slice} {st : Stream} {b : Block} {rest : List Block} {w : MeshWrite} {reserve : Bool}
    (hw : s.working i sl) (hk : 8 ≤ k) (hk' : k < 12) (h : sl.str.streams[k]? = some st) (hresume : st.resume = none)
    (hstarved : st.starved = false) (hroom : st.outstanding < 8) (hwindow : st.window = b :: rest) (huse : b.use = .result w) (hop : w.op = .write)
    (hwait : sl.ing.meshWait = []) (hleave : sl.mayLeave [] { w with block := some (k, st.next) } = true) (hid : sl.ing.freeId = some id)
    (hgrant : sl.str.grant s.cap k b.need st = some reserve) :
    ∃ sl' st', exec (.streamBlockIssue i k) s = .next (s.put i sl') ∧ sl'.cache = sl.cache ∧ sl'.str.streams[k]? = some st' ∧
      st'.window = rest ∧ st'.next = (st.next + 1) % 2 ^ 32 ∧ sl'.str.queue (spliceOf k) = (sl.str.queue (spliceOf k)).drop b.need ∧
      sl'.ing = { sl.ing with
        meshOut := sl.ing.meshOut ++ [{ w with block := some (k, st.next), id := id, waiting := false }], nextId := (id + 1) % 256 } := by
  have hlt : k < sl.str.streams.length := (List.getElem?_eq_some_iff.mp h).1
  have hbuffers : sl.blockBuffers (sl.view s.cap) k st.next b = some ((sl.str.takeHandles k b.need).1, { sl with str := (sl.str.takeHandles k b.need).2 }) := by
    unfold Slice.blockBuffers
    rw [if_neg (by simp [isFetch]; omega), if_neg (by omega)]
  have hissue := Slice.issueBlock_granted (sl.view s.cap) h hresume hstarved hroom hwindow hgrant hbuffers
  rw [Slice.onStream_eq (st := st) _ (by exact h)] at hissue
  obtain ⟨ts, hstart⟩ := Slice.startBlock_result (sl.view s.cap) (sl.str.takeHandles k b.need).1 huse
    (sl := (({ sl with str := { (sl.str.takeHandles k b.need).2 with
      streams := sl.str.streams.set k (st.issue b b.need reserve (sl.str.takeHandles k b.need).1) } } : Slice).count 0x404 k none (if reserve then 0 else 1)))
    (by exact List.getElem?_set_self hlt) hop (by exact hwait) (by exact hleave) (by exact hid)
  refine ⟨_, _, exec_issue hw (hissue.trans hstart) rfl rfl, rfl, List.getElem?_set_self (by simpa [Slice.count] using hlt), ?_, rfl, ?_, rfl⟩
  · simp only [Stream.issue, hwindow, List.erase_cons_head]
  · exact sl.str.queue_setQueue (spliceOf k) b.need

end Sys2Proof.Machine

open Sys2Proof Sys2Proof.Machine

/-- Settles O30: an invalid descriptor's notice is captured as SLICE_STOP; lines that are present are only used; a result write takes an ID. -/
theorem blocksAreFetchedAndIssued : Obligations.BlocksAreFetchedAndIssued := by
  unfold Obligations.BlocksAreFetchedAndIssued
  refine ⟨⟨fun s i k sl st w h room some_ good calm => ?_, fun s i k sl st b w hdecides h room mem bad => ?_⟩,
    fun s i k lay job sl st b rest reserve w hk h hresume hstarved hroom hwindow huse hgrant hlines => ?_,
    fun s i k id sl st b rest w reserve hw hk hk' h hresume hstarved hroom hwindow huse hop hwait hleave hid hgrant => ?_⟩
  · exact ⟨_, exec_burst_sound w h room some_ good calm⟩
  · have hlt : i < s.slices.length := (List.getElem?_eq_some_iff.mp w.1).1
    refine ⟨_, { sl.bursting k st with stopped := true, mail := [] }, exec_burst_bad w hdecides h room mem bad, List.getElem?_set_self hlt, rfl,
      ?_, ?_⟩
    all_goals rw [Capstan.captureFault_hl]
    · exact faultValue_class ..
    · exact faultValue_unit ..
  · obtain ⟨sl', hexec, hmisses, hing, hstr⟩ := exec_issue_fetch w hk h hresume hstarved hroom hwindow huse hgrant hlines
    rw [Stream.issue_first reserve [] hwindow hstarved] at hstr
    exact ⟨sl', hexec, hmisses, hing, hstr⟩
  · exact exec_issue_result hw hk hk' h hresume hstarved hroom hwindow huse hop hwait hleave hid hgrant
end

section
/-!
The end of a stream's only transfer (R365, R368): it is complete and delivered, and its credits return to the part they came from.
-/

namespace Sys2Proof.Machine

theorem updateWhere_single {α : Type} {p : α → Bool} (f : α → α) {x : α} (h : p x = true) : updateWhere p f [x] = [f x] := by
  simp [updateWhere, h]

/-- The only transfer of a stream, in its turn, is delivered once it is complete. -/
theorem Stream.deliver_only {st : Stream} {x : Transfer} (h : st.transfers = [x]) (hturn : x.index = st.delivered) :
    (st.complete x.index).deliver (st.transfers.length + 1) =
      (1, { st with transfers := [{ x with done := true }], delivered := (st.delivered + 1) % 2 ^ 32 }) := by
  have hnext : st.delivered ≠ (st.delivered + 1) % 4294967296 := by omega
  have hcomplete : st.complete x.index = { st with transfers := [{ x with done := true }] } := by
    unfold Stream.complete
    rw [h, updateWhere_single _ (by simp)]
  rw [hcomplete, h]
  simp [Stream.deliver, hturn, hnext]

theorem Stream.forget_credited {st : Stream} {x : Transfer} (h : st.transfers = [x]) (hcredits : x.credits ≠ 0) : st.forget = st := by
  unfold Stream.forget
  rw [h, List.filter_cons_of_pos (by simp [hcredits]), List.filter_nil, ← h]

/-- The FETCH stream's only transfer is complete. -/
theorem Slice.transferDone_only (env : Capstan) {sl : Slice} {k : Nat} {st : Stream} {x : Transfer} (hk : k < 8)
    (h : sl.str.streams[k]? = some st) (honly : st.transfers = [x]) (hdone : x.done = false) (hturn : x.index = st.delivered)
    (hcredits : x.credits ≠ 0) (hthere : sl.awaited k x.index = false) :
    sl.transferDone env k x.index = ({ sl with str := { sl.str with streams := sl.str.streams.set k { st with
      transfers := [{ x with done := true }], delivered := (st.delivered + 1) % 2 ^ 32 } } } : Slice).count 0x401 k none 1 := by
  have hfind : st.transfers.find? (fun t => t.index = x.index && !t.done) = some x := by
    rw [honly, List.find?_cons_of_pos (by simp [hdone])]
  unfold Slice.transferDone
  rw [h]
  dsimp only
  rw [hfind]
  dsimp only
  rw [if_pos (by simp [isFetch, hk]), hthere, if_neg Bool.false_ne_true]
  unfold Slice.completeBlock
  rw [h]
  dsimp only
  rw [Stream.deliver_only honly hturn]
  dsimp only
  rw [Stream.forget_credited rfl (by exact hcredits), Slice.onStream_eq _ h]

/-- The stream once the credits of its only transfer have returned and the transfer is forgotten. -/
def Stream.repaid (st : Stream) (x : Transfer) : Stream :=
  { st with
    transfers := [], heldReserve := st.heldReserve - (if x.reserve then x.credits else 0)
    heldShared := st.heldShared - (if x.reserve then 0 else x.credits), starved := st.starved && !x.reserve }

theorem Stream.repay_forget {st : Stream} {x : Transfer} (honly : st.transfers = [x]) (hdelivered : st.isDelivered x.index = true)
    (hcredits : x.credits ≠ 0) : (st.repay x.index).forget = st.repaid x := by
  have hfind : st.transfers.find? (fun t => t.index = x.index) = some x := by rw [honly, List.find?_cons_of_pos (by simp)]
  have hgone (u : Stream) (h : u.delivered = st.delivered) : u.isDelivered x.index = true := by
    unfold Stream.isDelivered at *
    rwa [h]
  unfold Stream.repay
  rw [hfind]
  dsimp only
  rw [honly, updateWhere_single _ (by simp)]
  unfold Stream.forget Stream.repaid
  dsimp only
  rw [List.filter_cons_of_neg (by simp [hgone]), List.filter_nil]
  have hsome : (x.credits != 0) = true := bne_iff_ne.mpr hcredits
  rw [hsome, Bool.and_true]

/-- The transfer to which credits return: the only one. -/
theorem Slice.returnCredits_only (env : Capstan) {sl : Slice} {k : Nat} {st : Stream} {x : Transfer} (h : sl.str.streams[k]? = some st)
    (honly : st.transfers = [x]) (hcredits : x.credits ≠ 0) :
    sl.returnCredits env k x.index =
      if isFetch k then
        if st.isDelivered x.index && !sl.fetchNeeded env x.block then sl.onStream k (fun s => (s.repay x.index).forget) else sl
      else if k < 12 then sl
      else if k = 15 then (if st.isDelivered x.index then (sl.copyRead env k x).feedAll env else sl)
      else if sl.unplaced x.block then sl
      else (({ sl with cache := sl.cache.freeBuffers (x.handles.map handleBuf) }).onStream k (fun s => (s.repay x.index).forget)).feedAll env := by
  have hfind : st.transfers.find? (fun t => t.index = x.index && (t.buffered || !t.handles.isEmpty)) = some x := by
    rw [honly, List.find?_cons_of_pos (by simp [Transfer.buffered, hcredits])]
  unfold Slice.returnCredits
  rw [h]
  dsimp only
  rw [hfind]

theorem Slice.fetchNeeded_idle (env : Capstan) {sl : Slice} (b : Block) (h0 : sl.work.jobs0 = []) (h1 : sl.work.jobs1 = []) :
    sl.fetchNeeded env b = false := by
  have hjob (lay job : Nat) : sl.job? lay job = none := by
    unfold Slice.job? Slice.jobs
    split <;> simp [h0, h1]
  unfold Slice.fetchNeeded
  split
  · next lay job _ => rw [hjob]; rfl
  · rfl

theorem exec_completes {s : State} {i k n : Nat} {sl t : Slice} (w : s.working i sl) (he : sl.transferDone (sl.view s.cap) k n = t)
    (hnap : t.pwr.napping = sl.pwr.napping) (hmail : t.mail = sl.mail) : exec (.streamTransferComplete i k n) s = .next (s.put i t) := by
  rw [exec_streamTransferComplete, execStreamTransferComplete]
  exact onLive_eq w (by exact he) hnap hmail

/-- A return of credits without words to read, at a slice that works. -/
theorem exec_repays {s : State} {i k n : Nat} {sl t : Slice} (w : s.working i sl) (he : sl.returnCredits (sl.view s.cap) k n = t)
    (hnap : t.pwr.napping = sl.pwr.napping) (hmail : t.mail = sl.mail) : exec (.creditReturn i k n) s = .next (s.put i t) := by
  rw [exec_creditReturn, execCreditReturn]
  refine onLive_eq w ?_ hnap hmail
  rw [Slice.decodeAll, List.foldl_nil, Slice.whileUp_running _ (Slice.running_of_works w.2.1), ← he]

end Sys2Proof.Machine

open Sys2Proof Sys2Proof.Machine

/-- Settles O31: the transfer is the stream's only one, so it is found, delivered in its turn and forgotten once its credits are back. -/
theorem transfersCompleteAndRepay : Obligations.TransfersCompleteAndRepay := by
  unfold Obligations.TransfersCompleteAndRepay
  refine ⟨fun s i k sl st x w hk h honly hdone hturn _ hcredits hthere => ?_,
    fun s i k sl st x w hk h honly hdelivered hcredits h0 h1 => ?_,
    fun s i k sl st x w hk hk' h honly hdelivered hcredits hplaced calm => ?_⟩
  · have hcomplete := Slice.transferDone_only (sl.view s.cap) hk h honly hdone hturn hcredits hthere
    exact ⟨_, exec_completes w hcomplete rfl rfl, rfl, rfl⟩
  · refine exec_repays w ?_ rfl rfl
    rw [Slice.returnCredits_only _ h honly hcredits, if_pos (by simp [isFetch, hk]), hdelivered, Slice.fetchNeeded_idle _ _ h0 h1,
      if_pos (by exact rfl),
      Slice.onStream_eq _ h, Stream.repay_forget honly hdelivered hcredits]
    rfl
  · refine exec_repays w ?_ rfl rfl
    rw [Slice.returnCredits_only _ h honly hcredits, if_neg (by simp [isFetch]; omega), if_neg (by omega), if_neg (by omega), hplaced,
      if_neg Bool.false_ne_true, Slice.onStream_eq _ (by exact h), Stream.repay_forget honly hdelivered hcredits, Slice.feedAll_calm _ _ (by exact calm)]
    rfl
end

section
/-!
Frame ticks and deadlines (R382, R386, R387, R607): a context is found again once it has changed, a boundary makes a running pass drain, a missed
deadline has its record and its event.
-/

namespace Sys2Proof.Machine

/-! ### A changed context is found (R457) -/

theorem find?_updateWhere {α : Type} {p : α → Bool} {f : α → α} {x : α} {xs : List α} (h : xs.find? p = some x) (hp : p (f x) = true) :
    (updateWhere p f xs).find? p = some (f x) := by
  induction xs with
  | nil => simp at h
  | cons y ys ih =>
    unfold updateWhere at ih ⊢
    by_cases hy : p y = true
    · have : y = x := by simpa [hy] using h
      subst this
      simp [hy, hp]
    · simp only [List.find?_cons_of_neg hy] at h
      simp only [List.map_cons, if_neg hy, List.find?_cons_of_neg hy]
      exact ih h

theorem find?_updateWhere_other {α : Type} {p q : α → Bool} {f : α → α} (xs : List α) (hq : ∀ y ∈ xs, p y = true → q y = false ∧ q (f y) = false) :
    (updateWhere p f xs).find? q = xs.find? q := by
  induction xs with
  | nil => rfl
  | cons y ys ih =>
    have htail := ih (fun z hz => hq z (List.mem_cons_of_mem y hz))
    unfold updateWhere at htail ⊢
    by_cases hy : p y = true
    · obtain ⟨h1, h2⟩ := hq y List.mem_cons_self hy
      simp [hy, h1, h2, htail]
    · simp [hy, List.find?_cons, htail]

theorem Capstan.ctx?_id {c : Capstan} {id : Nat} {x : Ctx} (h : c.ctx? id = some x) : x.id = id := by
  simpa using List.find?_some h

theorem Capstan.ctx?_onCtx {c : Capstan} {id : Nat} {x : Ctx} {f : Ctx → Ctx} (h : c.ctx? id = some x) (hid : (f x).id = id) :
    (c.onCtx id f).ctx? id = some (f x) :=
  find?_updateWhere h (by simpa using hid)

theorem Capstan.ctx?_onCtx_other (c : Capstan) {id k : Nat} {f : Ctx → Ctx} (hk : k ≠ id) (hid : ∀ y ∈ c.ctxs, y.id = id → (f y).id = id) :
    (c.onCtx id f).ctx? k = c.ctx? k := by
  refine find?_updateWhere_other _ fun y hy hp => ?_
  have hy' : y.id = id := by simpa using hp
  simp [hy', hid y hy hy', Ne.symm hk]

theorem Capstan.ctx?_only {c : Capstan} {x : Ctx} (h : c.ctxs = [x]) : c.ctx? x.id = some x := by
  simp [Capstan.ctx?, h]

theorem Capstan.ctxOr_of_ctx? {c : Capstan} {id : Nat} {x : Ctx} (h : c.ctx? id = some x) : c.ctxOr id = x := by
  simp [Capstan.ctxOr, h]

theorem Capstan.onCtx_only {c : Capstan} {x : Ctx} (f : Ctx → Ctx) (h : c.ctxs = [x]) : (c.onCtx x.id f).ctxs = [f x] := by
  simp [h, updateWhere]

theorem State.settled.onCtx {s : State} {id : Nat} {f : Ctx → Ctx} (h : s.settled) (hf : ∀ x, x.overrunFrom = none → (f x).overrunFrom = none) :
    (s.onCap (fun c => c.onCtx id f)).settled := by
  refine ⟨h.1, fun x hx => ?_⟩
  obtain ⟨y, hy, rfl⟩ := List.mem_map.mp hx
  dsimp only
  split
  · exact hf y (h.2 y hy)
  · exact h.2 y hy

/-- A change of every slice that tells nothing. -/
theorem State.settled.eachSlice {s : State} {f : Capstan → Slice → Slice} (h : s.settled) (hf : ∀ env sl, (f env sl).mail = sl.mail) :
    (s.eachSlice f).settled := (State.Silent.eachSlice s hf).settled h

theorem State.settled.broadcast {s : State} (h : s.settled) : s.broadcast.settled := by
  refine ⟨fun x hx => ?_, h.2⟩
  obtain ⟨y, hy, rfl⟩ := List.mem_map.mp hx
  exact h.1 y hy

/-! ### The end of a pass (R381, R383) -/

theorem Capstan.overrun_none (c : Capstan) {x : Ctx} (h : x.overrunFrom = none) : c.overrun x = c := by
  unfold Capstan.overrun
  rw [h]

/-- What a pass's end that is neither an INVALIDATE's nor a fault's leaves of the Capstan: its next pass is due. -/
theorem State.endPass_goesOn {s : State} {x : Ctx} (hinvalid : x.toInvalid = false) (hfaulted : x.faulted = false) (hover : x.overrunFrom = none) :
    s.endPass x = ((s.eachSlice (fun env sl =>
      if env.isLive sl.id && !(sl.id ∈ x.emptied) then sl.count 0x406 0 (some x.id) 1 else sl)).onCap (fun k => k.onCtx x.id Ctx.passOver)).broadcast := by
  unfold State.endPass
  rw [hinvalid, hfaulted]
  simp only [Capstan.overrun_none _ hover]
  rfl

theorem Ctx.passOver_goesOn {x : Ctx} (hinvalid : x.toInvalid = false) (hfaulted : x.faulted = false) :
    x.passOver = { x with missedLast := x.missedNow, emptied := [], awaitStart := true } := by
  unfold Ctx.passOver
  have : ({ x with missedLast := x.missedNow, emptied := [] } : Ctx).faulted = false := hfaulted
  dsimp only
  rw [if_neg (by simp [hinvalid]), if_neg (by rw [this]; exact Bool.false_ne_true)]

/-- The end of a pass that goes on keeps the state settled. -/
theorem State.settled.endPass {s : State} {x : Ctx} (h : s.settled) (hinvalid : x.toInvalid = false) (hfaulted : x.faulted = false)
    (hover : x.overrunFrom = none) : (s.endPass x).settled := by
  rw [State.endPass_goesOn hinvalid hfaulted hover]
  refine State.settled.broadcast (State.settled.onCtx (h.eachSlice fun env sl => ?_) fun y hy => ?_)
  · split <;> rfl
  · unfold Ctx.passOver
    dsimp only
    split
    · exact hy
    · split <;> exact hy

/-! ### Frame ticks (R382) -/

/-- The running pass of a context as a boundary at `tick` makes it drain. -/
def Ctx.draining (x : Ctx) (tick : Option Nat) : Ctx := { x with pass := .draining, emptied := [], tick := tick }

/-- The boundary of the only context, whose pass runs. -/
theorem State.boundaryOf_only {s : State} {x : Ctx} (tick : Option Nat) (hsettled : s.settled) (honly : s.cap.ctxs = [x]) (hrun : x.pass = .running)
    (hinvalid : x.toInvalid = false) (hvalid : x.cstate = .valid) :
    (s.boundaryOf x.id tick).settled ∧ (s.boundaryOf x.id tick).cap.tb = s.cap.tb ∧
      ∃ y, (s.boundaryOf x.id tick).cap.ctxs = [y] ∧ y.pass = .draining ∧ y.id = x.id ∧ y.tick = tick := by
  have hfaulted : (x.draining tick).faulted = false := by simp [Ctx.faulted, Ctx.draining, hvalid]
  have hover : x.overrunFrom = none := hsettled.2 x (by simp [honly])
  have hdrain : s.boundaryOf x.id tick =
      ((s.onCap (fun k => k.onCtx x.id (fun c => c.draining tick))).eachSlice (fun _ sl => sl.drainCtx x.id)).endIfEmpty x.id := by
    unfold State.boundaryOf
    rw [Capstan.ctx?_only honly]
    dsimp only
    rw [if_pos hrun]
    rfl
  have hctxs : ((s.onCap (fun k => k.onCtx x.id (fun c => c.draining tick))).eachSlice (fun _ sl => sl.drainCtx x.id)).cap.ctxs =
      [x.draining tick] := Capstan.onCtx_only (fun c => c.draining tick) honly
  have hsettled' : ((s.onCap (fun k => k.onCtx x.id (fun c => c.draining tick))).eachSlice (fun _ sl => sl.drainCtx x.id)).settled :=
    State.settled.eachSlice (hsettled.onCtx fun _ h => h) fun _ _ => rfl
  rw [hdrain]
  generalize hu : (s.onCap (fun k => k.onCtx x.id (fun c => c.draining tick))).eachSlice (fun _ sl => sl.drainCtx x.id) = u at *
  have htb : u.cap.tb = s.cap.tb := by rw [← hu]; rfl
  unfold State.endIfEmpty
  rw [show u.cap.ctx? x.id = some (x.draining tick) from Capstan.ctx?_only hctxs]
  dsimp only
  split
  · refine ⟨hsettled'.endPass hinvalid hfaulted hover, ?_, (x.draining tick).passOver, ?_, ?_⟩
    · rw [State.endPass_goesOn (x := x.draining tick) hinvalid hfaulted hover]
      exact htb
    · rw [State.endPass_goesOn (x := x.draining tick) hinvalid hfaulted hover]
      exact Capstan.onCtx_only Ctx.passOver hctxs
    · rw [Ctx.passOver_goesOn (x := x.draining tick) hinvalid hfaulted]
      exact ⟨rfl, rfl, rfl⟩
  · exact ⟨hsettled', htb, x.draining tick, hctxs, rfl, rfl, rfl⟩

theorem State.timerTick_first {s : State} (h : s.cap.tb.lastTick = none) :
    s.timerTick = (s.onCap (fun c => { c with tb := { c.tb with
      lastTick := some (s.cap.now / s.cap.img.tickPeriod * s.cap.img.tickPeriod) } })).tickAt (s.cap.now / s.cap.img.tickPeriod * s.cap.img.tickPeriod) := by
  unfold State.timerTick
  rw [h]
  rfl

/-- A tick of engine time in the mode TIMEBASE with a period. -/
theorem exec_frameTick_timer {s : State} (hpower : s.cap.su.power = .running) (hfailed : s.cap.hl.failed = false) (hon : s.cap.tb.on = true)
    (hmode : s.cap.img.syncMode = 2) (hperiod : s.cap.img.tickPeriod ≠ 0) : exec .frameTick s = .next (deliverAll s.timerTick) := by
  have hticks : s.cap.ticks = true := by simp [Capstan.ticks, hmode, hperiod]
  rw [exec_frameTick, execFrameTick, if_neg (by simp [hpower, hfailed, hon, hticks]), if_neg (by rw [hmode]; decide)]

theorem Capstan.acts_iff (c : Capstan) : c.acts = true ↔ c.hl.restarting = none ∧ c.hl.failed = false ∧ c.su.power = .running := by
  simp [Capstan.acts, and_assoc]

/-! ### Deadlines (R387) -/

/-- The context once its deadline timer has run out, and once it has missed its deadline. -/
def Ctx.disarmed (x : Ctx) : Ctx := { x with deadlineArmed := false }

def Ctx.missing (x : Ctx) : Ctx :=
  { x with missedNow := true, misses := satAdd 0xFFFFFFFF x.misses 1, overrunFrom := some (x.tref + x.deadline) }

theorem Capstan.mem_onCtx {c : Capstan} {id : Nat} {f : Ctx → Ctx} {y : Ctx} (h : y ∈ (c.onCtx id f).ctxs) :
    (∃ x ∈ c.ctxs, x.id = id ∧ y = f x) ∨ (y ∈ c.ctxs ∧ y.id ≠ id) := by
  obtain ⟨x, hx, rfl⟩ := List.mem_map.mp h
  dsimp only
  by_cases hid : x.id = id
  · exact .inl ⟨x, hx, hid, by simp [hid]⟩
  · exact .inr (by simp [hid, hx])

theorem exec_deadlineMissed_due {s : State} {ctx : Nat} {x : Ctx} (hacts : s.cap.acts = true) (h : s.cap.ctx? ctx = some x)
    (harmed : x.deadlineArmed = true) (hdue : x.tref + x.deadline ≤ s.cap.now) :
    exec (.deadlineMissed ctx) s = .next (deliverAll (if s.quiet ctx then s.onCap (fun c => c.onCtx ctx Ctx.disarmed)
      else (s.onCap (fun c => c.onCtx ctx Ctx.disarmed)).onCap (fun c => c.missDeadline x))) := by
  rw [exec_deadlineMissed, execDeadlineMissed]
  dsimp only
  rw [Capstan.ctxOr_of_ctx? h, if_neg (by simp [hacts, Ctx.timerDue, harmed, hdue])]
  cases s.quiet ctx <;> rfl

/-- Nothing is delivered where no slice has mail and no context with an overrun to record is quiet. -/
theorem deliverAll_unquiet {s : State} (hmail : ∀ x ∈ s.slices, x.mail = [])
    (hctxs : ∀ x ∈ s.cap.ctxs, x.overrunFrom ≠ none → s.quiet x.id = false) : deliverAll s = s := by
  have hlate : s.cap.ctxs.filter (fun x => x.overrunFrom.isSome && s.quiet x.id) = [] := by
    rw [List.filter_eq_nil_iff]
    intro x hx
    rcases hover : x.overrunFrom with _ | due
    · simp
    · simp [hctxs x hx (by simp [hover])]
  unfold deliverAll
  dsimp only
  rw [s.readMails_none _ hmail]
  unfold State.overruns
  split
  · rfl
  · rw [hlate]
    rfl

/-- The Capstan once the pass of `x` has missed its deadline. -/
theorem Capstan.missDeadline_ctxs (c : Capstan) (x : Ctx) : (c.missDeadline x).ctxs = (c.onCtx x.id Ctx.missing).ctxs := by
  unfold Capstan.missDeadline
  dsimp only
  rw [Capstan.event_ctxs, Capstan.note_ctxs]
  rfl

theorem Capstan.missDeadline_hl (c : Capstan) (x : Ctx) : (c.missDeadline x).hl = c.hl := by
  unfold Capstan.missDeadline
  dsimp only
  rw [Capstan.event_hl, Capstan.note_hl, Capstan.onCtx_hl]

theorem State.quiet_congr {s t : State} (ctx : Nat) (hslices : t.slices = s.slices) (hhl : t.cap.hl = s.cap.hl) : t.quiet ctx = s.quiet ctx := by
  unfold State.quiet State.unread Capstan.isLive
  rw [hslices, hhl]

/-- A record with its tail takes two SEQ, where room for one alone is not what is left of the first runnings. -/
theorem Capstan.note_tail_next (c : Capstan) (code : Nat) (data tail : List Byte) (hroom : c.log.first.length ≠ 1023) :
    (c.note code data (some tail)).log.next = c.log.next + 2 := by
  unfold Capstan.note Capstan.record
  dsimp only [Option.map_some]
  by_cases hfull : 1024 ≤ c.log.first.length
  · have hnone : (1024 - c.log.first.length != 0) = false := by rw [Nat.sub_eq_zero_of_le hfull]; rfl
    rw [hnone]
    simp [BitVec.add_assoc]
  · have htwo : (1024 - c.log.first.length != 0 && decide (2 ≤ 1024 - c.log.first.length)) = true := by simp; omega
    rw [if_pos htwo]
    simp [BitVec.add_assoc]

theorem Capstan.note_tail_counts (c : Capstan) (code : Nat) (data tail : List Byte) {k : Nat} (hk : k ≠ 3) :
    (c.note code data (some tail)).irq.counts[k]? = c.irq.counts[k]? := by
  unfold Capstan.note Capstan.record
  dsimp only [Option.map_some]
  split
  · rw [Capstan.compareMark_counts _ hk]
    exact Capstan.compareMark_counts _ hk
  · rw [Capstan.compareMark_counts _ hk]
    refine (Capstan.compareMark_counts _ hk).trans ?_
    split
    · exact Capstan.compareMark_counts _ hk
    · rfl

theorem Capstan.refillPort_pend (c : Capstan) : c.refillPort.irq.pend = c.irq.pend := by
  unfold Capstan.refillPort
  split <;> rfl

theorem Capstan.message_pend (c : Capstan) (k : Nat) : (c.message k).irq.pend = c.irq.pend := by
  unfold Capstan.message
  dsimp only
  split
  · rfl
  · exact Capstan.refillPort_pend _

/-- The event of a class is pending (R578). -/
theorem Capstan.event_pend (c : Capstan) (i : Irq) : (c.event i).irq.pend.testBit i.cls = true := by
  have hpend : (c.event i).irq.pend = c.irq.pend ||| 2 ^ i.cls := by
    unfold Capstan.event
    dsimp only
    split
    · exact Capstan.message_pend _ _
    · rfl
  rw [hpend, Nat.testBit_or, Nat.testBit_two_pow_self, Bool.or_true]

end Sys2Proof.Machine

open Sys2Proof Sys2Proof.Machine

/-- Settles O49: a tick reaches the only context by its boundary; a deadline's contexts are settled but for the one that missed it. -/
theorem ticksAndDeadlinesHappen : Obligations.TicksAndDeadlinesHappen := by
  unfold Obligations.TicksAndDeadlinesHappen
  refine ⟨fun s x hacts hon hsettled hmode hperiod honly hframe hvalid hrun hinvalid hlast => ?_,
    fun s k hpower hrestart hfailed hon hsettled hmode hperiod hlast => ?_,
    fun s e hacts hon hsettled hmode hedge hnear => ?_, fun s ctx x hacts hsettled h harmed hdue hquiet hroom => ?_,
    fun s ctx x hacts hsettled h harmed hdue hquiet => ?_, fun s ctx x h hearly => ?_⟩
  · obtain ⟨-, hfailed, hpower⟩ := (Capstan.acts_iff _).mp hacts
    rw [exec_frameTick_timer hpower hfailed hon hmode hperiod, State.timerTick_first hlast]
    generalize ht : s.cap.now / s.cap.img.tickPeriod * s.cap.img.tickPeriod = t
    obtain ⟨hsettled', htb, y, hctxs, hpass, hid, htick⟩ :=
      State.boundaryOf_only (s := s.onCap (fun c => { c with tb := { c.tb with lastTick := some t } })) (x := x) (some t) hsettled honly hrun
        hinvalid hvalid
    have htickAt : (s.onCap (fun c => { c with tb := { c.tb with lastTick := some t } })).tickAt t =
        (s.onCap (fun c => { c with tb := { c.tb with lastTick := some t } })).boundaryOf x.id (some t) := by
      unfold State.tickAt
      rw [if_pos (by exact hacts)]
      unfold State.tickAll
      rw [show (s.onCap (fun c => { c with tb := { c.tb with lastTick := some t } })).cap.ctxs = [x] from honly, List.foldl_cons, List.foldl_nil]
      unfold State.tickCtx
      rw [if_neg (by simp [hframe, hvalid]), hrun]
    rw [htickAt, deliverAll_settled _ hsettled']
    exact ⟨_, y, rfl, hctxs, hpass, hid, htick, htb⟩
  · dsimp only
    rw [exec_frameTick_timer hpower hfailed hon hmode hperiod, State.timerTick_first hlast]
    generalize s.cap.now / s.cap.img.tickPeriod * s.cap.img.tickPeriod = t
    have hheld : (s.onCap (fun c => { c with tb := { c.tb with lastTick := some t } })).tickAt t =
        s.withCap { s.cap with tb := { s.cap.tb with lastTick := some t, heldTicks := s.cap.tb.heldTicks ++ [t] } } := by
      unfold State.tickAt
      rw [if_neg]
      · rfl
      · simp [Capstan.acts, State.onCap, hrestart]
    rw [hheld, deliverAll_settled]
    exact hsettled
  · obtain ⟨-, hfailed, hpower⟩ := (Capstan.acts_iff _).mp hacts
    have hticks : s.cap.ticks = true := by simp [Capstan.ticks, hmode]
    have hedge' : s.syncEdge = s.withCap { s.cap with tb := { s.cap.tb with bad := min 0xFFF (s.cap.tb.bad + 1) } } := by
      unfold State.syncEdge
      rw [hedge]
      dsimp only
      rw [decide_eq_true hnear, if_pos rfl]
      rfl
    rw [exec_frameTick, execFrameTick, if_neg (by simp [hpower, hfailed, hon, hticks]), if_pos hmode, hedge', deliverAll_settled]
    exact hsettled
  · obtain ⟨hrestart, hfailed, -⟩ := (Capstan.acts_iff _).mp hacts
    have hid := Capstan.ctx?_id h
    rw [exec_deadlineMissed_due hacts h harmed hdue, hquiet, if_neg Bool.false_ne_true]
    have hctxs := Capstan.missDeadline_ctxs (s.cap.onCtx ctx Ctx.disarmed) x
    rw [deliverAll_unquiet]
    · refine ⟨_, rfl, ?_, ?_, Capstan.event_pend _ _, ?_, rfl, rfl⟩
      · have hdisarmed : (s.cap.onCtx ctx Ctx.disarmed).ctx? ctx = some x.disarmed := Capstan.ctx?_onCtx h hid
        have hmissed : ((s.cap.onCtx ctx Ctx.disarmed).onCtx ctx Ctx.missing).ctx? ctx = some x.disarmed.missing :=
          Capstan.ctx?_onCtx hdisarmed hid
        refine Eq.trans ?_ hmissed
        rw [hid] at hctxs
        exact congrArg (List.find? (fun y => decide (y.id = ctx))) hctxs
      · refine (congrArg Logline.next (Capstan.event_log _ _)).trans ?_
        exact Capstan.note_tail_next _ _ _ _ hroom
      · refine (congrArg (·[1]?) (Capstan.event_counts _ _)).trans ?_
        rw [updateAt_getElem?]
        refine (if_pos rfl).trans ?_
        rw [Capstan.note_tail_counts _ _ _ _ (by decide)]
        rfl
    · exact hsettled.1
    · intro y hy hover
      have hquiet' := State.quiet_congr (s := s) (t := (s.onCap (fun c => c.onCtx ctx Ctx.disarmed)).onCap (fun c => c.missDeadline x)) y.id rfl
        (Capstan.missDeadline_hl _ x)
      rw [hquiet']
      suffices hy' : y.id = ctx by rw [hy']; exact hquiet
      have hmem : y ∈ ((s.cap.onCtx ctx Ctx.disarmed).onCtx x.id Ctx.missing).ctxs := hctxs ▸ hy
      rcases Capstan.mem_onCtx hmem with ⟨z, -, hz, rfl⟩ | ⟨hmem', -⟩
      · exact hz.trans hid
      · rcases Capstan.mem_onCtx hmem' with ⟨z, -, hz, rfl⟩ | ⟨hmem'', -⟩
        · exact hz
        · exact absurd (hsettled.2 y hmem'') hover
  · rw [exec_deadlineMissed_due hacts h harmed hdue, hquiet, if_pos rfl, deliverAll_settled]
    · rfl
    · exact hsettled.onCtx fun _ h => h
  · rw [exec_deadlineMissed, execDeadlineMissed]
    dsimp only
    rw [Capstan.ctxOr_of_ctx? h, if_pos]
    simp [Ctx.timerDue, Nat.not_le.mpr hearly]
end

section
/-!
Pass starts and pass ends (R383, R384, R460, R466, R468): what reading a context's entry again does at slices where nothing waits, the pass that
is halted for poison, and the status block.
-/

namespace Sys2Proof.Machine

/-! ### A context as a slice sees it -/

theorem CtxCache.see_id (k : CtxCache) (c : Ctx) : (k.see c).id = c.id := by
  unfold CtxCache.see
  dsimp only
  split <;> rfl

theorem Slice.view_ctx? (env : Capstan) (sl : Slice) (id : Nat) : (sl.view env).ctx? id = (env.ctx? id).map sl.cctx.see := by
  unfold Capstan.ctx? Slice.view
  rw [List.find?_map]
  congr 1
  exact congrArg (fun p => env.ctxs.find? p) (funext fun c => by simp [CtxCache.see_id])

/-- A context without placement by the home map is seen so, where every slot that is its own says so. -/
theorem CtxCache.see_homed {k : CtxCache} {c : Ctx} (hc : c.homed = false) (hslots : ∀ e ∈ k.slots, e.ctx = c.id → byteAt e.fixed 14 ≠ 1) :
    (k.see c).homed = false := by
  unfold CtxCache.see
  dsimp only
  split
  · next x hx =>
    have hid : x.ctx = c.id := by simpa using List.find?_some hx
    exact decide_eq_false (hslots x (List.mem_of_find?_eq_some hx) hid)
  · exact hc

theorem byteAt_padTo {bs : List Byte} {n k : Nat} (hk : k < n) : byteAt (padTo n bs) k = byteAt bs k := by
  unfold byteAt padTo
  rw [List.getD_eq_getElem?_getD, List.getD_eq_getElem?_getD, List.getElem?_take, if_pos hk, List.getElem?_append]
  split
  · rfl
  · next h => rw [List.getElem?_replicate, List.getElem?_eq_none (Nat.not_lt.mp h)]; split <;> rfl

/-- The placement in the fixed block that a slice reads is the context's. -/
theorem Capstan.readEntry_placement (c : Capstan) {id : Nat} {x : Ctx} (h : c.ctx? id = some x) :
    byteAt ((c.readEntry id {}).take 64) 14 = byteAt x.fixed 14 := by
  have htake (bs : List Byte) : byteAt (bs.take 64) 14 = byteAt bs 14 := by
    unfold byteAt
    rw [List.getD_eq_getElem?_getD, List.getD_eq_getElem?_getD, List.getElem?_take, if_pos (by decide)]
  have happend (bs cs : List Byte) : byteAt (padTo 64 bs ++ cs) 14 = byteAt (padTo 64 bs) 14 := by
    have hlen : (padTo 64 bs).length = 64 := by simp [padTo]; omega
    unfold byteAt
    rw [List.getD_eq_getElem?_getD, List.getD_eq_getElem?_getD, List.getElem?_append_left (by omega)]
  unfold Capstan.readEntry
  dsimp only
  rw [htake, byteAt_padTo (by decide), Option.getD_none, happend, byteAt_padTo (by decide), h]
  rfl

/-! ### Slices at which nothing waits for the context -/

/-- Nothing is told, no descriptor waits, nothing is held up, and no slot of the context has the home map's placement. -/
structure Slice.Plain (ctx : Nat) (sl : Slice) : Prop where
  mail : sl.mail = []
  pendq : sl.ing.pendq = []
  calm : sl.calm
  slots : ∀ e ∈ sl.cctx.slots, e.ctx = ctx → byteAt e.fixed 14 ≠ 1

theorem Slice.Plain.wake {ctx : Nat} {sl : Slice} (h : sl.Plain ctx) : sl.wake.Plain ctx := by
  obtain ⟨hmail, hpendq, hcalm, hslots⟩ := h
  unfold Slice.wake
  split
  · exact ⟨hmail, hpendq, hcalm, hslots⟩
  · exact ⟨hmail, hpendq, hcalm, hslots⟩

theorem Slice.Plain.load {ctx slot : Nat} {sl : Slice} {bs : Bytes} (h : sl.Plain ctx) (hbs : byteAt (bs.take 64) 14 ≠ 1) :
    ({ sl with cctx := sl.cctx.load slot ctx bs {} } : Slice).Plain ctx := by
  obtain ⟨hmail, hpendq, hcalm, hslots⟩ := h
  refine ⟨hmail, hpendq, hcalm, fun e he hctx => ?_⟩
  rcases List.mem_append.mp he with he | he
  · exact hslots e (List.mem_filter.mp he).1 hctx
  · rw [List.mem_singleton.mp he]
    exact hbs

theorem Slice.Plain.cache {ctx : Nat} {sl : Slice} {k : Cache} (h : sl.Plain ctx) (hk : k.waiting = sl.cache.waiting) :
    ({ sl with cache := k } : Slice).Plain ctx := by
  obtain ⟨hmail, hpendq, hcalm, hslots⟩ := h
  exact ⟨hmail, hpendq, ⟨hk.trans hcalm.1, hcalm.2⟩, hslots⟩

theorem State.mem_eachSlice {s : State} {f : Capstan → Slice → Slice} {sl : Slice} (h : sl ∈ (s.eachSlice f).slices) :
    ∃ x ∈ s.slices, sl = f (x.view s.cap) x := by
  obtain ⟨x, hx, rfl⟩ := List.mem_map.mp h
  exact ⟨x, hx, rfl⟩

/-- Loading the context's slot at slices that read it as it was last written. -/
theorem State.loadSlot_cap (s : State) (ctx : Nat) (reads : List EntryRead) :
    (s.loadSlot ctx reads).cap = s.cap ∧ (s.loadSlot ctx reads).rope = s.rope ∧ (s.loadSlot ctx reads).slices.length = s.slices.length := by
  unfold State.loadSlot
  split
  · exact ⟨rfl, rfl, rfl⟩
  · exact ⟨rfl, rfl, List.length_map _⟩

theorem State.loadSlot_plain {s : State} {ctx : Nat} {x : Ctx} (hctx : s.cap.ctx? ctx = some x) (hhomed : x.homed = false)
    (h : ∀ sl ∈ s.slices, sl.Plain ctx) : ∀ sl ∈ (s.loadSlot ctx []).slices, sl.Plain ctx := by
  have hplace : byteAt ((s.cap.readEntry ctx {}).take 64) 14 ≠ 1 := by
    rw [Capstan.readEntry_placement _ hctx]
    exact of_decide_eq_false hhomed
  unfold State.loadSlot
  split
  · exact h
  · intro sl hsl
    obtain ⟨y, hy, rfl⟩ := State.mem_eachSlice hsl
    dsimp only
    split
    · exact ((h y hy).load hplace).wake
    · exact h y hy

theorem Slice.wake_eq (sl : Slice) : ∃ p, sl.wake = { sl with pwr := p } := by
  unfold Slice.wake
  split
  · exact ⟨_, rfl⟩
  · exact ⟨sl.pwr, rfl⟩

/-- Loading a slot leaves no descriptor waiting that did not wait, and what the slices tell, read and do. -/
theorem State.loadSlot_quiet (s : State) (ctx : Nat) (reads : List EntryRead) (h : ∀ sl ∈ s.slices, sl.ing.pendq = []) :
    ∀ sl ∈ (s.loadSlot ctx reads).slices, sl.ing.pendq = [] := by
  unfold State.loadSlot
  split
  · exact h
  · intro sl hsl
    obtain ⟨y, hy, rfl⟩ := State.mem_eachSlice hsl
    dsimp only
    split
    · obtain ⟨p, hp⟩ := Slice.wake_eq { y with cctx := y.cctx.load _ ctx _ (reads.getD y.id {}) }
      rw [hp]
      exact h y hy
    · exact h y hy

theorem State.loadSlot_mail (s : State) (ctx : Nat) (reads : List EntryRead) (h : s.settled) : (s.loadSlot ctx reads).settled := by
  unfold State.loadSlot
  split
  · exact h
  · refine h.eachSlice fun env sl => ?_
    dsimp only
    split
    · obtain ⟨p, hp⟩ := Slice.wake_eq { sl with cctx := sl.cctx.load _ ctx _ (reads.getD sl.id {}) }
      rw [hp]
    · rfl

theorem State.loadSlot_poison (s : State) (ctx : Nat) (reads : List EntryRead) :
    (s.loadSlot ctx reads).readPoison reads = s.readPoison reads := by
  unfold State.loadSlot
  split
  · rfl
  · unfold State.readPoison State.eachSlice
    rw [List.any_map]
    refine congrArg s.slices.any (funext fun sl => ?_)
    dsimp only [Function.comp]
    split
    · obtain ⟨p, hp⟩ := Slice.wake_eq { sl with cctx := sl.cctx.load _ ctx _ (reads.getD sl.id {}) }
      rw [hp]
      rfl
    · rfl

theorem State.rereadGen_plain {s : State} {ctx : Nat} (h : ∀ sl ∈ s.slices, sl.Plain ctx) : ∀ sl ∈ (s.rereadGen ctx).slices, sl.Plain ctx := by
  intro sl hsl
  obtain ⟨y, hy, rfl⟩ := List.mem_map.mp hsl
  dsimp only
  have hcache : ({ y with cache := if (Capstan.ctxOr (y.view s.cap) ctx).sweeps then y.cache.sweepCtx (y.view s.cap) ctx
      else y.cache.oldFills (y.view s.cap) ctx } : Slice).Plain ctx := (h y hy).cache (by split <;> rfl)
  rw [Slice.retryAll_calm _ _ hcache.calm]
  exact hcache

theorem State.mapReasons_none {s : State} {ctx : Nat} (h : ∀ sl ∈ s.slices, ∀ p ∈ sl.cctx.maps, p.1 ≠ ctx) : s.mapReasons ctx = [] := by
  unfold State.mapReasons
  rw [List.filterMap_eq_nil_iff]
  intro sl hsl
  have hnone : sl.cctx.maps.find? (fun p => p.1 = ctx) = none := by
    rw [List.find?_eq_none]
    intro p hp
    simpa using h sl hsl p hp
  have hmap : sl.cctx.mapOf ctx = .unread := by
    unfold CtxCache.mapOf
    rw [hnone]
    rfl
  rw [hmap]

/-- No slice reads a home map for a context without it. -/
theorem State.rereadMap_plain {s : State} {ctx : Nat} {x : Ctx} (maps : List MapRead) (hctx : s.cap.ctx? ctx = some x) (hhomed : x.homed = false)
    (h : ∀ sl ∈ s.slices, sl.Plain ctx) :
    (s.rereadMap ctx maps).cap = s.cap ∧ (s.rereadMap ctx maps).rope = s.rope ∧ (s.rereadMap ctx maps).slices.length = s.slices.length ∧
      ∀ sl ∈ (s.rereadMap ctx maps).slices, sl.Plain ctx := by
  have hid := Capstan.ctx?_id hctx
  have hread : s.eachSlice (fun env sl =>
      if (env.ctxOr ctx).homed && sl.works env then sl.readMap env (env.ctxOr ctx) (maps.getD sl.id (.failed (env.ctxOr ctx).hmap))
      else { sl with cctx := { sl.cctx with maps := sl.cctx.maps.filter (fun p => p.1 != ctx) } }) =
        s.eachSlice (fun _ sl => { sl with cctx := { sl.cctx with maps := sl.cctx.maps.filter (fun p => p.1 != ctx) } }) := by
    unfold State.eachSlice
    refine congrArg (fun xs => { s with slices := xs }) (List.map_congr_left fun sl hsl => ?_)
    have hor : Capstan.ctxOr (sl.view s.cap) ctx = sl.cctx.see x := by
      refine Capstan.ctxOr_of_ctx? ?_
      rw [Slice.view_ctx?, hctx]
      rfl
    dsimp only
    rw [hor, CtxCache.see_homed hhomed (fun e he hec => (h sl hsl).slots e he (hec.trans hid)), Bool.false_and, if_neg Bool.false_ne_true]
  have hreasons : (s.eachSlice (fun _ sl => { sl with cctx := { sl.cctx with maps := sl.cctx.maps.filter (fun p => p.1 != ctx) } })).mapReasons ctx
      = [] := by
    refine State.mapReasons_none fun sl hsl p hp => ?_
    obtain ⟨y, -, rfl⟩ := State.mem_eachSlice hsl
    simpa using (List.mem_filter.mp hp).2
  have hmap : s.rereadMap ctx maps =
      s.eachSlice (fun _ sl => { sl with cctx := { sl.cctx with maps := sl.cctx.maps.filter (fun p => p.1 != ctx) } }) := by
    unfold State.rereadMap
    dsimp only
    rw [hread, hreasons]
    rfl
  rw [hmap]
  refine ⟨rfl, rfl, List.length_map _, fun sl hsl => ?_⟩
  obtain ⟨y, hy, rfl⟩ := State.mem_eachSlice hsl
  exact ⟨(h y hy).mail, (h y hy).pendq, (h y hy).calm, (h y hy).slots⟩

/-! ### The status block (R460) -/

theorem le_past {a v off n : Nat} (bs : List Byte) (h : a ≤ off) : le (toLe a v ++ bs) off n = le bs (off - a) n := by
  unfold le
  rw [List.drop_append, List.drop_of_length_le (by simpa using h), List.nil_append, toLe_length]

theorem Ctx.status_fields (x : Ctx) : x.status.length = 48 ∧ le x.status 1 1 = x.fclass % 256 ∧ le x.status 4 4 = x.passId % 2 ^ 32 ∧
    le x.status 8 4 = x.fbatch % 2 ^ 32 ∧ le x.status 16 8 = x.faddr % 2 ^ 48 ∧ le x.status 28 4 = x.misses % 2 ^ 32 ∧
    le x.status 32 8 = x.passStart % 2 ^ 64 := by
  unfold Ctx.status
  generalize x.cstate.code + place x.pass.code 2 2 + flag x.missedNow 4 + flag x.missedLast 5 + flag x.pend.isSome 6 = b0
  dsimp only
  simp only [List.append_assoc]
  refine ⟨by simp, ?_, ?_, ?_, ?_, ?_, ?_⟩
  all_goals simp (disch := decide) only [le_past, le_append, Nat.reduceSub, Nat.sub_self]
  all_goals omega

/-- The one element of an ordered list that satisfies `p` is found where it was inserted. -/
theorem find?_insertBy {α : Type} {lt : α → α → Bool} {p : α → Bool} {x : α} (xs : List α) (hx : p x = true) (hxs : ∀ y ∈ xs, p y = false) :
    (insertBy lt x xs).find? p = some x := by
  induction xs with
  | nil => simp [insertBy, hx]
  | cons y ys ih =>
    unfold insertBy
    split
    · rw [List.find?_cons_of_pos hx]
    · rw [List.find?_cons_of_neg (by simp [hxs y List.mem_cons_self])]
      exact ih fun z hz => hxs z (List.mem_cons_of_mem y hz)

/-- A change of a context's fields is found in the context table (R457). -/
theorem Capstan.onCtx_table {c : Capstan} {id : Nat} {x : Ctx} {f : Ctx → Ctx} (h : c.ctx? id = some x) (hid : (f x).id = x.id) :
    ∃ e, (c.onCtx id f).table.find? (fun e => e.ctx = id) = some e ∧ e.live = (f x).live ∧ e.status = (f x).status := by
  have hx : (f x).id = id := hid.trans (Capstan.ctx?_id h)
  have hfound : ({ c with ctxs := updateWhere (fun x => x.id = id) f c.ctxs } : Capstan).ctx? id = some (f x) := find?_updateWhere h (by simpa using hx)
  unfold Capstan.onCtx Capstan.writeEntry
  rw [hfound]
  refine ⟨_, find?_insertBy (p := fun e : TableEntry => decide (e.ctx = id)) _ (by exact decide_eq_true hx) fun y hy => ?_, rfl, rfl⟩
  simpa using (List.mem_filter.mp hy).2

/-! ### The pass that begins (R384, R466) -/

theorem Ctx.beginPass_spec (x : Ctx) : x.beginPass.id = x.id ∧ x.beginPass.fixed = x.fixed ∧ x.beginPass.cstate = x.cstate ∧
    x.beginPass.overrunFrom = x.overrunFrom ∧ x.beginPass.pass = x.pass ∧ x.beginPass.awaitStart = false ∧ x.beginPass.missedNow = false ∧
    x.beginPass.passId = (if x.pass = .none then x.passId else (x.passId + 1) % 2 ^ 32) ∧
    x.beginPass.live = (match x.pend with | some b => if x.late then x.live else b | none => x.live) := by
  unfold Ctx.beginPass
  rcases hpend : x.pend with _ | b
  · exact ⟨rfl, rfl, rfl, rfl, rfl, rfl, rfl, rfl, rfl⟩
  · cases hlate : x.late <;> exact ⟨rfl, rfl, rfl, rfl, rfl, rfl, rfl, rfl, rfl⟩

theorem Ctx.run_valid {x : Ctx} (now : Nat) (h : x.cstate = .valid) : (x.run now).pass = .running ∧ (x.run now).passStart = now ∧
    (x.run now).id = x.id ∧ (x.run now).fixed = x.fixed ∧ (x.run now).live = x.live ∧ (x.run now).awaitStart = x.awaitStart ∧
    (x.run now).passId = x.passId ∧ (x.run now).missedNow = x.missedNow := by
  unfold Ctx.run
  dsimp only
  rw [if_neg (by simp [Ctx.faulted, h])]
  exact ⟨rfl, rfl, rfl, rfl, rfl, rfl, rfl, rfl⟩

theorem Ctx.run_kept (x : Ctx) (now : Nat) : (x.run now).id = x.id ∧ (x.run now).overrunFrom = x.overrunFrom := by
  unfold Ctx.run
  dsimp only
  generalize (if x.frame then x.tick.getD now else now) = r
  split <;> exact ⟨rfl, rfl⟩

/-- Without a command in progress, a pass's start ends with ingress going on. -/
theorem Capstan.cmdDone_none {c : Capstan} (op : CtxOp) (ctx : Nat) (h : c.cmd = none) : c.cmdDone op ctx = c := by
  unfold Capstan.cmdDone
  rw [h]
  rfl

theorem State.resumeCmd_none {s : State} (ctx : Nat) (h : s.cap.cmd = none) : s.resumeCmd ctx = s := by
  unfold State.resumeCmd
  rw [h]

/-- The state of a pass's start before commands and batches go on. -/
def State.started (s : State) (ctx : Nat) (reads : List EntryRead) (maps : List MapRead) : State :=
  let s := (s.onCap (fun c => c.onCtx ctx Ctx.beginPass)).loadSlot ctx reads
  if s.readPoison reads then s.haltStart ctx else ((s.rereadGen ctx).rereadMap ctx maps).onCap (fun c => c.onCtx ctx (Ctx.run c.now))

/-- A pass that is due starts where no command is in progress and no descriptor waits. -/
theorem exec_passStart_due {s t : State} {ctx : Nat} {x : Ctx} {reads : List EntryRead} {maps : List MapRead} (hacts : s.cap.acts = true)
    (hctx : s.cap.ctx? ctx = some x) (hdue : x.awaitStart = true) (hcmd : s.cap.cmd = none) (ht : s.started ctx reads maps = t)
    (htcmd : t.cap.cmd = none) (hpendq : ∀ sl ∈ t.slices, sl.ing.pendq = []) (hsettled : t.settled) :
    exec (.passStart ctx reads maps) s = .next t := by
  have hstart : s.startPass ctx reads maps = t := by
    have h : s.startPass ctx reads maps = (((s.started ctx reads maps).onCap (fun c =>
        (c.cmdDone .validate ctx).cmdDone .clearFault ctx)).resumeCmd ctx).admitAll := rfl
    have hdone : t.onCap (fun c => (c.cmdDone .validate ctx).cmdDone .clearFault ctx) = t := by
      unfold State.onCap
      dsimp only
      rw [Capstan.cmdDone_none _ _ htcmd, Capstan.cmdDone_none _ _ htcmd]
    rw [h, ht, hdone, State.resumeCmd_none ctx htcmd, State.admitAll_none hpendq]
  rw [exec_passStart, execPassStart, if_pos, hstart, deliverAll_settled _ hsettled]
  simp [hacts, Capstan.startDue, Capstan.ctxOr_of_ctx? hctx, hdue, hcmd]

/-- The slices that work read no poison where the command gives no reads. -/
theorem State.readPoison_nil (s : State) : s.readPoison [] = false := by
  unfold State.readPoison
  rw [List.any_eq_false]
  intro sl _
  simp

theorem State.started_clean {s : State} {ctx : Nat} {x : Ctx} (maps : List MapRead) (hsettled : s.settled) (hctx : s.cap.ctx? ctx = some x)
    (hhomed : x.homed = false) (hplain : ∀ sl ∈ s.slices, sl.Plain ctx) :
    let t := s.started ctx [] maps
    t.cap.ctx? ctx = some (({ x.beginPass with prevGen := some x.beginPass.gen } : Ctx).run s.cap.now) ∧
      (∀ k, k ≠ ctx → t.cap.ctx? k = s.cap.ctx? k) ∧ t.cap.cmd = s.cap.cmd ∧ t.slices.length = s.slices.length ∧ t.rope = s.rope ∧
      (∀ sl ∈ t.slices, sl.Plain ctx) ∧ t.settled := by
  dsimp only
  have hid := Capstan.ctx?_id hctx
  obtain ⟨hbegin, hfixed, -, hover, -⟩ := x.beginPass_spec
  have hctx1 : (s.cap.onCtx ctx Ctx.beginPass).ctx? ctx = some x.beginPass := Capstan.ctx?_onCtx hctx (hbegin.trans hid)
  have hhomed1 : x.beginPass.homed = false := by unfold Ctx.homed at *; rw [hfixed]; exact hhomed
  have hplain1 : ∀ sl ∈ (s.onCap (fun c => c.onCtx ctx Ctx.beginPass)).slices, sl.Plain ctx := hplain
  obtain ⟨hloadcap, hloadrope, hloadlen⟩ := (s.onCap (fun c => c.onCtx ctx Ctx.beginPass)).loadSlot_cap ctx []
  have hloaded := State.loadSlot_plain (s := s.onCap (fun c => c.onCtx ctx Ctx.beginPass)) hctx1 hhomed1 hplain1
  unfold State.started
  dsimp only
  generalize (s.onCap (fun c => c.onCtx ctx Ctx.beginPass)).loadSlot ctx [] = u at *
  rw [State.readPoison_nil, if_neg Bool.false_ne_true]
  have hctx2 : (u.rereadGen ctx).cap.ctx? ctx = some { x.beginPass with prevGen := some x.beginPass.gen } :=
    Capstan.ctx?_onCtx (f := fun x => { x with prevGen := some x.gen }) (by rw [State.eachSlice_cap, hloadcap]; exact hctx1) (hbegin.trans hid)
  obtain ⟨hmapcap, hmaprope, hmaplen, hmapped⟩ := State.rereadMap_plain maps hctx2 hhomed1 (State.rereadGen_plain hloaded)
  generalize (u.rereadGen ctx).rereadMap ctx maps = v at *
  have hvcap : v.cap = (s.cap.onCtx ctx Ctx.beginPass).onCtx ctx (fun x => { x with prevGen := some x.gen }) := by
    rw [hmapcap]
    exact congrArg (fun c => Capstan.onCtx c ctx _) hloadcap
  have hulen : u.slices.length = s.slices.length := hloadlen
  have hgenlen : (u.rereadGen ctx).slices.length = u.slices.length := List.length_map _
  have hbegun (y : Ctx) : y.beginPass.id = y.id ∧ y.beginPass.overrunFrom = y.overrunFrom := by
    obtain ⟨h1, -, -, h2, -⟩ := y.beginPass_spec
    exact ⟨h1, h2⟩
  refine ⟨?_, fun k hk => ?_, ?_, ?_, hmaprope.trans hloadrope, hmapped, ?_⟩
  · have hnow : v.cap.now = s.cap.now := by rw [hvcap]; rfl
    rw [← hnow]
    exact Capstan.ctx?_onCtx (f := Ctx.run v.cap.now) (by rw [hmapcap]; exact hctx2) ((Ctx.run_kept _ _).1.trans (hbegin.trans hid))
  · refine (Capstan.ctx?_onCtx_other v.cap hk fun y _ hy => (Ctx.run_kept y _).1.trans hy).trans ?_
    rw [hvcap, Capstan.ctx?_onCtx_other _ hk fun y _ hy => by exact hy, Capstan.ctx?_onCtx_other _ hk fun y _ hy => (hbegun y).1.trans hy]
  · change v.cap.cmd = s.cap.cmd
    rw [hvcap]
    rfl
  · exact hmaplen.trans (hgenlen.trans hulen)
  · have hsettled2 : v.settled := by
      refine ⟨fun sl hsl => (hmapped sl hsl).mail, ?_⟩
      rw [hvcap]
      intro y hy
      have hsettled1 := State.settled.onCtx (id := ctx) (f := Ctx.beginPass) hsettled fun y hy => (hbegun y).2.trans hy
      exact (State.settled.onCtx (s := s.onCap (fun c => c.onCtx ctx Ctx.beginPass)) (id := ctx) (f := fun x => { x with prevGen := some x.gen })
        hsettled1 fun _ h => h).2 y hy
    exact hsettled2.onCtx fun y hy => (Ctx.run_kept y _).2.trans hy

/-! ### A pass that is halted at its start (R468) -/

/-- A context whose pass does not run: poison at its entry is its fault, and every slice hears of it. -/
theorem State.ctxFault_idle {s : State} {ctx : Nat} {x : Ctx} (fclass fcause batch qindex addr : Nat) (hctx : s.cap.ctx? ctx = some x)
    (hvalid : x.cstate = .valid) (hpass : x.pass ≠ .running) (hpendq : ∀ sl ∈ s.slices, sl.ing.pendq = []) :
    s.ctxFault ctx fclass fcause batch qindex addr =
      (s.onCap (fun k => k.onCtx ctx (fun c => c.takeFault fclass fcause batch qindex addr))).broadcast := by
  have hid := Capstan.ctx?_id hctx
  have htake : (x.takeFault fclass fcause batch qindex addr).id = x.id ∧ (x.takeFault fclass fcause batch qindex addr).pass = x.pass := by
    unfold Ctx.takeFault
    dsimp only
    split <;> exact ⟨rfl, rfl⟩
  have hctx' : (s.onCap (fun k => k.onCtx ctx (fun c => c.takeFault fclass fcause batch qindex addr))).broadcast.cap.ctx? ctx =
      some (x.takeFault fclass fcause batch qindex addr) := Capstan.ctx?_onCtx (f := fun c => c.takeFault fclass fcause batch qindex addr) hctx (htake.1.trans hid)
  have hbound : (s.onCap (fun k => k.onCtx ctx (fun c => c.takeFault fclass fcause batch qindex addr))).broadcast.boundaryOf ctx none =
      (s.onCap (fun k => k.onCtx ctx (fun c => c.takeFault fclass fcause batch qindex addr))).broadcast := by
    unfold State.boundaryOf
    rw [hctx']
    dsimp only
    rw [if_neg (by rw [htake.2]; exact hpass)]
  unfold State.ctxFault
  rw [hctx]
  dsimp only
  rw [if_neg (by simp [hvalid]), hbound]
  refine State.admitAll_none fun sl hsl => ?_
  obtain ⟨y, hy, rfl⟩ := List.mem_map.mp hsl
  exact hpendq y hy

theorem Ctx.takeFault_kept (x : Ctx) (fclass fcause batch qindex addr : Nat) :
    (x.takeFault fclass fcause batch qindex addr).id = x.id ∧ (x.takeFault fclass fcause batch qindex addr).cstate = .fault ∧
      (x.takeFault fclass fcause batch qindex addr).awaitStart = x.awaitStart ∧
      (x.takeFault fclass fcause batch qindex addr).overrunFrom = x.overrunFrom := by
  unfold Ctx.takeFault
  dsimp only
  split <;> exact ⟨rfl, rfl, rfl, rfl⟩

theorem State.haltStart_idle {s : State} {ctx : Nat} {x : Ctx} (hsettled : s.settled) (hctx : s.cap.ctx? ctx = some x) (hvalid : x.cstate = .valid)
    (hpass : x.pass ≠ .running) (hpendq : ∀ sl ∈ s.slices, sl.ing.pendq = []) :
    (∃ y, (s.haltStart ctx).cap.ctx? ctx = some y ∧ y.pass = .halted ∧ y.cstate = .fault ∧ y.awaitStart = x.awaitStart) ∧
      (s.haltStart ctx).rope = s.rope ∧ (s.haltStart ctx).cap.cmd = s.cap.cmd ∧ (∀ sl ∈ (s.haltStart ctx).slices, sl.ing.pendq = []) ∧
      (s.haltStart ctx).settled := by
  have hid := Capstan.ctx?_id hctx
  have hfault := State.ctxFault_idle 4 1 0xFFFFFFFF 0xFFFFFFFF (s.cap.img.ctxBase + 256 * ctx) hctx hvalid hpass hpendq
  generalize htake : (fun c : Ctx => c.takeFault 4 1 0xFFFFFFFF 0xFFFFFFFF (s.cap.img.ctxBase + 256 * ctx)) = take at hfault
  have hkept (y : Ctx) : (take y).id = y.id ∧ (take y).cstate = .fault ∧ (take y).awaitStart = y.awaitStart ∧ (take y).overrunFrom = y.overrunFrom := by
    rw [← htake]
    exact y.takeFault_kept _ _ _ _ _
  have hpoison : (s.entryPoison ctx).slices = (s.onCap (fun k => k.onCtx ctx take)).broadcast.slices ∧ (s.entryPoison ctx).rope = s.rope ∧
      (s.entryPoison ctx).cap.ctxs = (s.cap.onCtx ctx take).ctxs ∧ (s.entryPoison ctx).cap.cmd = s.cap.cmd := by
    unfold State.entryPoison
    rw [hctx]
    dsimp only
    rw [hfault]
    simp only [hvalid, decide_true, if_true]
    refine ⟨rfl, rfl, ?_, ?_⟩
    · exact (Capstan.event_ctxs _ _).trans (Capstan.note_ctxs _ _ _ _)
    · exact (Capstan.event_cmd _ _).trans (Capstan.note_cmd _ _ _ _)
  obtain ⟨hslices, hrope, hctxs, hcmd⟩ := hpoison
  have hctx' : (s.entryPoison ctx).cap.ctx? ctx = some (take x) := by
    refine (congrArg (List.find? (fun y => decide (y.id = ctx))) hctxs).trans ?_
    exact Capstan.ctx?_onCtx (f := take) hctx ((hkept x).1.trans hid)
  have hsettled' : (s.entryPoison ctx).settled := by
    have h := (State.settled.onCtx (id := ctx) (f := take) hsettled fun y hy => (hkept y).2.2.2.trans hy).broadcast
    exact ⟨hslices ▸ h.1, hctxs ▸ h.2⟩
  unfold State.haltStart
  refine ⟨⟨_, Capstan.ctx?_onCtx (f := fun x => { x with pass := .halted, tick := none }) hctx' ((hkept x).1.trans hid), rfl, (hkept x).2.1,
    (hkept x).2.2.1⟩, hrope, hcmd, fun sl hsl => ?_, hsettled'.onCtx fun _ h => h⟩
  obtain ⟨y, hy, rfl⟩ := List.mem_map.mp (hslices ▸ hsl)
  exact hpendq y hy

/-! ### The end of a pass (R383) -/

/-- The report of a slice that holds nothing of a draining pass. -/
theorem exec_slicePassEmpty_reports {s : State} {i ctx : Nat} {sl : Slice} {x : Ctx} (hat : s.slices[i]? = some sl) (hworks : sl.works s.cap = true)
    (hctx : s.cap.ctx? ctx = some x) (hpass : x.pass = .draining) (hdue : x.awaitStart = false) (hholds : sl.holdsPass ctx = false) :
    exec (.slicePassEmpty i ctx) s = .next (deliverAll ((s.reportEmpty i ctx).endReported ctx)) := by
  rw [exec_slicePassEmpty, execSlicePassEmpty, hat]
  dsimp only
  rw [if_neg (by simp [hworks, Capstan.ctxOr_of_ctx? hctx, hpass, hdue, hholds])]

/-- A report that is the slice's first: it is counted, and noted with the context. -/
theorem State.reportEmpty_first {s : State} {i ctx : Nat} {sl : Slice} {x : Ctx} (hat : s.slices[i]? = some sl) (hctx : s.cap.ctx? ctx = some x)
    (hfirst : ¬ i ∈ x.emptied) : s.reportEmpty i ctx =
      (s.put i (sl.count 0x406 0 (some ctx) 1)).withCap (s.cap.onCtx ctx (fun y => { y with emptied := y.emptied ++ [i] })) := by
  unfold State.reportEmpty
  rw [Capstan.ctxOr_of_ctx? hctx, if_neg hfirst]
  unfold State.atSlice
  rw [hat]
  rfl

theorem set_bind {α β : Type} {xs : List α} {i : Nat} {a b : α} (d : Nat) {f : α → Option β} (hat : xs[i]? = some a) (hf : f b = f a) :
    (xs.set i b)[d]?.bind f = xs[d]?.bind f := by
  obtain ⟨hlt, -⟩ := List.getElem?_eq_some_iff.mp hat
  by_cases hd : i = d
  · subst hd
    rw [List.getElem?_set_self hlt, hat]
    exact hf
  · rw [List.getElem?_set_ne hd]

theorem set_any {α : Type} {xs : List α} {i : Nat} {a b : α} {p : α → Bool} (hat : xs[i]? = some a) (hp : p b = p a) :
    (xs.set i b).any p = xs.any p := by
  obtain ⟨hlt, hget⟩ := List.getElem?_eq_some_iff.mp hat
  have hmap : (xs.set i b).map p = xs.map p := by
    rw [List.map_set, hp, ← hget, ← List.getElem_map p (h := by simpa using hlt), List.set_getElem_self]
  have hany (ys : List α) : ys.any p = (ys.map p).any id := by rw [List.any_map]; rfl
  rw [hany, hmap, ← hany]

/-- Whether a pass is empty does not depend on counters, nor on contexts. -/
theorem State.passEmpty_counted {s : State} {i : Nat} {sl : Slice} {c : Capstan} (ctx ev qual : Nat) (q : Option Nat) (k : Nat)
    (hat : s.slices[i]? = some sl) (hhl : c.hl = s.cap.hl) : ((s.put i (sl.count ev qual q k)).withCap c).passEmpty ctx = s.passEmpty ctx := by
  have hlive : (s.put i (sl.count ev qual q k)).slices.any (fun sl => c.isLive sl.id && sl.holdsPass ctx) =
      s.slices.any (fun sl => s.cap.isLive sl.id && sl.holdsPass ctx) := by
    have : c.isLive = s.cap.isLive := by unfold Capstan.isLive; rw [hhl]
    rw [this]
    exact set_any hat rfl
  have hsends : ((s.put i (sl.count ev qual q k)).withCap c).sends ctx = s.sends ctx := by
    refine congrArg s.rope.any (funext fun m => ?_)
    unfold RopeMsg.ctxIs
    split
    · rfl
    · rfl
    · rfl
    · rfl
    · next r => exact congrArg (fun o => Option.any (fun b : Batch => decide (b.desc.ctx = ctx)) o) (set_bind m.dest hat rfl)
  have hunread : ((s.put i (sl.count ev qual q k)).withCap c).unread ctx = s.unread ctx := by
    have hany (d : Nat) (o : Option Slice) : o.any (fun sl => sl.journalled ctx) = (o.bind (fun sl => some (sl.journalled ctx))).any id := by
      cases o <;> rfl
    unfold State.unread
    refine (congrArg (fun ds : List Death => ds.any _) (congrArg Health.deaths hhl)).trans ?_
    refine congrArg s.cap.hl.deaths.any (funext fun d => ?_)
    rw [hany d.slice, hany d.slice]
    exact congrArg (fun o => !d.read && Option.any id o) (set_bind d.slice hat rfl)
  unfold State.passEmpty
  rw [hsends, hunread]
  exact congrArg (fun b => !b && !s.sends ctx && !s.unread ctx) hlive

/-- What a report leaves: the context has the slice among those that reported. -/
structure State.Reported (s u : State) (i ctx : Nat) (x z : Ctx) : Prop where
  found : u.cap.ctx? ctx = some z
  fields : z = { x with emptied := z.emptied }
  emptied : ∀ j, j = i ∨ j ∈ x.emptied → j ∈ z.emptied
  settled : u.settled
  empty : u.passEmpty ctx = s.passEmpty ctx
  hl : u.cap.hl = s.cap.hl
  su : u.cap.su = s.cap.su
  n : u.cap.n = s.cap.n
  log : u.cap.log = s.cap.log
  rope : u.rope = s.rope

theorem State.reportEmpty_reported {s : State} {i ctx : Nat} {sl : Slice} {x : Ctx} (hat : s.slices[i]? = some sl) (hsettled : s.settled)
    (hctx : s.cap.ctx? ctx = some x) : ∃ z, s.Reported (s.reportEmpty i ctx) i ctx x z := by
  by_cases hfirst : i ∈ x.emptied
  · have hsame : s.reportEmpty i ctx = s := by
      unfold State.reportEmpty
      rw [Capstan.ctxOr_of_ctx? hctx, if_pos hfirst]
    rw [hsame]
    refine ⟨x, hctx, rfl, fun j hj => ?_, hsettled, rfl, rfl, rfl, rfl, rfl, rfl⟩
    rcases hj with rfl | hj
    · exact hfirst
    · exact hj
  · rw [State.reportEmpty_first hat hctx hfirst]
    refine ⟨{ x with emptied := x.emptied ++ [i] }, Capstan.ctx?_onCtx (f := fun y => { y with emptied := y.emptied ++ [i] }) hctx
      (Capstan.ctx?_id (x := x) hctx), rfl, fun j hj => ?_, ?_, State.passEmpty_counted ctx _ _ _ _ hat rfl, rfl, rfl, rfl, rfl, rfl⟩
    · rcases hj with rfl | hj
      · exact List.mem_append_right _ (List.mem_singleton_self _)
      · exact List.mem_append_left _ hj
    · have hput := s.settled_put i (sl.count 0x406 0 (some ctx) 1) hsettled (s.mail_of i sl hat hsettled)
      exact State.settled.onCtx (s := s.put i (sl.count 0x406 0 (some ctx) 1)) hput fun _ h => h

/-- The last report of an empty pass ends it. -/
theorem State.Reported.ends {s u : State} {i ctx : Nat} {x z : Ctx} (h : s.Reported u i ctx x z) (hpass : x.pass = .draining)
    (hdue : x.awaitStart = false) (hinvalid : x.toInvalid = false) (hfaulted : x.faulted = false) (hover : x.overrunFrom = none)
    (hacts : s.cap.acts = true) (hall : ∀ j < s.cap.n, s.cap.isLive j = true → j = i ∨ j ∈ x.emptied) (hempty : s.passEmpty ctx = true) :
    (u.endReported ctx).settled ∧ (u.endReported ctx).cap.ctx? ctx =
      some { x with missedLast := x.missedNow, emptied := [], awaitStart := true } ∧
      (u.endReported ctx).rope = s.rope ∧ (u.endReported ctx).cap.log = s.cap.log := by
  obtain ⟨hctx, hfields, hemptied, hsettled, hempty', hhl, hsu, hn, hlog, hrope⟩ := h
  have hid := Capstan.ctx?_id hctx
  have hzpass : z.pass = .draining := (congrArg Ctx.pass hfields).trans hpass
  have hzdue : z.awaitStart = false := (congrArg Ctx.awaitStart hfields).trans hdue
  have hzinvalid : z.toInvalid = false := (congrArg Ctx.toInvalid hfields).trans hinvalid
  have hzfaulted : z.faulted = false := (congrArg Ctx.faulted hfields).trans hfaulted
  have hzover : z.overrunFrom = none := (congrArg Ctx.overrunFrom hfields).trans hover
  have hzacts : u.cap.acts = true := by unfold Capstan.acts at *; rw [hhl, hsu]; exact hacts
  have hreported : (u.cap.ids.filter u.cap.isLive).all (fun i => i ∈ z.emptied) = true := by
    rw [List.all_eq_true]
    intro j hj
    obtain ⟨hj, hlive⟩ := List.mem_filter.mp hj
    have hlive' : s.cap.isLive j = true := by unfold Capstan.isLive at *; rw [← hhl]; exact hlive
    exact decide_eq_true (hemptied j (hall j (by rw [← hn]; exact List.mem_range.mp hj) hlive'))
  have hend : u.endReported ctx = u.endPass z := by
    unfold State.endReported
    rw [Capstan.ctxOr_of_ctx? hctx, if_pos hreported]
    unfold State.endIfEmpty
    rw [hctx]
    dsimp only
    rw [if_pos (by simp [hzpass, hzdue, hzacts, hempty', hempty])]
  have hover' : z.passOver = { x with missedLast := x.missedNow, emptied := [], awaitStart := true } := by
    rw [Ctx.passOver_goesOn hzinvalid hzfaulted]
    exact congrArg (fun y : Ctx => { y with missedLast := y.missedNow, emptied := [], awaitStart := true }) hfields
  have hgone : (u.endPass z).cap.ctx? ctx = some z.passOver := by
    rw [State.endPass_goesOn hzinvalid hzfaulted hzover]
    have hzid : z.passOver.id = ctx := by rw [Ctx.passOver_goesOn hzinvalid hzfaulted]; exact hid
    rw [hid]
    exact Capstan.ctx?_onCtx (c := u.cap) hctx hzid
  rw [hend]
  refine ⟨hsettled.endPass hzinvalid hzfaulted hzover, hgone.trans (congrArg some hover'), ?_, ?_⟩
  · rw [State.endPass_goesOn hzinvalid hzfaulted hzover]
    exact hrope
  · rw [State.endPass_goesOn hzinvalid hzfaulted hzover]
    exact hlog

end Sys2Proof.Machine

open Sys2Proof Sys2Proof.Machine

/-- Settles O48: a pass starts over slices at which nothing waits, poison halts it, the last report ends it; the status block is read back. -/
theorem passesStartAndEnd : Obligations.PassesStartAndEnd := by
  unfold Obligations.PassesStartAndEnd
  refine ⟨fun s ctx m x hacts hsettled hctx hdue hvalid hhomed hcmd hslices => ?_,
    fun s ctx r m x hacts hsettled hctx hdue hvalid hpass hcmd hpendq hpoison => ?_,
    fun s i j ctx sl x hat hworks hsettled hctx hpass hdue hholds hfirst hj hlive hne hmissing => ?_, fun s i ctx sl hat hholds => ?_,
    fun s i ctx sl x hat hworks hsettled hctx hpass hdue hholds hinvalid hfaulted hacts hall hempty => ?_, fun c ctx f x hctx hid => ?_⟩
  · have hplain : ∀ sl ∈ s.slices, sl.Plain ctx := fun sl hsl =>
      ⟨hsettled.1 sl hsl, (hslices sl hsl).1, (hslices sl hsl).2.1, (hslices sl hsl).2.2⟩
    obtain ⟨hctx', hothers, hcmd', hlen, hrope, hplain', hsettled'⟩ := State.started_clean m hsettled hctx hhomed hplain
    obtain ⟨-, hfixed, hstate, -, -, hdue', hmissed, hpassId, hlive⟩ := x.beginPass_spec
    obtain ⟨hrun, hstart, -, hfixed', hlive', hdue'', hpassId', hmissed'⟩ := Ctx.run_valid
      (x := { x.beginPass with prevGen := some x.beginPass.gen }) s.cap.now (hstate.trans hvalid)
    exact ⟨_, _, exec_passStart_due hacts hctx hdue hcmd rfl (hcmd'.trans hcmd) (fun sl hsl => (hplain' sl hsl).pendq) hsettled', hctx', hrun,
      hdue''.trans hdue', hpassId'.trans hpassId, hstart, hmissed'.trans hmissed, hlive'.trans hlive, hfixed'.trans hfixed, hothers, hlen, hrope⟩
  · have hid := Capstan.ctx?_id hctx
    obtain ⟨hbegin, -, hstate, -, hpass', hdue', -⟩ := x.beginPass_spec
    obtain ⟨hloadcap, hloadrope, -⟩ := (s.onCap (fun c => c.onCtx ctx Ctx.beginPass)).loadSlot_cap ctx r
    have hloaded := (s.onCap (fun c => c.onCtx ctx Ctx.beginPass)).loadSlot_quiet ctx r hpendq
    have hpoison' := (s.onCap (fun c => c.onCtx ctx Ctx.beginPass)).loadSlot_poison ctx r
    have hctx1 : (s.cap.onCtx ctx Ctx.beginPass).ctx? ctx = some x.beginPass := Capstan.ctx?_onCtx hctx (hbegin.trans hid)
    have hsettled1 := State.loadSlot_mail _ ctx r (State.settled.onCtx (id := ctx) (f := Ctx.beginPass) hsettled fun y hy =>
      (y.beginPass_spec.2.2.2.1).trans hy)
    have hstarted : s.started ctx r m = ((s.onCap (fun c => c.onCtx ctx Ctx.beginPass)).loadSlot ctx r).haltStart ctx := by
      unfold State.started
      dsimp only
      rw [if_pos (hpoison'.trans hpoison)]
    generalize (s.onCap (fun c => c.onCtx ctx Ctx.beginPass)).loadSlot ctx r = u at *
    obtain ⟨⟨y, hy, hhalted, hfault, hydue⟩, hrope, hcmd', hpendq', hsettled'⟩ := State.haltStart_idle hsettled1 (by rw [hloadcap]; exact hctx1)
      (hstate.trans hvalid) (by rw [hpass']; exact hpass) hloaded
    refine ⟨_, y, exec_passStart_due hacts hctx hdue hcmd hstarted (hcmd'.trans ((congrArg Capstan.cmd hloadcap).trans hcmd)) hpendq' hsettled', hy,
      hhalted, hfault, hydue.trans hdue', hrope.trans hloadrope⟩
  · have hmissed : (s.reportEmpty i ctx).endReported ctx = s.reportEmpty i ctx := by
      rw [State.reportEmpty_first hat hctx hfirst]
      have hctx' : (s.cap.onCtx ctx (fun y => { y with emptied := y.emptied ++ [i] })).ctx? ctx = some { x with emptied := x.emptied ++ [i] } :=
        Capstan.ctx?_onCtx (f := fun y => { y with emptied := y.emptied ++ [i] }) hctx (Capstan.ctx?_id (x := x) hctx)
      unfold State.endReported
      dsimp only
      rw [Capstan.ctxOr_of_ctx? (by exact hctx'), if_neg]
      rw [List.all_eq_true]
      intro hall
      have hin := hall j (List.mem_filter.mpr ⟨List.mem_range.mpr hj, hlive⟩)
      simp [hmissing, hne] at hin
    obtain ⟨z, hreported⟩ := State.reportEmpty_reported hat hsettled hctx
    refine ⟨sl.count 0x406 0 (some ctx) 1, ?_, rfl, rfl, rfl, rfl⟩
    rw [exec_slicePassEmpty_reports hat hworks hctx hpass hdue hholds, hmissed, deliverAll_settled _ hreported.settled,
      State.reportEmpty_first hat hctx hfirst]
  · rw [exec_slicePassEmpty, execSlicePassEmpty, hat]
    dsimp only
    rw [if_pos (by simp [hholds])]
  · obtain ⟨z, hreported⟩ := State.reportEmpty_reported hat hsettled hctx
    have hover : x.overrunFrom = none := hsettled.2 x (List.mem_of_find?_eq_some hctx)
    obtain ⟨hsettled', hctx', hrope, hlog⟩ := hreported.ends hpass hdue hinvalid hfaulted hover hacts hall hempty
    refine ⟨_, _, (exec_slicePassEmpty_reports hat hworks hctx hpass hdue hholds).trans (congrArg _ (deliverAll_settled _ hsettled')), hctx', rfl,
      hrope, hlog⟩
  · obtain ⟨e, hfind, hlive, hstatus⟩ := Capstan.onCtx_table hctx hid
    refine ⟨e, hfind, hlive, hstatus, ?_⟩
    rw [hstatus]
    exact (f x).status_fields
end

section
/-!
Context commands (R463 to R468, R477 to R479): the word that requests one, what is done with it at once, and the entry of a VALIDATE or STAGE.
-/

namespace Sys2Proof.Machine

/-! ### The word of a command (R477) -/

theorem fields_command {ctx op : Nat} (hctx : ctx < 4096) (hop : op < 16) :
    (fields [place ctx 12 0, place op 4 12]).toNat = ctx + op * 4096 := by
  simp only [fields, reg, place, Nat.shiftLeft_eq, List.sum_cons, List.sum_nil, BitVec.toNat_ofNat]
  omega

theorem fields_stage (ctx : Nat) : fields [place ctx 12 0, place 3 4 12, flag false 16] = fields [place ctx 12 0, place 3 4 12] := by
  simp [fields, flag]

theorem command_fields {ctx op : Nat} (hctx : ctx < 4096) (hop : op < 16) :
    field (ctx + op * 4096) 11 0 = ctx ∧ field (ctx + op * 4096) 15 12 = op ∧ bit (ctx + op * 4096) 16 = false ∧ (ctx + op * 4096) >>> 17 = 0 := by
  refine ⟨?_, ?_, ?_, ?_⟩
  · simp only [field, Nat.shiftRight_eq_div_pow]
    omega
  · simp only [field, Nat.shiftRight_eq_div_pow]
    omega
  · exact Nat.testBit_lt_two_pow (by omega)
  · rw [Nat.shiftRight_eq_div_pow]
    omega

theorem CtxOp.of_code (op : CtxOp) : ctxOp? op.code = some op ∧ op.code < 16 := by
  cases op <;> exact ⟨rfl, by decide⟩

/-- The Capstan with its command in progress and CTX_CMD_RESULT replaced. -/
def Capstan.setCmd (c : Capstan) (k : Option CtxCmd) (r : Reg) : Capstan := { c with cmd := k, ctxResult := r }

theorem Capstan.setCmd_ctxs (c : Capstan) (k : Option CtxCmd) (r : Reg) : (c.setCmd k r).ctxs = c.ctxs := rfl

theorem Capstan.setCmd_ctx? (c : Capstan) (k : Option CtxCmd) (r : Reg) (id : Nat) : (c.setCmd k r).ctx? id = c.ctx? id := rfl

theorem Capstan.setCmd_hl (c : Capstan) (k : Option CtxCmd) (r : Reg) : (c.setCmd k r).hl = c.hl := rfl

/-- The Capstan with a command in progress. -/
def Capstan.begun (c : Capstan) (op : CtxOp) (ctx : Nat) (wb : Bool) : Capstan :=
  c.setCmd (some { op := op, ctx := ctx, withBoundary := wb, after := false }) (resultReg 0x02 true op.code ctx 0)

theorem Capstan.begun_ctxs (c : Capstan) (op : CtxOp) (ctx : Nat) (wb : Bool) : (c.begun op ctx wb).ctxs = c.ctxs := c.setCmd_ctxs _ _

theorem Capstan.begun_ctx? (c : Capstan) (op : CtxOp) (ctx : Nat) (wb : Bool) (id : Nat) : (c.begun op ctx wb).ctx? id = c.ctx? id :=
  c.setCmd_ctx? _ _ _

theorem Capstan.begun_hl (c : Capstan) (op : CtxOp) (ctx : Nat) (wb : Bool) : (c.begun op ctx wb).hl = c.hl := c.setCmd_hl _ _

/-- A record after CTX_CMD_RESULT has changed. -/
theorem Capstan.setResult_note (c : Capstan) (r : Reg) (code : Nat) (data : List Byte) :
    (({ c with ctxResult := r } : Capstan).note code data).ctxs = c.ctxs ∧ (({ c with ctxResult := r } : Capstan).note code data).cmd = c.cmd ∧
      (({ c with ctxResult := r } : Capstan).note code data).log.next = c.log.next + 1 ∧
      (({ c with ctxResult := r } : Capstan).note code data).ctxResult = r :=
  ⟨Capstan.note_ctxs _ _ _ _, Capstan.note_cmd _ _ _ _, Capstan.note_next _ _ _, Capstan.note_ctxResult _ _ _ _⟩

/-- A refused command (R479). -/
theorem Capstan.refuseCmd_spec (c : Capstan) (op : CtxOp) (ctx code : Nat) :
    (c.refuseCmd op ctx code).ctxs = c.ctxs ∧ (c.refuseCmd op ctx code).cmd = c.cmd ∧ (c.refuseCmd op ctx code).log.next = c.log.next + 1 ∧
      (c.refuseCmd op ctx code).ctxResult = resultReg code c.cmd.isSome op.code ctx 0 := c.setResult_note _ _ _

theorem State.settled.withCap {s : State} {c : Capstan} (h : s.settled) (hc : c.ctxs = s.cap.ctxs) : (s.withCap c).settled :=
  ⟨h.1, fun x hx => h.2 x (hc ▸ hx)⟩

/-- A command without a boundary for a context whose next pass is not due: begun where the context allows it, else refused. -/
theorem State.command_now {s : State} {op : CtxOp} {ctx : Nat} {x : Ctx} (hdecides : s.decides) (hcmd : s.cap.cmd = none)
    (hready : s.cap.su.state = .ready) (hctx : ctx < 4096) (hcount : ctx < s.cap.img.ctxCount) (hx : s.cap.ctxOr ctx = x)
    (hdue : x.awaitStart = false) : s.command (ctx + op.code * 4096) =
      if ctxAllows x op false then (s.withCap (s.cap.begun op ctx false)).runCmd { op := op, ctx := ctx, withBoundary := false, after := false }
      else s.withCap (s.cap.refuseCmd op ctx 0x04) := by
  obtain ⟨hcode, hlt⟩ := op.of_code
  obtain ⟨h1, h2, h3, h4⟩ := command_fields hctx hlt
  unfold State.command
  dsimp only
  rw [h1, h2, h3, h4, hcode]
  dsimp only
  rw [if_neg (by simp [hdecides.2.2]), if_neg (by simp [hcmd]), if_neg (by simp [hready]), if_neg (by simp; omega), hx, hdue]
  cases ctxAllows x op false <;> rfl

/-- A write of CTX_CMD is the command and its response. -/
theorem State.busWrite_command {s : State} {op : CtxOp} {ctx : Nat} {u : State} (hdecides : s.decides) (hctx : ctx < 4096)
    (hu : s.command (ctx + op.code * 4096) = u) (hsettled : u.settled) :
    s.busWrite 0x0228 (fields [place ctx 12 0, place op.code 4 12]) = u.respond 0 0 := by
  obtain ⟨hpower, hrestart, hfailed⟩ := hdecides
  rw [s.busWrite_cap 0x0228 _ hpower hrestart hfailed (by decide) (by decide) (by rfl)]
  have hwrite : s.writeCap 0x0228 (fields [place ctx 12 0, place op.code 4 12]) = u := by
    unfold State.writeCap
    rw [if_pos rfl, fields_command hctx op.of_code.2, hu]
  rw [hwrite, deliverAll_settled _ (State.respond_settled _ 0 0 hsettled)]

/-! ### A boundary of a pass that is not empty (R382, R383) -/

theorem updateWhere_any {α : Type} {p q : α → Bool} {f : α → α} (xs : List α) (h : ∀ x, q (f x) = q x) : (updateWhere p f xs).any q = xs.any q := by
  unfold updateWhere
  rw [List.any_map]
  refine congrArg xs.any (funext fun x => ?_)
  dsimp only [Function.comp]
  split
  · exact h x
  · rfl

theorem Slice.drainCtx_holdsPass (sl : Slice) (k ctx : Nat) : (sl.drainCtx k).holdsPass ctx = sl.holdsPass ctx := by
  have hbins : (sl.drainCtx k).mash.bins.any (fun b => decide (b.ctx = ctx)) = sl.mash.bins.any (fun b => decide (b.ctx = ctx)) :=
    updateWhere_any _ fun _ => rfl
  have hgathers : (sl.drainCtx k).mash.gathers.any (fun g => decide (g.ctx = ctx)) = sl.mash.gathers.any (fun g => decide (g.ctx = ctx)) :=
    updateWhere_any _ fun _ => rfl
  have hwork : (sl.drainCtx k).holdsWork ctx = sl.holdsWork ctx := by
    unfold Slice.holdsWork
    rw [hbins, hgathers]
    rfl
  unfold Slice.holdsPass
  rw [hwork]
  rfl

/-- Whether a pass is empty does not depend on what is ready, nor on contexts. -/
theorem State.passEmpty_drained {s : State} {c : Capstan} (k ctx : Nat) (hhl : c.hl = s.cap.hl) :
    ((s.withCap c).eachSlice (fun _ sl => sl.drainCtx k)).passEmpty ctx = s.passEmpty ctx := by
  have hlive : ((s.withCap c).eachSlice (fun _ sl => sl.drainCtx k)).slices.any (fun sl => c.isLive sl.id && sl.holdsPass ctx) =
      s.slices.any (fun sl => s.cap.isLive sl.id && sl.holdsPass ctx) := by
    have : c.isLive = s.cap.isLive := by unfold Capstan.isLive; rw [hhl]
    rw [this, State.eachSlice_slices, List.any_map]
    refine congrArg s.slices.any (funext fun sl => ?_)
    dsimp only [Function.comp]
    rw [Slice.drainCtx_holdsPass]
    rfl
  have hsends : ((s.withCap c).eachSlice (fun _ sl => sl.drainCtx k)).sends ctx = s.sends ctx := by
    refine congrArg s.rope.any (funext fun m => ?_)
    unfold RopeMsg.ctxIs
    split
    · rfl
    · rfl
    · rfl
    · rfl
    · next r =>
      rw [State.eachSlice_slices, List.getElem?_map]
      cases hd : (s.withCap c).slices[m.dest]? with
      | none => rw [show s.slices[m.dest]? = none from hd]; rfl
      | some sl => rw [show s.slices[m.dest]? = some sl from hd]; rfl
  have hunread : ((s.withCap c).eachSlice (fun _ sl => sl.drainCtx k)).unread ctx = s.unread ctx := by
    unfold State.unread
    refine (congrArg (fun ds : List Death => ds.any _) (congrArg Health.deaths hhl)).trans ?_
    refine congrArg s.cap.hl.deaths.any (funext fun d => ?_)
    rw [State.eachSlice_slices, List.getElem?_map]
    cases hd : (s.withCap c).slices[d.slice]? with
    | none => rw [show s.slices[d.slice]? = none from hd]; rfl
    | some sl => rw [show s.slices[d.slice]? = some sl from hd]; rfl
  unfold State.passEmpty
  rw [hsends, hunread]
  exact congrArg (fun b => !b && !s.sends ctx && !s.unread ctx) hlive

/-- A boundary of a running pass that is not empty: the pass drains. -/
theorem State.boundaryOf_running {s : State} {ctx : Nat} {x : Ctx} (tick : Option Nat) (hx : s.cap.ctx? ctx = some x) (hrun : x.pass = .running)
    (hempty : s.passEmpty ctx = false) :
    s.boundaryOf ctx tick = (s.withCap (s.cap.onCtx ctx (fun c => c.draining tick))).eachSlice (fun _ sl => sl.drainCtx ctx) := by
  have hx' : (s.cap.onCtx ctx (fun c => c.draining tick)).ctx? ctx = some (x.draining tick) :=
    Capstan.ctx?_onCtx (f := fun c => c.draining tick) hx (Capstan.ctx?_id (x := x) hx)
  have hempty' := State.passEmpty_drained (s := s) (c := s.cap.onCtx ctx (fun c => c.draining tick)) ctx ctx rfl
  have hend : ((s.withCap (s.cap.onCtx ctx (fun c => c.draining tick))).eachSlice (fun _ sl => sl.drainCtx ctx)).endIfEmpty ctx =
      (s.withCap (s.cap.onCtx ctx (fun c => c.draining tick))).eachSlice (fun _ sl => sl.drainCtx ctx) := by
    unfold State.endIfEmpty
    rw [State.eachSlice_cap]
    rw [show (s.withCap (s.cap.onCtx ctx (fun c => c.draining tick))).cap.ctx? ctx = some (x.draining tick) from hx']
    dsimp only
    rw [if_neg (by rw [hempty', hempty]; simp)]
  unfold State.boundaryOf
  rw [hx]
  dsimp only
  rw [if_pos hrun]
  exact hend

theorem mem_insertBy {α : Type} {lt : α → α → Bool} {x z : α} {xs : List α} (h : z ∈ insertBy lt x xs) : z = x ∨ z ∈ xs := by
  induction xs with
  | nil => simpa [insertBy] using h
  | cons y ys ih =>
    unfold insertBy at h
    split at h
    · simpa using h
    · rcases List.mem_cons.mp h with rfl | h
      · exact .inr List.mem_cons_self
      · exact (ih h).imp_right (List.mem_cons_of_mem y)

theorem filter_insertBy {α : Type} {lt : α → α → Bool} {p : α → Bool} {x : α} (xs : List α) (hx : p x = false) :
    (insertBy lt x xs).filter p = xs.filter p := by
  induction xs with
  | nil => simp [insertBy, hx]
  | cons y ys ih =>
    unfold insertBy
    split
    · rw [List.filter_cons_of_neg (by simp [hx])]
    · simp [List.filter_cons, ih]

/-- The pending block that a second write of an entry leaves is the first one's. -/
theorem Ctx.entry_again {x y : Ctx} (old : Option TableEntry) (h : y.pend = x.pend) : y.entry (some (x.entry old)) = y.entry old := by
  unfold Ctx.entry
  rw [h]
  cases x.pend <;> rfl

theorem State.passEmpty_congr {s t : State} (ctx : Nat) (hslices : t.slices = s.slices) (hrope : t.rope = s.rope) (hhl : t.cap.hl = s.cap.hl) :
    t.passEmpty ctx = s.passEmpty ctx := by
  unfold State.passEmpty State.sends State.unread Capstan.isLive
  rw [hhl, hrope, hslices]
  have hmsg : RopeMsg.ctxIs t ctx = RopeMsg.ctxIs s ctx := funext fun m => by
    unfold RopeMsg.ctxIs
    rw [hslices]
  rw [hmsg]

theorem State.passEmpty_withCap {s : State} {c : Capstan} (ctx : Nat) (hhl : c.hl = s.cap.hl) : (s.withCap c).passEmpty ctx = s.passEmpty ctx :=
  State.passEmpty_congr (s := s) (t := s.withCap c) ctx rfl rfl hhl

/-- A boundary of a running pass that is not empty, by what it leaves of the Capstan. -/
theorem State.boundary_drains {s : State} {ctx : Nat} {x : Ctx} (hx : s.cap.ctx? ctx = some x) (hrun : x.pass = .running)
    (hempty : s.passEmpty ctx = false) (hsettled : s.settled) :
    ∃ u, s.boundaryOf ctx none = u ∧ u.cap = s.cap.onCtx ctx (fun c => c.draining none) ∧ u.settled := by
  refine ⟨_, State.boundaryOf_running none hx hrun hempty, rfl, ?_⟩
  exact State.settled.eachSlice (State.settled.onCtx (f := fun c => c.draining none) hsettled fun _ h => h) fun _ _ => rfl

/-- Two changes of a context are one: its entry is written with what it is in the end. -/
theorem Capstan.onCtx_onCtx {c : Capstan} {id : Nat} {x : Ctx} {f g : Ctx → Ctx} (hx : c.ctx? id = some x) (hf : ∀ y, (f y).id = y.id)
    (hg : ∀ y, (g y).id = y.id) (hpend : (g (f x)).pend = (f x).pend) : (c.onCtx id f).onCtx id g = c.onCtx id (fun y => g (f y)) := by
  have hid := Capstan.ctx?_id hx
  have hctxs : updateWhere (fun x => x.id = id) g (updateWhere (fun x => x.id = id) f c.ctxs) = updateWhere (fun x => x.id = id) (fun y => g (f y)) c.ctxs := by
    unfold updateWhere
    rw [List.map_map]
    refine List.map_congr_left fun y _ => ?_
    by_cases hy : y.id = id <;> simp [hy, hf]
  have hfirst : ({ c with ctxs := updateWhere (fun x => x.id = id) f c.ctxs } : Capstan).ctx? id = some (f x) :=
    find?_updateWhere hx (by simp [hf, hid])
  have hboth : ({ c with ctxs := updateWhere (fun x => x.id = id) (fun y => g (f y)) c.ctxs } : Capstan).ctx? id = some (g (f x)) :=
    find?_updateWhere (f := fun y => g (f y)) hx (by simp [hf, hg, hid])
  have hold : ∀ y ∈ c.table.filter (fun e => e.ctx != id), decide (y.ctx = id) = false := fun y hy => by
    simpa using (List.mem_filter.mp hy).2
  have hstored : (c.onCtx id f).table = insertBy (fun a b => decide (a.ctx < b.ctx)) ((f x).entry (c.table.find? (fun e => e.ctx = id)))
      (c.table.filter (fun e => e.ctx != id)) := by
    unfold Capstan.onCtx Capstan.writeEntry
    rw [hfirst]
  have hfound : (c.onCtx id f).table.find? (fun e => e.ctx = id) = some ((f x).entry (c.table.find? (fun e => e.ctx = id))) := by
    rw [hstored]
    exact find?_insertBy (p := fun e : TableEntry => decide (e.ctx = id)) _ (decide_eq_true ((hf x).trans hid)) hold
  have hothers : (c.onCtx id f).table.filter (fun e => e.ctx != id) = c.table.filter (fun e => e.ctx != id) := by
    rw [hstored, filter_insertBy _ (by simp [Ctx.entry, hf, hid]), List.filter_filter]
    simp
  have htable : ((c.onCtx id f).onCtx id g).table = (c.onCtx id (fun y => g (f y))).table := by
    have hsecond : ({ c.onCtx id f with ctxs := updateWhere (fun x => x.id = id) g (c.onCtx id f).ctxs } : Capstan).ctx? id = some (g (f x)) := by
      rw [Capstan.onCtx_ctxs, hctxs]
      exact hboth
    calc ((c.onCtx id f).onCtx id g).table
        = insertBy (fun a b => decide (a.ctx < b.ctx)) ((g (f x)).entry ((c.onCtx id f).table.find? (fun e => e.ctx = id)))
            ((c.onCtx id f).table.filter (fun e => e.ctx != id)) := by
          rw [Capstan.onCtx.eq_1 (c.onCtx id f), Capstan.writeEntry]
          rw [hsecond]
      _ = insertBy (fun a b => decide (a.ctx < b.ctx)) ((g (f x)).entry (c.table.find? (fun e => e.ctx = id)))
            (c.table.filter (fun e => e.ctx != id)) := by rw [hfound, hothers, Ctx.entry_again _ hpend]
      _ = (c.onCtx id (fun y => g (f y))).table := by
          rw [Capstan.onCtx.eq_1 c, Capstan.writeEntry, hboth]
  have hrest : (c.onCtx id f).onCtx id g = { c.onCtx id (fun y => g (f y)) with
      ctxs := ((c.onCtx id f).onCtx id g).ctxs, table := ((c.onCtx id f).onCtx id g).table } := rfl
  rw [hrest, htable]
  exact congrArg (fun xs => { c.onCtx id (fun y => g (f y)) with ctxs := xs }) hctxs

/-- An INVALIDATE of a context whose running pass is not empty: the pass drains towards it. -/
theorem State.invalidate_drains {s : State} {c : Capstan} {ctx : Nat} {x : Ctx} (wb : Bool) (hx : c.ctx? ctx = some x) (hhl : c.hl = s.cap.hl)
    (hsettled : (s.withCap c).settled) (hpass : x.pass = .running) (hempty : s.passEmpty ctx = false) :
    ∃ u, (s.withCap c).runCmd { op := .invalidate, ctx := ctx, withBoundary := wb, after := false } = u ∧
      u.cap = c.onCtx ctx (fun y => { y with pass := .draining, toInvalid := true, emptied := [], tick := none }) ∧ u.settled := by
  have hmarked : (c.onCtx ctx (fun y => { y with toInvalid := true })).ctx? ctx = some { x with toInvalid := true } :=
    Capstan.ctx?_onCtx (f := fun y => { y with toInvalid := true }) hx (Capstan.ctx?_id (x := x) hx)
  obtain ⟨u, hu, hcap, hsettled'⟩ := State.boundary_drains (s := s.withCap (c.onCtx ctx (fun y => { y with toInvalid := true }))) hmarked hpass
    ((State.passEmpty_withCap ctx ((Capstan.onCtx_hl _ _ _).trans hhl)).trans hempty) (State.settled.onCtx (s := s.withCap c) hsettled fun _ h => h)
  refine ⟨u, ?_, ?_, hsettled'⟩
  · rw [← hu]
    unfold State.runCmd
    dsimp only
    rw [Capstan.ctxOr_of_ctx? (by exact hmarked), if_neg (by simp [hpass])]
    rfl
  · rw [hcap]
    exact Capstan.onCtx_onCtx (f := fun y => { y with toInvalid := true }) (g := fun y => y.draining none) hx (fun _ => rfl) (fun _ => rfl) rfl

/-- The command in progress ends with DONE. -/
theorem Capstan.endCmd_done {c : Capstan} {k : CtxCmd} (d : Nat) (hcmd : c.cmd = some k) :
    c.endCmd 1 d = c.setCmd none (resultReg 1 false k.op.code k.ctx d) := by
  unfold Capstan.endCmd
  rw [hcmd]
  rfl

theorem Capstan.cmdDone_own {c : Capstan} {k : CtxCmd} (hcmd : c.cmd = some k) : c.cmdDone k.op k.ctx = c.endCmd 1 0 := by
  unfold Capstan.cmdDone
  rw [hcmd, if_pos (by simp)]

theorem State.clearFault_run (s : State) (c : Capstan) (ctx : Nat) (wb : Bool) :
    (s.withCap c).runCmd { op := .clearFault, ctx := ctx, withBoundary := wb, after := false } =
      (s.withCap (c.onCtx ctx Ctx.clearFault)).broadcast := rfl

theorem State.settled.clearFault {s : State} {c : Capstan} (ctx : Nat) (h : (s.withCap c).settled) :
    (s.withCap (c.onCtx ctx Ctx.clearFault)).broadcast.settled :=
  State.settled.broadcast (State.settled.onCtx (s := s.withCap c) h fun _ h => h)

/-- A BOUNDARY command of a context whose running pass is not empty: the pass drains, and the command is DONE. -/
theorem State.boundary_done {s : State} {c : Capstan} {ctx : Nat} {x : Ctx} (r : Reg) (hx : c.ctx? ctx = some x) (hhl : c.hl = s.cap.hl)
    (hsettled : (s.withCap c).settled) (hpass : x.pass = .running) (hempty : s.passEmpty ctx = false) :
    ∃ u, (s.withCap (c.setCmd (some { op := .boundary, ctx := ctx, withBoundary := false, after := false }) r)).runCmd
        { op := .boundary, ctx := ctx, withBoundary := false, after := false } = u ∧
      u.cap = (c.onCtx ctx (fun y => { y with pass := .draining, emptied := [], tick := none })).setCmd none (resultReg 1 false 4 ctx 0) ∧ u.settled := by
  generalize hk : ({ op := .boundary, ctx := ctx, withBoundary := false, after := false } : CtxCmd) = k
  obtain ⟨u, hu, hcap, hsettled'⟩ := State.boundary_drains (s := s.withCap (c.setCmd (some k) r)) hx hpass
    ((State.passEmpty_withCap ctx ((c.setCmd_hl _ _).trans hhl)).trans hempty)
    ⟨hsettled.1, hsettled.2⟩
  have hcmd : u.cap.cmd = some k := by rw [hcap]; rfl
  have hdone : u.cap.cmdDone .boundary ctx = u.cap.setCmd none (resultReg 1 false 4 ctx 0) := by
    have h := (Capstan.cmdDone_own hcmd).trans (Capstan.endCmd_done 0 hcmd)
    rw [← hk] at h
    exact h
  refine ⟨u.withCap (u.cap.setCmd none (resultReg 1 false 4 ctx 0)), ?_, ?_, hsettled'.withCap (u.cap.setCmd_ctxs _ _)⟩
  · rw [← hdone, ← hu, ← hk]
    rfl
  · change u.cap.setCmd none (resultReg 1 false 4 ctx 0) = _
    rw [hcap]
    rfl

/-! ### Writes of cask lines (R321, R342) -/

/-- Nothing but the slice cache and counters differs. -/
def Slice.OnlyCache (sl t : Slice) : Prop := t = { sl with cache := t.cache, cnt := t.cnt }

theorem Slice.OnlyCache.refl (sl : Slice) : sl.OnlyCache sl := rfl

theorem Slice.OnlyCache.trans {a b c : Slice} (h : a.OnlyCache b) (k : b.OnlyCache c) : a.OnlyCache c := by
  unfold Slice.OnlyCache at *
  rw [k, h]

theorem Slice.OnlyCache.mail {sl t : Slice} (h : sl.OnlyCache t) : t.mail = sl.mail := by
  rw [h]

theorem Slice.missFor_onlyCache (env : Capstan) (sl : Slice) (w : Waiting) : sl.OnlyCache (sl.missFor env w) := by
  unfold Slice.missFor
  split <;> rfl

theorem Slice.writeLater_onlyCache (env : Capstan) (sl : Slice) (w : Waiting) : sl.OnlyCache (sl.writeLater env w) := by
  unfold Slice.writeLater
  dsimp only
  split
  · rfl
  · split
    · rfl
    · split
      · split
        · rfl
        · exact sl.missFor_onlyCache env w
      · rfl

theorem Slice.change_onlyCache (env : Capstan) (sl : Slice) (w : Waiting) : sl.OnlyCache (sl.change env w) := by
  unfold Slice.change
  split
  · rfl
  · exact sl.writeLater_onlyCache env w

theorem Slice.writeLine_onlyCache (env : Capstan) (sl : Slice) (src ctx addr : Nat) (data : List Byte) (clean : Bool) (poison : List Nat) :
    sl.OnlyCache (sl.writeLine env src ctx addr data clean poison) := by
  unfold Slice.writeLine
  dsimp only
  exact Slice.OnlyCache.trans (b := { sl with cache := (sl.cache.sequence src addr).2 }) rfl ((Slice.change_onlyCache env _ _).trans rfl)

theorem writeMapLines_onlyCache (env : Capstan) (c : Ctx) (moved : List (Nat × Nat)) (fuel k : Nat) (sl : Slice) :
    sl.OnlyCache (writeMapLines env c moved fuel k sl).2 := by
  induction fuel generalizing k sl with
  | zero => rfl
  | succ fuel ih =>
    unfold writeMapLines
    split
    · rfl
    · exact (sl.writeLine_onlyCache env _ _ _ _ _ _).trans (ih _ _)

theorem Slice.writeMaps_mail (env : Capstan) (sl : Slice) : (sl.writeMaps env).mail = sl.mail := by
  have hfold (ms : List OwnerMap) (f : Slice → OwnerMap → Slice) (hf : ∀ t m, (f t m).mail = t.mail) (t : Slice) : (ms.foldl f t).mail = t.mail := by
    induction ms generalizing t with
    | nil => rfl
    | cons m ms ih => rw [List.foldl_cons, ih, hf]
  unfold Slice.writeMaps
  refine hfold _ _ (fun t m => ?_) sl
  dsimp only
  split
  · rfl
  · exact (writeMapLines_onlyCache env _ _ _ _ t).mail

/-! ### The entry of a VALIDATE or STAGE (R464, R465, R468) -/

theorem padTo_full {n : Nat} {bs : List Byte} (h : bs.length = n) : padTo n bs = bs := by
  unfold padTo
  rw [h, Nat.sub_self, List.replicate_zero, List.append_nil, List.take_of_length_le (Nat.le_of_eq h)]

/-- The codes of a check that fails (R465). -/
theorem entryFails_code {c : Capstan} {v : Bool} {ctx code d : Nat} {f b : Bytes} (h : entryFails c v ctx f b = some (code, d)) : code ≠ 1 := by
  unfold entryFails at h
  dsimp only at h
  obtain ⟨e, he, heq⟩ := Option.map_eq_some_iff.mp h
  have hmem := mem_indexed (List.mem_of_find?_eq_some he)
  have hcode : e.2.2 = code := congrArg Prod.fst heq
  simp only [List.mem_cons, List.not_mem_nil, or_false] at hmem
  rcases hmem with h | h | h | h | h | h | h | h | h | h <;> simp [← hcode, h]

/-- The command in progress ends with an outcome that is not DONE: it has its record. -/
theorem Capstan.endCmd_failed {c : Capstan} {k : CtxCmd} {code : Nat} (d : Nat) (hcmd : c.cmd = some k) (hcode : code ≠ 1) :
    (c.endCmd code d).ctxResult = resultReg code false k.op.code k.ctx d ∧ (c.endCmd code d).cmd = none ∧ (c.endCmd code d).ctxs = c.ctxs ∧
      (c.endCmd code d).log.next = c.log.next + 1 := by
  unfold Capstan.endCmd
  rw [hcmd]
  dsimp only
  rw [if_neg hcode]
  exact ⟨Capstan.note_ctxResult _ _ _ _, Capstan.note_cmd _ _ _ _, Capstan.note_ctxs _ _ _ _, Capstan.note_next _ _ _⟩

/-- The entry that a VALIDATE waits for. -/
theorem exec_entry_validate {s : State} {k : CtxCmd} (entry : List Byte) (poison : Bool) (hacts : s.cap.acts = true) (hcmd : s.cap.cmd = some k)
    (hafter : k.after = false) (hop : k.op = .validate) (hdue : (s.cap.ctxOr k.ctx).awaitStart = false) :
    exec (.contextEntryRead entry poison) s = .next (deliverAll (s.entryRead k entry poison)) := by
  rw [exec_contextEntryRead, execContextEntryRead, hcmd]
  dsimp only
  rw [if_neg (by simp [hacts, hafter, hop, hdue])]

theorem exec_entry_stage {s : State} {k : CtxCmd} (entry : List Byte) (poison : Bool) (hacts : s.cap.acts = true) (hcmd : s.cap.cmd = some k)
    (hafter : k.after = false) (hop : k.op = .stage) :
    exec (.contextEntryRead entry poison) s = .next (deliverAll (s.entryRead k entry poison)) := by
  rw [exec_contextEntryRead, execContextEntryRead, hcmd]
  dsimp only
  rw [if_neg (by simp [hacts, hafter, hop])]

/-- A context that is made valid is in the table, its pass 0 due; nothing is told. -/
theorem State.makeValid_spec {s : State} (ctx : Nat) (f b : Bytes) (hsettled : s.settled) :
    (∃ x, (s.makeValid ctx f b).cap.ctx? ctx = some x ∧ x.cstate = .valid ∧ x.pass = .none ∧ x.awaitStart = true ∧ x.fixed = f ∧ x.live = b) ∧
      (s.makeValid ctx f b).cap.cmd = s.cap.cmd ∧ (s.makeValid ctx f b).cap.log = s.cap.log ∧ (s.makeValid ctx f b).settled := by
  unfold State.makeValid
  dsimp only
  refine ⟨⟨{ blankCtx ctx with fixed := f, live := b, cstate := .valid, appliedSeq := le b 44 4, awaitStart := true }, ?_, rfl, rfl, rfl, rfl, rfl⟩,
    rfl, rfl, ?_⟩
  · refine find?_insertBy (p := fun y : Ctx => decide (y.id = ctx)) _ (by exact decide_eq_true rfl) fun y hy => ?_
    simpa using (List.mem_filter.mp hy).2
  · refine State.settled.eachSlice (State.settled.broadcast ⟨hsettled.1, fun y hy => ?_⟩) fun env sl => ?_
    · rcases mem_insertBy hy with rfl | hy
      · rfl
      · exact hsettled.2 y (List.mem_filter.mp hy).1
    · split
      · exact Slice.writeMaps_mail _ _
      · rfl

end Sys2Proof.Machine
open Sys2Proof Sys2Proof.Machine

/-- Settles O50: a command is begun or refused by what its context allows, and the entry is taken, pending, or the command's end. -/
theorem contextCommandsAreHandled : Obligations.ContextCommandsAreHandled := by
  unfold Obligations.ContextCommandsAreHandled
  dsimp only
  refine ⟨fun s ctx hdecides hsettled hcmd hready hctx hcount hx => ?_,
    fun s ctx x hdecides hsettled hcmd hready hctx hcount hx hdue hstate => ?_,
    fun s ctx x hdecides hsettled hcmd hready hctx hcount hx hdue hstate hpass hempty => ?_,
    fun s ctx x hdecides hsettled hcmd hready hctx hcount hx hdue hstate hpass hframe hempty => ?_,
    fun s ctx x hdecides hsettled hcmd hready hctx hcount hx hdue hstate hpass => ?_,
    fun s ctx x hdecides hsettled hcmd hready hctx hcount hx hdue hstate => ?_,
    fun s k entry hacts hsettled hcmd hafter hop hdue hlen hchecks => ?_,
    fun s k x entry hacts hsettled hcmd hafter hop hwb hx hlen hchecks => ?_,
    fun s k entry code d hacts hsettled hcmd hafter hop hdue hlen hchecks => ?_,
    fun s k entry hacts hsettled hcmd hafter hop hdue => ?_⟩
  · have hx' : s.cap.ctxOr ctx = blankCtx ctx := by simp [Capstan.ctxOr, hx]
    have hnow := State.command_now (op := .validate) hdecides hcmd hready hctx hcount hx' rfl
    rw [if_pos (by exact rfl)] at hnow
    rw [exec_validate, execValidate]
    have hwrite := State.busWrite_command (op := .validate) hdecides hctx (hnow.trans rfl)
      (u := s.withCap (s.cap.begun .validate ctx false)) (hsettled.withCap (Capstan.begun_ctxs _ _ _ _))
    exact congrArg Host.Outcome.next hwrite
  · have hnow := State.command_now (op := .stage) hdecides hcmd hready hctx hcount (Capstan.ctxOr_of_ctx? hx) hdue
    rw [if_pos (by simp [ctxAllows, hstate])] at hnow
    rw [exec_stage, execStage, fields_stage]
    have hwrite := State.busWrite_command (op := .stage) hdecides hctx (hnow.trans rfl)
      (u := s.withCap (s.cap.begun .stage ctx false)) (hsettled.withCap (Capstan.begun_ctxs _ _ _ _))
    exact congrArg Host.Outcome.next hwrite
  · have hnow := State.command_now (op := .invalidate) hdecides hcmd hready hctx hcount (Capstan.ctxOr_of_ctx? hx) hdue
    rw [if_pos (by simp [ctxAllows, hstate])] at hnow
    obtain ⟨u, hrun, hcap, hsettled'⟩ := State.invalidate_drains (s := s) (c := s.cap.begun .invalidate ctx false) false
      ((s.cap.begun_ctx? _ _ _ _).trans hx) (s.cap.begun_hl _ _ _) (hsettled.withCap (Capstan.begun_ctxs _ _ _ _)) hpass hempty
    refine ⟨u, ?_, hcap⟩
    rw [exec_invalidate, execInvalidate]
    have hwrite := State.busWrite_command (op := .invalidate) hdecides hctx (hnow.trans hrun) hsettled'
    exact congrArg Host.Outcome.next hwrite
  · have hnow := State.command_now (op := .boundary) hdecides hcmd hready hctx hcount (Capstan.ctxOr_of_ctx? hx) hdue
    rw [if_pos (by simp [ctxAllows, hstate, hframe, hpass])] at hnow
    obtain ⟨u, hrun, hcap, hsettled'⟩ := State.boundary_done (s := s) (c := s.cap) (resultReg 0x02 true CtxOp.boundary.code ctx 0) hx rfl hsettled
      hpass hempty
    refine ⟨u, ?_, ?_⟩
    · rw [exec_boundary, execBoundary]
      have hwrite := State.busWrite_command (op := .boundary) hdecides hctx (hnow.trans hrun) hsettled'
      exact congrArg Host.Outcome.next hwrite
    · rw [hcap, ← hcmd]
      rfl
  · have hnow := State.command_now (op := .clearFault) hdecides hcmd hready hctx hcount (Capstan.ctxOr_of_ctx? hx) hdue
    rw [if_pos (by simp [ctxAllows, hstate, hpass])] at hnow
    have hrun := State.clearFault_run s (s.cap.begun .clearFault ctx false) ctx false
    have hsettled' := State.settled.clearFault ctx (hsettled.withCap (s.cap.begun_ctxs .clearFault ctx false))
    rw [exec_clearFault, execClearFault]
    have hwrite := State.busWrite_command (op := .clearFault) hdecides hctx (hnow.trans hrun) hsettled'
    exact congrArg Host.Outcome.next hwrite
  · have hnow := State.command_now (op := .validate) hdecides hcmd hready hctx hcount (Capstan.ctxOr_of_ctx? hx) hdue
    rw [if_neg (by simp [ctxAllows, hstate])] at hnow
    obtain ⟨hctxs, hcmd', hnext, hresult⟩ := s.cap.refuseCmd_spec .validate ctx 0x04
    rw [hcmd] at hcmd' hresult
    refine ⟨s.withCap (s.cap.refuseCmd .validate ctx 0x04), ?_, hresult, hcmd', hctxs, rfl, hnext⟩
    rw [exec_validate, execValidate]
    have hwrite := State.busWrite_command (op := .validate) hdecides hctx hnow (hsettled.withCap hctxs)
    exact congrArg Host.Outcome.next hwrite
  · have hread : s.entryRead k entry false = s.makeValid k.ctx (entry.take 64) ((entry.drop 112).take 48) := by
      unfold State.entryRead
      dsimp only
      rw [padTo_full hlen, hop]
      simp only [decide_true, if_true, hchecks, if_neg Bool.false_ne_true]
    obtain ⟨⟨x, hfound, hstate, hpass, hdue', hfixed, hlive⟩, hcmd', hlog, hsettled'⟩ :=
      State.makeValid_spec k.ctx (entry.take 64) ((entry.drop 112).take 48) hsettled
    rw [exec_entry_validate entry false hacts hcmd hafter hop hdue, hread, deliverAll_settled _ hsettled']
    exact ⟨_, x, rfl, hfound, hstate, hpass, hdue', hfixed, hlive, hcmd'.trans hcmd, hlog⟩
  · have hread : s.entryRead k entry false = s.makePending k ((entry.drop 112).take 48) := by
      unfold State.entryRead
      dsimp only
      rw [padTo_full hlen, hop]
      simp only [reduceCtorEq, decide_false, Bool.false_eq_true, if_false, Capstan.ctxOr_of_ctx? hx, hchecks]
    have hpending : s.makePending k ((entry.drop 112).take 48) = s.withCap ((s.cap.onCtx k.ctx (fun y =>
        { y with pend := some ((entry.drop 112).take 48), late := y.awaitStart })).setCmd none (resultReg 0x01 false 3 k.ctx 0)) := by
      unfold State.makePending
      dsimp only
      rw [hwb, if_neg Bool.false_ne_true]
      have hdone := (Capstan.cmdDone_own (c := s.cap.onCtx k.ctx (fun y => { y with pend := some ((entry.drop 112).take 48), late := y.awaitStart }))
        hcmd).trans (Capstan.endCmd_done 0 hcmd)
      rw [hop] at hdone
      exact congrArg s.withCap hdone
    have hsettled' := State.settled.onCtx (id := k.ctx) (f := fun y => { y with pend := some ((entry.drop 112).take 48), late := y.awaitStart }) hsettled
      fun _ h => h
    rw [exec_entry_stage entry false hacts hcmd hafter hop, hread, hpending, deliverAll_settled]
    · rfl
    · exact hsettled'.withCap (Capstan.setCmd_ctxs _ _ _)
  · have hread : s.entryRead k entry false = s.withCap (s.cap.endCmd code d) := by
      unfold State.entryRead
      dsimp only
      rw [padTo_full hlen, hop]
      simp only [decide_true, if_true, hchecks, if_neg Bool.false_ne_true]
      rfl
    obtain ⟨hresult, hcmd', hctxs, hnext⟩ := Capstan.endCmd_failed d hcmd (entryFails_code hchecks)
    rw [hop] at hresult
    rw [exec_entry_validate entry false hacts hcmd hafter hop hdue, hread, deliverAll_settled]
    · exact ⟨_, rfl, hresult, hcmd', hctxs, rfl, hnext⟩
    · exact hsettled.withCap hctxs
  · have hread : s.entryRead k entry true = s.withCap ((s.cap.note 0x2004 (toLe 2 k.ctx ++ toLe 8 (s.cap.img.ctxBase + 256 * k.ctx))).endCmd 0x09 0) := rfl
    obtain ⟨hresult, hcmd', hctxs, hnext⟩ := Capstan.endCmd_failed (c := s.cap.note 0x2004 (toLe 2 k.ctx ++ toLe 8 (s.cap.img.ctxBase + 256 * k.ctx)))
      (code := 0x09) 0 ((Capstan.note_cmd _ _ _ _).trans hcmd) (by decide)
    rw [Capstan.note_ctxs] at hctxs
    rw [Capstan.note_next] at hnext
    rw [hop] at hresult
    rw [exec_entry_validate entry true hacts hcmd hafter hop hdue, hread, deliverAll_settled]
    · exact ⟨_, rfl, hresult, hcmd', hctxs, rfl, hnext.trans (BitVec.add_assoc _ _ _)⟩
    · exact hsettled.withCap hctxs
end

section
/-!
Bins and gathers that reach their age, and the overflow bin whose bank has a descriptor (R198, R202, R423).
-/

namespace Sys2Proof.Machine

/-- A command of a slice's own work that leaves the slice as it is. -/
theorem onLive_same {s : State} {i : Nat} {sl : Slice} {f : Capstan → Slice → Slice} (w : s.working i sl) (he : f (sl.view s.cap) sl = sl) :
    onLive i s f = .next s := by
  rw [onLive_eq w he rfl rfl, s.put_self i sl w.1]

theorem Slice.flushBin_eq (env : Capstan) {sl : Slice} {k : Nat} {b : Bin} {c : Ctx} (h : sl.mash.bins[k]? = some b) (hc : env.ctx? b.ctx = some c) :
    sl.flushBin env k = if sl.aged (flushAgeOf env c) b.members then
      { sl with mash := { sl.mash with bins := sl.mash.bins.set k { b with ready := some .age } } } else sl := by
  unfold Slice.flushBin
  rw [h]
  dsimp only
  rw [hc]

theorem Slice.flushGather_eq (env : Capstan) {sl : Slice} {k : Nat} {g : Gather} {c : Ctx} (h : sl.mash.gathers[k]? = some g)
    (hc : env.ctx? g.ctx = some c) :
    sl.flushGather env k = if sl.aged (gatherAgeOf env c) g.members then
      { sl with mash := { sl.mash with gathers := sl.mash.gathers.set k { g with ready := some .age } } } else sl := by
  unfold Slice.flushGather
  rw [h]
  dsimp only
  rw [hc]

/-- The first member of the only overflow bin opens a bin of its own. -/
theorem Slice.moveOverflow_opens (env : Capstan) {sl : Slice} {lay bank : Nat} {q : Query} {rest : List Query} {c : Ctx}
    (h : sl.mash.overflow = [(lay, bank, q :: rest)]) (hc : env.ctx? q.ctx = some c) (hlay : lay = sl.layOf q.next.addr)
    (hbank : bank = bankOf q.next.addr) (hopens : sl.opensBin q) :
    sl.moveOverflow env lay bank = { sl with mash := { sl.mash with
      overflow := if rest.isEmpty then [] else [(lay, bank, rest)], bins := sl.mash.bins ++ [sl.newBin env c q] } } := by
  have hfree : sl.mash.bankFree lay bank = true := by
    obtain ⟨-, hfew⟩ := hopens
    subst hlay hbank
    simpa [Mash.bankFree] using hfew
  have hfind : [(lay, bank, q :: rest)].find? (fun o => decide (o.1 = lay) && decide (o.2.1 = bank)) = some (lay, bank, q :: rest) := by simp
  unfold Slice.moveOverflow
  dsimp only
  rw [h, hfind]
  dsimp only
  rw [hfree, Bool.true_or, if_pos rfl, List.filter_cons_of_neg (by simp), List.filter_nil, List.nil_append]
  exact Slice.binQuery_opens env { sl with mash := { sl.mash with overflow := if rest.isEmpty then [] else [(lay, bank, rest)] } } c q hc hopens

end Sys2Proof.Machine

open Sys2Proof Sys2Proof.Machine

/-- Settles O40: readiness by age is one comparison with the oldest member's entry; the moved query opens its bin. -/
theorem binsAndGathersBecomeReady : Obligations.BinsAndGathersBecomeReady := by
  unfold Obligations.BinsAndGathersBecomeReady
  refine ⟨fun s i k sl b c w h hc => ?_, fun s i k sl g c w h hc => ?_, fun s i lay bank sl q rest c w h hc hlay hbank hopens => ?_⟩
  · rw [exec_binFlushAge, execBinFlushAge]
    have hflush := Slice.flushBin_eq _ h hc
    by_cases hage : flushAgeOf s.cap c ≤ (sl.time - oldest b.members) / 2 + 8
    · have haged : sl.aged (flushAgeOf (sl.view s.cap) c) b.members = true := decide_eq_true hage
      rw [if_pos haged] at hflush
      rw [if_pos hage]
      exact onLive_eq w hflush rfl rfl
    · have haged : ¬ sl.aged (flushAgeOf (sl.view s.cap) c) b.members = true := mt of_decide_eq_true hage
      rw [if_neg haged] at hflush
      rw [if_neg hage]
      exact onLive_same w hflush
  · rw [exec_gatherAge, execGatherAge]
    have hflush := Slice.flushGather_eq _ h hc
    by_cases hage : gatherAgeOf s.cap c ≤ (sl.time - oldest g.members) / 2 + 8
    · have haged : sl.aged (gatherAgeOf (sl.view s.cap) c) g.members = true := decide_eq_true hage
      rw [if_pos haged] at hflush
      rw [if_pos hage]
      exact onLive_eq w hflush rfl rfl
    · have haged : ¬ sl.aged (gatherAgeOf (sl.view s.cap) c) g.members = true := mt of_decide_eq_true hage
      rw [if_neg haged] at hflush
      rw [if_neg hage]
      exact onLive_same w hflush
  · rw [exec_overflowBinMove, execOverflowBinMove]
    exact onLive_eq w (Slice.moveOverflow_opens _ h hc hlay hbank hopens) rfl rfl
end

section
/-!
Submissions at the ingress that serves their die (R137, R138, R152, R155, R505).
-/

namespace Sys2Proof.Machine

/-- With a token left and the Capstan at work a record tells the Capstan nothing: it leaves the slice. -/
theorem Slice.log_mail {env : Capstan} {sl : Slice} (code : Nat) (data : List Byte) (x : LogExtra) (htokens : sl.tokens ≠ 0)
    (hrest : env.hl.restarting = none) : (sl.log env code data x).mail = sl.mail := by
  have hheld : env.hl.restarting.isSome = false := by rw [hrest]; rfl
  have hlimit : ¬ (limitedCode code && sl.tokens = 0) = true := by simp [htokens]
  unfold Slice.log
  extract_lets held count out bare sl' before d
  rw [if_neg hlimit, if_neg (by simp [held, hheld])]
  have hmail : sl'.mail = sl.mail := by
    simp only [sl']
    split <;> rfl
  split
  · exact hmail
  · exact hmail

/-- A descriptor that was not read has no reservation to release. -/
theorem Slice.releasePend_unread (sl : Slice) {p : Pend} (hitems : p.items = []) (hstage : p.stage = .descriptor) :
    ∃ st, sl.releasePend p = { sl with store := st } := by
  unfold Slice.releasePend
  extract_lets a granted mine b
  have ha : a = sl := by simp only [a, hitems, List.isEmpty_nil, if_true]
  refine ⟨b.store, ?_⟩
  rw [if_neg (by rw [hstage]; decide)]
  simp only [b, ha]

/-- A descriptor refused unread: its cause is in the register, and its core is told that it was taken. -/
theorem Slice.refuse_unread {env : Capstan} {sl : Slice} {p : Pend} (cause : Nat) (hitems : p.items = []) (hstage : p.stage = .descriptor)
    (htokens : sl.tokens ≠ 0) (hrest : env.hl.restarting = none) :
    (sl.refuse env p cause 0 false).ing = { sl.ing with refuse := refuseReg cause p.core p.desc.ctx p.desc.batchId
                                                        takenOut := sl.ing.takenOut ++ [(p.die, p.core, 0)] } ∧
    (sl.refuse env p cause 0 false).pwr = sl.pwr ∧ (sl.refuse env p cause 0 false).mail = sl.mail := by
  obtain ⟨st, hst⟩ := sl.releasePend_unread hitems hstage
  unfold Slice.refuse
  rw [hst]
  exact ⟨by rw [(Slice.log_logs _ _ _ _ _).rest]; rfl, by rw [(Slice.log_logs _ _ _ _ _).rest]; rfl, Slice.log_mail _ _ _ htokens hrest⟩

/-- The die of a live slice has that slice's ingress. -/
theorem Capstan.ingressOf_live {c : Capstan} {die : Nat} (h : c.isLive die = true) : c.ingressOf die = some die := by
  rw [Capstan.ingressOf, if_pos h]

theorem submit_live {s : State} {die : Nat} {sl : Slice} (core off : Nat) (isG : Bool) (mask : Nat) (h : s.slices[die]? = some sl)
    (hlive : s.cap.isLive die = true) :
    submit die core off isG mask s = onLive die s (fun env sl => (sl.arrive env die core off isG mask).wake) := by
  unfold submit
  rw [h]
  dsimp only
  rw [Capstan.ingressOf_live hlive]

/-- The descriptor of a submission that has just arrived. -/
def Pend.arriving (core die off : Nat) (isG : Bool) (mask : Nat) : Pend :=
  { core := core, die := die, off := off, isG := isG, mask := mask, stage := .descriptor, raw := [], desc := descOf [], index := []
    items := [], handle := 0, admitted := [], maint := [] }

/-- A descriptor's address is bad where it is not aligned, or the descriptor reaches past local memory. -/
theorem badAddress_iff (off : Nat) : badAddress off = true ↔ off % 16 ≠ 0 ∨ 524288 < off + 64 := by
  rw [badAddress, Bool.or_eq_true, bne_iff_ne, decide_eq_true_eq]
  rfl

/-- A submission that arrives at a queue with room and with a sound address waits there. -/
theorem Slice.arrive_joins (env : Capstan) {sl : Slice} (die core : Nat) {off : Nat} (isG : Bool) (mask : Nat) (haligned : off % 16 = 0)
    (hlocal : off + 64 ≤ 524288) (hroom : sl.ing.pendq.length < 256) :
    sl.arrive env die core off isG mask =
      { sl with ing := { sl.ing with pendq := sl.ing.pendq ++ [Pend.arriving core die off isG mask] } } := by
  unfold Slice.arrive
  rw [if_neg (Nat.not_le.mpr hroom), if_neg (mt (badAddress_iff off).mp (by omega))]
  rfl

theorem Slice.arrive_refused (env : Capstan) {sl : Slice} (die core : Nat) {off : Nat} (isG : Bool) (mask : Nat)
    (hbad : off % 16 ≠ 0 ∨ 524288 < off + 64) (hroom : sl.ing.pendq.length < 256) :
    sl.arrive env die core off isG mask = sl.refuse env (Pend.arriving core die off isG mask) 0x01 0 false := by
  unfold Slice.arrive
  rw [if_neg (Nat.not_le.mpr hroom), if_pos ((badAddress_iff off).mpr hbad)]
  rfl

end Sys2Proof.Machine

open Sys2Proof Sys2Proof.Machine

/-- Settles O36: the die's ingress runs `arrive`, once the journal of a dead slice is read. -/
theorem submissionsJoinThePendingQueue : Obligations.SubmissionsJoinThePendingQueue := by
  unfold Obligations.SubmissionsJoinThePendingQueue
  refine ⟨fun s die core off sl mask w hlive haligned hlocal hroom => ⟨?_, ?_⟩, fun s die core off sl w hlive hbad hroom htokens hrest => ?_,
    fun s die core off i b sl mask hdie hdead hing w hjournal hadopting haligned hlocal hroom => ?_, fun s die core off b isG mask hdie hlive => ?_⟩
  · rw [exec_nsub, execNsub, submit_live _ _ _ _ w.1 hlive]
    refine onLive_eq w ?_ rfl rfl
    rw [Slice.arrive_joins _ _ _ _ _ haligned hlocal hroom]
    exact Slice.wake_of_awake w.2.2.1
  · rw [exec_nsubG, execNsubG, submit_live _ _ _ _ w.1 hlive]
    refine onLive_eq w ?_ rfl rfl
    rw [Slice.arrive_joins _ _ _ _ _ haligned hlocal hroom]
    exact Slice.wake_of_awake w.2.2.1
  · obtain ⟨hing, hpwr, hmail⟩ := Slice.refuse_unread (env := sl.view s.cap) (p := Pend.arriving core die off false (2 ^ 64 - 1)) 0x01 rfl rfl
      htokens hrest
    rw [exec_nsub, execNsub, submit_live _ _ _ _ w.1 hlive]
    refine ⟨_, onLive_eq w ?_ (congrArg SlicePower.napping hpwr) hmail, hing⟩
    rw [Slice.arrive_refused _ _ _ _ _ hbad hroom, Slice.wake_of_awake]
    rw [hpwr]
    exact w.2.2.1
  · rw [exec_submissionRePresented, execSubmissionRePresented, List.getElem?_eq_getElem hdie]
    dsimp only
    rw [if_neg (by simp [hdead]), hing]
    dsimp only
    by_cases htaken : (die, core, b) ∈ sl.ing.adopted
    · rw [if_pos htaken]
      refine onLive_same w ?_
      simp [htaken]
    · rw [if_neg htaken]
      refine onLive_eq w ?_ rfl rfl
      rw [if_neg (by simp [htaken, hjournal, hadopting]), Slice.arrive_joins _ _ _ _ _ haligned hlocal hroom]
      exact Slice.wake_of_awake w.2.2.1
  · rw [exec_submissionRePresented, execSubmissionRePresented, List.getElem?_eq_getElem hdie]
    dsimp only
    rw [if_pos hlive]
end

section
/-!
Activation slots and the loan of cask blocks (R469, R470, R343).
-/

namespace Sys2Proof.Machine

/-- The Capstan with a context's activation in a slot, and its requests served. -/
def Capstan.granted (c : Capstan) (slot ctx : Nat) : Capstan :=
  { c with active := c.active ++ [(slot, ctx)], actWait := c.actWait.filter (fun a => a.2 != ctx) }

/-- The slice with a context's slot as it was read. -/
def Slice.loaded (sl : Slice) (slot ctx : Nat) (bs : Bytes) : Slice :=
  { sl with cctx := { sl.cctx with slots := sl.cctx.slots.filter (fun x => x.slot != slot) ++
                        [{ slot := slot, ctx := ctx, fixed := bs.take 64, live := (bs.drop 64).take 48 }] } }

/-- A read that came without poison loads the slot at every slice that works. -/
theorem State.loadSlot_granted {s : State} {slot ctx : Nat} (reads : List EntryRead) (hnew : ∀ a ∈ s.cap.active, a.2 ≠ ctx)
    (hpoison : s.readPoison reads = false) :
    (s.withCap (s.cap.granted slot ctx)).loadSlot ctx reads = { s.withCap (s.cap.granted slot ctx) with
      slices := s.slices.map (fun sl => if sl.works s.cap then
        (sl.loaded slot ctx (s.cap.readEntry ctx (reads.getD sl.id {}))).wake else sl) } := by
  have hfind : (s.cap.granted slot ctx).active.find? (fun a => a.2 = ctx) = some (slot, ctx) := by
    rw [Capstan.granted, List.find?_append, List.find?_eq_none.mpr (by simpa using hnew)]
    simp
  unfold State.loadSlot
  rw [State.withCap, hfind]
  dsimp only
  unfold State.eachSlice
  dsimp only
  refine congrArg (fun xs => { s with cap := s.cap.granted slot ctx, slices := xs }) (List.map_congr_left fun sl hsl => ?_)
  by_cases hworks : sl.works s.cap = true
  · have hclean : (reads.getD sl.id {}).poison = false := by
      simpa [hworks] using List.any_eq_false.mp hpoison sl hsl
    rw [if_pos (by exact hworks), if_pos hworks, CtxCache.load, if_neg (Bool.eq_false_iff.mp hclean)]
    rfl
  · rw [if_neg (by exact hworks), if_neg hworks]

/-- A block given moves the owner map's byte: in the queue of the slice that writes the map, or at the giver. -/
theorem State.moveOwner_due {s : State} {i : Nat} {c : Ctx} {b holder : Nat} {sl : Slice} (h : s.slices[i]? = some sl)
    (hdue : sl.store.maps.any (fun m => m.ctx = c.id && decide (256 * m.next ≤ b)) = true) :
    s.moveOwner i c b holder = { s with slices := s.slices.map (fun sl => { sl with store := { sl.store with
      maps := updateWhere (fun m => m.ctx = c.id && decide (256 * m.next ≤ b)) (fun m => { m with moved := (b, holder) :: m.moved })
        sl.store.maps } }) } := by
  unfold State.moveOwner
  dsimp only
  rw [if_pos (List.any_eq_true.mpr ⟨sl, List.mem_of_getElem? h, hdue⟩)]

theorem State.moveOwner_written {s : State} {i : Nat} {c : Ctx} {b holder : Nat} {sl : Slice} (h : s.slices[i]? = some sl)
    (hnone : ∀ x ∈ s.slices, ∀ m ∈ x.store.maps, (m.ctx = c.id && decide (256 * m.next ≤ b)) = false) :
    s.moveOwner i c b holder = s.put i (sl.writeOwner (sl.view s.cap) c b holder) := by
  have hany : ¬ s.slices.any (fun x => x.store.maps.any (fun m => m.ctx = c.id && decide (256 * m.next ≤ b))) = true := by
    simpa using hnone
  unfold State.moveOwner
  dsimp only
  rw [if_neg hany, State.atSlice_eq h]

/-- A loan of one block ends with it. -/
theorem Capstan.lend_last {c : Capstan} {l : Loan} (h : c.loans = [l]) (hlast : l.missing = 1) : c.lend l = { c with loans := [] } := by
  unfold Capstan.lend
  rw [if_pos (by omega), h]
  simp [Loan.same]

/-- The giver of a block, with the owner map's byte still to be rewritten. -/
def Slice.giving (sl : Slice) (ctx b : Nat) : Slice := (sl.setCask ((sl.cask ctx).give b)).wake

theorem Slice.giving_maps (sl : Slice) (ctx b : Nat) : (sl.giving ctx b).store.maps = sl.store.maps := by
  obtain ⟨p, hp⟩ := Slice.wake_eq (sl.setCask ((sl.cask ctx).give b))
  rw [Slice.giving, hp]
  rfl

theorem Slice.giving_view (sl : Slice) (env : Capstan) (ctx b : Nat) : (sl.giving ctx b).view env = sl.view env := by
  obtain ⟨p, hp⟩ := Slice.wake_eq (sl.setCask ((sl.cask ctx).give b))
  rw [Slice.giving, hp]
  rfl

theorem exec_caskBlockGiven_lends {s : State} {i b : Nat} {sl : Slice} {l : Loan} {c : Ctx} (h : s.slices[i]? = some sl)
    (hworks : sl.works s.cap = true) (hrest : s.cap.hl.restarting = none) (hfailed : s.cap.hl.failed = false)
    (hloan : loanFor s.cap sl b = some (l, c)) :
    exec (.caskBlockGiven i b) s = .next ((((s.put i (sl.giving c.id b)).moveOwner i c b l.slice).atSlice l.slice
      (fun _ sl => sl.setCask ((sl.cask c.id).receive b))).onCap (fun k => k.lend l)) := by
  rw [exec_caskBlockGiven, execCaskBlockGiven, h]
  dsimp only
  rw [if_neg (by simp [hworks, hrest, hfailed]), hloan]
  dsimp only
  rw [State.atSlice_eq h]
  rfl

end Sys2Proof.Machine

open Sys2Proof Sys2Proof.Machine

/-- Settles O39: the grant loads the slot everywhere; a block given moves the map's byte where its line is still to be written. -/
theorem activationSlotsAndCaskBlocksChangeHands : Obligations.ActivationSlotsAndCaskBlocksChangeHands := by
  unfold Obligations.ActivationSlotsAndCaskBlocksChangeHands
  refine ⟨fun s slice ctx slot rest reads hacts hsettled hwait hfree hnew hpoison hpend => ?_, fun s ctx hacts hholds => ?_,
    fun s ctx hholds => ?_, fun s i j b sl sl₂ l c h hworks hrest hfailed h₂ hij hl hlast hloans hloan => ?_⟩
  · have hload := State.loadSlot_granted reads hnew hpoison (slot := slot)
    have hquiet := State.loadSlot_quiet (s.withCap (s.cap.granted slot ctx)) ctx reads hpend
    have hmail := State.loadSlot_mail (s.withCap (s.cap.granted slot ctx)) ctx reads hsettled
    have hclean := (State.loadSlot_poison (s.withCap (s.cap.granted slot ctx)) ctx reads).trans hpoison
    refine ⟨(s.withCap (s.cap.granted slot ctx)).loadSlot ctx reads, ?_, ?_, ?_, ?_⟩
    · rw [exec_activationGranted, execActivationGranted, if_neg (by simp [hacts]), hwait, hfree]
      dsimp only
      change Host.Outcome.next (deliverAll (State.admitAll (if ((s.withCap (s.cap.granted slot ctx)).loadSlot ctx reads).readPoison reads = true then
        ((s.withCap (s.cap.granted slot ctx)).loadSlot ctx reads).entryPoison ctx else (s.withCap (s.cap.granted slot ctx)).loadSlot ctx reads))) = _
      rw [if_neg (by simp [hclean]), State.admitAll_none hquiet, deliverAll_settled _ hmail]
    · rw [hload]
      rfl
    · rw [hload, ← hwait]
      rfl
    · rw [hload]
      rfl
  · rw [exec_activationEnd, execActivationEnd, if_neg (by simp [hacts, hholds])]
    rfl
  · rw [exec_activationEnd, execActivationEnd, if_pos (by simp [hholds])]
  · intro due given hmaps
    have hin : i < s.slices.length := (List.getElem?_eq_some_iff.mp h).1
    have hat : (s.put i (sl.giving c.id b)).slices[i]? = some (sl.giving c.id b) := List.getElem?_set_self hin
    have hat₂ : (s.put i (sl.giving c.id b)).slices[j]? = some sl₂ := (State.put_getElem?_ne hij.symm).trans h₂
    have hmapped : (sl.giving c.id b).store.maps = sl.store.maps := sl.giving_maps c.id b
    rw [exec_caskBlockGiven_lends h hworks hrest hfailed hloan, hl]
    rcases hmaps with hnone | ⟨hdue, hnone⟩
    · have hnot : ¬ sl.store.maps.any due = true := by
        simpa using hnone sl (List.mem_of_getElem? h)
      have hnone' : ∀ x ∈ (s.put i (sl.giving c.id b)).slices, ∀ m ∈ x.store.maps, due m = false := by
        intro x hx
        rcases List.mem_or_eq_of_mem_set hx with hx | rfl
        · exact hnone x hx
        · rw [hmapped]
          exact hnone sl (List.mem_of_getElem? h)
      rw [if_neg hnot, State.moveOwner_written hat hnone', State.put_put, Slice.giving_view,
        State.atSlice_eq ((State.put_getElem?_ne hij.symm).trans h₂)]
      refine ⟨_, rfl, ?_, ?_, Capstan.lend_last hloans hlast, rfl⟩
      · exact (State.put_getElem?_ne hij).trans (List.getElem?_set_self hin)
      · exact List.getElem?_set_self (by simpa [State.put] using (List.getElem?_eq_some_iff.mp h₂).1)
    · have hdue' : (sl.giving c.id b).store.maps.any due = true := by rw [hmapped, hdue]
      rw [if_pos hdue, State.moveOwner_due hat hdue']
      have hkept : updateWhere due (fun m => { m with moved := (b, j) :: m.moved }) sl₂.store.maps = sl₂.store.maps := by
        rw [hnone]
        rfl
      rw [State.atSlice_eq (sl := sl₂) (by rw [List.getElem?_map, hat₂, Option.map_some, hkept])]
      refine ⟨_, rfl, ?_, ?_, Capstan.lend_last hloans hlast, rfl⟩
      · refine (State.put_getElem?_ne hij).trans ?_
        rw [List.getElem?_map, hat]
        rfl
      · exact List.getElem?_set_self (by simpa [State.put] using (List.getElem?_eq_some_iff.mp h₂).1)
end

section
/-!
Messages that arrive, and what the home coalescer does with a RESULT message (R407, R420, R492, R494).
-/

namespace Sys2Proof.Machine

/-! ### Arrival -/

/-- A message that arrives at a slice that works, by what it leaves of the slice. -/
theorem onArrival_eq {s : State} {i k : Nat} {sl t : Slice} {m : RopeMsg} {f : Capstan → Slice → RopeMsg → Option Slice} (w : s.working i sl)
    (hhold : sl.rope.hold = false) (hm : s.rope[k]? = some m) (hdest : m.dest = i) (hfirst : s.firstOfPath k m = true)
    (he : f (sl.view s.cap) sl m = some t) (hpwr : t.pwr = sl.pwr) (hmail : t.mail = sl.mail) :
    onArrival i k s f = .next { s.put i t with rope := s.rope.eraseIdx k } := by
  obtain ⟨hat, hworks, hawake, hsettled⟩ := id w
  have htake : s.takeMsg i k = some (m, { s with rope := s.rope.eraseIdx k }) := by
    unfold State.takeMsg
    rw [hm]
    dsimp only
    rw [if_pos (by simp [hdest, hfirst])]
  have hwake : t.wake = t := Slice.wake_of_awake (by rw [hpwr, hawake])
  unfold onArrival
  rw [hat]
  dsimp only
  rw [htake]
  dsimp only
  rw [if_pos (by simp [hworks, hhold]), he]
  dsimp only
  rw [hwake, deliver_settled]
  · rfl
  · exact s.settled_put i t hsettled (hmail.trans (s.mail_of i sl hat hsettled))

/-- A RESULT message waits for no other of its path. -/
theorem State.firstOfPath_result (s : State) (k : Nat) {m : RopeMsg} {r : ResMsg} (h : m.body = .result r) : s.firstOfPath k m = true := by
  simp [State.firstOfPath, RopeMsg.vc, h]

/-- Without a word that errs a slice that runs goes on as it would. -/
theorem Slice.reading_nil (env : Capstan) {sl : Slice} (f : Slice → Slice) (h : sl.stopped = false) : sl.reading env [] f = f sl := by
  unfold Slice.reading
  exact Slice.whileUp_running _ h

theorem exec_result_takes {s : State} {i k : Nat} {sl t : Slice} {r : ResMsg} {b : Batch} (h : s.brings i k sl r b)
    (he : sl.takeResult (sl.view s.cap) r = t) (hpwr : t.pwr = sl.pwr) (hmail : t.mail = sl.mail) :
    exec (.result i k) s = .next { s.put i t with rope := s.rope.eraseIdx k } := by
  obtain ⟨w, hhold, hbody, -⟩ := h
  obtain ⟨m, hm, hmsg⟩ := Option.map_eq_some_iff.mp hbody
  obtain ⟨hdest, hres⟩ := Prod.mk.inj hmsg
  rw [exec_result, execResult]
  refine onArrival_eq w hhold hm hdest (s.firstOfPath_result k hres) ?_ hpwr hmail
  rw [hres]
  dsimp only
  rw [Slice.reading_nil _ _ (Slice.running_of_works w.2.1), he]

/-! ### The batch table -/

theorem Slice.batch?_handle {sl : Slice} {h : Nat} {b : Batch} (hb : sl.batch? h = some b) : b.handle = h :=
  by simpa using List.find?_some hb

/-- A batch that was replaced is found as it is now. -/
theorem Slice.batch?_setBatch {sl : Slice} {h : Nat} {b : Batch} (hb : sl.batch? h = some b) {b' : Batch} (hh : b'.handle = h) :
    (sl.setBatch b').batch? h = some b' := by
  subst hh
  exact find?_updateWhere (f := fun _ => b') hb (decide_eq_true rfl)

/-- Of a batch replaced twice the second stands. -/
theorem Slice.setBatch_setBatch (sl : Slice) {a b : Batch} (h : a.handle = b.handle) : (sl.setBatch a).setBatch b = sl.setBatch b := by
  have hkept : updateWhere (fun x => x.handle = b.handle) (fun _ => b) (updateWhere (fun x => x.handle = a.handle) (fun _ => a) sl.ing.batches) =
      updateWhere (fun x => decide (x.handle = b.handle)) (fun _ => b) sl.ing.batches := by
    unfold updateWhere
    rw [List.map_map]
    refine List.map_congr_left fun x _ => ?_
    by_cases hx : x.handle = b.handle <;> simp [h, hx]
  unfold Slice.setBatch
  dsimp only
  rw [hkept]

/-! ### A batch that does not go on -/

theorem Slice.runAreaOps_none (env : Capstan) {sl : Slice} {h : Nat} {b : Batch} (hb : sl.batch? h = some b) (hops : b.ops = []) :
    sl.runAreaOps env h = sl := by
  unfold Slice.runAreaOps
  rw [hb]
  dsimp only
  rw [hops]
  rfl

theorem Slice.feed_none (env : Capstan) {sl : Slice} {h : Nat} {b : Batch} (hb : sl.batch? h = some b) (hwrites : b.toWrite = []) :
    sl.feed env h = sl := by
  unfold Slice.feed
  rw [hb]
  dsimp only
  rw [hwrites]
  exact ite_self sl

theorem Slice.progress_waits (env : Capstan) {sl : Slice} {h : Nat} {b : Batch} (hb : sl.batch? h = some b) (hends : b.allEnded = false) :
    sl.progress env h = sl := by
  unfold Slice.progress
  rw [hb]
  dsimp only
  rw [if_pos (by simp [hends])]

/-- A query with parts still to come changes nothing of its batch. -/
theorem Slice.queryDone_incomplete (env : Capstan) {sl : Slice} {h q : Nat} {b : Batch} {x : QRes} {c : Ctx} (hb : sl.batch? h = some b)
    (hx : b.res.find? (fun y => y.q = q) = some x) (hc : env.ctx? b.desc.ctx = some c) (hparts : x.complete = false) (hops : b.ops = [])
    (hwrites : b.toWrite = []) (hsame : sl.setBatch b = sl) : sl.queryDone env h q = sl := by
  have hends : b.allEnded = false := List.all_eq_false.mpr ⟨x, List.mem_of_find?_eq_some hx, by simp [hparts]⟩
  unfold Slice.queryDone
  rw [hb]
  dsimp only
  rw [hx, hc]
  dsimp only
  rw [if_neg (by simp [hparts])]
  dsimp only
  rw [hsame, Slice.runAreaOps_none env hb hops, Slice.feed_none env hb hwrites, Slice.progress_waits env hb hends]

/-- The batch with a query's result as it is now. -/
def Batch.resultIs (b : Batch) (q : Nat) (x : QRes) : Batch := { b with res := updateWhere (fun y => y.q = q) (fun _ => x) b.res }

/-- What a message leaves of a batch whose query has parts still to come. -/
theorem Slice.takeResult_joins {env : Capstan} {sl : Slice} {m : ResMsg} {b : Batch} {x : QRes} {c : Ctx} (hb : sl.batch? m.handle = some b)
    (hreplay : b.replaying = none) (hx : b.res.find? (fun y => y.q = m.qindex) = some x) (hc : env.ctx? b.desc.ctx = some c)
    (hwrites : b.toWrite = []) (hops : b.ops = []) (hadds : (m.rkind = .contrib && x.stat != .dataLost) = false)
    (hrun : (m.rkind = .lost && b.mode c = 6 && x.branches != 0) = false) (hparts : (x.take m).complete = false) (hq : (x.take m).q = x.q) :
    sl.takeResult env m = sl.resultIs m b (x.take m) := by
  have hhandle : b.handle = m.handle := Slice.batch?_handle hb
  have hxq : x.q = m.qindex := by simpa using List.find?_some hx
  unfold Slice.takeResult
  rw [hb]
  dsimp only
  rw [if_neg (by simp [hreplay]), hx, hc]
  dsimp only
  rw [if_neg (Bool.eq_false_iff.mp hadds), if_neg (Bool.eq_false_iff.mp hrun)]
  exact Slice.queryDone_incomplete env (b := b.resultIs m.qindex (x.take m)) (Slice.batch?_setBatch hb hhandle)
    (find?_updateWhere (f := fun _ => x.take m) hx (decide_eq_true (hq.trans hxq))) hc hparts hops hwrites (sl.setBatch_setBatch rfl)

/-- A message on its way to the batch, by what it makes of its query's result. -/
theorem exec_result_joins {s : State} {i k : Nat} {sl : Slice} {r : ResMsg} {b : Batch} {x y : QRes} {c : Ctx} (h : s.brings i k sl r b)
    (ha : s.awaits sl r b x c) (hadds : (r.rkind = .contrib && x.stat != .dataLost) = false)
    (hrun : (r.rkind = .lost && b.mode c = 6 && x.branches != 0) = false) (hy : x.take r = y) (hparts : y.complete = false) (hq : y.q = x.q) :
    exec (.result i k) s = .next { s.put i (sl.resultIs r b y) with rope := s.rope.eraseIdx k } := by
  obtain ⟨hreplay, hx, hc, hwrites, hops⟩ := ha
  subst hy
  exact exec_result_takes h (Slice.takeResult_joins h.2.2.2 hreplay hx hc hwrites hops hadds hrun hparts hq) rfl rfl

/-- Fewer parts than the end message names leave a query incomplete. -/
theorem QRes.incomplete {x : QRes} {p : Nat} (hends : x.ended = some p) (hparts : x.got < p) : x.complete = false := by
  unfold QRes.complete
  rw [hends]
  exact decide_eq_false (by omega)

/-! ### A replay that starts (R494) -/

/-- A replay that starts: the batch waits for its old run, nothing of it is left to write or to add, and its queries have left the slice. -/
theorem Slice.startReplay_starts {sl : Slice} {h : Nat} {b : Batch} (gone : List Nat) (hb : sl.batch? h = some b) :
    ∃ b', (sl.startReplay h gone).batch? h = some b' ∧ b'.replaying.isSome = true ∧ b'.toWrite = [] ∧ b'.ops = [] ∧
      (∀ q ∈ (sl.startReplay h gone).queries, ¬ (q.home = sl.id ∧ q.batch = h)) ∧ (sl.startReplay h gone).pwr = sl.pwr ∧
      (sl.startReplay h gone).mail = sl.mail := by
  have hhandle : b.handle = h := Slice.batch?_handle hb
  have hgone := Slice.removeQueries_queries (sl.purgeBlocks h) (fun q => q.home = sl.id && q.batch = h)
  unfold Slice.startReplay
  rw [hb]
  dsimp only
  exact ⟨_, Slice.batch?_setBatch (sl := ((sl.purgeBlocks h).removeQueries (fun q => q.home = sl.id && q.batch = h)).1) hb hhandle, rfl, rfl, rfl,
    fun q hq => by simpa using hgone q hq, rfl, rfl⟩

end Sys2Proof.Machine

open Sys2Proof Sys2Proof.Machine

/-- Settles O44: what `take` makes of the query's result leaves the query incomplete, so that its batch does not go on. -/
theorem resultsAreTaken : Obligations.ResultsAreTaken := by
  unfold Obligations.ResultsAreTaken
  refine ⟨fun s i k sl r b x c h ha hends hok hkind => ?_, fun s i k sl r b x c h ha hparts hkind => ?_,
    fun s i k sl r b x c h ha hparts hkind hmode => ?_, fun s i k p sl r b x c h ha hlost hends hparts hkind => ?_,
    fun s i k sl r b x c h ha hkind hmode hbranches => ?_, fun s i k sl r b h hreplay hkind => ?_⟩
  · refine exec_result_joins h ha (by simp [hkind]) (by simp [hkind]) ?_ ?_ rfl
    · simp [QRes.take, hkind, hok]
    · simp [QRes.complete, hends]
  · refine exec_result_joins h ha (by simp [hkind]) (by simp [hkind]) ?_ (QRes.incomplete rfl hparts) rfl
    simp [QRes.take, hkind]
  · refine exec_result_joins h ha (by simp [hkind]) ?_ ?_ (QRes.incomplete rfl hparts) rfl
    · rcases hmode with hmode | hnone
      · simp [hmode]
      · simp [hnone]
    · simp [QRes.take, hkind]
  · refine exec_result_joins h ha (by simp [hlost]) (by simp [hkind]) ?_ (QRes.incomplete hends hparts) rfl
    simp [QRes.take, hkind, hlost]
  · obtain ⟨hreplay, hx, hc, -, -⟩ := ha
    have hb := h.2.2.2
    have hhandle : b.handle = r.handle := Slice.batch?_handle hb
    have hset := Slice.batch?_setBatch hb (b' := b.resultIs r.qindex (x.take r)) hhandle
    obtain ⟨b', hb', hstarts, hwrites, hops, hqueries, hpwr, hmail⟩ := Slice.startReplay_starts [] hset
    refine ⟨_, b', exec_result_takes h ?_ hpwr hmail, hb', hstarts, hwrites, hops, hqueries⟩
    unfold Slice.takeResult
    rw [hb]
    dsimp only
    rw [if_neg (by simp [hreplay]), hx, hc]
    dsimp only
    rw [if_pos (by simp [hkind, hmode, hbranches]), if_neg (by simp [hkind])]
    rfl
  · have htake : sl.takeResult (sl.view s.cap) r = sl := by
      unfold Slice.takeResult
      rw [h.2.2.2]
      dsimp only
      rw [if_pos hreplay, if_neg (by simp [hkind])]
    rw [exec_result_takes h htake rfl rfl, s.put_self i sl h.1.1]
end

section
/-!
Result writes at the mesh port: their acknowledgement, their retries, and the failure of their batch (R183, R188, R190).
-/

namespace Sys2Proof.Machine

/-! ### What an acknowledged write leaves -/

/-- The block of a write gives back buffers of the cache and credits of its stream. -/
theorem Slice.blockDone_only (sl : Slice) (w : MeshWrite) : ∃ ls ss n, sl.blockDone w =
    { sl with cache := { sl.cache with lines := ls }, str := { sl.str with streams := ss }, cnt := n } := by
  unfold Slice.blockDone
  split
  · exact ⟨sl.cache.lines, sl.str.streams, sl.cnt, rfl⟩
  · unfold Slice.finishBlock Slice.completeBlock
    dsimp only
    split
    · exact ⟨_, _, _, rfl⟩
    · exact ⟨_, _, _, rfl⟩

theorem Slice.pumpMesh_none {sl : Slice} (h : sl.ing.meshWait = []) : sl.pumpMesh = sl := by
  unfold Slice.pumpMesh
  rw [h, leaveAll, ← h]

/-- The slice as a write has left the port, the lines of its buffers the cache, and its transfer its stream. -/
def Slice.landed (sl : Slice) (w : MeshWrite) (ls : List Line) (ss : List Stream) (n : Counters) : Slice :=
  { sl with ing := { sl.ing with meshOut := if w.isResult then sl.ing.meshOut.filter (fun x => x.id != w.id)
                       else updateWhere (sameBlock w) (fun x => { x with failures := 0 }) (sl.ing.meshOut.filter (fun x => x.id != w.id)) }
            cache := { sl.cache with lines := ls }, str := { sl.str with streams := ss }, cnt := n }

/-- An acknowledged write of a batch in the table leaves the port, and the batch goes on with it. -/
theorem Slice.meshAck_batch {env : Capstan} {sl : Slice} {w : MeshWrite} {h : Nat} {b : Batch} (hwait : sl.ing.meshWait = []) (hcalm : sl.calm)
    (hh : w.handle = some h) (hb : sl.batch? h = some b) :
    ∃ ls ss n, sl.meshAck env w = if w.isResult then (sl.landed w ls ss n).resultAck env b w else (sl.landed w ls ss n).complAck env b w := by
  unfold Slice.meshAck
  extract_lets out out' src1 a
  obtain ⟨ls, ss, n, hdone⟩ := Slice.blockDone_only { sl with ing := { sl.ing with meshOut := out' } } w
  have ha : a = sl.landed w ls ss n := by
    have hstill : (sl.landed w ls ss n).calm := hcalm
    simp only [a, src1]
    rw [hdone, Slice.pumpMesh_none (by exact hwait)]
    exact Slice.feedAll_calm env _ hstill
  have hfound : (sl.landed w ls ss n).batch? h = some b := hb
  refine ⟨ls, ss, n, ?_⟩
  rw [ha, hh]
  dsimp only
  rw [hfound]

/-- A journal write touches the cache, and joins the journal's writes. -/
theorem Slice.journalState_only (env : Capstan) (sl : Slice) (b : Batch) (js : JState) (op : Bool) : ∃ ws k n, sl.journalState env b js op =
    { sl with ing := { sl.ing with jwrites := ws }, cache := k, cnt := n } := by
  unfold Slice.journalState
  split
  · exact ⟨sl.ing.jwrites, sl.cache, sl.cnt, rfl⟩
  · unfold Slice.writeJournal
    dsimp only
    exact ⟨_, _, _, Slice.writeLine_onlyCache env _ _ _ _ _ _ _⟩

/-- The slot of a write that has landed gives up granules and cask items. -/
theorem Slice.landSlot_only (sl : Slice) (b : Batch) (q : Nat) : ∃ st items, sl.landSlot b q = ({ sl with store := st }, { b with items := items }) := by
  unfold Slice.landSlot
  dsimp only
  split
  · exact ⟨sl.store, b.items, rfl⟩
  · exact ⟨_, _, rfl⟩

/-- A batch whose queries have not all ended, and that has nothing to place, goes no further. -/
theorem Slice.goesOn_waits (env : Capstan) {sl : Slice} {h : Nat} {b : Batch} (hb : sl.batch? h = some b) (hwrites : b.toWrite = [])
    (hends : b.allEnded = false) : (sl.feed env h).progress env h = sl := by
  rw [Slice.feed_none env hb hwrites, Slice.progress_waits env hb hends]

/-- The slice with a batch as it is now, and what a journal write and a slot's release leave. -/
def Slice.settledTo (sl : Slice) (b : Batch) (ws : List JWrite) (st : Store) (k : Cache) (n : Counters) : Slice :=
  { sl with ing := { (sl.setBatch b).ing with jwrites := ws }, store := st, cache := k, cnt := n }

theorem Slice.resultAck_waits {env : Capstan} {sl : Slice} {w : MeshWrite} {h : Nat} {b : Batch} (hb : sl.batch? h = some b)
    (hwrites : b.toWrite = []) (hends : b.allEnded = false) :
    ∃ b' ws st k n, sl.resultAck env b w = sl.settledTo b' ws st k n ∧ b'.handle = h ∧ b'.budget = 0 := by
  obtain rfl : b.handle = h := Slice.batch?_handle hb
  obtain ⟨st, items, hland⟩ := sl.landSlot_only { b with budget := 0 } w.lead
  have hfound (x : Batch) (hx : x.handle = b.handle) (ws : List JWrite) (k : Cache) (n : Counters) : (sl.settledTo x ws st k n).batch? b.handle = some x :=
    Slice.batch?_setBatch hb hx
  unfold Slice.resultAck
  rw [hland]
  dsimp only
  split
  · next seq _ =>
    let b' : Batch := { b with budget := 0, items := items, acked := max b.acked (seq + 1) }
    obtain ⟨ws, k, n, hj⟩ := Slice.journalState_only env (Slice.setBatch { sl with store := st } b') b' .accum true
    refine ⟨b', ws, st, k, ((sl.settledTo b' ws st k n).count 0x605 0 (some b.desc.ctx) 1).cnt, ?_, rfl, rfl⟩
    rw [hj]
    exact Slice.goesOn_waits env (b := b') (hfound b' rfl ws k _) hwrites hends
  · let b' : Batch := { b with budget := 0, items := items }
    refine ⟨b', sl.ing.jwrites, st, sl.cache, (sl.count 0x604 0 (some b.desc.ctx) 1).cnt, ?_, rfl, rfl⟩
    exact Slice.goesOn_waits env (b := b') (hfound b' rfl sl.ing.jwrites sl.cache _) hwrites hends

theorem Slice.complAck_taken {env : Capstan} {sl : Slice} {w : MeshWrite} {h : Nat} {b : Batch} (hkind : w.kind = .taken) (hb : sl.batch? h = some b)
    (hwrites : b.toWrite = []) (hends : b.allEnded = false) :
    ∃ ws k n, sl.complAck env b w = sl.settledTo { b with takenAcked := true } ws sl.store k n := by
  obtain rfl : b.handle = h := Slice.batch?_handle hb
  obtain ⟨ws, k, n, hj⟩ := Slice.journalState_only env (sl.setBatch { b with takenAcked := true }) { b with takenAcked := true } .taken true
  refine ⟨ws, k, n, ?_⟩
  unfold Slice.complAck
  rw [hkind]
  dsimp only
  rw [hj]
  exact Slice.goesOn_waits env (b := { b with takenAcked := true })
    (Slice.batch?_setBatch (b' := { b with takenAcked := true }) hb rfl) hwrites hends

/-- The other batches of the table stay as one is replaced. -/
theorem Slice.batch?_settledTo_other (sl : Slice) (b : Batch) (ws : List JWrite) (st : Store) (k : Cache) (n : Counters) {h : Nat} (hne : h ≠ b.handle) :
    (sl.settledTo b ws st k n).batch? h = sl.batch? h := by
  refine find?_updateWhere_other _ fun y _ hy => ?_
  have hy' : y.handle = b.handle := of_decide_eq_true hy
  exact ⟨decide_eq_false (by rw [hy']; exact hne.symm), decide_eq_false hne.symm⟩

theorem exec_resultWriteAck_acks {s : State} {i id : Nat} {sl : Slice} {w : MeshWrite} {t : Slice} (hw : s.working i sl)
    (hfind : sl.meshWrite? id false = some w) (hack : sl.meshAck (sl.view s.cap) w = t) (hpend : t.ing.pendq = []) (hpwr : t.pwr = sl.pwr)
    (hmail : t.mail = sl.mail) : exec (.resultWriteAck i id) s = .next (s.put i t) := by
  rw [exec_resultWriteAck, execResultWriteAck]
  refine onLive_eq hw ?_ (congrArg SlicePower.napping hpwr) hmail
  rw [hfind]
  dsimp only
  rw [Slice.reading_nil _ _ (Slice.running_of_works hw.2.1), hack, Slice.admitWaiting_none _ hpend]

/-! ### Retries (R188) -/

theorem Slice.retryFailed_counted (env : Capstan) {sl : Slice} {w : MeshWrite} {h : Nat} {b : Batch} (hresult : w.isResult = true)
    (hh : w.handle = some h) (hb : sl.batch? h = some b) (hbudget : b.budget < 63) :
    sl.retryFailed env w = sl.setBatch { b with budget := b.budget + 1 } := by
  unfold Slice.retryFailed
  rw [if_pos hresult, hh, Option.bind_some, hb]
  dsimp only
  rw [if_neg (by omega)]

/-- The only write at the port, given up. -/
theorem Slice.discardWrites_only {sl : Slice} {x : MeshWrite} {p : MeshWrite → Bool} (hout : sl.ing.meshOut = [x]) (hwait : sl.ing.meshWait = [])
    (hp : p x = true) (hblock : x.block = none) (hop : x.op = .write) :
    sl.discardWrites p = { sl with ing := { sl.ing with meshOut := [] } } := by
  have hleft : { sl with ing := { sl.ing with meshWait := [] } } = sl := by rw [← hwait]
  have hgone : sl.discardWrite x = { sl with ing := { sl.ing with meshOut := [] } } := by
    unfold Slice.discardWrite
    dsimp only
    rw [hout, hop, Slice.blockDone, hblock]
    simp
  unfold Slice.discardWrites
  dsimp only
  rw [hwait, List.filter_nil, List.filter_nil, List.foldl_nil, hleft, hout, List.filter_cons_of_pos hp, List.filter_nil, List.foldl_cons,
    List.foldl_nil, hgone]
  exact (Slice.pumpMesh_none (sl := { sl with ing := { sl.ing with meshOut := [] } }) hwait).trans (by rw [← hwait])

/-- A batch that has failed, in its place in the table. -/
def Batch.given (b : Batch) (detail : Nat) : Batch :=
  { b with budget := 0, phase := .failed, failDetail := some detail, toWrite := [], ops := [], opGot := [] }

/-- A slice whose only batch has failed with its only write. -/
def Slice.failed (sl : Slice) (b : Batch) (detail : Nat) : Slice :=
  { sl.purgeBlocks b.handle with ing := { sl.ing with meshOut := [], batches := [b.given detail] } }

theorem Slice.failed_kept (sl : Slice) (b : Batch) (d : Nat) : (sl.failed b d).ing.pendq = sl.ing.pendq ∧ (sl.failed b d).pwr = sl.pwr ∧
    (sl.failed b d).mail = sl.mail := ⟨rfl, rfl, rfl⟩

/-- The 64th failure of the only write of the only batch: the batch fails, and nothing of it is left to write. -/
theorem Slice.retryFailed_fails (env : Capstan) {sl : Slice} {w x : MeshWrite} {b : Batch} (hout : sl.ing.meshOut = [x])
    (hwait : sl.ing.meshWait = []) (hcalm : sl.calm) (hbatches : sl.ing.batches = [b]) (hresult : w.isResult = true)
    (hh : w.handle = some b.handle) (hblock : x.block = none) (hop : x.op = .write) (hx : (x.isOf b.handle && x.isResult) = true)
    (hbudget : b.budget = 63) (hends : b.allEnded = false) :
    sl.retryFailed env w = sl.failed b w.lead := by
  have hbatch : sl.batch? b.handle = some b := by simp [Slice.batch?, hbatches]
  unfold Slice.retryFailed
  rw [if_pos hresult, hh, Option.bind_some, hbatch]
  dsimp only
  rw [if_pos (by omega), Slice.failBatch]
  dsimp only
  rw [Slice.discardWrites_only (sl := sl.purgeBlocks b.handle) hout hwait hx hblock hop]
  have hset : Slice.setBatch { sl.purgeBlocks b.handle with ing := { sl.ing with meshOut := [] } } (b.given w.lead) = sl.failed b w.lead := by
    simp [Slice.setBatch, Slice.failed, hbatches, updateWhere, Batch.given]
  have hfound : (sl.failed b w.lead).batch? b.handle = some (b.given w.lead) := by
    simp [Slice.batch?, Slice.failed, Batch.given]
  have hstill : (sl.failed b w.lead).calm := by
    obtain ⟨hwaiting, hruns, hqueued, hmaps, hports, hledger, hadopting, hbatch⟩ := hcalm
    refine ⟨hwaiting, hruns, ?_, hmaps, hports, hledger, hadopting, fun y hy => ?_⟩
    · simp [Slice.failed, Slice.purgeBlocks, Slice.dropBlocks, hqueued]
    · obtain rfl : y = b.given w.lead := List.mem_singleton.mp hy
      exact ⟨rfl, rfl, (hbatch b (by simp [hbatches])).2.2⟩
  refine (congrArg (fun t => (Slice.feedAll env t).progress env b.handle) hset).trans ?_
  rw [Slice.feedAll_calm env _ hstill, Slice.progress_waits env hfound hends]

theorem Slice.retryWrite_refused (env : Capstan) (sl : Slice) (w : MeshWrite) :
    sl.retryWrite env w true = ((sl.count 0x606 0 (some w.ctx) 1).holdWrite w.id).retryFailed env w := rfl

theorem exec_bankRetryTimer_retries {s : State} {i k : Nat} {refused : Bool} {sl t : Slice} {w : MeshWrite} (hw : s.working i sl)
    (hfind : sl.meshWrite? k true = some w) (hdue : w.retryAt ≤ sl.time) (hretry : sl.retryWrite (sl.view s.cap) w refused = t)
    (hpend : t.ing.pendq = []) (hpwr : t.pwr = sl.pwr) (hmail : t.mail = sl.mail) : exec (.bankRetryTimer i k refused) s = .next (s.put i t) := by
  rw [exec_bankRetryTimer, execBankRetryTimer]
  refine onLive_eq hw ?_ (congrArg SlicePower.napping hpwr) hmail
  rw [hfind]
  dsimp only
  rw [if_neg (by omega), hretry, Slice.admitWaiting_none _ hpend]

end Sys2Proof.Machine

open Sys2Proof Sys2Proof.Machine

/-- Settles O45: an acknowledgement ends the run of failures; the retries count in the batch's budget, whose 64th failure gives it up. -/
theorem resultWritesAreAcknowledgedAndRetried : Obligations.ResultWritesAreAcknowledgedAndRetried := by
  unfold Obligations.ResultWritesAreAcknowledgedAndRetried
  refine ⟨fun s i id h sl w b hw hpend hwait hcalm hfind hresult hh hb hends => ?_,
    fun s i id h sl w b hw hpend hwait hcalm hfind hkind hh hb hends => ?_, fun s i k sl w hw hfind hfirst => ?_,
    fun s i k h sl w b hw hpend hfind hretried hresult hh hb hbudget => ?_, fun s i k sl w hw hpend hfind hdue => ?_,
    fun s i k sl w r hw hfind hearly => ?_, fun s i k h sl w b hw hpend hfind hdue hresult hh hb hbudget => ?_,
    fun s i q sl w b hw hpend hout hwait hcalm hwaits hdue hh hkind hblock hop hbatches hbudget hreplay hends => ?_⟩
  · have hwrites : b.toWrite = [] := (hcalm.2.2.2.2.2.2.2 b (List.mem_of_find?_eq_some hb)).1
    obtain ⟨ls, ss, n, hack⟩ := Slice.meshAck_batch (env := sl.view s.cap) (w := w) hwait hcalm hh hb
    obtain ⟨b', ws, st, k, m, hset, hhandle, hzero⟩ := Slice.resultAck_waits (env := sl.view s.cap) (sl := sl.landed w ls ss n) (w := w) hb hwrites hends
    rw [if_pos hresult, hset] at hack
    refine ⟨_, exec_resultWriteAck_acks hw hfind hack hpend rfl rfl, if_pos hresult, ?_, fun k' hk => ?_, rfl, rfl⟩
    · have hfound : ((sl.landed w ls ss n).settledTo b' ws st k m).batch? h = some b' :=
        Slice.batch?_setBatch (sl := sl.landed w ls ss n) hb hhandle
      rw [hfound, Option.map_some, hzero]
    · exact (sl.landed w ls ss n).batch?_settledTo_other b' ws st k m (by rw [hhandle]; exact hk)
  · have hwrites : b.toWrite = [] := (hcalm.2.2.2.2.2.2.2 b (List.mem_of_find?_eq_some hb)).1
    have hhandle : b.handle = h := Slice.batch?_handle hb
    have hresult : ¬ w.isResult = true := by simp [MeshWrite.isResult, hkind]
    obtain ⟨ls, ss, n, hack⟩ := Slice.meshAck_batch (env := sl.view s.cap) (w := w) hwait hcalm hh hb
    obtain ⟨ws, k, m, hset⟩ := Slice.complAck_taken (env := sl.view s.cap) (sl := sl.landed w ls ss n) hkind hb hwrites hends
    rw [if_neg hresult, hset] at hack
    refine ⟨_, exec_resultWriteAck_acks hw hfind hack hpend rfl rfl, Slice.batch?_setBatch (sl := sl.landed w ls ss n) hb (by exact hhandle),
      fun x hx => ?_, rfl, rfl⟩
    have hx' : x ∈ updateWhere (sameBlock w) (fun x => { x with failures := 0 }) (sl.ing.meshOut.filter (fun x => x.id != w.id)) := by
      simpa [Slice.settledTo, Slice.landed, hresult] using hx
    obtain ⟨y, hy, rfl⟩ := List.mem_map.mp hx'
    have hne : y.id ≠ w.id := by simpa using (List.mem_filter.mp hy).2
    split
    · exact hne
    · exact hne
  · rw [exec_bankUnavailable, execBankUnavailable]
    refine onLive_eq hw ?_ rfl rfl
    rw [hfind]
    dsimp only
    rw [if_neg (by simp [hfirst])]
    rfl
  · rw [exec_bankUnavailable, execBankUnavailable]
    refine onLive_eq hw ?_ rfl rfl
    rw [hfind]
    dsimp only
    rw [if_pos hretried, Slice.retryFailed_counted (sl := sl.holdWrite w.id) _ hresult hh hb hbudget, Slice.admitWaiting_none _ (by exact hpend)]
    rfl
  · refine ⟨_, exec_bankRetryTimer_retries hw hfind hdue rfl hpend rfl rfl, rfl, rfl, rfl, rfl⟩
  · rw [exec_bankRetryTimer, execBankRetryTimer]
    refine onLive_same hw ?_
    rw [hfind]
    dsimp only
    rw [if_pos hearly]
  · have hretry := Slice.retryFailed_counted (sl.view s.cap) (sl := (sl.count 0x606 0 (some w.ctx) 1).holdWrite w.id) hresult hh hb hbudget
    exact ⟨_, exec_bankRetryTimer_retries hw hfind hdue hretry hpend rfl rfl, rfl, rfl, rfl, rfl⟩
  · have hfind : sl.meshWrite? w.id true = some w := by
      simp [Slice.meshWrite?, hout, hwaits]
    have hresult : w.isResult = true := by simp [MeshWrite.isResult, hkind]
    have hlead : w.lead = q := by simp [MeshWrite.lead, hkind]
    have hbatch : sl.batch? b.handle = some b := by simp [Slice.batch?, hbatches]
    have hheld : ((sl.count 0x606 0 (some w.ctx) 1).holdWrite w.id).ing.meshOut = [{ w with waiting := true, retryAt := sl.time + 2000 }] := by
      simp [Slice.holdWrite, hout, updateWhere]
    have hmine : (MeshWrite.isOf b.handle { w with waiting := true, retryAt := sl.time + 2000 } &&
        MeshWrite.isResult { w with waiting := true, retryAt := sl.time + 2000 }) = true := by
      simp [MeshWrite.isOf, hh, MeshWrite.isResult, hkind]
    have hretry := Slice.retryFailed_fails (sl := (sl.count 0x606 0 (some w.ctx) 1).holdWrite w.id) (sl.view s.cap) hheld hwait hcalm
      hbatches hresult hh hblock hop hmine hbudget hends
    obtain ⟨hpendq, hpwr, hmail⟩ := Slice.failed_kept ((sl.count 0x606 0 (some w.ctx) 1).holdWrite w.id) b w.lead
    refine ⟨_, exec_bankRetryTimer_retries hw hfind hdue ((sl.retryWrite_refused _ w).trans hretry) (hpendq.trans hpend) hpwr hmail, rfl, ?_⟩
    rw [hlead]
    rfl
end

section
/-!
A replay that reads its ledger, where a victim of the one line's miss is what the other line's lookup finds (R314, R323, R348, R494).
-/

namespace Sys2Proof.Machine

/-- Whether slice 0 asks for a line after a command, or keeps a request for it waiting. -/
def asksAfter (a : Nat) : Out' → Bool
  | .next t => t.slices[0]?.any (fun sl => sl.cache.misses.any (fun m => m.addr = a) || sl.cache.waiting.any (fun w => w.addr = a))
  | _ => false

/-- An engine of one live slice that runs, with one context, whose STREAM partition has way 0 alone. -/
def oneWayCap : Capstan :=
  { resetCapstan 1 with
    su := { (resetCapstan 1).su with power := .running, state := .ready }
    img := { (resetCapstan 1).img with partMasks := [0, 0, 1, 0] }
    hl := { (resetCapstan 1).hl with slices := [.live] }
    ctxs := [blankCtx 0] }

/-- A batch whose replay may begin, its ledger the lines 0x300 and 0x400 of its context's cask. -/
def replayingBatch : Batch :=
  { handle := 0, core := 0, die := 0, off := 0, isG := false, mask := 1, desc := descOf [], active := 1, phase := .walking, takenAcked := true
    res := [], slots := [], ops := [], opGot := [], toWrite := [], built := false, budget := 0, failDetail := none, acked := 0, jstate := .taken
    replaying := some [], items := [{ use := .ledger, runs := [(3, 2)] }] }

/-- In the one slot that the first line can take stands a dirty copy of the second, doomed. -/
def doomedCopy : Line :=
  { set := setOf 0x300, way := 0, ctx := 0, gen := 0, tag := 0x400, dirty := true, lock := false, doomed := true, rsv := 0
    data := List.replicate 256 0 }

def replayingSlice : Slice :=
  { resetSlice 0 with
    ing := { (resetSlice 0).ing with batches := [replayingBatch] }
    cache := { (resetSlice 0).cache with lines := [doomedCopy] } }

def replayingState : State := { State.reset with cap := oneWayCap, slices := [replayingSlice] }

/-- The third part's hypotheses hold of it, for the second line. -/
theorem replayingState_reads : replayingState.working 0 replayingSlice ∧ replayingSlice.batch? 0 = some replayingBatch ∧
    (replayingSlice.view replayingState.cap).ctx? replayingBatch.desc.ctx = some (blankCtx 0) ∧ replayingState.resultUnderway 0 0 = false ∧
    (∀ x ∈ replayingBatch.items, x.use = .ledger) ∧ 0x400 ∈ ledgerLines (blankCtx 0) replayingBatch.items ∧
    replayingSlice.cache.seen (replayingSlice.view replayingState.cap) .stream (blankCtx 0).id 0x400 = none ∧
    replayingSlice.cache.arrived .stream (blankCtx 0).id 0x400 = [] := by
  decide +kernel

/-- The miss of the first line drives the copy into the eviction buffer, where the second is found: nothing asks for it. -/
theorem replayingState_silent : asksAfter 0x400 (exec (.replayRelease 0 0 []) replayingState) = false := by decide +kernel

end Sys2Proof.Machine

open Sys2Proof Sys2Proof.Machine

/-- Refutes O46: the third part fails at `replayingState`. A dirty line that is doomed is not found by a lookup; but the miss of the ledger's
first line takes its slot, and from the eviction buffer the lookup of the second line, which was not there, finds it: it is not asked for. -/
theorem not_journalWritesSettleAndReplaysRun : ¬ Obligations.JournalWritesSettleAndReplaysRun := by
  unfold Obligations.JournalWritesSettleAndReplaysRun
  rintro ⟨-, -, hreads, -, -⟩
  obtain ⟨hworking, hbatch, hctx, hunder, hitems, hline, hseen, harrived⟩ := replayingState_reads
  obtain ⟨sl', b', hexec, -, -, -, hasked, -⟩ := hreads replayingState 0 0 0x400 replayingSlice replayingBatch (blankCtx 0) hworking hbatch hctx rfl
    hunder hitems hline hseen harrived
  have hsilent := replayingState_silent
  rw [hexec] at hsilent
  have hat : (replayingState.put 0 sl').slices[0]? = some sl' := rfl
  simp only [asksAfter, hat, Option.any_some, Bool.or_eq_false_iff, List.any_eq_false, decide_eq_true_eq] at hsilent
  obtain ⟨hmisses, hwaiting⟩ := hsilent
  rcases hasked with ⟨m, hm, -, haddr, -⟩ | ⟨w, hw, -, haddr, -⟩
  · exact hmisses m hm haddr
  · exact hwaiting w hw haddr
end


section
/-!
A query that arrives where the first free run of the query store is empty (R334, R419).
-/

namespace Sys2Proof.Machine

/-- The queries that a slice's Mash holds. -/
def Mash.holds (m : Mash) : List Query :=
  m.bins.flatMap (·.members) ++ m.gathers.flatMap (·.members) ++ m.gatherWait ++ m.overflow.flatMap (·.2.2)

theorem Slice.hasQuery.mem {sl : Slice} {q : Query} (h : sl.hasQuery q) : q ∈ sl.mash.holds := by
  simp only [Mash.holds, List.mem_append, List.mem_flatMap]
  rcases h with ⟨b, hb, hq⟩ | ⟨g, hg, hq⟩ | hq | ⟨b, hb, hq⟩
  · exact .inl (.inl (.inl ⟨b, hb, hq⟩))
  · exact .inl (.inl (.inr ⟨g, hg, hq⟩))
  · exact .inl (.inr hq)
  · exact .inr ⟨b, hb, hq⟩

/-- Whether all queries of slice 0's Mash are spilled after a command. -/
def spilledAfter : Out' → Bool
  | .next t => t.slices[0]?.any (fun sl => sl.mash.holds.all (·.spilled))
  | _ => false

/-- A query for a box node, which arrives with its state. -/
def arrivingQuery : Query :=
  { blankQuery 0 0 0 0 0 0 .ray with next := { addr := 0x1000, ckind := 1, holder := 0, placed := .replicated, tnear := .fin 0 } }

def arrivingMsg : RopeMsg := { src := 0, dest := 0, epoch := 0, body := .migrate arrivingQuery }

/-- The list of free runs begins with one of no granules. -/
def emptyRunSlice : Slice := { resetSlice 0 with store := { (resetSlice 0).store with free := [(0, 0), (1, 40000)] } }

def emptyRunState : State := { State.reset with cap := oneWayCap, slices := [emptyRunSlice], rope := [arrivingMsg] }

theorem emptyRunState_arrives : emptyRunState.working 0 emptyRunSlice ∧ emptyRunSlice.rope.hold = false ∧ emptyRunState.rope[0]? = some arrivingMsg ∧
    arrivingMsg.dest = 0 ∧ arrivingQuery.poison = [] ∧ emptyRunSlice.replaying arrivingQuery = false ∧ emptyRunSlice.store.spilling = false ∧
    24576 + entryGranules (arrivingQuery.payloadBytes (emptyRunSlice.view emptyRunState.cap)) ≤ emptyRunSlice.store.freeCount := by
  decide +kernel

/-- The empty run ends the search for granules: the query goes to its spill slot. -/
theorem emptyRunState_spills : spilledAfter (exec (.migrate 0 0 none) emptyRunState) = true := by decide +kernel

end Sys2Proof.Machine

open Sys2Proof Sys2Proof.Machine

/-- Refutes O43: the first part fails at `emptyRunState`. Granules are free in plenty, but the first run of the free list has none, with which
`takeRuns` gives up; so the query that arrives enters its bin as a spilled member. -/
theorem not_queriesMigrate : ¬ Obligations.QueriesMigrate := by
  unfold Obligations.QueriesMigrate
  rintro ⟨hland, -⟩
  obtain ⟨hworking, hhold, hmsg, hdest, hpoison, hreplay, hspilling, hfree⟩ := emptyRunState_arrives
  obtain ⟨sl', e, hexec, hquery, -, -⟩ := hland emptyRunState 0 0 emptyRunSlice arrivingMsg arrivingQuery hworking hhold hmsg hdest rfl hpoison hreplay
    hspilling hfree
  have hspills := emptyRunState_spills
  rw [hexec] at hspills
  have hat : (emptyRunState.put 0 sl').slices[0]? = some sl' := rfl
  simp only [spilledAfter, hat, Option.any_some, List.all_eq_true] at hspills
  exact absurd (hspills _ (Slice.hasQuery.mem hquery)) (by simp)
end

section
/-!
Packets: a walker takes a bin's members, visits its object, and is free as the last of them has left (R198, R203, R208, R211 to R213, R222).
-/

namespace Sys2Proof.Machine

/-! ### A walker that is freed -/

/-- A hand-over at a bound maps positions anew; the walkers' work stays. -/
theorem Slice.handOver_only (sl : Slice) (lay : Nat) : ∃ wk, sl.handOver lay = { sl with work := wk } ∧ wk.walkers0 = sl.work.walkers0 ∧
    wk.walkers1 = sl.work.walkers1 := by
  have hmap (wk : Work) (l : Nat) (b : Bool) (m : List Nat) : (wk.setMap l b m).walkers0 = wk.walkers0 ∧ (wk.setMap l b m).walkers1 = wk.walkers1 := by
    unfold Work.setMap
    split <;> split <;> exact ⟨rfl, rfl⟩
  have hdue (wk : Work) (l : Nat) (d : Bool) : (wk.setRotDue l d).walkers0 = wk.walkers0 ∧ (wk.setRotDue l d).walkers1 = wk.walkers1 := by
    unfold Work.setRotDue
    split <;> exact ⟨rfl, rfl⟩
  unfold Slice.handOver
  dsimp only
  split
  · exact ⟨sl.work, rfl, rfl, rfl⟩
  · split
    · exact ⟨sl.work, rfl, rfl, rfl⟩
    · split
      · split
        · exact ⟨_, rfl, (hdue _ _ _).1.trans (hmap _ _ _ _).1, (hdue _ _ _).2.trans (hmap _ _ _ _).2⟩
        · exact ⟨sl.work, rfl, rfl, rfl⟩
      · exact ⟨_, rfl, hdue _ _ _⟩

/-- Only the walkers of a lay stand in what `walkers` reads. -/
theorem Slice.walkers_congr {a b : Slice} (lay : Nat) (h0 : a.work.walkers0 = b.work.walkers0) (h1 : a.work.walkers1 = b.work.walkers1) :
    a.walkers lay = b.walkers lay := by
  rw [Slice.walkers, Slice.walkers, h0, h1]

theorem Slice.walkers_setWalker {sl : Slice} {lay w : Nat} {x : Walker} (f : Walker → Walker) (h : (sl.walkers lay)[w]? = some x) :
    ((sl.setWalker lay w f).walkers lay)[w]? = some (f x) := by
  unfold Slice.walkers at h ⊢
  unfold Slice.setWalker
  split at h
  · rw [if_pos (by assumption), if_pos (by assumption), updateAt_getElem?, if_pos rfl, h]
    rfl
  · rw [if_neg (by assumption), if_neg (by assumption), updateAt_getElem?, if_pos rfl, h]
    rfl

/-- Walker `w` is free, and nothing else of the slice has changed but counters and the rest of its work. -/
def Slice.Freed (lay w : Nat) (sl t : Slice) : Prop :=
  (∃ wk n, t = { sl with work := wk, cnt := n }) ∧ (t.walkers lay)[w]? = some { work := none, parked := [] }

/-- A walker without parked packets whose packet ends is free. -/
theorem Slice.setWork_frees {sl : Slice} {lay w : Nat} {x : Option Packet} (h : (sl.walkers lay)[w]? = some { work := x, parked := [] }) :
    Slice.Freed lay w sl (sl.setWork lay w none) := by
  obtain ⟨wk, hwk, h0, h1⟩ := Slice.handOver_only (sl.setWalker lay w (fun x => { x with work := none })) lay
  unfold Slice.setWork
  dsimp only
  rw [if_pos (by rfl), hwk]
  refine ⟨⟨wk, sl.cnt, rfl⟩, ?_⟩
  rw [Slice.walkers_congr lay h0 h1]
  exact Slice.walkers_setWalker _ h

theorem Slice.Freed.counted {sl t : Slice} {lay w : Nat} {n : Counters} (h : Slice.Freed lay w { sl with cnt := n } t) : Slice.Freed lay w sl t := by
  obtain ⟨⟨wk, m, hm⟩, hfree⟩ := h
  exact ⟨⟨wk, m, hm⟩, hfree⟩

theorem Slice.resumeWalker_free (env : Capstan) {sl : Slice} {lay w : Nat} (h : (sl.walkers lay)[w]? = some { work := none, parked := [] }) :
    sl.resumeWalker env lay w = sl := by
  unfold Slice.resumeWalker
  rw [h]
  rfl

theorem Slice.endPacket_frees (env : Capstan) {sl : Slice} {lay w : Nat} {x : Option Packet}
    (h : (sl.walkers lay)[w]? = some { work := x, parked := [] }) : Slice.Freed lay w sl ((sl.setWork lay w none).resumeWalker env lay w) := by
  have hfreed := Slice.setWork_frees h
  rw [Slice.resumeWalker_free env hfreed.2]
  exact hfreed

/-- A packet without members ends at once. -/
theorem Slice.startPacket_empty (env : Capstan) (sl : Slice) (lay w : Nat) {p : Packet} (h : p.members = []) :
    sl.startPacket env lay w p = sl.setWork lay w none := by
  unfold Slice.startPacket
  split
  · rfl
  · dsimp only
    rw [h]
    rfl

/-! ### The split of a packet of one -/

/-- A query that goes on to no inner node is no group that a walker keeps. -/
theorem Slice.keptGroup_one (env : Capstan) (sl : Slice) (c : Ctx) {a : Adv} (hkind : ∀ q, a = .go q → q.next.ckind ≠ 1 ∧ q.next.ckind ≠ 3) :
    sl.keptGroup env c [a] = none ∨ (sl.keptGroup env c [a] = some [] ∧ ∀ q, a ≠ .go q) := by
  have hnone (h : goers [a] = []) : sl.keptGroup env c [a] = none ∨ sl.keptGroup env c [a] = some [] := by
    unfold Slice.keptGroup
    dsimp only
    rw [h]
    split
    · right; rfl
    · left; rfl
  cases a with
  | go q =>
    obtain ⟨h1, h3⟩ := hkind q rfl
    left
    simp [Slice.keptGroup, goers, sortBy, insertBy, List.eraseDups, List.eraseDupsBy, List.eraseDupsBy.loop, h1, h3]
  | ended q => exact (hnone rfl).imp_right fun h => ⟨h, fun _ => Adv.noConfusion⟩
  | fault q f => exact (hnone rfl).imp_right fun h => ⟨h, fun _ => Adv.noConfusion⟩

/-- A packet of one query that goes to no inner node: the query is settled, the walker is free. -/
theorem Slice.split_one (env : Capstan) {sl : Slice} {lay w : Nat} {c : Ctx} {a : Adv} {x : Option Packet}
    (hkind : ∀ q, a = .go q → q.next.ckind ≠ 1 ∧ q.next.ckind ≠ 3)
    (hwalker : ((sl.settle env a).walkers lay)[w]? = some { work := x, parked := [] }) :
    Slice.Freed lay w (sl.settle env a) (sl.split env lay w c [a]) := by
  unfold Slice.split
  rcases sl.keptGroup_one env c hkind with hnone | ⟨hempty, hgo⟩
  · rw [hnone]
    exact Slice.endPacket_frees env hwalker
  · rw [hempty]
    cases a with
    | go q => exact absurd rfl (hgo q)
    | ended q =>
      dsimp only
      rw [Slice.startPacket_empty env _ lay w rfl]
      exact (Slice.setWork_frees (sl := (sl.settle env (.ended q)).count 0x107 (walkerQual lay w) (some c.id) 1) hwalker).counted
    | fault q f =>
      dsimp only
      rw [Slice.startPacket_empty env _ lay w rfl]
      exact (Slice.setWork_frees (sl := (sl.settle env (.fault q f)).count 0x107 (walkerQual lay w) (some c.id) 1) hwalker).counted

/-! ### What a visit reads -/

/-- The slice as lines of its caches are used and lookups counted. -/
def Slice.looked (sl : Slice) (k : Cache) (n : Counters) : Slice := { sl with cache := k, cnt := n }

/-- Counting goes no further than the counters. -/
theorem Slice.count_looked {sl t : Slice} {k : Cache} (h : ∃ n, t = sl.looked k n) (ev qual : Nat) (ctx : Option Nat) (more : Nat) :
    ∃ n, t.count ev qual ctx more = sl.looked k n := by
  obtain ⟨n, rfl⟩ := h
  exact ⟨_, rfl⟩

theorem Slice.split_looked {env : Capstan} {sl t : Slice} {k : Cache} {lay w : Nat} {c : Ctx} {as : List Adv} (h : ∃ n, t = sl.looked k n) :
    ∃ n, t.split env lay w c as = (sl.looked k n).split env lay w c as := by
  obtain ⟨n, rfl⟩ := h
  exact ⟨n, rfl⟩

/-- An object whose lines are there is read, its lines used. -/
theorem Slice.visitBytes_there {env : Capstan} {sl : Slice} {lay w : Nat} {p : Packet} {t : TreeCtx} {ckind : Nat} {head bs : List Byte}
    (hhead : sl.nodeBytes env lay p p.obj 128 = .ok head) (hbs : sl.nodeBytes env lay p p.obj (objectBytes t ckind p.obj head) = .ok bs) :
    ∃ n, sl.visitBytes env lay w p t ckind = (some bs,
      sl.looked (sl.nodeUsed env lay p.ctx p.obj (objectBytes t ckind p.obj head)).cache n) := by
  unfold Slice.visitBytes
  rw [hhead]
  dsimp only
  unfold Slice.lookUp
  rw [hbs]
  exact ⟨_, rfl⟩

/-- Without a word that errs a visit is made as it would be. -/
theorem Slice.visitReads_nil (env : Capstan) {sl : Slice} (lay w : Nat) (visit : Slice → Slice) (h : sl.stopped = false) :
    sl.visitReads env lay w [] visit = visit sl := by
  have hbad (p : Packet) : sl.badNodeLine env [] lay p = none := by
    unfold Slice.badNodeLine
    split
    · simp [hitsLine]
    · rfl
  unfold Slice.visitReads
  split
  · exact Slice.reading_nil env visit h
  · rw [hbad]
    exact Slice.reading_nil env visit h

theorem Slice.leavingReads_nil (env : Capstan) {sl : Slice} (ms : List Query) (f : Slice → Slice) (h : sl.stopped = false) :
    sl.leavingReads env ms [] f = f sl := Slice.reading_nil env f h

/-- A visit of one query to a box node. -/
theorem Slice.visitNode_box {env : Capstan} {sl : Slice} {lay w : Nat} {p : Packet} {q : Query} {c : Ctx} {bs : List Byte} {x : Walker}
    (hwalker : (sl.walkers lay)[w]? = some x) (hwork : x.work = some p) (hp : p.members = [q]) (hkind : q.next.ckind = 1)
    (hc : env.ctx? p.ctx = some c) (hbs : sl.nodeBytes env lay p p.obj 128 = .ok bs) :
    ∃ n, sl.visitNode env lay w = (sl.looked (sl.nodeUsed env lay p.ctx p.obj 128).cache n).split env lay w c
      [visitBox c.tree (rootRef env c) bs q] := by
  have hsize (t : TreeCtx) (a : Nat) : objectBytes t 1 a bs = 128 := rfl
  obtain ⟨n, hn⟩ := Slice.visitBytes_there (w := w) (t := c.tree) (ckind := 1) hbs (by rw [hsize]; exact hbs)
  rw [hsize] at hn
  unfold Slice.visitNode
  rw [hwalker, Option.bind_some, hwork]
  dsimp only
  rw [hc, hp]
  dsimp only [List.head?_cons]
  rw [if_neg (by simp [hkind]), hkind, hn]
  dsimp only
  rw [visitPacket, if_pos rfl, if_neg (by decide)]
  dsimp only [List.map_cons, List.map_nil, Slice.sendReports, List.foldl_nil]
  have hlooked : ∃ m, sl.looked (sl.nodeUsed env lay p.ctx p.obj 128).cache n = sl.looked (sl.nodeUsed env lay p.ctx p.obj 128).cache m := ⟨n, rfl⟩
  have hvisit := Slice.count_looked (Slice.count_looked (Slice.count_looked hlooked 0x101 (walkerQual lay w) (some c.id) 1) 0x102 (walkerQual lay w)
    (some c.id) 1) 0x103 (walkerQual lay w) (some c.id) 4
  exact Slice.split_looked (Slice.count_looked (Slice.count_looked (Slice.count_looked hvisit _ _ _ _) _ _ _ _) _ _ _ _)

/-- A query without a guest's entry ends its walk at its home: the end message is told. -/
theorem Slice.settle_ends (env : Capstan) {sl : Slice} {q : Query} (hhome : q.home = sl.id) (hguest : q.guest = false) (hreplay : sl.replaying q = false) :
    sl.settle env (.ended q) =
      { sl with mail := sl.mail ++ [.send { src := sl.id, dest := sl.id, epoch := sl.rope.epoch, body := .result (endMsg q) }] } := by
  unfold Slice.settle
  rw [if_neg (by simp [Adv.query, hreplay])]
  dsimp only
  rw [Slice.finish, Slice.leave, if_neg (by simp [hguest]), Slice.send, if_pos hhome, hhome]
  rfl

theorem Slice.settle_bins (env : Capstan) {sl : Slice} {q : Query} {c : Ctx} (hstays : sl.migratesTo env q = none) (hkind : q.next.ckind ≠ 6)
    (hreplay : sl.replaying q = false) (hc : env.ctx? q.ctx = some c) (hopens : sl.opensBin q) :
    sl.settle env (.go q) = { sl with mash := { sl.mash with bins := sl.mash.bins ++ [sl.newBin env c { q with entered := sl.time }] } } := by
  unfold Slice.settle
  rw [if_neg (by simp [Adv.query, hreplay])]
  dsimp only
  unfold Slice.route
  rw [hstays]
  dsimp only
  rw [if_neg hkind]
  exact sl.toBin_opens env c q hc hopens

/-- A command of a slice's own work that tells one message: it is in flight. -/
theorem onLive_sends {s : State} {i : Nat} {sl t : Slice} {f : Capstan → Slice → Slice} {m : RopeMsg} (w : s.working i sl)
    (he : f (sl.view s.cap) sl = t) (hpwr : t.pwr = sl.pwr) (hmail : t.mail = [.send m]) :
    onLive i s f = .next { s.put i { t with mail := [] } with rope := s.rope ++ [m] } := by
  obtain ⟨hat, -, hawake, hsettled⟩ := id w
  rw [onLive_delivers w he (by rw [hpwr, hawake]), deliver_send s i t [m] (List.getElem?_eq_some_iff.mp hat).1 hsettled hmail]

/-- A visit of one query to a triangle leaf. -/
theorem Slice.testLeaf_one {env : Capstan} {sl : Slice} {lay w : Nat} {p : Packet} {q : Query} {c : Ctx} {head bs : List Byte} {x : Walker}
    (hwalker : (sl.walkers lay)[w]? = some x) (hwork : x.work = some p) (hp : p.members = [q]) (hkind : q.next.ckind = 4)
    (hc : env.ctx? p.ctx = some c) (hhead : sl.nodeBytes env lay p p.obj 128 = .ok head)
    (hbs : sl.nodeBytes env lay p p.obj (objectBytes c.tree 4 p.obj head) = .ok bs) :
    ∃ n, sl.testLeaf env lay w =
      ((((sl.looked (sl.nodeUsed env lay p.ctx p.obj (objectBytes c.tree 4 p.obj head)).cache n).settle env
        (visitTriangles c.tree (rootRef env c) bs q).1).setWork lay w none).resumeWalker env lay w) := by
  obtain ⟨n, hn⟩ := Slice.visitBytes_there (w := w) (t := c.tree) (ckind := 4) hhead hbs
  unfold Slice.testLeaf
  rw [hwalker, Option.bind_some, hwork]
  dsimp only
  rw [hc, hp]
  dsimp only [List.head?_cons]
  rw [if_neg (by simp [hkind]), hn]
  dsimp only [List.map_cons, List.map_nil, List.foldl_cons, List.foldl_nil]
  generalize (sl.nodeUsed env lay p.ctx p.obj (objectBytes c.tree 4 p.obj head)).cache = k
  have hlooked : ∃ m, sl.looked k n = sl.looked k m := ⟨n, rfl⟩
  have hcounted {t : Slice} (h : ∃ m, t = sl.looked k m) (a : Adv) : ∃ m, ((t.settle env a).setWork lay w none).resumeWalker env lay w =
      (((sl.looked k m).settle env a).setWork lay w none).resumeWalker env lay w := h.imp fun m hm => by rw [hm]
  exact hcounted (Slice.count_looked (Slice.count_looked (Slice.count_looked (Slice.count_looked hlooked _ _ _ _) _ _ _ _) _ _ _ _) _ _ _ _) _

/-! ### A packet that begins (R198, R203) -/

/-- The bytes behind an object of 128 bytes that is there are there too: none, or in its last line. -/
theorem Slice.nodeBytes_behind {env : Capstan} {sl : Slice} {lay : Nat} {p : Packet} {a : Nat} {bs : List Byte}
    (h : sl.nodeBytes env lay p a 128 = .ok bs) : ∃ xs, sl.nodeBytes env lay p (a + 128) 0 = .ok xs := by
  have hthere : ∀ l ∈ nodeLines a 128, (sl.nodeLine env lay p.ctx p.got l).isNone = false := by
    intro l hl
    unfold Slice.nodeBytes at h
    dsimp only at h
    split at h
    · cases h
    · next hfind => exact Bool.eq_false_iff.mpr (List.find?_eq_none.mp hfind l hl)
  have hlast : ∀ l ∈ nodeLines (a + 128) 0, l ∈ nodeLines a 128 := by
    intro l hl
    obtain ⟨i, hi, rfl⟩ := List.mem_map.mp hl
    rw [List.mem_range] at hi
    exact List.mem_map.mpr ⟨i + 1, List.mem_range.mpr (by omega), by omega⟩
  unfold Slice.nodeBytes
  dsimp only
  rw [List.find?_eq_none.mpr fun l hl => by simp [hthere l (hlast l hl)]]
  exact ⟨_, rfl⟩

/-- A fold over members of which none does anything leaves them all. -/
theorem Slice.firstSteps_none (env : Capstan) (sl : Slice) {r : RootRef} {ms : List Query} (h : ∀ q ∈ ms, q.first r = none) :
    sl.firstSteps env r ms = (sl, ms) := by
  have hfold (xs done : List Query) (hxs : ∀ q ∈ xs, q.first r = none) : xs.foldl (fun (acc : Slice × List Query) q => match q.first r with
      | some a => (acc.1.settle env a, acc.2)
      | none => (acc.1, acc.2 ++ [q])) (sl, done) = (sl, done ++ xs) := by
    induction xs generalizing done with
    | nil => simp
    | cons q xs ih =>
      rw [List.foldl_cons, hxs q List.mem_cons_self]
      dsimp only
      rw [ih _ fun y hy => hxs y (List.mem_cons_of_mem q hy)]
      simp
  exact hfold ms [] h

theorem Slice.judge_none (env : Capstan) (sl : Slice) {f : Query → Option FaultAt} {ms : List Query} (h : ∀ q ∈ ms, f q = none) :
    sl.judge env ms f = (sl, ms) := by
  have hfold (xs done : List Query) (hxs : ∀ q ∈ xs, f q = none) : xs.foldl (fun (acc : Slice × List Query) q => match f q with
      | some x => (acc.1.treeFault env q x, acc.2)
      | none => (acc.1, acc.2 ++ [q])) (sl, done) = (sl, done ++ xs) := by
    induction xs generalizing done with
    | nil => simp
    | cons q xs ih =>
      rw [List.foldl_cons, hxs q List.mem_cons_self]
      dsimp only
      rw [ih _ fun y hy => hxs y (List.mem_cons_of_mem q hy)]
      simp
  exact hfold ms [] h

/-- A packet at a box node that is there, all of whose members stay, is the walker's work. -/
theorem Slice.startPacket_box {env : Capstan} {sl : Slice} {lay w : Nat} {p : Packet} {c : Ctx} {bs : List Byte} (hc : env.ctx? p.ctx = some c)
    (hmembers : p.members ≠ []) (hread : unreadable c.tree 1 p.obj 128 = none) (hbs : sl.nodeBytes env lay p p.obj 128 = .ok bs)
    (hbox : byteAt bs 0 % 16 = 1)
    (hstay : ∀ q ∈ p.members, q.first (rootRef env c) = none ∧ q.next.ckind = 1 ∧ sl.migratesTo env q = none) :
    ∃ n, sl.startPacket env lay w p = (sl.setWalker lay w (fun x => { x with work := some p })).looked sl.cache n := by
  have hdue : p.members.filter (fun q => (sl.migratesTo env q).isSome) = [] :=
    List.filter_eq_nil_iff.mpr fun q hq => by simp [(hstay q hq).2.2]
  have hhere : p.members.filter (fun q => (sl.migratesTo env q).isNone) = p.members :=
    List.filter_eq_self.mpr fun q hq => by simp [(hstay q hq).2.2]
  have hempty : ¬ p.members.isEmpty = true := by simpa using hmembers
  have hreadable : ∀ q ∈ p.members, unreadable c.tree q.next.ckind p.obj (headBytes q.next.ckind) = none := fun q hq => by
    rw [(hstay q hq).2.1]
    exact hread
  obtain ⟨xs, hxs⟩ := Slice.nodeBytes_behind hbs
  have hlook (s : Slice) (a n : Nat) : ∃ k, s.lookUp env lay p a n = (s.nodeBytes env lay p a n, s.looked s.cache k) := ⟨_, rfl⟩
  obtain ⟨k1, hk1⟩ := hlook sl p.obj 128
  obtain ⟨k2, hk2⟩ := hlook (sl.looked sl.cache k1) (p.obj + 128) (128 - 128)
  have hwrong : ∀ q ∈ p.members, (if q.next.ckind = 1 then none else some ({ cause := .badKind, addr := p.obj } : FaultAt)) = none :=
    fun q hq => if_pos (hstay q hq).2.1
  have hxs' : (sl.looked sl.cache k1).nodeBytes env lay p (p.obj + 128) (128 - 128) = .ok xs := hxs
  unfold Slice.startPacket
  rw [hc]
  dsimp only
  rw [Slice.firstSteps_none env sl fun q hq => (hstay q hq).1]
  dsimp only
  rw [hdue, hhere, List.foldl_nil, Slice.judge_none env sl hreadable]
  dsimp only
  rw [if_neg hempty, hk1, hbs]
  dsimp only
  rw [hbox, Slice.judge_none env _ hwrong]
  dsimp only
  rw [if_neg hempty, if_neg (by decide), if_neg (by decide)]
  have hsize : objectBytes c.tree 1 p.obj bs = 128 := rfl
  rw [hsize, hk2, hxs']
  exact ⟨k2, rfl⟩

theorem Slice.packet_whole {b : Bin} {now : Nat} (hfew : b.members.length ≤ 64) (hbefore : ∀ q ∈ b.members, q.entered < now) :
    b.packet now = b.members := by
  rw [Bin.packet, List.filter_eq_self.mpr fun q hq => decide_eq_true (hbefore q hq), List.take_of_length_le hfew]

/-- An entry of an indexed list names the place where it stands. -/
theorem getElem?_of_mem_indexed {α : Type} {xs : List α} {e : Nat × α} (h : e ∈ indexed xs) : xs[e.1]? = some e.2 := by
  obtain ⟨k, hk⟩ := List.mem_iff_getElem?.mp h
  obtain ⟨hrange, hat⟩ := List.getElem?_zip_eq_some.mp hk
  obtain ⟨hk', heq⟩ := List.getElem?_eq_some_iff.mp hrange
  rw [List.getElem_range] at heq
  rw [← heq, hat]

/-- A walker that is free stands in its lay. -/
theorem Slice.freeWalker_at {sl : Slice} {lay w : Nat} (h : sl.freeWalker lay = some w) : ∃ x, (sl.walkers lay)[w]? = some x := by
  unfold Slice.freeWalker at h
  obtain ⟨e, hfind, rfl⟩ := Option.map_eq_some_iff.mp h
  have hat := getElem?_of_mem_indexed (List.mem_of_find?_eq_some hfind)
  rw [List.getElem?_take] at hat
  split at hat
  · exact ⟨_, hat⟩
  · cases hat

/-- The slice without the bins of a bin's key. -/
def Slice.withoutBin (sl : Slice) (b : Bin) (n : Counters) : Slice :=
  { sl with mash := { sl.mash with bins := sl.mash.bins.filter (fun x => !b.same x) }, cnt := n }

/-- A bin all of whose members leave as a packet. -/
theorem Slice.releaseBin_whole {env : Capstan} {sl : Slice} {lay w : Nat} {b : Bin} (hlay : sl.layRuns lay = true) (hfree : sl.freeWalker lay = some w)
    (hhead : sl.headBin env lay = (some b, [])) (hpacket : b.packet sl.time = b.members) :
    ∃ n, sl.releaseBin env lay = (sl.withoutBin b n).startPacket env lay w
        { ctx := b.ctx, obj := b.obj, miss := 0, reg := 0, members := b.members } := by
  unfold Slice.releaseBin
  rw [if_neg (by simp [hlay]), hhead]
  dsimp only [Slice.restoreAll, List.foldl_nil]
  rw [hfree]
  simp only [hpacket, List.drop_length, List.isEmpty_nil, if_true]
  exact ⟨_, rfl⟩

/-- A slice's view of the contexts does not concern where a root pointer stands. -/
theorem rootRef_view (env : Capstan) (sl : Slice) (c : Ctx) : rootRef (sl.view env) c = rootRef env c := rfl

theorem exec_binRelease_takes {s : State} {i lay : Nat} {sl t : Slice} (hw : s.working i sl) (he : sl.releaseBin (sl.view s.cap) lay = t)
    (hpwr : t.pwr = sl.pwr) (hmail : t.mail = sl.mail) : exec (.binRelease i lay) s = .next (s.put i t) := by
  rw [exec_binRelease, execBinRelease]
  refine onLive_eq hw ?_ (congrArg SlicePower.napping hpwr) hmail
  rw [Slice.leavingReads_nil _ _ _ (Slice.running_of_works hw.2.1), he]

theorem exec_boxNodeVisit_visits {s : State} {i lay w : Nat} {sl t : Slice} (hw : s.working i sl) (he : sl.visitNode (sl.view s.cap) lay w = t)
    (hpwr : t.pwr = sl.pwr) (hmail : t.mail = sl.mail) : exec (.boxNodeVisit i lay w) s = .next (s.put i t) := by
  rw [exec_boxNodeVisit, execBoxNodeVisit]
  refine onLive_eq hw ?_ (congrArg SlicePower.napping hpwr) hmail
  rw [Slice.visitReads_nil _ _ _ _ (Slice.running_of_works hw.2.1), he]

theorem exec_boxNodeVisit_ends {s : State} {i lay w : Nat} {sl t : Slice} {m : RopeMsg} (hw : s.working i sl)
    (he : sl.visitNode (sl.view s.cap) lay w = t) (hpwr : t.pwr = sl.pwr) (hmail : t.mail = sl.mail ++ [.send m]) :
    exec (.boxNodeVisit i lay w) s = .next { s.put i { t with mail := [] } with rope := s.rope ++ [m] } := by
  rw [exec_boxNodeVisit, execBoxNodeVisit]
  refine onLive_sends hw ?_ hpwr (by rw [hmail, s.mail_of i sl hw.1 hw.2.2.2, List.nil_append])
  rw [Slice.visitReads_nil _ _ _ _ (Slice.running_of_works hw.2.1), he]

theorem exec_primitiveTest_ends {s : State} {i lay w : Nat} {sl t : Slice} {m : RopeMsg} (hw : s.working i sl)
    (he : sl.testLeaf (sl.view s.cap) lay w = t) (hpwr : t.pwr = sl.pwr) (hmail : t.mail = sl.mail ++ [.send m]) :
    exec (.primitiveTest i lay w) s = .next { s.put i { t with mail := [] } with rope := s.rope ++ [m] } := by
  rw [exec_primitiveTest, execPrimitiveTest]
  refine onLive_sends hw ?_ hpwr (by rw [hmail, s.mail_of i sl hw.1 hw.2.2.2, List.nil_append])
  rw [Slice.visitReads_nil _ _ _ _ (Slice.running_of_works hw.2.1), he]

/-- Keys compared the other way round. -/
theorem Bin.same_comm (b x : Bin) : b.same x = (x.ctx = b.ctx && x.obj = b.obj && x.octant = b.octant && x.lay = b.lay) := by
  rw [Bool.eq_iff_iff]
  simp only [Bin.same, Bool.and_eq_true, decide_eq_true_eq]
  constructor
  · rintro ⟨⟨⟨hlay, hctx⟩, hobj⟩, hoct⟩
    exact ⟨⟨⟨hctx.symm, hobj.symm⟩, hoct.symm⟩, hlay.symm⟩
  · rintro ⟨⟨⟨hctx, hobj⟩, hoct⟩, hlay⟩
    exact ⟨⟨⟨hlay.symm, hctx.symm⟩, hobj.symm⟩, hoct.symm⟩

end Sys2Proof.Machine

open Sys2Proof Sys2Proof.Machine

/-- Settles O41: a packet of a whole bin begins at its walker; a packet of one query ends with what its visit settles. -/
theorem packetsAreTakenAndVisit : Obligations.PacketsAreTakenAndVisit := by
  unfold Obligations.PacketsAreTakenAndVisit
  refine ⟨fun s i lay w sl b c p bs hw _ hlay hfree hhead hmembers hfew hbefore hc hread hp hbs hbox hstay => ?_,
    fun s i lay w sl p q q' c bs hw _ hwalker hp hkind hc hbs hvisit hleaf hc' hstays hreplay hopens => ?_,
    fun s i lay w sl p q q' c bs hw _ hwalker hp hkind hc hbs hvisit hhome hguest hreplay => ?_,
    fun s i lay w sl p q q' c head bs hw _ hwalker hp hkind hc hhead hbs hvisit hhome hguest hreplay => ?_⟩
  · obtain ⟨x, hx⟩ := Slice.freeWalker_at hfree
    obtain ⟨n, hn⟩ := Slice.releaseBin_whole (sl := sl) hlay hfree hhead (Slice.packet_whole hfew hbefore)
    rw [← hp] at hn
    have hmembers' : p.members = b.members := by rw [hp]
    have hobj : p.obj = b.obj := by rw [hp]
    have hctx : p.ctx = b.ctx := by rw [hp]
    obtain ⟨m, hm⟩ := Slice.startPacket_box (env := sl.view s.cap) (w := w) (p := p)
      (sl := sl.withoutBin b n)
      (by rw [hctx]; exact hc) (by rw [hmembers']; exact hmembers) (by rw [hobj]; exact hread) (by rw [hobj]; exact hbs) hbox
      (by rw [hmembers']; exact hstay)
    have hset := Slice.walkers_setWalker (sl := sl.withoutBin b n) (fun x => { x with work := some p }) hx
    refine ⟨_, exec_binRelease_takes hw (hn.trans hm) rfl rfl, congrArg (fun y => y.bind (·.work)) hset, ?_, rfl, rfl⟩
    simp only [← Bin.same_comm]
    rfl
  · obtain ⟨n, hn⟩ := Slice.visitNode_box (sl := sl) (env := sl.view s.cap) hwalker rfl hp hkind hc hbs
    have hsettle := Slice.settle_bins (sl.view s.cap) (sl := sl.looked (sl.nodeUsed (sl.view s.cap) lay p.ctx p.obj 128).cache n) hstays
      (by rw [hleaf]; decide) hreplay hc' hopens
    have hsplit := Slice.split_one (sl.view s.cap) (sl := sl.looked (sl.nodeUsed (sl.view s.cap) lay p.ctx p.obj 128).cache n) (lay := lay) (w := w)
      (c := c) (a := .go q') (x := some p) (fun y hy => by cases hy; rw [hleaf]; decide) (by rw [hsettle]; exact hwalker)
    obtain ⟨⟨wk, m, hm⟩, hfreed⟩ := hsplit
    rw [hm, hsettle] at hfreed
    rw [hsettle] at hm
    rw [rootRef_view, hvisit] at hn
    exact ⟨_, exec_boxNodeVisit_visits hw (hn.trans hm) rfl rfl, hfreed, rfl, rfl, rfl⟩
  · obtain ⟨n, hn⟩ := Slice.visitNode_box (sl := sl) (env := sl.view s.cap) hwalker rfl hp hkind hc hbs
    have hsettle := Slice.settle_ends (sl.view s.cap) (sl := sl.looked (sl.nodeUsed (sl.view s.cap) lay p.ctx p.obj 128).cache n) hhome hguest hreplay
    have hsplit := Slice.split_one (sl.view s.cap) (sl := sl.looked (sl.nodeUsed (sl.view s.cap) lay p.ctx p.obj 128).cache n) (lay := lay) (w := w)
      (c := c) (a := .ended q') (x := some p) (fun y hy => by cases hy) (by rw [hsettle]; exact hwalker)
    obtain ⟨⟨wk, m, hm⟩, hfreed⟩ := hsplit
    rw [hm, hsettle] at hfreed
    rw [hsettle] at hm
    rw [rootRef_view, hvisit] at hn
    exact ⟨_, exec_boxNodeVisit_ends hw (hn.trans hm) rfl rfl, hfreed, rfl, rfl, rfl⟩
  · obtain ⟨n, hn⟩ := Slice.testLeaf_one (sl := sl) (env := sl.view s.cap) hwalker rfl hp hkind hc hhead hbs
    have hsettle := Slice.settle_ends (sl.view s.cap)
      (sl := sl.looked (sl.nodeUsed (sl.view s.cap) lay p.ctx p.obj (objectBytes c.tree 4 p.obj head)).cache n) hhome hguest hreplay
    have hends := Slice.endPacket_frees (sl.view s.cap) (lay := lay) (w := w) (x := some p)
      (sl := (sl.looked (sl.nodeUsed (sl.view s.cap) lay p.ctx p.obj (objectBytes c.tree 4 p.obj head)).cache n).settle (sl.view s.cap) (.ended q'))
      (by rw [hsettle]; exact hwalker)
    obtain ⟨⟨wk, m, hm⟩, hfreed⟩ := hends
    rw [hm, hsettle] at hfreed
    rw [hsettle] at hm
    rw [rootRef_view, hvisit, hsettle] at hn
    exact ⟨_, exec_primitiveTest_ends hw (hn.trans hm) rfl rfl, hfreed, rfl, rfl, rfl⟩
end

section
/-!
Ways of a slice cache that are gated and wake (R330 to R332, R354, R355).
-/

namespace Sys2Proof.Machine

/-! ### Requests (R354, R355) -/

/-- The value of SC_WAY_RESULT, by outcome, way and action. -/
theorem wayResult_eq {code w action v : Nat} (hcode : code < 256) (hw : w < 16) (haction : action < 4)
    (hv : code + 256 * w + 4096 * action + 16384 = v) : wayResult code w action = BitVec.ofNat 64 v := by
  have hvalid : flag true 14 = 16384 := rfl
  have hplaces : place code 8 0 + place w 4 8 + place action 2 12 + flag true 14 = v := by
    rw [hvalid]
    simp only [place, Nat.shiftLeft_eq]
    omega
  rw [wayResult, hplaces]

theorem Slice.gateWay_locked {env : Capstan} {sl : Slice} {w : Nat} (h : bit (lockMask env) w = true) :
    sl.gateWay env w = { sl with cache := { sl.cache with result := wayResult wayLocked w 1 } } := by
  unfold Slice.gateWay
  dsimp only
  rw [if_pos h]
  rfl

/-- A way that may be gated drains, and its fills are not installed (R331 step 1). -/
theorem Slice.gateWay_accepted {env : Capstan} {sl : Slice} {w : Nat} (hlock : bit (lockMask env) w = false)
    (hmin : sl.cache.breaksMinimum env w = false) (hbusy : sl.cache.wayBusy w = false) (hway : sl.cache.way w = .active) :
    sl.gateWay env w = { sl with cache := { sl.cache with
      ways := sl.cache.ways.set w .draining
      misses := sl.cache.misses.map (fun m => if m.way = w then { m with st := .noInstall } else m)
      result := wayResult wayAccepted w 1 } } := by
  have hmark : updateWhere (fun m => decide (m.way = w)) (fun (m : ScMiss) => { m with st := .noInstall }) sl.cache.misses =
      sl.cache.misses.map (fun m => if m.way = w then { m with st := .noInstall } else m) := by
    simp [updateWhere]
  unfold Slice.gateWay
  dsimp only
  rw [if_neg (Bool.eq_false_iff.mp hlock), if_neg (Bool.eq_false_iff.mp hmin), if_neg (Bool.eq_false_iff.mp hbusy), if_neg (by simp [hway]), hmark]
  rfl

theorem Slice.ungateWay_accepted {sl : Slice} {w : Nat} (hbusy : sl.cache.wayBusy w = false) (hway : sl.cache.way w = .gated)
    (hlost : ¬ w ∈ sl.cache.lostWays) :
    sl.ungateWay w = { sl with cache := { sl.cache with ways := sl.cache.ways.set w .waking, result := wayResult wayAccepted w 2 } } := by
  unfold Slice.ungateWay
  dsimp only
  rw [if_neg (Bool.eq_false_iff.mp hbusy), if_neg (by simp [hway, hlost])]
  rfl

/-- A request at SC_WAY_CTL of a slice that runs, by what it leaves of the slice. -/
theorem sliceWrite_wayRequest {s : State} {i w action : Nat} {sl t : Slice} (h : s.answers i sl) (hstopped : sl.stopped = false) (hw : w < 16)
    (haction : action < 4)
    (he : (if action = 1 then sl.gateWay (sl.view s.cap) w else if action = 2 then sl.ungateWay w else sl) = t) (hmail : t.mail = sl.mail) :
    sliceWrite i 0x3818 (fields [place w 4 0, place action 2 4]) s = .next ((s.put i t).respond 0 0) := by
  refine sliceWrite_effect h (by decide) (by decide) rfl ?_ hmail
  have hvalue := wayCtl_toNat w action
  have hway : (fields [place w 4 0, place action 2 4]).toNat % 16 = w := by omega
  have haction' : (fields [place w 4 0, place action 2 4]).toNat / 16 % 4 = action := by omega
  rw [Slice.writeReg_wayCtl, hstopped, if_neg (by decide), Slice.wayRequest_eq, hway, haction', he]

/-! ### The sweep (R331) -/

/-- Clean lines leave their slots without a place in the eviction buffer. -/
theorem Cache.vacate_clean {c : Cache} {set way : Nat} (h : ∀ l ∈ c.lines, l.set = set → l.way = way → l.dirty = false) :
    c.vacate set way = { c with lines := c.lines.filter (fun l => !(l.set = set && l.way = way)) } := by
  have hnone : (c.lines.filter (fun l => l.set = set && l.way = way)).filter (·.dirty) = [] := by
    refine List.filter_eq_nil_iff.mpr fun l hl => ?_
    obtain ⟨hmem, hat⟩ := List.mem_filter.mp hl
    simp only [Bool.and_eq_true, decide_eq_true_eq] at hat
    simp [h l hmem hat.1 hat.2]
  unfold Cache.vacate
  dsimp only
  rw [hnone, List.foldl_nil]

theorem Cache.canVacate_clean {c : Cache} {set way : Nat} (h : ∀ l ∈ c.lines, l.way = way → l.dirty = false) : c.canVacate set way = true := by
  have hnone : c.lines.any (fun l => l.set = set && l.way = way && l.dirty) = false := by
    refine List.any_eq_false.mpr fun l hl hat => ?_
    simp only [Bool.and_eq_true, decide_eq_true_eq] at hat
    simp [h l hl hat.1.2] at hat
  rw [Cache.canVacate, hnone]
  rfl

/-- The cache with some of its lines. -/
def Cache.withLines (c : Cache) (ls : List Line) : Cache := { c with lines := ls }

/-- Sweeping the clean lines of a way one after the other takes each away, and leaves what stands in other ways. -/
theorem Cache.sweep_clean {w : Nat} (xs : List Line) (hxs : ∀ x ∈ xs, x.way = w) (c : Cache) (hclean : ∀ l ∈ c.lines, l.way = w → l.dirty = false) :
    ∃ ls, xs.foldl (fun (c : Cache) l => if c.canVacate l.set l.way then c.vacate l.set l.way else c) c = c.withLines ls ∧
      (∀ l ∈ ls, l ∈ c.lines ∧ ∀ x ∈ xs, ¬ (l.set = x.set ∧ l.way = w)) ∧ ∀ l ∈ c.lines, l.way ≠ w → l ∈ ls := by
  induction xs generalizing c with
  | nil => exact ⟨c.lines, rfl, fun l hl => ⟨hl, fun x hx => absurd hx List.not_mem_nil⟩, fun l hl _ => hl⟩
  | cons x xs ih =>
    have hway : x.way = w := hxs x List.mem_cons_self
    have hcan : c.canVacate x.set x.way = true := Cache.canVacate_clean fun l hl hl' => hclean l hl (hl'.trans hway)
    have hvacate : c.vacate x.set x.way = c.withLines (c.lines.filter (fun l => !(l.set = x.set && l.way = x.way))) :=
      Cache.vacate_clean fun l hl _ hl' => hclean l hl (hl'.trans hway)
    rw [List.foldl_cons, if_pos hcan, hvacate]
    obtain ⟨ls, hls, hleft, hkept⟩ := ih (fun y hy => hxs y (List.mem_cons_of_mem x hy))
      (c.withLines (c.lines.filter (fun l => !(l.set = x.set && l.way = x.way)))) (fun l hl => hclean l (List.mem_filter.mp hl).1)
    refine ⟨ls, hls, fun l hl => ?_, fun l hl hne => hkept l (List.mem_filter.mpr ⟨hl, ?_⟩) hne⟩
    · obtain ⟨hmem, hnot⟩ := hleft l hl
      obtain ⟨hin, hnot'⟩ := List.mem_filter.mp hmem
      refine ⟨hin, fun y hy hat => ?_⟩
      rcases List.mem_cons.mp hy with rfl | hy
      · simp [hat.1, hat.2, hway] at hnot'
      · exact hnot y hy hat
    · simp [hway, hne]

/-- The sweep of a way whose lines are clean and free empties it. -/
theorem Cache.sweepWay_clean {c : Cache} {w : Nat} (h : ∀ l ∈ c.lines, l.way = w → l.rsv = 0 ∧ l.buf = none ∧ l.dirty = false) :
    ∃ ls, c.sweepWay w = c.withLines ls ∧ (∀ l ∈ ls, l.way ≠ w) ∧ ∀ l ∈ c.lines, l.way ≠ w → l ∈ ls := by
  obtain ⟨ls, hls, hleft, hkept⟩ := Cache.sweep_clean (c.lines.filter (fun l => l.way = w && !l.held))
    (fun x hx => by
      have := (List.mem_filter.mp hx).2
      simp only [Bool.and_eq_true, decide_eq_true_eq] at this
      exact this.1) c (fun l hl hw => (h l hl hw).2.2)
  refine ⟨ls, hls, fun l hl hw => ?_, hkept⟩
  obtain ⟨hin, hnot⟩ := hleft l hl
  obtain ⟨hrsv, hbuf, -⟩ := h l hin hw
  exact hnot l (List.mem_filter.mpr ⟨hin, by simp [hw, Line.held, hrsv, hbuf]⟩) ⟨rfl, hw⟩

/-- The sweep of a draining way without fills, whose lines are clean and free, at a slice on which nothing waits (R331 steps 2 to 4). -/
theorem Slice.sweep_clean (env : Capstan) {sl : Slice} {w : Nat} (hway : sl.cache.way w = .draining) (hfills : ∀ m ∈ sl.cache.misses, m.way ≠ w)
    (hlines : ∀ l ∈ sl.cache.lines, l.way = w → l.rsv = 0 ∧ l.buf = none ∧ l.dirty = false) (hcalm : sl.calm) (hstep : ¬ (w, 4) ∈ sl.cache.wayStep) :
    ∃ t, sl.sweep env w = t ∧ (∀ l ∈ t.cache.lines, l.way ≠ w) ∧ (∀ l ∈ sl.cache.lines, l.way ≠ w → l ∈ t.cache.lines) ∧
      t.cache.evict = sl.cache.evict ∧ t.cache.wayStep = sl.cache.wayStep ++ [(w, 4)] ∧ t.cache.ways = sl.cache.ways ∧ t.pwr = sl.pwr ∧
      t.mail = sl.mail := by
  obtain ⟨ls, hsweep, hempty, hkept⟩ := Cache.sweepWay_clean hlines
  have hmiss : sl.cache.misses.any (fun m => m.way = w) = false := List.any_eq_false.mpr fun m hm => by simp [hfills m hm]
  have hheld : sl.cache.lines.any (fun l => l.way = w && l.held) = false := by
    refine List.any_eq_false.mpr fun l hl hat => ?_
    simp only [Bool.and_eq_true, decide_eq_true_eq] at hat
    obtain ⟨hrsv, hbuf, -⟩ := hlines l hl hat.1
    simp [Line.held, hrsv, hbuf] at hat
  have hswept : (sl.cache.withLines ls).lines.any (fun l => l.way = w) = false := List.any_eq_false.mpr fun l hl => by simp [hempty l hl]
  refine ⟨{ sl with cache := { sl.cache.withLines ls with wayStep := sl.cache.wayStep ++ [(w, 4)] } }, ?_, hempty, hkept, rfl, rfl, rfl, rfl, rfl⟩
  unfold Slice.sweep
  dsimp only
  rw [if_neg (by simp [hway, hmiss, hheld]), hsweep, hswept, if_pos (by rw [show (sl.cache.withLines ls).wayStep = sl.cache.wayStep from rfl, decide_eq_false hstep]; rfl), Slice.cacheMoved_calm]
  · rfl
  · exact hcalm

end Sys2Proof.Machine

open Sys2Proof Sys2Proof.Machine

/-- Settles O34: the requests go by SC_WAY_CTL; the sweep of clean lines empties the way, and calm slices move nothing with it. -/
theorem waysGateAndWake : Obligations.WaysGateAndWake := by
  unfold Obligations.WaysGateAndWake
  refine ⟨⟨fun s i w sl h hstopped hw hlock hmin hbusy hway => ?_, fun s i w sl h hstopped hw hlock => ?_,
    fun s i w sl h hstopped hw hbusy hway hlost => ?_⟩, fun s i w sl hw hway hfills hlines hcalm hstep => ?_,
    fun s i w sl hworks hw hway hstep hevict => ?_, fun s i w sl hworks hw hway hcalm => ?_⟩
  · rw [exec_gate, execGate]
    refine sliceWrite_wayRequest h hstopped hw (by decide) ?_ rfl
    rw [if_pos rfl, Slice.gateWay_accepted (env := sl.view s.cap) hlock hmin hbusy hway, wayResult_eq (v := 0x5006 + 256 * w) (by decide) hw (by decide)
      (by simp only [wayAccepted]; omega)]
  · rw [exec_gate, execGate]
    refine sliceWrite_wayRequest h hstopped hw (by decide) ?_ rfl
    rw [if_pos rfl, Slice.gateWay_locked (env := sl.view s.cap) hlock, wayResult_eq (v := 0x5002 + 256 * w) (by decide) hw (by decide) (by simp only [wayLocked]; omega)]
  · rw [exec_ungate, execUngate]
    refine sliceWrite_wayRequest h hstopped hw (by decide) ?_ rfl
    rw [if_neg (by decide), if_pos rfl, Slice.ungateWay_accepted hbusy hway hlost, wayResult_eq (v := 0x6006 + 256 * w) (by decide) hw (by decide)
      (by simp only [wayAccepted]; omega)]
  · obtain ⟨t, he, hempty, hkept, hevict, hsteps, hways, hpwr, hmail⟩ := Slice.sweep_clean (sl.view s.cap) hway hfills hlines hcalm hstep
    refine ⟨t, ?_, hempty, hkept, hevict, hsteps, hways⟩
    rw [exec_wayCleanSweep, execWayCleanSweep]
    exact onLive_eq hw he (congrArg SlicePower.napping hpwr) hmail
  · rw [exec_wayGated, execWayGated]
    refine onLive_eq hworks ?_ rfl rfl
    have hnone : sl.cache.evict.any (fun e => e.way = some w) = false := List.any_eq_false.mpr fun e he => by simp [hevict e he]
    unfold Slice.gated
    dsimp only
    rw [if_pos (by simp [hway, hstep, hnone]), Cache.outcome, wayResult_eq (v := 0x5001 + 256 * w) (by decide) hw (by decide)
      (by simp only [wayDone]; omega)]
    rfl
  · rw [exec_wayAwake, execWayAwake]
    refine onLive_eq hworks ?_ rfl rfl
    unfold Slice.awake
    rw [if_pos hway, Slice.cacheMoved_calm, Cache.outcome, wayResult_eq (v := 0x6001 + 256 * w) (by decide) hw (by decide)
      (by simp only [wayDone]; omega)]
    · rfl
    · exact hcalm
end

section
/-!
Range maintenance at a slice and at its home (R69, R326, R327).
-/

namespace Sys2Proof.Machine

/-! ### Dirty lines and the eviction buffer -/

/-- Lines that enter the eviction buffer stand behind those in it, and touch nothing else of the cache. -/
theorem Cache.enterBuffer_all (way : Nat) (xs : List Line) (c : Cache) :
    ∃ ev n, xs.foldl (fun (c : Cache) l => c.enterBuffer l.ctx l.tag (some way) l.data l.poison) c = { c with evict := ev, nextEvict := n } ∧
      ev.length = c.evict.length + xs.length := by
  induction xs generalizing c with
  | nil => exact ⟨c.evict, c.nextEvict, rfl, rfl⟩
  | cons x xs ih =>
    obtain ⟨ev, n, he, hlength⟩ := ih (c.enterBuffer x.ctx x.tag (some way) x.data x.poison)
    refine ⟨ev, n, he, ?_⟩
    simp only [Cache.enterBuffer, List.length_append, List.length_cons, List.length_nil] at hlength
    simp only [List.length_cons]
    omega

/-- The places that the dirty lines have or will need in the eviction buffer. -/
def Cache.places (c : Cache) : Nat := (c.lines.filter (fun l => l.dirty)).length + c.evict.length

theorem filter_swap {α : Type} (p q : α → Bool) (xs : List α) : (xs.filter p).filter q = (xs.filter q).filter p := by
  simp only [List.filter_filter, Bool.and_comm]

theorem length_filter_add {α : Type} (p : α → Bool) (xs : List α) : xs.length = (xs.filter p).length + (xs.filter (fun x => !p x)).length := by
  rw [← List.countP_eq_length_filter, ← List.countP_eq_length_filter, List.length_eq_countP_add_countP p]
  simp only [Bool.not_eq_true, Bool.decide_eq_false]

/-- A line that leaves its slot takes the place it needs, and no other. -/
theorem Cache.vacate_places (c : Cache) (set way : Nat) :
    ∃ ls ev n, c.vacate set way = { c with lines := ls, evict := ev, nextEvict := n } ∧ (c.vacate set way).places = c.places := by
  obtain ⟨ev, n, he, hlength⟩ := Cache.enterBuffer_all way ((c.lines.filter (fun l => l.set = set && l.way = way)).filter (fun l => l.dirty))
    { c with lines := c.lines.filter (fun l => !(l.set = set && l.way = way)) }
  have hvacate : c.vacate set way = { c with lines := c.lines.filter (fun l => !(l.set = set && l.way = way)), evict := ev, nextEvict := n } := he
  refine ⟨_, ev, n, hvacate, ?_⟩
  rw [hvacate]
  have hsplit := length_filter_add (fun l => l.set = set && l.way = way) (c.lines.filter (fun l => l.dirty))
  rw [filter_swap, filter_swap _ (fun (l : Line) => !(decide (l.set = set) && decide (l.way = way)))] at hsplit
  dsimp only at hlength
  simp only [Cache.places]
  omega

theorem Cache.canVacate_room {c : Cache} (h : c.places ≤ 64) (set way : Nat) : c.canVacate set way = true := by
  unfold Cache.canVacate Cache.bufferRoom
  by_cases hdirty : c.lines.any (fun l => l.set = set && l.way = way && l.dirty) = true
  · obtain ⟨l, hl, hat⟩ := List.any_eq_true.mp hdirty
    simp only [Bool.and_eq_true] at hat
    have hsome : 0 < (c.lines.filter (fun l => l.dirty)).length := List.length_pos_of_mem (List.mem_filter.mpr ⟨hl, hat.2⟩)
    simp only [Cache.places] at h
    simp only [Bool.or_eq_true, decide_eq_true_eq]
    omega
  · simp [Bool.eq_false_iff.mpr hdirty]

/-- With room for every dirty line the range is clean at once. -/
theorem Cache.cleanLines_room {p : Line → Bool} {c : Cache} (h : c.places ≤ 64) :
    ∃ ls ev n, c.cleanLines p = ([], { c with lines := ls, evict := ev, nextEvict := n }) := by
  unfold Cache.cleanLines
  generalize c.lines.filter (fun l => p l && l.dirty && l.rsv = 0) = xs
  induction xs generalizing c with
  | nil => exact ⟨c.lines, c.evict, c.nextEvict, rfl⟩
  | cons x xs ih =>
    obtain ⟨ls, ev, n, hvacate, hplaces⟩ := c.vacate_places x.set x.way
    obtain ⟨ls', ev', n', hrest⟩ := ih (c := c.vacate x.set x.way) (by rw [hplaces]; exact h)
    refine ⟨ls', ev', n', ?_⟩
    rw [List.foldl_cons, if_pos (Cache.canVacate_room h x.set x.way), hrest, hvacate]

/-- What a descriptor cleans first, where there is room for it. -/
theorem Cache.cleaned_room {p : Line → Bool} {c : Cache} {clean : Bool} (h : clean = true → c.places ≤ 64) :
    ∃ ls ev n, (if clean then c.cleanLines p else ([], c)) = ([], { c with lines := ls, evict := ev, nextEvict := n }) := by
  cases clean with
  | true => exact Cache.cleanLines_room (h rfl)
  | false => exact ⟨c.lines, c.evict, c.nextEvict, rfl⟩

/-- A line that is left after lines were dropped is doomed and reserved where it was to go. -/
theorem Cache.dropLines_left {p : Line → Bool} {c : Cache} {l : Line} (h : l ∈ (c.dropLines p).lines) :
    (∃ l', p l' = true ∧ l.rsv ≠ 0 ∧ l = { l' with doomed := true }) ∨ p l = false := by
  obtain ⟨l', -, hkeep⟩ := List.mem_filterMap.mp h
  by_cases hp : p l' = true
  · rw [if_pos hp] at hkeep
    by_cases hrsv : l'.rsv = 0
    · simp [hrsv] at hkeep
    · rw [if_neg hrsv, Option.some_inj] at hkeep
      exact .inl ⟨l', hp, by rw [← hkeep]; exact hrsv, hkeep.symm⟩
  · rw [if_neg hp, Option.some_inj] at hkeep
    exact .inr (by rw [← hkeep]; exact Bool.eq_false_iff.mpr hp)

/-! ### A descriptor at a slice -/

/-- What a descriptor leaves of a slice on which nothing waits (R326, R327). -/
theorem Slice.applyMaint_calm (env : Capstan) {sl : Slice} {d : MaintMsg} (hcalm : sl.calm) (hroom : d.clean = true → sl.cache.places ≤ 64) :
    ∃ t, sl.applyMaint env d = t ∧ t.pwr = sl.pwr ∧ t.mail = sl.mail ∧
      (∃ j, t.cache.maintIn = sl.cache.maintIn ++ [j] ∧ j.msg = d) ∧
      (∀ l ∈ t.cache.lines, d.ofCtx env l.ctx = true → d.covers l.tag 256 = true → l.doomed = true ∧ l.rsv ≠ 0) ∧
      ∀ lay < 2, ∀ l ∈ t.cache.node lay, d.ofCtx env l.ctx = true → d.covers l.addr 128 = false := by
  obtain ⟨ls, ev, n, hclean⟩ := Cache.cleaned_room (p := fun l => d.ofCtx env l.ctx && d.covers l.tag 256)
    (c := ((sl.cache.maintNode env 0 d).1.maintNode env 1 d).1) hroom
  unfold Slice.applyMaint
  dsimp only
  rw [hclean]
  dsimp only
  rw [List.foldl_nil, Slice.cacheMoved_calm]
  · refine ⟨_, rfl, rfl, rfl, ⟨_, rfl, rfl⟩, fun l hl hctx hcovers => ?_, fun lay hlay l hl hctx => ?_⟩
    · rcases Cache.dropLines_left hl with ⟨l', -, hrsv, he⟩ | hout
      · exact ⟨by rw [he], hrsv⟩
      · simp [hctx, hcovers] at hout
    · have hout : !(d.ofCtx env l.ctx && d.covers l.addr 128) := by
        match lay with
        | 0 => exact (List.mem_filter.mp hl).2
        | 1 => exact (List.mem_filter.mp hl).2
      simpa [hctx] using hout
  · exact hcalm

/-! ### Acknowledgements -/

/-- The one descriptor of a slice, whose conditions hold and that lost no locked line, is acknowledged to its home, where that is the slice itself (R69, R326). -/
theorem Slice.ackMaint_met {env : Capstan} {sl : Slice} {d : MaintIn} (h : sl.cache.maintIn = [d]) (hmet : sl.maintMet env d = true)
    (hlocked : d.locked = 0) (hhome : d.msg.home = sl.id) (hmail : sl.mail = []) :
    sl.ackMaint env = { sl with
      cache := { sl.cache with maintIn := [] }
      mail := [.send { src := sl.id, dest := sl.id, epoch := sl.rope.epoch, body := .maintAck d.msg sl.id }] } := by
  have hfirst : sl.cache.maintIn.find? (sl.maintMet env) = some d := by rw [h, List.find?_cons_of_pos hmet]
  unfold Slice.ackMaint
  rw [hfirst]
  dsimp only
  rw [if_pos hlocked, h, List.erase_cons_head, hhome]
  unfold Slice.send
  dsimp only
  rw [if_pos rfl, Slice.tell, hmail, List.nil_append]

theorem Slice.ackMaint_unmet {env : Capstan} {sl : Slice} (h : ∀ d ∈ sl.cache.maintIn, sl.maintMet env d = false) : sl.ackMaint env = sl := by
  have hnone : sl.cache.maintIn.find? (sl.maintMet env) = none := List.find?_eq_none.mpr fun d hd => by simp [h d hd]
  unfold Slice.ackMaint
  rw [hnone]

/-- The home notes an acknowledgement; the descriptor does not land while another live slice owes its own (R326, R506). -/
theorem Slice.takeMaintAck_notes {env : Capstan} {sl : Slice} {o : MaintOut} {n j : Nat} (h : sl.ing.maintOut = [o]) (hn : ¬ n ∈ o.acks)
    (hj : j < env.n) (hlive : env.isLive j = true) (hne : j ≠ n) (howed : ¬ j ∈ o.acks) :
    sl.takeMaintAck env o.msg n = { sl with ing := { sl.ing with maintOut := [{ o with acks := o.acks ++ [n] }] } } := by
  have hfirst : sl.ing.maintOut.find? (fun x => x.msg = o.msg) = some o := by simp [h]
  have hnoted : updateWhere (fun x => decide (x.msg = o.msg)) (fun _ => ({ o with acks := o.acks ++ [n] } : MaintOut)) sl.ing.maintOut =
      [{ o with acks := o.acks ++ [n] }] := by simp [h, updateWhere]
  have hmissing : (env.ids.filter env.isLive).all (fun i => decide (i ∈ o.acks ++ [n])) = false := by
    refine List.all_eq_false.mpr ⟨j, List.mem_filter.mpr ⟨List.mem_range.mpr hj, hlive⟩, ?_⟩
    simp [howed, hne]
  unfold Slice.takeMaintAck
  rw [hfirst]
  dsimp only
  rw [if_neg hn, hnoted, Slice.maintLands, if_neg (by rw [hmissing]; decide)]

end Sys2Proof.Machine

open Sys2Proof Sys2Proof.Machine

/-- Settles O35: with room for the dirty lines nothing is late, what a descriptor leaves in its range is doomed; the acknowledgements go by
`ackMaint` and `takeMaintAck`. -/
theorem maintenanceIsApplied : Obligations.MaintenanceIsApplied := by
  unfold Obligations.MaintenanceIsApplied
  refine ⟨fun s i k sl m d hw hhold hm hfirst hdest hbody hcalm hroom => ?_, fun s i sl d hw hid hin hmet hlocked hhome => ?_,
    fun s i sl hw hunmet => ?_, fun s i j k n sl m o hw hhold hm hfirst hdest hout hbody hn hj hlive hne howed => ?_⟩
  · obtain ⟨t, he, hpwr, hmail, hjob, hlines, hnodes⟩ := Slice.applyMaint_calm (sl.view s.cap) hcalm hroom
    refine ⟨{ s.put i t with rope := s.rope.eraseIdx k }, t, ?_, rfl, ?_, hjob, hlines, hnodes, rfl⟩
    · rw [exec_maintDesc, execMaintDesc]
      refine onArrival_eq hw hhold hm hdest hfirst ?_ hpwr hmail
      rw [hbody]
      dsimp only
      rw [he]
    · exact List.getElem?_set_self (List.getElem?_eq_some_iff.mp hw.1).1
  · rw [exec_maintConditionsMet, execMaintConditionsMet]
    have hmail : sl.mail = [] := s.mail_of i sl hw.1 hw.2.2.2
    refine (onLive_sends hw (Slice.ackMaint_met hin hmet hlocked (hhome.trans hid.symm) hmail) rfl rfl).trans ?_
    rw [hid, ← hmail]
  · rw [exec_maintConditionsMet, execMaintConditionsMet]
    exact onLive_same hw (Slice.ackMaint_unmet hunmet)
  · rw [exec_maintAck, execMaintAck]
    refine onArrival_eq hw hhold hm hdest hfirst ?_ rfl rfl
    rw [hbody]
    dsimp only
    rw [Slice.takeMaintAck_notes (env := sl.view s.cap) hout hn hj (by simpa [Capstan.isLive] using hlive) hne howed]
end

section
/-!
Sectors that fill a line, node-cache fills, and acknowledged writes of the eviction buffer (R312, R313, R316, R323 to R325).
-/

namespace Sys2Proof.Machine

/-! ### Sectors on their way to the readers (R316) -/

theorem updateAt_still {α : Type} {f : α → α} {xs : List α} (h : ∀ x ∈ xs, f x = x) (i : Nat) : updateAt f i xs = xs := by
  refine List.ext_getElem? fun k => ?_
  rw [updateAt_getElem?]
  split
  · cases hx : xs[k]? with
    | none => rfl
    | some x => rw [Option.map_some, h x (List.mem_of_getElem? hx)]
  · rfl

theorem updateWhere_still {α : Type} {f : α → α} (p : α → Bool) (xs : List α) (h : ∀ x, f x = x) : updateWhere p f xs = xs := by
  simp [updateWhere, h]

theorem Slice.retryRuns_none (env : Capstan) {sl : Slice} (h : sl.work.runs = []) : sl.retryRuns env = sl := by
  unfold Slice.retryRuns
  rw [h, List.foldl_nil, ← h]

/-- Only the RESTORE stream keeps sectors (R360, R363). -/
theorem Slice.giveStream_other (sl : Slice) {i : Nat} (h : i ≠ restoreStream) (index : Nat) (sectors : List (Nat × List Byte)) (poison : List Nat) :
    sl.giveStream i index sectors poison = sl := by
  unfold Slice.giveStream Slice.onStream
  dsimp only
  rw [updateAt_still]
  intro x _
  rw [updateWhere_still]
  exact fun t => if_neg h

/-- Requesters that look for their line when they need it: neither node-cache registers nor runs, nor readers of the combining areas, of the
ledgers and of the RESTORE stream. -/
def Requester.looks : Requester → Bool
  | .node _ _ => false
  | .run _ _ => false
  | .comb _ => false
  | .ledger _ => false
  | .stream j _ => j != 15
  | _ => true

theorem Slice.giveSectors_looks (sl : Slice) (sectors : List (Nat × List Byte)) {r : Requester} (h : r.looks = true) :
    sl.giveSectors sectors r = sl := by
  cases r with
  | stream i j => exact sl.giveStream_other (by simpa [Requester.looks, restoreStream] using h) j sectors []
  | run _ _ => exact absurd h (by simp [Requester.looks])
  | comb _ => exact absurd h (by simp [Requester.looks])
  | ledger _ => exact absurd h (by simp [Requester.looks])
  | _ => rfl

theorem Slice.feedReaders_look (env : Capstan) {sl : Slice} {m : ScMiss} (hruns : sl.work.runs = []) (h : m.waiters.all Requester.looks = true) :
    sl.feedReaders env m = sl := by
  have hreaders : ∀ r ∈ m.readers, r.looks = true := fun r hr => List.all_eq_true.mp h r (List.takeWhile_subset _ hr)
  unfold Slice.feedReaders
  split
  · rfl
  · rw [foldl_still _ _ _ (fun r hr => sl.giveSectors_looks m.sectors (hreaders r hr)), Slice.retryRuns_none env hruns]

/-! ### The register of a fill -/

/-- The register with one more sector. -/
def ScMiss.withSector (m : ScMiss) (k : Nat) (data : List Byte) : ScMiss := { m with got := m.got ++ [(k, data)] }

/-- The slice with one miss register. -/
def Slice.withMiss (sl : Slice) (m : ScMiss) : Slice := { sl with cache := { sl.cache with misses := [m] } }

/-- Without node-cache registers on its list none has its half. -/
theorem Cache.giveHalves_none (c : Cache) {m : ScMiss} (h : ∀ lay reg, ¬ Requester.node lay reg ∈ m.waiters) : c.giveHalves m = (c, m) := by
  unfold Cache.giveHalves
  dsimp only
  rw [List.filter_eq_nil_iff.mpr, List.filter_eq_self.mpr]
  · rfl
  · intro r hr
    cases r with
    | node lay reg => exact absurd hr (h lay reg)
    | _ => rfl
  · intro r hr
    cases r with
    | node lay reg => exact absurd hr (h lay reg)
    | _ => simp

/-- The only requester, a node-cache register of lay 0, has its half. -/
theorem Cache.giveHalves_node {c : Cache} {m : ScMiss} {x : NcMiss} {d : List Byte} (hm : m.waiters = [.node 0 x.reg]) (hx : c.nodeMiss0 = [x])
    (haddr : lineAddr x.addr = m.addr) (hctx : x.ctx = m.ctx) (hhalf : m.half x.addr = some d) :
    c.giveHalves m = ({ c with nodeMiss0 := [{ x with ready := some d }] }, { m with waiters := [] }) := by
  have hawaits : NcMiss.awaits m.ctx m.addr x.reg x = true := by simp [NcMiss.awaits, haddr, hctx]
  have hfind : ((c.nodeMiss 0).find? (NcMiss.awaits m.ctx m.addr x.reg)).bind (fun x => m.half x.addr) = some d := by
    rw [show c.nodeMiss 0 = [x] from hx, List.find?_cons_of_pos hawaits]
    exact hhalf
  unfold Cache.giveHalves
  dsimp only
  rw [hm]
  simp only [List.filter_cons, List.filter_nil, hfind, Option.isSome_some, Option.isNone_some, if_true, List.foldl_cons, List.foldl_nil]
  rw [show c.nodeMiss 0 = [x] from hx, updateWhere_one hawaits]
  rfl

/-- A sector of the only register, in its turn: not the last, it goes on to the readers. -/
theorem Slice.sectorArrives_feeds (env : Capstan) {sl : Slice} {m m' : ScMiss} {c : Cache} {k : Nat} {data : List Byte} (hm : sl.cache.misses = [m])
    (hk : k = (m.first + m.got.length) % 8) (hdata : data.length = 32) (hlength : m.got.length < 7)
    (hgive : sl.cache.giveHalves (m.withSector k data) = (c, m')) (hc : c.misses = [m]) (hgot : m'.got = m.got ++ [(k, data)]) :
    sl.sectorArrives env m.reg k data false false = ({ sl with cache := { c with misses := [m'] } }).feedReaders env m' := by
  have hpad : ({ m with got := m.got ++ [(k, padTo 32 data)] } : ScMiss) = m.withSector k data := by rw [padTo_full hdata]; rfl
  unfold Slice.sectorArrives
  rw [hm, List.find?_cons_of_pos (by simp)]
  dsimp only
  rw [if_neg (by simp [hk])]
  simp only [Bool.false_eq_true, if_false]
  rw [hpad, hgive]
  dsimp only
  rw [hc, updateWhere_one (by simp), if_pos (by simp [hgot]; omega)]

/-- The eighth sector, with none poisoned or lost, completes the fill. -/
theorem Slice.sectorArrives_last (env : Capstan) {sl : Slice} {m : ScMiss} {k : Nat} {data : List Byte} (hm : sl.cache.misses = [m])
    (hk : k = (m.first + m.got.length) % 8) (hdata : data.length = 32) (hlength : m.got.length = 7) (hwaiters : m.waiters = [])
    (hpoisoned : m.poisoned = []) (hlost : m.lost = []) :
    sl.sectorArrives env m.reg k data false false =
      ({ sl with cache := { sl.cache with misses := [m.withSector k data] } }).fillDone env (m.withSector k data) := by
  have hpad : ({ m with got := m.got ++ [(k, padTo 32 data)] } : ScMiss) = m.withSector k data := by rw [padTo_full hdata]; rfl
  have hgive : sl.cache.giveHalves (m.withSector k data) = (sl.cache, m.withSector k data) :=
    Cache.giveHalves_none sl.cache fun lay reg => by
      rw [show (m.withSector k data).waiters = [] from hwaiters]
      exact List.not_mem_nil
  have hfull : ¬ (m.withSector k data).got.length < 8 := by simp [ScMiss.withSector, hlength]
  unfold Slice.sectorArrives
  rw [hm, List.find?_cons_of_pos (by simp)]
  dsimp only
  rw [if_neg (by simp [hk])]
  simp only [Bool.false_eq_true, if_false]
  rw [hpad, hgive]
  dsimp only
  rw [hm, updateWhere_one (by simp), if_neg hfull, if_neg (by simp [ScMiss.withSector, hpoisoned]), if_neg (by simp [ScMiss.withSector, hlost])]

/-- The bytes of a register's sectors, in ascending order. -/
def ScMiss.bytes (m : ScMiss) : List Byte := (sortBy (fun (a b : Nat × List Byte) => decide (a.1 < b.1)) m.got).flatMap (·.2)

/-- The line of a complete fill. -/
def ScMiss.line (m : ScMiss) : Line :=
  { set := m.set, way := m.way, ctx := m.ctx, gen := m.gen, tag := m.addr, dirty := false, lock := m.lock, doomed := false, rsv := 0, data := m.bytes }

/-- A complete fill without requesters that is installed, at a slice on which nothing waits (R312, R319). -/
theorem Slice.fillDone_installs {env : Capstan} {sl : Slice} {m : ScMiss} (hinstalls : m.installs env (sl.cache.freeReg m.reg) = true)
    (hwaiters : m.waiters = []) (hcalm : sl.calm) :
    sl.fillDone env m = { sl with cache := { (sl.cache.freeReg m.reg).install m.line with
      overflow := if m.pin && !m.lock then satAdd 0xFFFFFFFF sl.cache.overflow 1 else sl.cache.overflow } } := by
  unfold Slice.fillDone
  dsimp only
  rw [if_pos hinstalls, hwaiters, List.foldl_nil, Slice.cacheMoved_calm]
  · rfl
  · exact hcalm

/-- The bytes of the eight sectors of a line of which the last came first. -/
theorem ScMiss.bytes_wrapped {m : ScMiss} {d0 d1 d2 d3 d4 d5 d6 d7 : List Byte}
    (h : m.got = [(7, d7), (0, d0), (1, d1), (2, d2), (3, d3), (4, d4), (5, d5), (6, d6)]) :
    m.bytes = d0 ++ d1 ++ d2 ++ d3 ++ d4 ++ d5 ++ d6 ++ d7 := by
  have hsorted : sortBy (fun (a b : Nat × List Byte) => decide (a.1 < b.1)) m.got =
      [(0, d0), (1, d1), (2, d2), (3, d3), (4, d4), (5, d5), (6, d6), (7, d7)] := by rw [h]; rfl
  rw [ScMiss.bytes, hsorted]
  simp only [List.flatMap_cons, List.flatMap_nil, List.append_nil, List.append_assoc]

/-- The only register is FREE, whatever has come into it. -/
theorem Cache.freeReg_only {c : Cache} {m m' : ScMiss} (h : c.misses = [m]) (hreg : m'.reg = m.reg) :
    ({ c with misses := [m'] } : Cache).freeReg m.reg = c.freeReg m.reg ∧ (c.freeReg m.reg).misses = [] := by
  simp [Cache.freeReg, h, hreg]

/-! ### Node-cache fills (R324, R325) -/

/-- A line is installed in a set of which a way is in use. -/
theorem Cache.nodeInstall_there {c : Cache} {lay w : Nat} {l : NcLine} (hw : w < 8) (hgood : ¬ (lay, nodeSet l.addr, w) ∈ c.badNode) :
    ∃ ls v, c.nodeInstall lay l = c.setNode lay (ls ++ [{ l with way := v }]) := by
  unfold Cache.nodeInstall
  dsimp only
  split
  · next v _ => exact ⟨_, v, rfl⟩
  · next hnone =>
    have hway : w ∈ (List.range 8).filter (fun w => !((lay, nodeSet l.addr, w) ∈ c.badNode)) :=
      List.mem_filter.mpr ⟨List.mem_range.mpr hw, by simp [hgood]⟩
    have htaken := List.find?_eq_none.mp hnone w hway
    rw [Bool.not_eq_true, Bool.not_eq_false'] at htaken
    obtain ⟨x, hx, hat⟩ := List.any_eq_true.mp htaken
    simp only [Bool.and_eq_true, decide_eq_true_eq] at hat
    obtain ⟨hset, hxway⟩ := hat
    split
    · next v _ => exact ⟨_, v.way, rfl⟩
    · next hvictim =>
      refine absurd ?_ (List.find?_eq_none.mp hvictim x hx)
      simp only [Bool.and_eq_true, decide_eq_true_eq]
      exact ⟨hset, by rw [hxway]; exact hway⟩

theorem Slice.setWalker_still {sl : Slice} {lay : Nat} {f : Walker → Walker} (h : ∀ x ∈ sl.walkers lay, f x = x) (i : Nat) : sl.setWalker lay i f = sl := by
  unfold Slice.walkers at h
  unfold Slice.setWalker
  split
  · next hlay => rw [if_pos hlay] at h; rw [updateAt_still h]
  · next hlay => rw [if_neg hlay] at h; rw [updateAt_still h]

/-- A node-cache line that comes where no packet is parked is for no packet. -/
theorem Slice.fill_unparked (env : Capstan) {sl : Slice} {lay : Nat} (h : ∀ x ∈ sl.walkers lay, x.parked = []) (reg addr : Nat) (d : List Byte) :
    ((sl.giveParked lay reg addr d).askAgain env lay).resumeLay env lay = sl := by
  have hgive : sl.giveParked lay reg addr d = sl :=
    foldl_still _ _ _ fun w _ => Slice.setWalker_still (fun x hx => by rw [h x hx, List.map_nil, ← h x hx]) w
  have hask : sl.askAgain env lay = sl := by
    refine foldl_still _ _ _ fun w _ => ?_
    cases hx : (sl.walkers lay)[w]? with
    | none => rfl
    | some x =>
      rw [Option.map_some, Option.getD_some, h x (List.mem_of_getElem? hx)]
      rfl
  have hresume : sl.resumeLay env lay = sl := by
    refine foldl_still _ _ _ fun w _ => ?_
    unfold Slice.resumeWalker
    cases hx : (sl.walkers lay)[w]? with
    | none => rfl
    | some x =>
      dsimp only
      rw [h x (List.mem_of_getElem? hx)]
      rfl
  rw [hgive, hask, hresume]

/-- The fill of the only node-cache register, PENDING and of the current generation (R325). -/
theorem Slice.nodeFill_installs {env : Capstan} {sl : Slice} {lay w : Nat} {m : NcMiss} {d : List Byte} (hm : sl.cache.nodeMiss lay = [m])
    (hready : m.ready = some d) (hst : m.st = .pending) (hgen : m.gen = genOf env m.ctx) (hparked : ∀ x ∈ sl.walkers lay, x.parked = [])
    (hw : w < 8) (hgood : ¬ (lay, nodeSet m.addr, w) ∈ sl.cache.badNode) :
    ∃ ls v, sl.nodeFill env lay m.reg = { sl with
      cache := (sl.cache.freeNodeReg lay m.reg).setNode lay (ls ++ [{ way := v, addr := m.addr, ctx := m.ctx, gen := m.gen, data := d }]) } := by
  have hbad : (sl.cache.freeNodeReg lay m.reg).badNode = sl.cache.badNode := by
    unfold Cache.freeNodeReg Cache.setNodeMiss
    dsimp only
    split <;> rfl
  obtain ⟨ls, v, hinstall⟩ := Cache.nodeInstall_there (c := sl.cache.freeNodeReg lay m.reg) (lay := lay)
    (l := { way := 0, addr := m.addr, ctx := m.ctx, gen := m.gen, data := d }) hw (by rw [hbad]; exact hgood)
  refine ⟨ls, v, ?_⟩
  unfold Slice.nodeFill
  rw [hm, List.find?_cons_of_pos (by simp)]
  dsimp only
  rw [hready]
  dsimp only
  rw [← hgen, if_pos (by simp [hst]), hinstall, Slice.fill_unparked]
  exact hparked

theorem Slice.nodeFillReads_none (env : Capstan) {sl : Slice} {lay reg : Nat} {m : NcMiss} (h : sl.stopped = false)
    (hm : (sl.cache.nodeMiss lay).find? (fun m => m.reg = reg) = some m) : sl.nodeFillReads env lay reg [] = sl.nodeFill env lay reg := by
  unfold Slice.nodeFillReads
  dsimp only
  rw [Slice.reading_nil env _ h, hm]
  dsimp only
  rw [if_neg (by simp [Slice.lostLines])]

/-- A free register is no longer there, and its line stands in the node cache. -/
theorem Cache.nodeFilled {c : Cache} {lay : Nat} {m : NcMiss} (hlay : lay < 2) (hm : c.nodeMiss lay = [m]) (ls : List NcLine) (l : NcLine) :
    ((c.freeNodeReg lay m.reg).setNode lay (ls ++ [l])).nodeMiss lay = [] ∧ l ∈ ((c.freeNodeReg lay m.reg).setNode lay (ls ++ [l])).node lay ∧
      ((c.freeNodeReg lay m.reg).setNode lay (ls ++ [l])).lines = c.lines := by
  have hfree : (c.nodeMiss lay).filter (fun x => x.reg != m.reg) = [] := by simp [hm]
  unfold Cache.freeNodeReg
  dsimp only
  rw [hfree]
  match lay, hlay with
  | 0, _ => exact ⟨rfl, List.mem_append_right ls (List.mem_singleton.mpr rfl), rfl⟩
  | 1, _ => exact ⟨rfl, List.mem_append_right ls (List.mem_singleton.mpr rfl), rfl⟩

/-! ### The eviction buffer (R323) -/

/-- The slice once entry `k` of its eviction buffer is acknowledged. -/
def Slice.acked (sl : Slice) (k : Nat) : Slice := ({ sl with cache := sl.cache.freeEvict k }).count 0x308 0 none 1

theorem Slice.evictAck_frees {env : Capstan} {sl : Slice} {k : Nat} {e : Evict} (h : sl.cache.evict[k]? = some e)
    (hfirst : sl.cache.firstOfLine k = true) (hpoison : e.poison = []) (hcalm : sl.calm) :
    sl.evictAck env k .ok = (sl.acked k).count 0x703 0x11 none 0 := by
  unfold Slice.evictAck
  rw [h]
  dsimp only
  rw [if_pos hfirst, Slice.readEntry, hpoison]
  dsimp only [Slice.countDecode]
  rw [if_neg (by decide), Slice.cacheMoved_calm]
  · rfl
  · exact hcalm

theorem Slice.evictAck_later {env : Capstan} {sl : Slice} {k : Nat} {e : Evict} (h : sl.cache.evict[k]? = some e)
    (hlater : sl.cache.firstOfLine k = false) (o : WordCode) : sl.evictAck env k o = sl := by
  unfold Slice.evictAck
  rw [h]
  dsimp only
  rw [if_neg (by rw [hlater]; decide)]

theorem Cache.firstOfLine_iff {c : Cache} {k : Nat} {e : Evict} (h : c.evict[k]? = some e) :
    c.firstOfLine k = true ↔ ∀ x ∈ c.evict.take k, ¬ (x.ctx = e.ctx ∧ x.addr = e.addr) := by
  unfold Cache.firstOfLine
  rw [h]
  simp

/-! ### Commands -/

/-- A sector that arrives in good order. -/
theorem exec_fillSectorArrival_sound {s : State} {i r k : Nat} {sl t : Slice} {data : List Byte} (hw : s.working i sl)
    (he : sl.sectorArrives (sl.view s.cap) r k data false false = t) (hpwr : t.pwr = sl.pwr) (hmail : t.mail = sl.mail) :
    exec (.fillSectorArrival i r k data false) s = .next (s.put i t) := by
  rw [exec_fillSectorArrival, execFillSectorArrival]
  exact onLive_eq hw ((Slice.reading_nil _ _ (Slice.running_of_works hw.2.1)).trans he) (congrArg SlicePower.napping hpwr) hmail

/-- The sectors for the RESTORE stream's block, the only reader (R316, R363). -/
theorem Slice.feedReaders_restore (env : Capstan) {sl : Slice} {m : ScMiss} {j : Nat} (h : m.waiters = [.stream 15 j]) (hruns : sl.work.runs = []) :
    sl.feedReaders env m = sl.giveStream 15 j m.sectors [] := by
  have hreaders : m.readers = [.stream 15 j] := by rw [ScMiss.readers, h]; rfl
  unfold Slice.feedReaders
  rw [hreaders, if_neg (by simp), List.foldl_cons, List.foldl_nil, Slice.retryRuns_none env]
  · rfl
  · exact hruns

/-- Of the sectors that a register has, a reader that has had all but the last takes the last. -/
theorem sectors_new {a k : Nat} {data : List Byte} {got : List (Nat × List Byte)} (h : ∀ g ∈ got, g.1 ≠ k) :
    ((got ++ [(k, data)]).map (fun g => (a + 32 * g.1, g.2))).filter
      (fun g => !((got.map (fun g => (a + 32 * g.1, g.2))).any (fun x => x.1 = g.1))) = [(a + 32 * k, data)] := by
  have hold : (got.map (fun g => (a + 32 * g.1, g.2))).filter
      (fun g => !((got.map (fun g => (a + 32 * g.1, g.2))).any (fun x => x.1 = g.1))) = [] := by
    refine List.filter_eq_nil_iff.mpr fun g hg => ?_
    rw [Bool.not_eq_true, Bool.not_eq_false', List.any_eq_true]
    exact ⟨g, hg, by simp⟩
  have hfresh : (got.map (fun g => (a + 32 * g.1, g.2))).any (fun x => x.1 = a + 32 * k) = false := by
    refine List.any_eq_false.mpr fun x hx => ?_
    obtain ⟨g, hg, rfl⟩ := List.mem_map.mp hx
    have := h g hg
    simp only [decide_eq_true_eq]
    omega
  rw [List.map_append, List.filter_append, hold, List.nil_append, List.map_cons, List.map_nil, List.filter_cons_of_pos (by simp [hfresh]),
    List.filter_nil]

/-- The only block of the RESTORE stream takes the sectors that it does not have (R363). -/
theorem Slice.giveStream_restore {sl : Slice} {st : Stream} {t : Transfer} (hst : sl.str.streams[15]? = some st) (ht : st.transfers = [t])
    {sectors new : List (Nat × List Byte)} (hnew : sectors.filter (fun g => !(t.got.any (fun x => x.1 = g.1))) = new) :
    sl.giveStream 15 t.index sectors [] = { sl with
      str := { sl.str with streams := sl.str.streams.set 15 { st with transfers := [{ t with got := t.got ++ new }] } } } := by
  unfold Slice.giveStream
  dsimp only
  rw [Slice.onStream_eq _ hst, ht, updateWhere_one (by simp), if_pos (show 15 = restoreStream from rfl), hnew, List.any_nil, Bool.or_false]

end Sys2Proof.Machine

open Sys2Proof Sys2Proof.Machine

/-- Settles O33: a sector goes to those on the register's list by `feedReaders`, the eighth by `fillDone`; node-cache fills by `nodeFill`;
acknowledgements by `evictAck`. -/
theorem fillsAndEvictionsEnd : Obligations.FillsAndEvictionsEnd := by
  unfold Obligations.FillsAndEvictionsEnd
  refine ⟨⟨⟨fun s i k sl m data hw hm hlength hk hdata hruns hlooks => ?_,
    fun s i k j sl m st t data hw hm hlength hk hdata hruns hwaiters hpoisoned hlost hst ht hj hgot hnew => ?_,
    fun s i sl m d0 d1 d2 d3 d4 d5 d6 d7 hw hm hfirst hgot hdata hpoisoned hlost hwaiters hcalm hinstalls => ?_⟩,
    fun s i lay w sl m d hw hlay hm hready hst hgen hparked hway hgood => ?_⟩,
    fun s i k sl e hw he hpoison hcalm hfirst => ?_, fun s i k sl e x read hw he hx hctx haddr => ?_,
    fun s i k sl m x data d hw hm hlength hk hdata hwaiters hx haddr hctx hhalf => ?_⟩
  · have hall : m.waiters.all Requester.looks = true := hlooks
    have hgive : sl.cache.giveHalves (m.withSector k data) = (sl.cache, m.withSector k data) :=
      Cache.giveHalves_none sl.cache fun lay reg hmem => absurd (List.all_eq_true.mp hall _ hmem) (by simp [Requester.looks])
    exact exec_fillSectorArrival_sound hw ((Slice.sectorArrives_feeds (sl.view s.cap) hm hk hdata hlength hgive hm rfl).trans
      (Slice.feedReaders_look (sl := sl.withMiss (m.withSector k data)) (m := m.withSector k data) (sl.view s.cap) hruns hall)) rfl rfl
  · have hgive : sl.cache.giveHalves (m.withSector k data) = (sl.cache, m.withSector k data) :=
      Cache.giveHalves_none sl.cache fun lay reg hmem => by
        rw [show (m.withSector k data).waiters = [.stream 15 j] from hwaiters] at hmem
        simp at hmem
    have hsectors : (m.withSector k data).sectors = (m.got ++ [(k, data)]).map (fun g => (m.addr + 32 * g.1, g.2)) := by
      rw [ScMiss.sectors, List.filter_eq_self.mpr fun g _ => by simp [ScMiss.withSector, hpoisoned, hlost]]
      rfl
    refine exec_fillSectorArrival_sound hw ((Slice.sectorArrives_feeds (sl.view s.cap) hm hk hdata hlength hgive hm rfl).trans
      ((Slice.feedReaders_restore (sl := sl.withMiss (m.withSector k data)) (m := m.withSector k data) (sl.view s.cap) hwaiters hruns).trans ?_)) rfl rfl
    rw [hsectors, ← hj]
    exact Slice.giveStream_restore (sl := sl.withMiss (m.withSector k data)) hst ht (by rw [hgot]; exact sectors_new hnew)
  · have hlast := Slice.sectorArrives_last (sl.view s.cap) hm (k := 6) (by simp [hfirst, hgot]) hdata (by simp [hgot]) hwaiters hpoisoned hlost
    obtain ⟨hfree, hnone⟩ := Cache.freeReg_only (c := sl.cache) (m' := m.withSector 6 d6) hm rfl
    have hinstalls' : (m.withSector 6 d6).installs (sl.view s.cap)
        (({ sl.cache with misses := [m.withSector 6 d6] } : Cache).freeReg (m.withSector 6 d6).reg) = true := by
      rw [show (m.withSector 6 d6).reg = m.reg from rfl, hfree]
      exact hinstalls
    refine ⟨_, exec_fillSectorArrival_sound hw (hlast.trans (Slice.fillDone_installs hinstalls' hwaiters hcalm)) rfl rfl,
      (congrArg Cache.misses hfree).trans hnone, ?_, rfl, rfl, rfl⟩
    have hbytes : (m.withSector 6 d6).bytes = _ := ScMiss.bytes_wrapped (by rw [ScMiss.withSector, hgot]; rfl)
    rw [← hbytes]
    rfl
  · obtain ⟨ls, v, hfill⟩ := Slice.nodeFill_installs (env := sl.view s.cap) hm hready hst hgen hparked hway hgood
    obtain ⟨hfree, hthere, hlines⟩ := Cache.nodeFilled hlay hm ls { way := v, addr := m.addr, ctx := m.ctx, gen := m.gen, data := d }
    refine ⟨{ sl with
      cache := (sl.cache.freeNodeReg lay m.reg).setNode lay (ls ++ [{ way := v, addr := m.addr, ctx := m.ctx, gen := m.gen, data := d }]) },
      ?_, hfree, ⟨v, hthere⟩, hlines, rfl, rfl⟩
    rw [exec_nodeCacheFill, execNodeCacheFill]
    refine onLive_eq hw ?_ rfl rfl
    rw [Slice.nodeFillReads_none (sl.view s.cap) (m := m) (Slice.running_of_works hw.2.1) (by rw [hm, List.find?_cons_of_pos (by simp)]), hfill]
  · refine ⟨(sl.acked k).count 0x703 0x11 none 0, ?_, rfl, rfl, rfl, rfl, rfl⟩
    rw [exec_evictionWriteAck, execEvictionWriteAck]
    exact onLive_eq hw (Slice.evictAck_frees he ((Cache.firstOfLine_iff he).mpr hfirst) hpoison hcalm) rfl rfl
  · rw [exec_evictionWriteAck, execEvictionWriteAck]
    have hlater : sl.cache.firstOfLine k = false := Bool.eq_false_iff.mpr fun h => (Cache.firstOfLine_iff he).mp h x hx ⟨hctx, haddr⟩
    exact onLive_same hw (Slice.evictAck_later he hlater read)
  · exact exec_fillSectorArrival_sound hw (Slice.sectorArrives_feeds (sl.view s.cap) hm hk hdata hlength
      (Cache.giveHalves_node (m := m.withSector k data) hwaiters hx haddr hctx hhalf) hm rfl) rfl rfl
end

section
/-!
Answers of the translation unit, and page requests that are answered or not (R375, R378, R379, R394, R595, R596).
-/

namespace Sys2Proof.Machine

/-! ### Answers to misses (R375, R596) -/

theorem exec_translationResponse_miss {s : State} {i r : Nat} {sl t : Slice} {a : Xlate} (hw : s.working i sl)
    (he : sl.translated (sl.view s.cap) (.miss r) a.taken = t) (hpwr : t.pwr = sl.pwr) (hmail : t.mail = sl.mail) :
    exec (.translationResponse i (.miss r) a) s = .next (s.put i t) := by
  rw [exec_translationResponse, execTranslationResponse]
  exact onLive_eq hw he (congrArg SlicePower.napping hpwr) hmail

theorem Slice.translated_none {env : Capstan} {sl : Slice} {r : Nat} (h : ∀ m ∈ sl.cache.misses, m.reg = r → m.got ≠ []) (a : Xlate) :
    sl.translated env (.miss r) a = sl := by
  have hnone : sl.cache.misses.find? (fun m => m.reg = r && m.got.isEmpty) = none := by
    refine List.find?_eq_none.mpr fun m hm hat => ?_
    simp only [Bool.and_eq_true, decide_eq_true_eq, List.isEmpty_iff] at hat
    exact h m hm hat.1 hat.2
  unfold Slice.translated
  dsimp only
  rw [hnone]

/-- The only register, of which no sector has come, has its answer. -/
theorem Slice.translated_only (env : Capstan) {sl : Slice} {m : ScMiss} (h : sl.cache.misses = [m]) (hgot : m.got = []) (a : Xlate) :
    sl.translated env (.miss m.reg) a = sl.missAnswered env m a := by
  have hfind : sl.cache.misses.find? (fun x => x.reg = m.reg && x.got.isEmpty) = some m := by
    rw [h, List.find?_cons_of_pos (by simp [hgot])]
  unfold Slice.translated
  dsimp only
  rw [hfind]

theorem pageSize_eq {size n : Nat} (h : (size, n) ∈ [(0, 4096), (1, 65536), (2, 2097152), (3, 1073741824)]) : pageSize size = n := by
  simp only [List.mem_cons, Prod.mk.injEq, List.not_mem_nil, or_false] at h
  rcases h with ⟨rfl, rfl⟩ | ⟨rfl, rfl⟩ | ⟨rfl, rfl⟩ | ⟨rfl, rfl⟩ <;> rfl

theorem Slice.missAnswered_located (env : Capstan) {sl : Slice} {m : ScMiss} {size n page : Nat} (h : sl.cache.misses = [m])
    (hsize : pageSize size = n) (hpage : page < 2 ^ 36) :
    sl.missAnswered env m (.translated size page) = { sl with cache := { sl.cache with
      misses := [{ m with phys := some ((page * 4096 / n * n + m.addr % n) / 256 * 256) }] } } := by
  have hphysical : physical size page m.addr = page * 4096 / n * n + m.addr % n := by
    unfold physical
    rw [hsize, Nat.mod_eq_of_lt hpage]
  unfold Slice.missAnswered Cache.locateMiss
  dsimp only
  rw [h, updateWhere_one (by simp), hphysical]
  rfl

theorem Slice.missAnswered_needsPage (env : Capstan) {sl : Slice} {m : ScMiss} (h : m.part ≠ .stream) :
    sl.missAnswered env m .needsPage = sl.missNeedsPage env m := by
  unfold Slice.missAnswered
  dsimp only
  rw [if_neg h, if_neg (by decide)]

/-! ### A page that is needed (R375, R394) -/

/-- A page request is the only thing told: it is outstanding from now on. -/
theorem deliver_page {s : State} {i asid page : Nat} {t : Slice} (hi : i < s.slices.length) (h : s.settled) (hmail : t.mail = [.page asid page])
    (hnew : s.cap.hl.pages.any (fun p => p.asid = asid && p.page = page) = false) :
    deliver (s.put i t) i = (s.put i { t with mail := [] }).withCap { s.cap with hl := { s.cap.hl with
      pages := s.cap.hl.pages ++ [{ asid := asid, page := page, since := s.cap.tb.time }] } } := by
  have hread : (s.put i t).readMail i = (s.put i { t with mail := [] }).withCap { s.cap with hl := { s.cap.hl with
      pages := s.cap.hl.pages ++ [{ asid := asid, page := page, since := s.cap.tb.time }] } } := by
    have hat : (s.put i t).slices[i]? = some t := List.getElem?_set_self hi
    have htakes : State.notify (s.put i { t with mail := [] }) (.page asid page) = (s.put i { t with mail := [] }).withCap
        { s.cap with hl := { s.cap.hl with pages := s.cap.hl.pages ++ [{ asid := asid, page := page, since := s.cap.tb.time }] } } := by
      unfold State.notify State.capTakes
      rw [if_neg (by simp [Notice.toCapstan])]
      dsimp only
      rw [if_neg (by rw [show (s.put i { t with mail := [] }).cap = s.cap from rfl, hnew]; decide)]
      rfl
    unfold State.readMail
    rw [hat]
    dsimp only
    rw [hmail, List.foldl_cons, List.foldl_nil, ← htakes]
    congr 1
    exact State.put_put s i t { t with mail := [] }
  unfold deliver
  rw [hread, deliverAll_settled]
  exact ⟨(s.settled_put i { t with mail := [] } h rfl).1, h.2⟩

/-- The mail of a slice that had none and asks for a page: nothing where the request is outstanding (R375). -/
def pageMail (env : Capstan) (asid page : Nat) : List Notice :=
  if env.hl.pages.any (fun p => p.asid = asid && p.page = page) then [] else [.page asid page]

theorem Slice.askPage_asks {env : Capstan} {sl : Slice} {ctx : Nat} {c : Ctx} (hc : env.ctx? ctx = some c) (hmail : sl.mail = []) (addr : Nat) :
    ∃ n, sl.askPage env ctx addr = { sl with mail := pageMail env c.asid (pageOf addr), cnt := n } := by
  unfold Slice.askPage pageMail
  rw [hc]
  dsimp only
  rw [hmail]
  by_cases hthere : env.hl.pages.any (fun p => p.asid = c.asid && p.page = pageOf addr) = true
  · rw [if_pos (by rw [hthere]; rfl), if_pos hthere, ← hmail]
    exact ⟨sl.cnt, rfl⟩
  · rw [if_neg (by simpa using hthere), if_neg hthere, Slice.tell, hmail]
    exact ⟨_, rfl⟩

/-- What STR_FAULT captures of an access (R394). -/
def captureReg (source ctx resume : Nat) (failed : Bool) : Reg :=
  BitVec.ofNat 64 (1 + place source 5 1 + flag failed 6 + place ctx 12 8 + place resume 32 32)

/-- The slice whose STR_FAULT has captured an access. -/
def Slice.captured (sl : Slice) (source ctx resume addr : Nat) (failed : Bool) : Slice :=
  { sl with str := { sl.str with fault := captureReg source ctx resume failed, faultAddr := BitVec.ofNat 64 (addr % 2 ^ 48) } }

theorem Slice.captureAccess_eq (env : Capstan) (sl : Slice) (source ctx resume addr : Nat) (failed : Bool) :
    sl.captureAccess env source ctx resume addr failed = (sl.captured source ctx resume addr failed).log env 0x7001
      (toLe 8 (captureReg source ctx resume failed).toNat) { tail := some (toLe 8 (BitVec.ofNat 64 (addr % 2 ^ 48)).toNat) } := rfl

/-- Logging leaves the slice's units as they are. -/
theorem Slice.Logs.units {a b : Slice} (h : a.Logs b) :
    b.cache = a.cache ∧ b.str = a.str ∧ b.pwr = a.pwr ∧ b.work = a.work ∧ b.store = a.store ∧ b.ing = a.ing := by
  rw [h.rest]
  exact ⟨rfl, rfl, rfl, rfl, rfl, rfl⟩

/-- The capture of a miss that no requester waits for: VALID and not FAILED. -/
theorem captureReg_bits (ctx : Nat) : (captureReg 17 ctx 0 false).getLsbD 0 = true ∧ (captureReg 17 ctx 0 false).getLsbD 6 = false := by
  have hvalue : 1 + place 17 5 1 + flag false 6 + place ctx 12 8 + place 0 32 32 = 35 + 256 * (ctx % 4096) := by
    have hflag : flag false 6 = 0 := rfl
    rw [hflag]
    simp only [place, Nat.shiftLeft_eq]
    omega
  constructor <;> rw [captureReg, hvalue, BitVec.getLsbD_ofNat, Nat.testBit_eq_decide_div_mod_eq]
  · simp
    omega
  · simp
    omega

/-- A slice has what a miss without requesters that needs a page leaves of it: the register is FREE, the access is captured and waits. -/
structure Slice.Needs (sl : Slice) (m : ScMiss) (t : Slice) : Prop where
  cache : t.cache = sl.cache.freeReg m.reg
  fault : t.str.fault = captureReg 17 m.ctx 0 false
  faultAddr : t.str.faultAddr = BitVec.ofNat 64 (m.addr % 2 ^ 48)
  awaits : { ctx := m.ctx, addr := m.addr, source := 17, resume := 0 } ∈ t.str.awaiting
  pwr : t.pwr = sl.pwr

/-- The slice whose register is FREE, with the mail that asks for the page. -/
def Slice.asking (sl : Slice) (m : ScMiss) (ms : List Notice) (n : Counters) : Slice := { sl.endMiss m with mail := ms, cnt := n }

/-- The slice with one more access that waits for its page. -/
def Slice.awaiting (sl : Slice) (a : PageAccess) : Slice :=
  { sl with str := { sl.str with awaiting := (sl.str.awaiting ++ [a]).eraseDups } }

theorem Slice.missNeedsPage_needs {env : Capstan} {sl : Slice} {m : ScMiss} {c : Ctx} (hwaiters : m.waiters = []) (hcalm : sl.calm)
    (hc : env.ctx? m.ctx = some c) (htokens : sl.tokens ≠ 0) (hrest : env.hl.restarting = none) (hmail : sl.mail = []) :
    ∃ t, sl.missNeedsPage env m = t ∧ sl.Needs m t ∧ t.mail = pageMail env c.asid (pageOf m.addr) := by
  obtain ⟨n, hask⟩ := Slice.askPage_asks (sl := sl.endMiss m) hc hmail m.addr
  have haccesses : m.accesses = [{ ctx := m.ctx, addr := m.addr, source := 17, resume := 0 }] := by simp [ScMiss.accesses, hwaiters]
  obtain ⟨l, hl⟩ : ∃ l, (sl.asking m (pageMail env c.asid (pageOf m.addr)) n).captureAccess env 17 m.ctx 0 m.addr false = l := ⟨_, rfl⟩
  have hlogs : ((sl.asking m (pageMail env c.asid (pageOf m.addr)) n).captured 17 m.ctx 0 m.addr false).Logs l := by
    rw [← hl, Slice.captureAccess_eq]
    exact Slice.log_logs _ _ _ _ _
  have hlmail : l.mail = pageMail env c.asid (pageOf m.addr) := by
    rw [← hl, Slice.captureAccess_eq, Slice.log_mail]
    · rfl
    · exact htokens
    · exact hrest
  obtain ⟨hcache, hstr, hpwr, hwork, hstore, hing⟩ := hlogs.units
  have hrope := hlogs.rope
  have hmiss : sl.missNeedsPage env m = (l.awaiting { ctx := m.ctx, addr := m.addr, source := 17, resume := 0 }).cacheMoved env := by
    unfold Slice.missNeedsPage
    dsimp only
    rw [hask, haccesses, hwaiters, ← hl]
    rfl
  have hcalm' : (l.awaiting { ctx := m.ctx, addr := m.addr, source := 17, resume := 0 }).calm := by
    obtain ⟨hwaiting, hruns, hqueued, hmaps, hports, hpend, hadopt, hbatches⟩ := hcalm
    refine ⟨(congrArg Cache.waiting hcache).trans hwaiting, (congrArg Work.runs hwork).trans hruns, (congrArg StreamUnit.queued hstr).trans hqueued,
      (congrArg Store.maps hstore).trans hmaps, ?_, ?_, ?_, ?_⟩
    · exact fun p hp => hports p (by rw [← show l.rope = sl.rope from hrope]; exact hp)
    · exact fun p hp => hpend p (by rw [← show l.ing = sl.ing from hing]; exact hp)
    · exact fun a ha => hadopt a (by rw [← show l.ing = sl.ing from hing]; exact ha)
    · exact fun b hb => hbatches b (by rw [← show l.ing = sl.ing from hing]; exact hb)
  refine ⟨_, hmiss.trans (Slice.cacheMoved_calm env _ hcalm'), ⟨hcache, congrArg StreamUnit.fault hstr, congrArg StreamUnit.faultAddr hstr,
    List.mem_eraseDups.mpr (List.mem_append_right _ (List.mem_singleton.mpr rfl)), hpwr⟩, hlmail⟩

/-! ### Page requests that end (R378, R379) -/

/-- The Capstan without the request for a page. -/
def Capstan.withoutPage (c : Capstan) (asid page : Nat) : Capstan :=
  { c with hl := { c.hl with pages := c.hl.pages.filter (fun p => !(p.asid = asid && p.page = page)) } }

theorem PageAccess.onPage_withoutPage (c : Capstan) (sl : Slice) (asid page asid' page' : Nat) (a : PageAccess) :
    a.onPage (sl.view (c.withoutPage asid page)) asid' page' = a.onPage (sl.view c) asid' page' := rfl

/-- The end of a page request of which no slice tells anything. -/
theorem State.endPage_silent {s : State} {asid page : Nat} {f : Capstan → Slice → Slice} {g : Slice → Slice} (h : s.settled)
    (hf : ∀ sl ∈ s.slices, f (sl.view (s.cap.withoutPage asid page)) sl = g sl) (hmail : ∀ sl, (g sl).mail = sl.mail) :
    s.endPage asid page f =
      { s with cap := s.cap.withoutPage asid page, slices := s.slices.map (fun sl => if sl.works s.cap then g sl else sl) } := by
  have heach : (s.withCap (s.cap.withoutPage asid page)).eachSlice (fun env sl => if sl.works env then f env sl else sl) =
      { s with cap := s.cap.withoutPage asid page, slices := s.slices.map (fun sl => if sl.works s.cap then g sl else sl) } := by
    unfold State.eachSlice
    have hmap : s.slices.map (fun sl => if sl.works (sl.view (s.cap.withoutPage asid page)) then f (sl.view (s.cap.withoutPage asid page)) sl else sl) =
        s.slices.map (fun sl => if sl.works s.cap then g sl else sl) := by
      refine List.map_congr_left fun sl hsl => ?_
      rw [hf sl hsl]
      rfl
    exact congrArg (fun ss => { s with cap := s.cap.withoutPage asid page, slices := ss }) hmap
  have hend : s.endPage asid page f = deliverAll
      ((s.withCap (s.cap.withoutPage asid page)).eachSlice (fun env sl => if sl.works env then f env sl else sl)) := rfl
  rw [hend, heach, deliverAll_settled]
  refine ⟨fun sl hsl => ?_, h.2⟩
  obtain ⟨sl', hsl', rfl⟩ := List.mem_map.mp hsl
  split
  · rw [hmail, h.1 sl' hsl']
  · exact h.1 sl' hsl'

/-- Whether a handle of the RESTORE stream's queue stands for poison that is read again once the page is there (R378). -/
def Slice.lapsed (sl : Slice) (asid page : Nat) (h : Reg) : Bool :=
  (sl.str.streams[15]?).any (fun x => x.onPage asid page &&
    x.transfers.any (fun t => t.index = handleBlock h && t.credits = 0 && x.resume.any (fun j => !indexBefore t.index j)))

/-- The slice whose streams on a page have resumed (R378). -/
def Slice.resumes (env : Capstan) (sl : Slice) (asid page : Nat) : Slice :=
  { sl with str := { sl.str.setQueue 7 ((sl.str.queue 7).filter (fun h => !sl.lapsed asid page h)) with
    streams := sl.str.streams.map (fun x => if x.onPage asid page then x.resumed else x)
    fed := sl.str.fed.filter (fun f => !((f.1, f.2.1) ∈ (sl.str.streams.filter (fun x => x.onPage asid page)).flatMap Stream.refetched))
    awaiting := sl.str.awaiting.filter (fun a => !a.onPage env asid page) } }

theorem Slice.pageThere_unhitched (env : Capstan) {sl : Slice} (h : sl.work.hitched = []) (asid page : Nat) :
    sl.pageThere env asid page = sl.resumes env asid page := by
  have hpoison (t : Transfer) : (!t.buffered) = decide (t.credits = 0) := by
    rw [Transfer.buffered, bne, Bool.not_not]
    rfl
  have hwork : ({ sl.work with hitched := [] } : Work) = sl.work := by rw [← h]
  unfold Slice.pageThere Slice.unhitch
  dsimp only
  simp only [h, List.filter_nil, List.foldl_nil, hpoison, hwork]
  rfl

/-- A page request fails at a slice of which nothing waits for the page. -/
theorem Slice.pageFailed_untouched {env : Capstan} {sl : Slice} {asid page : Nat} (hhitched : sl.work.hitched = [])
    (hstreams : ∀ x ∈ sl.str.streams, x.onPage asid page = false) (hawaiting : ∀ a ∈ sl.str.awaiting, a.onPage env asid page = false)
    (fcause : Nat) : sl.pageFailed env asid page fcause = sl := by
  have hfailed : sl.str.awaiting.filter (PageAccess.onPage env asid page) = [] :=
    List.filter_eq_nil_iff.mpr fun a ha => by simp [hawaiting a ha]
  have hkept : sl.str.awaiting.filter (fun a => !a.onPage env asid page) = sl.str.awaiting :=
    List.filter_eq_self.mpr fun a ha => by simp [hawaiting a ha]
  have hnone : (indexed sl.str.streams).filter (fun e => e.2.onPage asid page) = [] :=
    List.filter_eq_nil_iff.mpr fun e he => by simp [hstreams e.2 (mem_indexed he)]
  have hwork : ({ sl.work with hitched := [] } : Work) = sl.work := by rw [← hhitched]
  unfold Slice.pageFailed Slice.unhitch
  dsimp only
  rw [hfailed, hkept, hnone, hhitched]
  simp only [List.filter_nil, List.map_nil, List.foldl_nil, List.append_nil, List.eraseDups_nil, Slice.captureFailed, hwork]

theorem Stream.resumed_at {x : Stream} {j : Nat} (h : x.resume = some j) :
    x.resumed = { x with resume := none, faultPage := none, next := j, transfers := x.transfers.filter (fun t => indexBefore t.index j)
                         delivered := if 2 ^ 31 ≤ wrapSub 32 x.delivered j then x.delivered else j } := by
  unfold Stream.resumed
  rw [h]
  simp only [indexBefore, decide_eq_true_eq]

theorem exec_pageResponse_ok {s : State} {asid page : Nat} {p : PageReq} (hpower : s.cap.su.power = .running) (hp : s.pageReq asid page = some p) :
    exec (.pageResponse asid page true) s = .next (s.endPage asid page (fun env sl => sl.pageThere env asid page)) := by
  rw [exec_pageResponse, execPageResponse, if_neg (by simp [hpower]), hp]
  rfl

theorem exec_pageTimeout_late {s : State} {asid page : Nat} {p : PageReq} (hpower : s.cap.su.power = .running) (hp : s.pageReq asid page = some p)
    (hlate : p.since + 20000000 ≤ s.cap.tb.time) :
    exec (.pageTimeout asid page) s = .next (s.endPage asid page (fun env sl => sl.pageFailed env asid page causeNoResponse)) := by
  rw [exec_pageTimeout, execPageTimeout, if_neg (by simp [hpower]), hp]
  exact if_neg (Nat.not_lt.mpr hlate)

theorem exec_pageTimeout_early {s : State} {asid page : Nat} {p : PageReq} (hp : s.pageReq asid page = some p)
    (hearly : s.cap.tb.time < p.since + 20000000) : exec (.pageTimeout asid page) s = .next s := by
  rw [exec_pageTimeout, execPageTimeout, hp]
  dsimp only
  split
  · rfl
  · exact if_pos hearly

end Sys2Proof.Machine

open Sys2Proof Sys2Proof.Machine

/-- Settles O32: answers go by `translated`, a page that is needed by `missNeedsPage`; the end of a request reaches each slice by `pageThere`
or `pageFailed`. -/
theorem accessesNeedPages : Obligations.AccessesNeedPages := by
  unfold Obligations.AccessesNeedPages
  refine ⟨⟨fun s i r size page sl hw hgot => ?_, fun s i size n page sl m hw hm hgot hsize hpage => ?_,
    fun s i sl m c hw hm hgot hpart hwaiters hcalm hc htokens hrest _ => ?_⟩,
    fun s asid page p hpower hsettled hp hhitched => ?_, fun s asid page p hpower hsettled hp hnone hlate => ?_,
    fun s asid page p hp hearly => exec_pageTimeout_early hp hearly, fun x j hj => ?_⟩
  · have hsame := exec_translationResponse_miss (a := .translated size page) hw (Slice.translated_none hgot (.translated size page)) rfl rfl
    rwa [s.put_self i sl hw.1] at hsame
  · refine exec_translationResponse_miss (a := .translated size page) hw ((Slice.translated_only (sl.view s.cap) hm hgot _).trans ?_) rfl rfl
    exact Slice.missAnswered_located (sl.view s.cap) hm (pageSize_eq hsize) hpage
  · obtain ⟨t, he, hneeds, hmail⟩ := Slice.missNeedsPage_needs (env := sl.view s.cap) hwaiters hcalm hc htokens hrest
      (s.mail_of i sl hw.1 hw.2.2.2)
    obtain ⟨hcache, hfault, hfaultAddr, hawaits, hpwr⟩ := hneeds
    have hmisses : t.cache.misses = [] := by rw [hcache]; exact (Cache.freeReg_only hm rfl (m' := m)).2
    have hat : ∀ x : Slice, (s.put i x).slices[i]? = some x := fun x => List.getElem?_set_self (List.getElem?_eq_some_iff.mp hw.1).1
    have hanswer := ((Slice.translated_only (sl.view s.cap) hm hgot .needsPage).trans (Slice.missAnswered_needsPage _ hpart)).trans he
    obtain ⟨hvalid, hfailed⟩ := captureReg_bits m.ctx
    have haddr : t.str.faultAddr.toNat = m.addr % 2 ^ 48 := by
      rw [hfaultAddr, BitVec.toNat_ofNat]
      omega
    cases hthere : s.cap.hl.pages.any (fun p => p.asid = c.asid && p.page = pageOf m.addr) with
    | true =>
      have hmail' : t.mail = [] := by rw [hmail]; exact if_pos hthere
      obtain ⟨p, hp, hpage⟩ := List.any_eq_true.mp hthere
      simp only [Bool.and_eq_true, decide_eq_true_eq] at hpage
      exact ⟨s.put i t, t, exec_translationResponse_miss (a := .needsPage) hw hanswer hpwr (hmail'.trans (s.mail_of i sl hw.1 hw.2.2.2).symm), hat t,
        hmisses, by rw [hfault, hvalid], by rw [hfault, hfailed], haddr, hawaits, ⟨p, hp, hpage⟩, rfl⟩
    | false =>
      have hmail' : t.mail = [.page c.asid (pageOf m.addr)] := by
        rw [hmail]
        exact if_neg (by rw [show (sl.view s.cap).hl = s.cap.hl from rfl, hthere]; decide)
      have hdelivers : exec (.translationResponse i (.miss m.reg) .needsPage) s = .next (deliver (s.put i t) i) := by
        rw [exec_translationResponse, execTranslationResponse]
        exact onLive_delivers hw hanswer (by rw [hpwr]; exact hw.2.2.1)
      rw [deliver_page (List.getElem?_eq_some_iff.mp hw.1).1 hw.2.2.2 hmail' hthere] at hdelivers
      exact ⟨_, { t with mail := [] }, hdelivers, hat _, hmisses, by rw [hfault, hvalid], by rw [hfault, hfailed], haddr, hawaits,
        ⟨_, List.mem_append_right _ (List.mem_singleton.mpr rfl), rfl, rfl⟩, rfl⟩
  · rw [exec_pageResponse_ok hpower hp, State.endPage_silent (g := fun sl => sl.resumes (sl.view s.cap) asid page) hsettled]
    · rfl
    · exact fun sl hsl => Slice.pageThere_unhitched _ (hhitched sl hsl) asid page
    · exact fun sl => rfl
  · rw [exec_pageTimeout_late hpower hp hlate, State.endPage_silent (g := fun sl => sl) hsettled]
    · have hsame : s.slices.map (fun sl => if sl.works s.cap then sl else sl) = s.slices := by simp
      rw [hsame]
      rfl
    · intro sl hsl
      obtain ⟨hhitched, hstreams, hawaiting⟩ := hnone sl hsl
      exact Slice.pageFailed_untouched (env := sl.view (s.cap.withoutPage asid page)) hhitched hstreams
        (fun a ha => (PageAccess.onPage_withoutPage _ _ _ _ _ _ a).trans (hawaiting a ha)) _
    · exact fun sl => rfl
  · rw [Stream.resumed_at hj]
    exact ⟨rfl, rfl, rfl, rfl, rfl⟩
end

section
/-!
Hitched queries whose refetch has ended, scrubbed rows, and rotation steps and tests (R485, R493, R516, R517).
-/

namespace Sys2Proof.Machine

/-! ### Queries that join the Mash -/

theorem mem_insertBy_iff {α : Type} {lt : α → α → Bool} {a x : α} {xs : List α} : x ∈ insertBy lt a xs ↔ x = a ∨ x ∈ xs := by
  induction xs with
  | nil => simp [insertBy]
  | cons y ys ih =>
    unfold insertBy
    split
    · exact List.mem_cons
    · rw [List.mem_cons, List.mem_cons, ih, or_left_comm]

/-- Changes of elements that lose no member lose none of the list. -/
theorem mem_members_updateWhere {α : Type} {members : α → List Query} {p : α → Bool} {f : α → α} {xs : List α} {q : Query}
    (hf : ∀ b, q ∈ members b → q ∈ members (f b)) (h : ∃ b ∈ xs, q ∈ members b) : ∃ b ∈ updateWhere p f xs, q ∈ members b := by
  obtain ⟨b, hb, hq⟩ := h
  refine ⟨_, List.mem_map_of_mem hb, ?_⟩
  split
  · exact hf b hq
  · exact hq

theorem mem_updateWhere_of_any {α : Type} {p : α → Bool} {f : α → α} {xs : List α} (h : xs.any p = true) : ∃ b ∈ xs, f b ∈ updateWhere p f xs := by
  obtain ⟨b, hb, hp⟩ := List.any_eq_true.mp h
  refine ⟨b, hb, ?_⟩
  have hmem := List.mem_map_of_mem (f := fun x => if p x then f x else x) hb
  rwa [if_pos hp] at hmem

theorem Mash.mem_holds (m : Mash) (q : Query) : q ∈ m.holds ↔ m.binned q ∨ (∃ g ∈ m.gathers, q ∈ g.members) ∨ q ∈ m.gatherWait := by
  simp only [Mash.holds, Mash.binned, List.mem_append, List.mem_flatMap]
  grind

theorem Slice.hasQuery_iff (sl : Slice) (q : Query) : sl.hasQuery q ↔ q ∈ sl.mash.holds := by
  refine ⟨Slice.hasQuery.mem, fun h => ?_⟩
  rcases (sl.mash.mem_holds q).mp h with (hb | ho) | hg | hw
  · exact .inl hb
  · exact .inr (.inr (.inr ho))
  · exact .inr (.inl hg)
  · exact .inr (.inr (.inl hw))

/-- A query joins the Mash, which loses none. -/
def Mash.Joins (m m' : Mash) (q : Query) : Prop := q ∈ m'.holds ∧ ∀ x ∈ m.holds, x ∈ m'.holds

theorem Slice.binQuery_joins (env : Capstan) (sl : Slice) (q : Query) : sl.mash.Joins (sl.binQuery env q).mash q := by
  unfold Slice.binQuery
  extract_lets lay bank
  split
  next fill drains _ =>
  split
  next hany =>
    obtain ⟨b, hb, hmem⟩ := mem_updateWhere_of_any (f := fun (b : Bin) =>
      { b with members := enter q b.members, ready := readyNow b.ready drains (b.members.length + 1) fill }) hany
    refine ⟨(Mash.mem_holds _ _).mpr (.inl (.inl ⟨_, hmem, mem_insertBy_iff.mpr (.inl rfl)⟩)), fun x hx => ?_⟩
    rcases (sl.mash.mem_holds x).mp hx with (hin | ho) | hrest
    · exact (Mash.mem_holds _ _).mpr (.inl (.inl (mem_members_updateWhere (members := Bin.members)
        (fun b hq => mem_insertBy_iff.mpr (.inr hq)) hin)))
    · exact (Mash.mem_holds _ _).mpr (.inl (.inr ho))
    · exact (Mash.mem_holds _ _).mpr (.inr hrest)
  · split
    · refine ⟨(Mash.mem_holds _ _).mpr (.inl (.inl ⟨_, List.mem_append_right _ (List.mem_singleton.mpr rfl), List.mem_singleton.mpr rfl⟩)),
        fun x hx => ?_⟩
      rcases (sl.mash.mem_holds x).mp hx with (⟨b, hb, hin⟩ | ho) | hrest
      · exact (Mash.mem_holds _ _).mpr (.inl (.inl ⟨b, List.mem_append_left _ hb, hin⟩))
      · exact (Mash.mem_holds _ _).mpr (.inl (.inr ho))
      · exact (Mash.mem_holds _ _).mpr (.inr hrest)
    · have hfiled := (Mash.addOverflow_filed sl.layOf sl.mash lay bank [q]).trans
        (Slice.forceOldest_filed sl.layOf { sl with mash := sl.mash.addOverflow lay bank [q] } lay bank)
      refine ⟨(Mash.mem_holds _ _).mpr (.inl ((hfiled.binned q).mpr (.inr (List.mem_singleton.mpr rfl)))), fun x hx => ?_⟩
      rcases (sl.mash.mem_holds x).mp hx with hb | hg | hw
      · exact (Mash.mem_holds _ _).mpr (.inl ((hfiled.binned x).mpr (.inl hb)))
      · exact (Mash.mem_holds _ _).mpr (.inr (.inl (by rw [hfiled.gathers]; exact hg)))
      · exact (Mash.mem_holds _ _).mpr (.inr (.inr (by rw [hfiled.gatherWait]; exact hw)))

theorem Slice.gatherQuery_joins (env : Capstan) (sl : Slice) (q : Query) : sl.mash.Joins (sl.gatherQuery env q).mash q := by
  unfold Slice.gatherQuery
  split
  next target drains _ =>
  dsimp only
  split
  next hany =>
    obtain ⟨b, hb, hmem⟩ := mem_updateWhere_of_any (f := fun (g : Gather) =>
      { g with members := enter q g.members, ready := readyNow g.ready drains (g.members.length + 1) target }) hany
    refine ⟨(Mash.mem_holds _ _).mpr (.inr (.inl ⟨_, hmem, mem_insertBy_iff.mpr (.inl rfl)⟩)), fun x hx => ?_⟩
    rcases (sl.mash.mem_holds x).mp hx with hb | hg | hw
    · exact (Mash.mem_holds _ _).mpr (.inl hb)
    · exact (Mash.mem_holds _ _).mpr (.inr (.inl (mem_members_updateWhere (members := Gather.members)
        (fun b hq => mem_insertBy_iff.mpr (.inr hq)) hg)))
    · exact (Mash.mem_holds _ _).mpr (.inr (.inr hw))
  · split
    · refine ⟨(Mash.mem_holds _ _).mpr (.inr (.inl ⟨_, List.mem_append_right _ (List.mem_singleton.mpr rfl), List.mem_singleton.mpr rfl⟩)),
        fun x hx => ?_⟩
      rcases (sl.mash.mem_holds x).mp hx with hb | ⟨g, hg, hin⟩ | hw
      · exact (Mash.mem_holds _ _).mpr (.inl hb)
      · exact (Mash.mem_holds _ _).mpr (.inr (.inl ⟨g, List.mem_append_left _ hg, hin⟩))
      · exact (Mash.mem_holds _ _).mpr (.inr (.inr hw))
    · split
      · refine ⟨(Mash.mem_holds _ _).mpr (.inr (.inr (List.mem_append_right _ (List.mem_singleton.mpr rfl)))), fun x hx => ?_⟩
        rcases (sl.mash.mem_holds x).mp hx with hb | hg | hw
        · exact (Mash.mem_holds _ _).mpr (.inl hb)
        · exact (Mash.mem_holds _ _).mpr (.inr (.inl hg))
        · exact (Mash.mem_holds _ _).mpr (.inr (.inr (List.mem_append_left _ hw)))
      · refine ⟨(Mash.mem_holds _ _).mpr (.inr (.inr (List.mem_append_right _ (List.mem_singleton.mpr rfl)))), fun x hx => ?_⟩
        rcases (sl.mash.mem_holds x).mp hx with hb | hg | hw
        · exact (Mash.mem_holds _ _).mpr (.inl hb)
        · exact (Mash.mem_holds _ _).mpr (.inr (.inl (mem_members_updateWhere (members := Gather.members) (fun _ hq => hq) hg)))
        · exact (Mash.mem_holds _ _).mpr (.inr (.inr (List.mem_append_left _ hw)))

/-! ### Replayed queries (R493) -/

/-- What a replay changes of a slice: its Mash, the marks of its query store, and counters. -/
def Slice.Replays (sl t : Slice) : Prop := t = { sl with mash := t.mash, store := t.store, cnt := t.cnt }

theorem Slice.Replays.refl (sl : Slice) : sl.Replays sl := rfl

theorem Slice.Replays.trans {a b c : Slice} (h : a.Replays b) (k : b.Replays c) : a.Replays c := by
  unfold Slice.Replays at *
  rw [k, h]

theorem Slice.onlyMash.replays {sl t : Slice} (h : sl.onlyMash t) : sl.Replays t := by
  unfold Slice.onlyMash at h
  unfold Slice.Replays
  rw [h]

/-- A query as its replay enters the Mash. -/
def Query.replayed (q : Query) (now : Nat) : Query := { q with hitch := none, entered := now }

theorem Slice.replayQuery_joins (env : Capstan) (sl : Slice) (q : Query) :
    sl.Replays (sl.replayQuery env q) ∧ sl.mash.Joins (sl.replayQuery env q).mash (q.replayed sl.time) := by
  unfold Slice.replayQuery
  dsimp only
  split
  · have honly := Slice.gatherQuery_onlyMash env { sl with store := sl.store.markHitched q.owns false } (q.replayed sl.time)
    have hjoins := Slice.gatherQuery_joins env { sl with store := sl.store.markHitched q.owns false } (q.replayed sl.time)
    exact ⟨Slice.Replays.trans (b := { sl with store := sl.store.markHitched q.owns false }) rfl (honly.replays.trans rfl), hjoins⟩
  · have honly := Slice.binQuery_onlyMash env { sl with store := sl.store.markHitched q.owns false } (q.replayed sl.time)
    have hjoins := Slice.binQuery_joins env { sl with store := sl.store.markHitched q.owns false } (q.replayed sl.time)
    exact ⟨Slice.Replays.trans (b := { sl with store := sl.store.markHitched q.owns false }) rfl (honly.replays.trans rfl), hjoins⟩

/-- Replays of queries one after the other. -/
theorem Slice.replayAll_joins (env : Capstan) (qs : List Query) (sl : Slice) :
    sl.Replays (qs.foldl (fun sl q => sl.replayQuery env q) sl) ∧
      (∀ x ∈ sl.mash.holds, x ∈ (qs.foldl (fun (sl : Slice) q => sl.replayQuery env q) sl).mash.holds) ∧
      ∀ q ∈ qs, q.replayed sl.time ∈ (qs.foldl (fun (sl : Slice) q => sl.replayQuery env q) sl).mash.holds := by
  induction qs generalizing sl with
  | nil => exact ⟨.refl sl, fun x hx => hx, fun q hq => absurd hq List.not_mem_nil⟩
  | cons y ys ih =>
    obtain ⟨honly, hjoins, hkeeps⟩ := sl.replayQuery_joins env y
    obtain ⟨honly', hkeeps', hall⟩ := ih (sl.replayQuery env y)
    have htime : (sl.replayQuery env y).time = sl.time := by rw [honly]
    refine ⟨honly.trans honly', fun x hx => hkeeps' x (hkeeps x hx), fun q hq => ?_⟩
    rcases List.mem_cons.mp hq with rfl | hq
    · exact hkeeps' _ hjoins
    · rw [← htime]
      exact hall q hq

theorem exec_hitchRefetchDone_installs {s : State} {i addr : Nat} {sl t : Slice} (hw : s.working i sl) (hidle : sl.cache.refetching addr = false)
    (he : (sl.work.hitched.filter (Query.awaitsRefetch addr)).foldl (fun (sl' : Slice) q => sl'.replayQuery (sl.view s.cap) q)
      { sl with work := { sl.work with hitched := sl.work.hitched.filter (fun q => !q.awaitsRefetch addr) } } = t)
    (hpwr : t.pwr = sl.pwr) (hmail : t.mail = sl.mail) : exec (.hitchRefetchDone i addr .installed) s = .next (s.put i t) := by
  rw [exec_hitchRefetchDone, execHitchRefetchDone]
  refine onLive_eq hw ?_ (congrArg SlicePower.napping hpwr) hmail
  unfold Slice.refetchDone
  rw [if_neg (by simp [hidle])]
  exact he

/-- A query for no evaluated leaf, which opens a bin of its own. -/
theorem Slice.replayQuery_opens {env : Capstan} {sl : Slice} {q : Query} {c : Ctx} (hkind : q.next.ckind ≠ 6) (hc : env.ctx? q.ctx = some c)
    (hopens : sl.opensBin q) :
    sl.replayQuery env q = ({ sl with
      store := sl.store.markHitched q.owns false
      mash := { sl.mash with bins := sl.mash.bins ++ [sl.newBin env c (q.replayed sl.time)] } }).count 0x705 0 (some q.ctx) 1 := by
  have hbin := Slice.binQuery_opens env { sl with store := sl.store.markHitched q.owns false } c (q.replayed sl.time) hc hopens
  unfold Slice.replayQuery
  dsimp only
  rw [if_neg hkind]
  exact congrArg (fun x => x.count 0x705 0 (some q.ctx) 1) hbin

/-! ### Scrubbed rows (R485) -/

theorem exec_scrub_counts {s : State} {i : Nat} {sl t : Slice} {r : ScrubRow} {o : WordCode} (hw : s.working i sl)
    (he : (sl.count 0x709 0 none 1).decode (sl.view s.cap) r o = t) (hsound : o ≠ .poisoned) (ht : sl.onlyCounted t) :
    exec (.scrub i r o) s = .next (s.put i t) := by
  have hwake : (if r.ofLay then sl.wake else sl) = sl := by
    rw [Slice.wake_of_awake hw.2.2.1, ite_self]
  rw [exec_scrub, execScrub]
  refine onLive_eq hw ?_ (by rw [ht]) (by rw [ht])
  unfold Slice.scrub
  rw [hwake, if_neg hsound]
  exact he

/-! ### Rotation (R516, R517) -/

theorem exec_rotationStep_rests {s : State} {i : Nat} {sl : Slice} (hw : s.working i sl)
    (h : s.cap.img.rotate = false ∨ sl.pwr.napping = true ∨ sl.time < sl.work.rotAt + 2000 * s.cap.img.rotPeriod) :
    exec (.rotationStep i) s = .next s := by
  have hrests : (!s.cap.img.rotate || sl.pwr.napping || decide (sl.time < sl.work.rotAt + 2000 * s.cap.img.rotPeriod)) = true := by
    rcases h with h | h | h <;> simp [h]
  rw [exec_rotationStep, execRotationStep]
  exact onLive_same hw (if_pos hrests)

/-- A step that is due, at the lay that runs; the other is retired. -/
theorem exec_rotationStep_due {s : State} {i due : Nat} {sl t : Slice} (hw : s.working i sl) (hrotate : s.cap.img.rotate = true)
    (htime : sl.work.rotAt + 2000 * s.cap.img.rotPeriod ≤ sl.time)
    (hdue : due = sl.work.rotAt + (sl.time - sl.work.rotAt) / (2000 * s.cap.img.rotPeriod) * (2000 * s.cap.img.rotPeriod))
    (he : ({ sl with work := { sl.work with rotAt := due } }).rotateLay 0 = t) (hretired : 1 ∈ t.work.layRetired)
    (hpwr : t.pwr = sl.pwr) (hmail : t.mail = sl.mail) : exec (.rotationStep i) s = .next (s.put i t) := by
  have hruns : (!s.cap.img.rotate || sl.pwr.napping || decide (sl.time < sl.work.rotAt + 2000 * s.cap.img.rotPeriod)) = false := by
    simp [hrotate, hw.2.2.1, Nat.not_lt.mpr htime]
  have hother : t.rotateLay 1 = t := if_pos (by simp [hretired])
  rw [exec_rotationStep, execRotationStep]
  refine onLive_eq hw ?_ (congrArg SlicePower.napping hpwr) hmail
  unfold Slice.rotate
  dsimp only
  rw [if_neg (by rw [show (sl.view s.cap).img = s.cap.img from rfl, hruns]; decide), show (sl.view s.cap).img = s.cap.img from rfl, ← hdue, he, hother]

/-- With unit 0 out for test, which holds a position, the spare is the one there was. -/
theorem Work.spare_tested {w : Work} {p : Nat} (hunit : w.rotUnit0 = none) (hp : w.walkMap0[p]? = some 0) (d : Bool) (n : Nat) :
    ({ w with rotUnit0 := some 0, rotDue0 := d, rotStep0 := n } : Work).spare 0 true = w.spare 0 true := by
  have hheld : 0 ∈ w.walkMap0 := List.mem_of_getElem? hp
  have hsame : (List.range (unitCount true)).filter (fun k => !(k ∈ w.map 0 true) && !w.retired 0 true k && w.rotUnit 0 != some (0 + k)) =
      (List.range (unitCount true)).filter (fun k => !(k ∈ w.map 0 true) && !w.retired 0 true k && (some 0 : Option Nat) != some (0 + k)) := by
    refine List.filter_congr fun k _ => ?_
    by_cases hk : k = 0
    · have hin : k ∈ w.map 0 true := by rw [hk]; exact hheld
      simp [hin]
    · have hnone : ((none : Option Nat) != some (0 + k)) = true := rfl
      have hother : ((some 0 : Option Nat) != some (0 + k)) = true := by simpa using fun h : 0 = k => hk h.symm
      rw [show w.rotUnit 0 = none from hunit, hnone, hother]
  exact congrArg List.getLast? hsame.symm

/-- The spare takes the position of walker 0 once that stands at a bound (R517 step 2). -/
theorem Slice.handOver_first {sl : Slice} {p x : Nat} (hunit : sl.work.rotUnit0 = some 0) (hdue : sl.work.rotDue0 = true)
    (hfind : sl.work.walkMap0.findIdx? (fun k => k = 0) = some p) (hspare : sl.work.spare 0 true = some x) :
    sl.handOver 0 = { sl with work := { sl.work with
      walkMap0 := if sl.atBound 0 true p then sl.work.walkMap0.set p x else sl.work.walkMap0, rotDue0 := !sl.atBound 0 true p } } := by
  have hfind' : (sl.work.map 0 (decide (0 < 9))).findIdx? (fun k => k = unitIndex 0) = some p := hfind
  have hspare' : sl.work.spare 0 (decide (0 < 9)) = some x := hspare
  unfold Slice.handOver
  dsimp only
  rw [show sl.work.rotUnit 0 = some 0 from hunit]
  dsimp only
  rw [if_neg (by rw [show sl.work.rotDue 0 = true from hdue]; decide), hfind', hspare']
  dsimp only
  rw [show decide (0 < 9) = true from rfl]
  cases sl.atBound 0 true p
  · have hsame : ({ sl.work with rotDue0 := true } : Work) = sl.work := by rw [← hdue]
    exact (congrArg (fun wk => ({ sl with work := wk } : Slice)) hsame).symm
  · rfl

/-- Walker 0 is the next unit out for test of a lay that runs, which has a spare. -/
theorem Slice.rotateLay_first {sl : Slice} {p x : Nat} (hlays : ¬ 0 ∈ sl.work.layRetired) (hoff : sl.work.layOff = none)
    (hunit : sl.work.rotUnit0 = none) (hstep : sl.work.rotStep0 = 0) (hsound : sl.work.retired 0 true 0 = false)
    (hspare : sl.work.spare 0 true = some x) (hp : sl.work.walkMap0[p]? = some 0) (hfirst : ∀ k < p, sl.work.walkMap0[k]? ≠ some 0) :
    ∃ n, sl.rotateLay 0 = { sl with
      work := { sl.work with
        walkMap0 := if sl.atBound 0 true p then sl.work.walkMap0.set p x else sl.work.walkMap0
        rotUnit0 := some 0, rotDue0 := !sl.atBound 0 true p, rotStep0 := 1 }
      cnt := n } := by
  have hfind : sl.work.walkMap0.findIdx? (fun k => k = 0) = some p := by
    rw [List.findIdx?_eq_some_iff_getElem]
    obtain ⟨hlt, hat⟩ := List.getElem?_eq_some_iff.mp hp
    refine ⟨hlt, by simp [hat], fun j hj => ?_⟩
    have hne := hfirst j hj
    rw [List.getElem?_eq_getElem (by omega)] at hne
    simpa using hne
  have hheld : decide (unitIndex 0 ∈ sl.work.map 0 (decide (0 < 9))) = true := decide_eq_true (List.mem_of_getElem? hp)
  have horder : (List.range 14).map (fun i => (sl.work.rotStep 0 + i) % 14) = List.range 14 := by
    rw [show sl.work.rotStep 0 = 0 from hstep]
    rfl
  have hable : (List.range 14).find? (fun u => !sl.work.retired 0 (decide (u < 9)) (unitIndex u) && (sl.work.spare 0 (decide (u < 9))).isSome) = some 0 := by
    have hzero : (!sl.work.retired 0 (decide (0 < 9)) (unitIndex 0) && (sl.work.spare 0 (decide (0 < 9))).isSome) = true := by
      rw [show sl.work.retired 0 (decide (0 < 9)) (unitIndex 0) = false from hsound, show sl.work.spare 0 (decide (0 < 9)) = some x from hspare]
      rfl
    rw [show List.range 14 = 0 :: (List.range 13).map (· + 1) from rfl]
    exact List.find?_cons_of_pos hzero
  have hspare' := (Work.spare_tested hunit hp true 1).trans hspare
  refine ⟨(sl.count 0x708 0 none 1).cnt, ?_⟩
  unfold Slice.rotateLay
  dsimp only
  rw [if_neg (by simp [hlays, hoff, show sl.work.rotUnit 0 = none from hunit]), horder, hable]
  dsimp only
  rw [hheld]
  exact Slice.handOver_first (sl := { sl with
    work := { sl.work with rotUnit0 := some 0, rotDue0 := true, rotStep0 := 1 }, cnt := (sl.count 0x708 0 none 1).cnt }) rfl rfl hfind hspare'

/-! ### The end of a test (R517, R525) -/

theorem exec_rotationTestDone_tests {s : State} {i u : Nat} {sl : Slice} (hw : s.working i sl) (hunit : sl.work.rotUnit0 = some u)
    (hdue : sl.work.rotDue0 = false) (pass : Bool) :
    exec (.rotationTestDone i 0 pass) s = onLive i s (fun env _ => if pass then { sl with work := { sl.work with rotUnit0 := none } }
      else ({ sl with work := { sl.work with rotUnit0 := none } }).retireUnit env 0 u) := by
  have hdone : sl.rotationDone (sl.view s.cap) 0 pass = if pass then { sl with work := { sl.work with rotUnit0 := none } }
      else ({ sl with work := { sl.work with rotUnit0 := none } }).retireUnit (sl.view s.cap) 0 u := by
    unfold Slice.rotationDone
    rw [show sl.work.rotUnit 0 = some u from hunit]
    dsimp only
    rw [if_neg (by rw [show sl.work.rotDue 0 = false from hdue]; decide)]
    rfl
  rw [exec_rotationTestDone, execRotationTestDone]
  unfold onLive onSlice
  rw [hw.1]
  dsimp only
  rw [hdone]

/-- The slice whose walker `u` of lay 0 is retired. -/
def Slice.lost0 (sl : Slice) (u : Nat) : Slice :=
  { sl with work := { sl.work with rotUnit0 := none, walkRetired := sl.work.walkRetired ||| 2 ^ u } }

/-- A repair record made in operation (R526). -/
def Slice.repairRecord (sl : Slice) (kind unit index : Nat) (retired : Bool) : Repair :=
  { slice := sl.id, kind := kind, unit := unit, index := index, retired := retired, inService := true }

theorem Slice.repair_logs (env : Capstan) (sl : Slice) (kind unit index : Nat) (retired : Bool) :
    (sl.tell (.repair (sl.repairRecord kind unit index retired))).Logs (sl.repair env kind unit index retired) := by
  unfold Slice.repair
  exact Slice.log_logs _ _ _ _ _

theorem Slice.repair_mail {env : Capstan} {sl : Slice} (htokens : sl.tokens ≠ 0) (hrest : env.hl.restarting = none) (kind unit index : Nat)
    (retired : Bool) : (sl.repair env kind unit index retired).mail = sl.mail ++ [.repair (sl.repairRecord kind unit index retired)] := by
  unfold Slice.repair
  exact Slice.log_mail (sl := sl.tell (.repair (sl.repairRecord kind unit index retired))) _ _ _ htokens hrest

/-- A walker of lay 0 that fails its test, where others hold positions: it is retired, and two notices tell of it. -/
theorem Slice.retireUnit_walker {env : Capstan} {sl : Slice} {u : Nat} (hu : u < 9) (hmap : sl.work.walkMap0 ≠ []) (htokens : sl.tokens ≠ 0)
    (hrest : env.hl.restarting = none) (hmail : sl.mail = []) :
    ∃ t, ({ sl with work := { sl.work with rotUnit0 := none } } : Slice).retireUnit env 0 u = t ∧
      t.mail = [.repair (sl.repairRecord 0x01 u 0 true), .fault sl.id classUnitRetired 0xFF (some u)] ∧ t.work = (sl.lost0 u).work ∧ t.pwr = sl.pwr := by
  have hindex : unitIndex u = u := if_pos hu
  have hwork : ({ sl.work with rotUnit0 := none } : Work).retire 0 (decide (u < 9)) u = (sl.lost0 u).work := by
    rw [decide_eq_true hu]
    unfold Work.retire
    rw [if_pos rfl, Nat.mul_zero, Nat.zero_add]
    rfl
  obtain ⟨l, hl⟩ : ∃ l, (sl.lost0 u).repair env 0x01 u 0 true = l := ⟨_, rfl⟩
  have hlogs := (sl.lost0 u).repair_logs env 0x01 u 0 true
  have hlmail := Slice.repair_mail (sl := sl.lost0 u) htokens hrest 0x01 u 0 true
  rw [hl] at hlogs hlmail
  obtain ⟨-, -, hpwr, hlwork, -, -⟩ := hlogs.units
  have hid : l.id = sl.id := by rw [hlogs.rest]; rfl
  refine ⟨l.tell (.fault sl.id classUnitRetired 0xFF (some u)), ?_, ?_, hlwork, hpwr⟩
  · unfold Slice.retireUnit
    dsimp only
    rw [hindex, hwork, if_pos hu, Nat.mul_zero, Nat.add_zero]
    have hheld : ((l.tell (.fault sl.id classUnitRetired 0xFF (some u))).work.map 0 (decide (u < 9))).isEmpty = false := by
      rw [Slice.tell_work, hlwork, decide_eq_true hu]
      exact List.isEmpty_eq_false_iff.mpr hmap
    have hends : ∀ x, x = l → (if ((x.tell (.fault sl.id classUnitRetired 0xFF (some u))).work.map 0 (decide (u < 9))).isEmpty then
        (x.tell (.fault sl.id classUnitRetired 0xFF (some u))).retireLay env 0 else x.tell (.fault sl.id classUnitRetired 0xFF (some u))) =
        l.tell (.fault sl.id classUnitRetired 0xFF (some u)) := by
      rintro _ rfl
      rw [if_neg (by rw [hheld]; decide)]
    exact hends _ hl
  · rw [Slice.tell, hlmail, show (sl.lost0 u).mail = [] from hmail]
    rfl

/-- A repair record and a fault are the only things told: both reach the Capstan. -/
theorem deliver_retired {s : State} {i cls slice unit d : Nat} {r : Repair} {sl : Slice} (hi : i < s.slices.length) (hsettled : s.settled)
    (hdecides : s.decides) (hroom : s.cap.hl.repairs.length < 4096) (hmail : sl.mail = [.repair r, .fault slice cls unit (some d)]) :
    deliver (s.put i sl) i = (s.put i { sl with mail := [] }).withCap
      (({ s.cap with hl := { s.cap.hl with repairs := s.cap.hl.repairs ++ [r] } } : Capstan).captureFault cls slice false unit d) := by
  obtain ⟨-, hrestart, hfailed⟩ := hdecides
  have hread : (s.put i sl).readMail i = (s.put i { sl with mail := [] }).withCap
      (({ s.cap with hl := { s.cap.hl with repairs := s.cap.hl.repairs ++ [r] } } : Capstan).captureFault cls slice false unit d) := by
    simp [State.readMail, State.put, hi, hmail, State.notify, Notice.toCapstan, hrestart, hfailed, State.capTakes, hroom, State.onCap, State.withCap]
  unfold deliver
  rw [hread, deliverAll_settled]
  obtain ⟨hmails, hctxs⟩ := s.settled_put i { sl with mail := [] } hsettled rfl
  exact ⟨hmails, by simpa [State.withCap] using hctxs⟩

end Sys2Proof.Machine

open Sys2Proof Sys2Proof.Machine

/-- Settles O47: replayed queries join the Mash; a scrub counts; the lay that runs takes its next unit out by `rotateLay`, and a unit that fails
is retired with its two notices. -/
theorem refetchesScrubsAndRotationEnd : Obligations.RefetchesScrubsAndRotationEnd := by
  unfold Obligations.RefetchesScrubsAndRotationEnd
  refine ⟨fun s i addr sl hw hidle => ?_, fun s i sl q h c hw hhitched hhitch hcause hidle hkind hc hopens => ?_,
    fun s i sl r hw => ⟨⟨_, exec_scrub_counts hw rfl (by decide) rfl⟩, ⟨_, exec_scrub_counts hw rfl (by decide) rfl⟩⟩,
    fun s i sl hw hrests => exec_rotationStep_rests hw hrests,
    fun s i x p sl hw hrotate _ htime hretired hoff hunit hstep hsound hspare _ hp hfirst => ?_,
    fun s i u sl hw hunit hdue => ?_, fun s i u sl hw hdecides hunit hdue hu hmap hroom htokens _ => ?_⟩
  · obtain ⟨honly, -, hall⟩ := Slice.replayAll_joins (sl.view s.cap) (sl.work.hitched.filter (Query.awaitsRefetch addr))
      { sl with work := { sl.work with hitched := sl.work.hitched.filter (fun q => !q.awaitsRefetch addr) } }
    refine ⟨_, exec_hitchRefetchDone_installs hw hidle rfl (by rw [honly]) (by rw [honly]), by rw [honly], fun q hq hawaits => ?_,
      by rw [honly], by rw [honly], by rw [honly]⟩
    exact (Slice.hasQuery_iff _ _).mpr (hall q (List.mem_filter.mpr ⟨hq, hawaits⟩))
  · have hawaits : q.awaitsRefetch h.addr = true := by simp [Query.awaitsRefetch, hhitch, hcause]
    have hone : sl.work.hitched.filter (Query.awaitsRefetch h.addr) = [q] := by rw [hhitched, List.filter_cons_of_pos hawaits, List.filter_nil]
    have hnone : sl.work.hitched.filter (fun q => !q.awaitsRefetch h.addr) = [] := by simp [hhitched, hawaits]
    have hreplay := Slice.replayQuery_opens (env := sl.view s.cap) (sl := { sl with work := { sl.work with hitched := [] } }) hkind hc hopens
    have hfold : (sl.work.hitched.filter (Query.awaitsRefetch h.addr)).foldl (fun (sl' : Slice) q => sl'.replayQuery (sl.view s.cap) q)
        { sl with work := { sl.work with hitched := sl.work.hitched.filter (fun q => !q.awaitsRefetch h.addr) } } =
        ({ sl with work := { sl.work with hitched := [] } } : Slice).replayQuery (sl.view s.cap) q := by
      rw [hone, hnone, List.foldl_cons, List.foldl_nil]
    exact ⟨_, exec_hitchRefetchDone_installs hw hidle (hfold.trans hreplay) rfl rfl, rfl, rfl, rfl, rfl⟩
  · obtain ⟨n, hrotated⟩ := Slice.rotateLay_first (sl := { sl with work := { sl.work with
      rotAt := sl.work.rotAt + (sl.time - sl.work.rotAt) / (2000 * s.cap.img.rotPeriod) * (2000 * s.cap.img.rotPeriod) } })
      (by simp [hretired]) hoff hunit hstep hsound hspare hp hfirst
    exact ⟨_, exec_rotationStep_due hw hrotate htime rfl hrotated (by simp [hretired]) rfl rfl, rfl, rfl, rfl, rfl⟩
  · rw [exec_rotationTestDone_tests hw hunit hdue]
    exact onLive_eq hw rfl rfl rfl
  · obtain ⟨t, he, hmail, hwork, hpwr⟩ := Slice.retireUnit_walker (env := sl.view s.cap) hu hmap htokens hdecides.2.1
      (s.mail_of i sl hw.1 hw.2.2.2)
    have hlt : i < s.slices.length := (List.getElem?_eq_some_iff.mp hw.1).1
    have hexec : exec (.rotationTestDone i 0 false) s = .next (deliver (s.put i t) i) := by
      rw [exec_rotationTestDone_tests hw hunit hdue]
      exact onLive_delivers hw he (by rw [hpwr]; exact hw.2.2.1)
    rw [deliver_retired hlt hw.2.2.2 hdecides hroom hmail] at hexec
    exact ⟨_, { t with mail := [] }, hexec, List.getElem?_set_self hlt, hwork,
      (congrArg (fun (h : Health) => h.repairs.length) (Capstan.captureFault_hl ..)).trans List.length_append,
      (congrArg (fun (h : Health) => h.fault.getLsbD 0) (Capstan.captureFault_hl ..)).trans (faultValue_valid ..), Capstan.captureFault_ctxs ..⟩
end

section
/-!
Descriptors and index tables that are read: what passes the checks goes on, what fails them is refused with its completion block written
(R150, R152, R157, R159, R193).
-/

namespace Sys2Proof.Machine

/-! ### The IDs of the mesh port (R594) -/

/-- A list without duplicates is no longer than one that holds all its members. -/
theorem length_le_of_nodup_subset {xs ys : List Nat} (hnodup : xs.Nodup) (h : xs ⊆ ys) : xs.length ≤ ys.length := by
  induction xs generalizing ys with
  | nil => exact Nat.zero_le _
  | cons x xs ih =>
    obtain ⟨hx, htail⟩ := List.nodup_cons.mp hnodup
    have hmem : x ∈ ys := h List.mem_cons_self
    have hrest : xs ⊆ ys.erase x := fun y hy =>
      (List.mem_erase_of_ne fun heq : y = x => hx (heq ▸ hy)).mpr (h (List.mem_cons_of_mem _ hy))
    have hlength := ih htail hrest
    have hpos := List.length_pos_of_mem hmem
    rw [List.length_erase_of_mem hmem] at hlength
    rw [List.length_cons]
    omega

/-- With at most 255 writes at the port one of its 256 IDs is free. -/
theorem Ingress.freeId_some {g : Ingress} (h : g.meshOut.length ≤ 255) :
    ∃ id, g.freeId = some id ∧ id < 256 ∧ ∀ w ∈ g.meshOut, w.id ≠ id := by
  cases hfree : g.freeId with
  | some id =>
    have hnot := List.find?_some hfree
    obtain ⟨k, -, hk⟩ := List.mem_map.mp (List.mem_of_find?_eq_some hfree)
    refine ⟨id, rfl, by omega, fun w hw hid => ?_⟩
    rw [Bool.not_eq_true', List.any_eq_false] at hnot
    exact hnot w hw (decide_eq_true hid)
  | none =>
    have hused : List.range 256 ⊆ g.meshOut.map (·.id) := by
      intro i hi
      have hlt : i < 256 := List.mem_range.mp hi
      have hmem : i ∈ (List.range 256).map (fun k => (g.nextId + k) % 256) :=
        List.mem_map.mpr ⟨(i + 256 - g.nextId % 256) % 256, List.mem_range.mpr (Nat.mod_lt _ (by decide)), by omega⟩
      have hnot := List.find?_eq_none.mp hfree i hmem
      rw [Bool.not_eq_true, Bool.not_eq_false', List.any_eq_true] at hnot
      obtain ⟨w, hw, hid⟩ := hnot
      exact List.mem_map.mpr ⟨w, hw, of_decide_eq_true hid⟩
    have hlength := length_le_of_nodup_subset List.nodup_range hused
    rw [List.length_range, List.length_map] at hlength
    omega

/-- A completion-block write leaves at once where an ID is free and nothing waits before it. -/
theorem Slice.issueCompl_leaves {sl : Slice} {w : MeshWrite} (hop : w.op = .write) (hresult : w.isResult = false) (hblock : w.block = none)
    (hwait : sl.ing.meshWait = []) (hroom : sl.ing.meshOut.length ≤ 255) :
    ∃ id, id < 256 ∧ (∀ x ∈ sl.ing.meshOut, x.id ≠ id) ∧ sl.issueCompl w = { sl with ing := { sl.ing with
      meshOut := sl.ing.meshOut ++ [{ w with id := id, waiting := false }], nextId := (id + 1) % 256 } } := by
  obtain ⟨id, hid, hlt, hnew⟩ := Ingress.freeId_some hroom
  refine ⟨id, hlt, hnew, ?_⟩
  rw [Slice.issueCompl_write hop hwait (by simp [Slice.mayLeave, hid, hop, hresult]) hid, Slice.startTransfer, hblock]

/-- Two completion-block writes leave, one after the other, under different IDs. -/
theorem Slice.issueCompl_pair {sl : Slice} {a b : MeshWrite} (ha : a.op = .write ∧ a.isResult = false ∧ a.block = none)
    (hb : b.op = .write ∧ b.isResult = false ∧ b.block = none) (hwait : sl.ing.meshWait = []) (hroom : sl.ing.meshOut.length ≤ 254) :
    ∃ i j, (i < 256 ∧ j < 256 ∧ i ≠ j) ∧ (sl.issueCompl a).issueCompl b = { sl with ing := { sl.ing with
      meshOut := sl.ing.meshOut ++ [{ a with id := i, waiting := false }, { b with id := j, waiting := false }], nextId := (j + 1) % 256 } } := by
  obtain ⟨i, hi, -, hfirst⟩ := Slice.issueCompl_leaves ha.1 ha.2.1 ha.2.2 hwait (by omega)
  have hlength : (sl.ing.meshOut ++ [{ a with id := i, waiting := false }]).length ≤ 255 := by
    rw [List.length_append, List.length_singleton]
    omega
  obtain ⟨j, hj, hnew, hsecond⟩ := Slice.issueCompl_leaves (sl := { sl with ing := { sl.ing with
    meshOut := sl.ing.meshOut ++ [{ a with id := i, waiting := false }], nextId := (i + 1) % 256 } }) hb.1 hb.2.1 hb.2.2 hwait hlength
  refine ⟨i, j, ⟨hi, hj, hnew _ (List.mem_append_right _ (List.mem_singleton.mpr rfl))⟩, ?_⟩
  rw [hfirst, hsecond]
  simp only [List.append_assoc, List.cons_append, List.nil_append]

/-! ### Refusals (R157, R193) -/

/-- A descriptor to which nothing was granted has no reservation to release. -/
theorem Slice.releasePend_ungranted (sl : Slice) {p : Pend} (hitems : p.items = []) (hstage : p.stage ≠ .reserve) :
    ∃ st, sl.releasePend p = { sl with store := st } := by
  unfold Slice.releasePend
  extract_lets a granted mine b
  have ha : a = sl := by simp only [a, hitems, List.isEmpty_nil, if_true]
  refine ⟨b.store, ?_⟩
  rw [if_neg hstage]
  simp only [b, ha]

/-- The two writes of a refused batch's completion block: its cause, and its DETAIL. -/
def Pend.causeWrite (p : Pend) (cause detail : Nat) : MeshWrite :=
  p.write 9 .write 0 (toLe 1 cause) .refuse (refusedCount p.desc p.isG p.mask) cause detail

def Pend.detailWrite (p : Pend) (cause detail : Nat) : MeshWrite :=
  p.write 12 .write 0 (toLe 4 detail) .detail (refusedCount p.desc p.isG p.mask) cause detail

/-- What a refusal leaves of a slice's ingress, with the two writes at the mesh port under IDs of their own. -/
structure Slice.Refused (sl t : Slice) (p : Pend) (cause detail : Nat) (w₁ w₂ : MeshWrite) : Prop where
  ing : ∃ n, t.ing = { sl.ing with refuse := refuseReg cause p.core p.desc.ctx p.desc.batchId, nextId := n, meshOut := sl.ing.meshOut ++ [w₁, w₂] }
  first : w₁ = { p.causeWrite cause detail with id := w₁.id }
  second : w₂ = { p.detailWrite cause detail with id := w₂.id }
  ids : w₁.id < 256 ∧ w₂.id < 256 ∧ w₁.id ≠ w₂.id
  pwr : t.pwr = sl.pwr
  mail : t.mail = sl.mail

/-- A slice that has released what a refused batch held, and counted the refusal. -/
def Slice.refusing (sl : Slice) (p : Pend) : Slice := (sl.releasePend p).count 0x602 0 (some p.desc.ctx) 1

/-- The slice whose ING_REFUSE names a batch. -/
def Slice.named (sl : Slice) (p : Pend) (cause : Nat) : Slice :=
  { sl with ing := { sl.ing with refuse := refuseReg cause p.core p.desc.ctx p.desc.batchId } }

theorem Slice.named_units (sl : Slice) (p : Pend) (cause : Nat) :
    (sl.named p cause).tokens = sl.tokens ∧ (sl.named p cause).pwr = sl.pwr ∧ (sl.named p cause).mail = sl.mail := by
  unfold Slice.named
  exact ⟨rfl, rfl, rfl⟩

theorem Slice.refuse_eq (env : Capstan) (sl : Slice) {p : Pend} (cause detail : Nat) (haddr : complAddressable p.desc = true) :
    ∃ code data x, sl.refuse env p cause detail true =
      (((((sl.refusing p).issueCompl (p.causeWrite cause detail)).issueCompl (p.detailWrite cause detail)).named p cause).log env code data x) := by
  refine ⟨0x3001, toLe 2 p.desc.ctx ++ toLe 1 cause ++ toLe 2 (p.core % 512) ++ toLe 4 p.desc.batchId,
    { tail := some (toLe 4 detail), irq := some .contextError }, ?_⟩
  unfold Slice.refuse
  dsimp only
  rw [if_pos rfl, if_pos (by rw [haddr]; rfl)]
  rfl

/-- A batch to which nothing was granted is refused, its completion block addressed. -/
theorem Slice.refuse_read {env : Capstan} {sl : Slice} {p : Pend} (cause detail : Nat) (hitems : p.items = []) (hstage : p.stage ≠ .reserve)
    (haddr : complAddressable p.desc = true) (hwait : sl.ing.meshWait = []) (hroom : sl.ing.meshOut.length ≤ 254) (htokens : sl.tokens ≠ 0)
    (hrest : env.hl.restarting = none) : ∃ w₁ w₂, sl.Refused (sl.refuse env p cause detail true) p cause detail w₁ w₂ := by
  obtain ⟨st, hst⟩ := sl.releasePend_ungranted hitems hstage
  obtain ⟨x, hx⟩ : ∃ x, sl.refusing p = x := ⟨_, rfl⟩
  obtain ⟨n, hn⟩ : ∃ n, x = { sl with store := st, cnt := n } := ⟨x.cnt, by rw [← hx, Slice.refusing, hst]; rfl⟩
  obtain ⟨i, j, hids, hpair⟩ := Slice.issueCompl_pair (sl := x) (a := p.causeWrite cause detail) (b := p.detailWrite cause detail)
    ⟨rfl, rfl, rfl⟩ ⟨rfl, rfl, rfl⟩ (by rw [hn]; exact hwait) (by rw [hn]; exact hroom)
  obtain ⟨code, data, extra, hrefuse⟩ := Slice.refuse_eq env sl cause detail haddr
  rw [hx, hpair, hn] at hrefuse
  obtain ⟨x', hx'⟩ : ∃ x', x' = ({ sl with
    store := st
    ing := { sl.ing with
      meshOut := sl.ing.meshOut ++
        [{ p.causeWrite cause detail with id := i, waiting := false }, { p.detailWrite cause detail with id := j, waiting := false }]
      nextId := (j + 1) % 256 }
    cnt := n } : Slice) := ⟨_, rfl⟩
  obtain ⟨hy_tokens, hy_pwr, hy_mail⟩ := x'.named_units p cause
  have hlog : sl.refuse env p cause detail true = (x'.named p cause).log env code data extra := by rw [hrefuse, hx']
  obtain ⟨-, -, hpwr, -, -, hing⟩ := (Slice.log_logs env (x'.named p cause) code data extra).units
  have hmail := Slice.log_mail (env := env) (sl := x'.named p cause) code data extra (by rw [hy_tokens, hx']; exact htokens) hrest
  rw [← hlog] at hpwr hing hmail
  have hy_ing : (x'.named p cause).ing = { sl.ing with
      refuse := refuseReg cause p.core p.desc.ctx p.desc.batchId, nextId := (j + 1) % 256
      meshOut := sl.ing.meshOut ++
        [{ p.causeWrite cause detail with id := i, waiting := false }, { p.detailWrite cause detail with id := j, waiting := false }] } := by
    rw [hx', Slice.named]
  have hx_pwr : x'.pwr = sl.pwr := by rw [hx']
  have hx_mail : x'.mail = sl.mail := by rw [hx']
  refine ⟨{ p.causeWrite cause detail with id := i, waiting := false }, { p.detailWrite cause detail with id := j, waiting := false },
    ⟨_, hing.trans hy_ing⟩, ?_, ?_, hids, (hpwr.trans hy_pwr).trans hx_pwr, (hmail.trans hy_mail).trans hx_mail⟩
  · rfl
  · rfl

/-! ### Descriptors (R150 step 1, R152) -/

/-- What is known of a descriptor that passes the checks: its context is there, and is not in fault. -/
theorem descCause_none {env : Capstan} {off : Nat} {isG : Bool} {bs : List Byte} {c : Ctx} (h : descCause env off isG bs = none)
    (hc : env.ctx? (descOf bs).ctx = some c) : c.cstate ≠ .invalid ∧ c.faulted = false := by
  unfold descCause at h
  dsimp only at h
  split at h
  · exact absurd h (by simp)
  · rw [hc] at h
    dsimp only at h
    split at h
    · exact absurd h (by simp)
    · next hvalid =>
      split at h
      · exact absurd h (by simp)
      · next hfault =>
        simp only [Bool.or_eq_true, decide_eq_true_eq, not_or] at hvalid
        exact ⟨hvalid.1.2, Bool.eq_false_iff.mpr hfault⟩

theorem Slice.pendAt_only {sl : Slice} {p : Pend} {st : Stage} (h : sl.ing.pendq = [p]) (hst : p.stage = st) : sl.pendAt 0 st = some p := by
  unfold Slice.pendAt
  rw [h]
  exact if_pos hst

/-- The slice with one descriptor in its pending queue. -/
def Slice.withPend (sl : Slice) (p : Pend) : Slice := { sl with ing := { sl.ing with pendq := [p] } }

theorem Slice.setPend_only {sl : Slice} {p : Pend} (h : sl.ing.pendq = [p]) (p' : Pend) : sl.setPend 0 p' = sl.withPend p' := by
  unfold Slice.setPend Slice.withPend
  rw [h]
  rfl

/-- Ingress goes on with the only descriptor. -/
theorem Slice.admitWaiting_only {env : Capstan} {sl : Slice} {p p' : Pend} (h : (sl.withPend p).admitOne env [] p = (sl.withPend p, some p')) :
    (sl.withPend p).admitWaiting env = sl.withPend p' := by
  unfold Slice.admitWaiting
  rw [show (sl.withPend p).ing.pendq = [p] from rfl, admitList, h]
  dsimp only
  rw [admitList]
  rfl

/-- A descriptor whose context may go on. -/
theorem Slice.admitOne_waiting {env : Capstan} {sl : Slice} {earlier : List Pend} {p : Pend} {c : Ctx} (hstage : p.stage = .waiting)
    (hc : env.ctx? p.desc.ctx = some c) (hvalid : c.cstate ≠ .invalid) (hfault : c.faulted = false) :
    sl.admitOne env earlier p =
      if c.pass != .running then (sl, some p)
      else if (activeOf p.desc p.isG p.mask).isEmpty then
        if behind earlier p then (sl, some p) else (sl.takeEmpty p, none)
      else if !env.isActive c.id then (sl.tell (.activate sl.id c.id), some p)
      else if p.index.isEmpty then
        if p.desc.accMapped then (sl, some { p with stage := .index })
        else sl.checkCask env c { p with index := (activeOf p.desc p.isG p.mask).map (fun q => (q, q)) }
      else sl.checkCask env c p := by
  unfold Slice.admitOne
  rw [if_neg (by simp [hstage]), if_neg (by simp [hstage]), hc]
  dsimp only
  rw [if_neg hvalid, if_neg (by simp [hfault]), if_neg (by simp [hstage])]

/-- The only descriptor of a slice that works is read. -/
theorem exec_descriptorReadDone_does {s : State} {i : Nat} {sl t : Slice} {p : Pend} {bs : List Byte} (hw : s.working i sl)
    (hp : sl.ing.pendq = [p]) (hstage : p.stage = .descriptor) (hlength : bs.length = 64)
    (he : (match descCause (sl.view s.cap) p.off p.isG bs with
      | some cause => ((sl.cutPend 0).refuse (sl.view s.cap) { p with raw := bs, desc := descOf bs } cause 0 true).admitWaiting (sl.view s.cap)
      | none => (sl.withPend { p with raw := bs, desc := descOf bs, stage := .waiting }).admitWaiting (sl.view s.cap)) = t)
    (hpwr : t.pwr = sl.pwr) (hmail : t.mail = sl.mail) : exec (.descriptorReadDone i 0 bs) s = .next (s.put i t) := by
  rw [exec_descriptorReadDone, execDescriptorReadDone]
  refine onLive_eq hw ?_ (congrArg SlicePower.napping hpwr) hmail
  unfold Slice.descriptorRead
  rw [Slice.pendAt_only hp hstage]
  dsimp only
  rw [padTo_full hlength, Slice.setPend_only hp]
  exact he

/-! ### Index tables (R150 step 2, R159, R162) -/

theorem indexed_cons {α : Type} (x : α) (xs : List α) : indexed (x :: xs) = (0, x) :: (indexed xs).map (fun e => (e.1 + 1, e.2)) := by
  unfold indexed
  rw [List.length_cons, List.range_succ_eq_map, List.zip_cons_cons, List.zip_map_left]
  rfl

theorem getD_tail (es : List Nat) (k : Nat) : es.tail.getD k 0 = es.getD (k + 1) 0 := by
  cases es with
  | nil => rfl
  | cons x xs => rfl

theorem headD_eq_getD (es : List Nat) : es.headD 0 = es.getD 0 0 := by
  cases es with
  | nil => rfl
  | cons x xs => rfl

/-- Entries that all pass give each query its slot. -/
theorem readIndex_passes {d : Desc} {detect : Option Nat} (act es : List Nat) (hdetect : ∀ q ∈ act, detect ≠ some q)
    (hes : ∀ k < act.length, es.getD k 0 < d.accSlots) :
    readIndex d detect act es = .ok ((indexed act).map (fun e => (e.2, es.getD e.1 0))) := by
  induction act generalizing es with
  | nil => rfl
  | cons q qs ih =>
    have hfirst : ¬ d.accSlots ≤ es.headD 0 := by
      rw [headD_eq_getD]
      exact Nat.not_le.mpr (hes 0 (Nat.zero_lt_succ _))
    have hrest := ih es.tail (fun x hx => hdetect x (List.mem_cons_of_mem q hx)) (fun k hk => by
      rw [getD_tail]
      exact hes (k + 1) (Nat.succ_lt_succ hk))
    unfold readIndex
    dsimp only
    rw [if_neg (hdetect q List.mem_cons_self), if_neg hfirst, hrest, indexed_cons, List.map_cons, List.map_map, headD_eq_getD]
    simp only [Except.map, Function.comp_def, getD_tail]

/-- The first entry that fails gives the cause and the query. -/
theorem readIndex_fails {d : Desc} {detect : Option Nat} {k q : Nat} (act es : List Nat) (hq : act[k]? = some q)
    (hbefore : ∀ j < k, es.getD j 0 < d.accSlots ∧ detect ≠ act[j]?) (hfails : detect = some q ∨ d.accSlots ≤ es.getD k 0) :
    readIndex d detect act es = .error (if detect = some q then 0x0A else 0x08, q) := by
  induction k generalizing act es with
  | zero =>
    cases act with
    | nil => exact absurd hq (by simp)
    | cons x xs =>
      obtain rfl : x = q := by simpa using hq
      unfold readIndex
      dsimp only
      split
      · rfl
      · next hclean =>
        rw [if_pos (by rw [headD_eq_getD]; exact hfails.resolve_left hclean)]
  | succ k ih =>
    cases act with
    | nil => exact absurd hq (by simp)
    | cons x xs =>
      obtain ⟨hslot, hclean⟩ := hbefore 0 (Nat.zero_lt_succ k)
      have hrest := ih xs es.tail hq (fun j hj => by
        obtain ⟨hslot', hclean'⟩ := hbefore (j + 1) (Nat.succ_lt_succ hj)
        exact ⟨by rw [getD_tail]; exact hslot', hclean'⟩) (by rw [getD_tail]; exact hfails)
      have hother : detect ≠ some x := hclean
      unfold readIndex
      dsimp only
      rw [if_neg hother, if_neg (by rw [headD_eq_getD]; exact Nat.not_le.mpr hslot), hrest]
      rfl

theorem exec_indexReadDone_does {s : State} {i : Nat} {sl t : Slice} {p : Pend} {es : List Nat} {detect : Option Nat} (hw : s.working i sl)
    (hp : sl.ing.pendq = [p]) (hstage : p.stage = .index)
    (he : (match readIndex p.desc detect (activeOf p.desc p.isG p.mask) es with
      | .error (cause, q) => ((sl.cutPend 0).refuse (sl.view s.cap) p cause q true).admitWaiting (sl.view s.cap)
      | .ok ix => (sl.withPend { p with index := ix, stage := .waiting }).admitWaiting (sl.view s.cap)) = t)
    (hpwr : t.pwr = sl.pwr) (hmail : t.mail = sl.mail) : exec (.indexReadDone i 0 es detect) s = .next (s.put i t) := by
  rw [exec_indexReadDone, execIndexReadDone]
  refine onLive_eq hw ?_ (congrArg SlicePower.napping hpwr) hmail
  unfold Slice.indexRead
  rw [Slice.pendAt_only hp hstage]
  dsimp only
  simp only [Slice.setPend_only hp]
  exact he

/-- A batch whose reservation needs no loan goes on to it (R150 step 3). -/
theorem Slice.checkCask_reserves {env : Capstan} {sl : Slice} {c : Ctx} {p : Pend} (hroom : caskTooSmall env sl.id c (caskItems p.desc c p.index) = false)
    (hblocks : sl.missingBlocks env c (caskItems p.desc c p.index) = 0) : sl.checkCask env c p = (sl, some { p with stage := .reserve }) := by
  unfold Slice.checkCask
  dsimp only
  rw [if_neg (by rw [hroom]; decide), if_pos hblocks]

/-- The two writes of a refusal, and the ingress that it leaves without its only descriptor. -/
theorem Slice.Refused.only {sl t : Slice} {p p' : Pend} {cause detail : Nat} {w₁ w₂ : MeshWrite} (h : (sl.cutPend 0).Refused t p' cause detail w₁ w₂)
    (hp : sl.ing.pendq = [p]) :
    (∃ n, t.ing = { sl.ing with
      pendq := [], refuse := refuseReg cause p'.core p'.desc.ctx p'.desc.batchId, nextId := n, meshOut := sl.ing.meshOut ++ [w₁, w₂] }) ∧
      (w₁.op = .write ∧ w₁.core = p'.core ∧ w₁.die = p'.die ∧ w₁.off = p'.desc.compl + 9 ∧ w₁.data = toLe 1 cause) ∧
      w₂.op = .write ∧ w₂.core = p'.core ∧ w₂.die = p'.die ∧ w₂.off = p'.desc.compl + 12 ∧ w₂.data = toLe 4 detail := by
  obtain ⟨⟨n, hing⟩, hfirst, hsecond, -, -, -⟩ := h
  refine ⟨⟨n, hing.trans ?_⟩, ?_, ?_⟩
  · have hcut : sl.ing.pendq.eraseIdx 0 = [] := by rw [hp]; rfl
    unfold Slice.cutPend
    dsimp only
    rw [hcut]
  · rw [hfirst]
    exact ⟨rfl, rfl, rfl, rfl, rfl⟩
  · rw [hsecond]
    exact ⟨rfl, rfl, rfl, rfl, rfl⟩

/-- Ingress has nothing more to do after it refused its only descriptor. -/
theorem Slice.refuse_only {env : Capstan} {sl : Slice} {p p' : Pend} (cause detail : Nat) (hp : sl.ing.pendq = [p]) (hitems : p'.items = [])
    (hstage : p'.stage ≠ .reserve) (haddr : complAddressable p'.desc = true) (hwait : sl.ing.meshWait = []) (hroom : sl.ing.meshOut.length ≤ 254)
    (htokens : sl.tokens ≠ 0) (hrest : env.hl.restarting = none) :
    ∃ w₁ w₂ t, ((sl.cutPend 0).refuse env p' cause detail true).admitWaiting env = t ∧ (sl.cutPend 0).Refused t p' cause detail w₁ w₂ := by
  obtain ⟨w₁, w₂, hrefused⟩ := Slice.refuse_read (env := env) (sl := sl.cutPend 0) (p := p') cause detail hitems hstage haddr hwait hroom htokens hrest
  obtain ⟨n, hing⟩ := hrefused.ing
  refine ⟨w₁, w₂, _, Slice.admitWaiting_none env ?_, hrefused⟩
  rw [hing]
  show sl.ing.pendq.eraseIdx 0 = []
  rw [hp]
  rfl

end Sys2Proof.Machine

open Sys2Proof Sys2Proof.Machine

/-- Settles O37: what passes the checks goes on in `admitOne`; what fails them is refused by `refuse`, its two writes under free IDs. -/
theorem descriptorsAndIndexesAreChecked : Obligations.DescriptorsAndIndexesAreChecked := by
  unfold Obligations.DescriptorsAndIndexesAreChecked
  intro refused
  refine ⟨fun s i sl p c bs hw hp hstage hlength hcause hc => ⟨fun hpass => ?_, fun hpass hactive hmapped hindex hact => ?_⟩,
    fun s i cause sl p bs hw hp hstage hitems hlength hcause haddr hwait hroom htokens hrest => ?_,
    fun s i sl p c es act detect ix hw hp hstage hact hne hdetect hes hix hc hstate hpass hactive hsmall hmissing => ?_,
    fun s i k q sl p es act detect hw hp hstage hitems hact hq hbefore hfails haddr hwait hroom htokens hrest => ?_⟩
  · obtain ⟨hvalid, hfault⟩ := descCause_none hcause hc
    refine exec_descriptorReadDone_does hw hp hstage hlength ?_ rfl rfl
    rw [hcause]
    refine Slice.admitWaiting_only ?_
    rw [Slice.admitOne_waiting rfl hc hvalid hfault, if_pos (by simp [hpass])]
  · obtain ⟨hvalid, hfault⟩ := descCause_none hcause hc
    refine exec_descriptorReadDone_does hw hp hstage hlength ?_ rfl rfl
    rw [hcause]
    refine Slice.admitWaiting_only ?_
    rw [Slice.admitOne_waiting rfl hc hvalid hfault, if_neg (by simp [hpass]), if_neg (by simpa using hact),
      if_neg (by rw [show (sl.view s.cap).isActive c.id = true from hactive]; decide), if_pos (by simp [hindex]), if_pos hmapped]
  · obtain ⟨w₁, w₂, t, he, hrefused⟩ := Slice.refuse_only (env := sl.view s.cap) (p' := { p with raw := bs, desc := descOf bs }) cause 0 hp hitems
      (by simp [hstage]) haddr hwait hroom htokens hrest
    obtain ⟨⟨n, hing⟩, ⟨hop₁, hcore₁, hdie₁, hoff₁, hdata₁⟩, hop₂, hcore₂, hdie₂, hoff₂, hdata₂⟩ := hrefused.only hp
    obtain ⟨hlt₁, hlt₂, hids⟩ := hrefused.ids
    refine ⟨t, w₁, w₂, n, exec_descriptorReadDone_does hw hp hstage hlength ?_ hrefused.pwr hrefused.mail, hing, hop₁, hcore₁, hdie₁, hoff₁, hdata₁,
      hlt₁, hop₂, hcore₂, hdie₂, hoff₂, hdata₂, hlt₂, hids⟩
    rw [hcause]
    exact he
  · obtain ⟨q, hq⟩ := List.exists_mem_of_ne_nil act hne
    have hpos : 0 < act.length := List.length_pos_of_mem hq
    have hsome : ix.isEmpty = false := by
      rw [hix]
      simp [indexed, hne]
    refine exec_indexReadDone_does hw hp hstage ?_ rfl rfl
    rw [← hact, readIndex_passes act es hdetect hes, ← hix]
    refine Slice.admitWaiting_only ?_
    rw [Slice.admitOne_waiting (p := { p with index := ix, stage := .waiting }) rfl hc (by simp [hstate]) (by simp [Ctx.faulted, hstate]), if_neg (by simp [hpass]),
      if_neg (by rw [← hact]; simpa using hne), if_neg (by rw [show (sl.view s.cap).isActive c.id = true from hactive]; decide),
      if_neg (by rw [hsome]; decide)]
    exact Slice.checkCask_reserves hsmall hmissing
  · obtain ⟨w₁, w₂, t, he, hrefused⟩ := Slice.refuse_only (env := sl.view s.cap) (if detect = some q then 0x0A else 0x08) q hp hitems
      (by simp [hstage]) haddr hwait hroom htokens hrest
    obtain ⟨⟨n, hing⟩, ⟨hop₁, hcore₁, hdie₁, hoff₁, hdata₁⟩, hop₂, hcore₂, hdie₂, hoff₂, hdata₂⟩ := hrefused.only hp
    obtain ⟨hlt₁, hlt₂, hids⟩ := hrefused.ids
    refine ⟨t, w₁, w₂, n, exec_indexReadDone_does hw hp hstage ?_ hrefused.pwr hrefused.mail, hing, hop₁, hcore₁, hdie₁, hoff₁, hdata₁,
      hlt₁, hop₂, hcore₂, hdie₂, hoff₂, hdata₂, hlt₂, hids⟩
    rw [← hact, readIndex_fails act es hq hbefore hfails]
    exact he
end

section
/-!
A batch on its way through ingress: its reservations, its records and ledger, its journal lines, and its entry in the batch table
(R150, R154, R155, R326, R338, R347, R500).
-/

namespace Sys2Proof.Machine

/-! ### Reservations (R154, R338) -/

/-- A reservation takes units of the slice's casks, and touches nothing else. -/
theorem Slice.reserveCask_only {sl t : Slice} {n : Nat} {c : Ctx} {items : List (CaskUse × Nat)} {got : List CaskItem}
    (h : sl.reserveCask n c items = some (got, t)) : t = { sl with store := { sl.store with casks := t.store.casks } } := by
  unfold Slice.reserveCask at h
  dsimp only at h
  split at h
  · next r hr =>
    obtain ⟨x, -, rfl⟩ := Option.map_eq_some_iff.mp hr
    cases h
    rfl
  · obtain ⟨x, -, hx⟩ := Option.map_eq_some_iff.mp h
    cases hx
    rfl

/-- Entries placed for queries take at most the granules asked for each, and nothing else of the store. -/
theorem Store.placeAll_spec (g kind home batch : Nat) (ix : List (Nat × Nat)) (st : Store) :
    ∃ es fr, ix.foldl (fun (st : Store) e => match st.place g kind home batch e.1 false with
      | some (_, st) => st
      | none => st) st = { st with entries := es, free := fr } ∧
      st.freeCount ≤ ({ st with entries := es, free := fr } : Store).freeCount + g * ix.length := by
  induction ix generalizing st with
  | nil => exact ⟨st.entries, st.free, rfl, Nat.le_refl _⟩
  | cons e ix ih =>
    rw [List.foldl_cons, List.length_cons, Nat.mul_succ]
    cases hplace : st.place g kind home batch e.1 false with
    | none =>
      obtain ⟨es, fr, he, hcount⟩ := ih st
      exact ⟨es, fr, he, by omega⟩
    | some x =>
      obtain ⟨first, st'⟩ := x
      obtain ⟨hfree, -, -⟩ := Store.place_spec hplace
      have honly : ∃ es fr, st' = { st with entries := es, free := fr } := by
        unfold Store.place at hplace
        split at hplace
        · cases hplace
        · cases hplace
          exact ⟨_, _, rfl⟩
      obtain ⟨es', fr', rfl⟩ := honly
      obtain ⟨es, fr, he, hcount⟩ := ih { st with entries := es', free := fr' }
      refine ⟨es, fr, he, ?_⟩
      have hcount' : ({ st with entries := es', free := fr' } : Store).freeCount ≤
        ({ st with entries := es, free := fr } : Store).freeCount + g * ix.length := hcount
      omega

/-- A batch whose granules are free has its entries, and its records are to be read. -/
theorem Slice.takeEntries_granted {sl : Slice} {c : Ctx} {p : Pend} (h : 16384 + granulesEach p.desc c * p.index.length ≤ sl.store.freeCount) :
    ∃ es fr, sl.takeEntries c p = ({ sl with store := { sl.store with entries := es, free := fr } }, { p with stage := .records }) ∧
      sl.store.freeCount ≤ ({ sl.store with entries := es, free := fr } : Store).freeCount + granulesEach p.desc c * p.index.length := by
  obtain ⟨es, fr, he, hcount⟩ := Store.placeAll_spec (granulesEach p.desc c) (match kindOf p.desc c with
    | some k => kindCode k
    | none => 8) sl.id p.handle p.index sl.store
  refine ⟨es, fr, ?_, hcount⟩
  unfold Slice.takeEntries
  dsimp only
  rw [if_neg (Nat.not_lt.mpr h)]
  exact congrArg (fun st => (({ sl with store := st } : Slice), ({ p with stage := .records } : Pend))) he

/-- With granules enough, and the Mash not spilling, none spills (R338). -/
theorem Slice.spillLow_none (env : Capstan) {sl : Slice} (h : 24576 ≤ sl.store.freeCount) (hspilling : sl.store.spilling = false) :
    sl.spillLow env = sl := by
  have hsame : ({ sl.store with spilling := false } : Store) = sl.store := by rw [← hspilling]
  unfold Slice.spillLow
  rw [if_neg (by simp [hspilling]; omega), hsame]

/-- The reservations of a batch that no loan and no journal entry holds back. -/
theorem Slice.tryGrant_grants {env : Capstan} {sl t : Slice} {c : Ctx} {p : Pend} {h : Nat} {items : List CaskItem} (hloans : env.loans = [])
    (hjournal : sl.ing.fromJournal = []) (hhandle : sl.freeHandle = some h)
    (hcask : sl.reserveCask env.n c (caskItems p.desc c p.index) = some (items, t)) :
    sl.tryGrant env c p = some (t.takeEntries c { p with items := items, handle := h }) := by
  have howes : owesBlocks env sl c = false := by
    unfold owesBlocks
    rw [hloans]
    rfl
  unfold Slice.tryGrant
  rw [if_neg (by simp [howes, hjournal]), hhandle, hcask]

/-- Ingress serves the only batch that waits for its reservations, once they can be granted (R155). -/
theorem Slice.nextGrant_only {env : Capstan} {sl : Slice} {c : Ctx} {p : Pend} {x : Slice × Pend} (hp : sl.ing.pendq = [p])
    (hstage : p.stage = .reserve) (hc : env.ctx? p.desc.ctx = some c) (hgrant : sl.tryGrant env c p = some x) : sl.nextGrant env = some 0 := by
  unfold Slice.nextGrant
  dsimp only
  rw [hp]
  simp [indexed, hstage, hc, hgrant, sortBy, insertBy]

theorem Slice.admitOne_records (env : Capstan) (earlier : List Pend) (sl : Slice) {p : Pend} (h : p.stage = .records) :
    sl.admitOne env earlier p = (sl, some p) := by
  unfold Slice.admitOne
  rw [if_neg (by simp [h]), if_pos (by simp [h])]

/-- The end of a loan of which there was none is the only thing told: it changes nothing. -/
theorem deliver_noLoan {s : State} {i slice ctx core b : Nat} {t : Slice} (hi : i < s.slices.length) (h : s.settled) (hdecides : s.decides)
    (hloans : s.cap.loans = []) (hmail : t.mail = [.loan slice ctx core b 0]) : deliver (s.put i t) i = s.put i { t with mail := [] } := by
  obtain ⟨-, hrestart, hfailed⟩ := hdecides
  have hcap : ({ s.cap with loans := [] } : Capstan) = s.cap := by rw [← hloans]
  have hread : (s.put i t).readMail i = s.put i { t with mail := [] } := by
    simp [State.readMail, State.put, hi, hmail, State.notify, Notice.toCapstan, hrestart, hfailed, State.capTakes, hloans, State.onCap, hcap]
  unfold deliver
  rw [hread, deliverAll_settled]
  exact s.settled_put i { t with mail := [] } h rfl

/-- The slice of a batch that has its reservations. -/
def Slice.reserved (sl : Slice) (p : Pend) (ms : List Notice) : Slice := { sl with ing := { sl.ing with pendq := [p] }, mail := ms }

theorem exec_reservationsGranted_grants {s : State} {i : Nat} {sl x : Slice} {p p' : Pend} {c : Ctx} (hw : s.working i sl) (hdecides : s.decides)
    (hp : sl.ing.pendq = [p]) (hstage : p.stage = .reserve) (hc : (sl.view s.cap).ctx? p.desc.ctx = some c) (hloans : s.cap.loans = [])
    (hgrant : sl.tryGrant (sl.view s.cap) c p = some (x, p')) (hstage' : p'.stage = .records) (hing : x.ing = sl.ing) (hmail : x.mail = sl.mail)
    (hpwr : x.pwr = sl.pwr) (hfree : 24576 ≤ x.store.freeCount) (hspilling : x.store.spilling = false) :
    exec (.reservationsGranted i 0) s = .next (s.put i (x.reserved p' [])) := by
  have hlt : i < s.slices.length := (List.getElem?_eq_some_iff.mp hw.1).1
  have hnone : sl.mail = [] := s.mail_of i sl hw.1 hw.2.2.2
  have htold : (x.setPend 0 p').tellLoan p' 0 = x.reserved p' [.loan x.id p'.desc.ctx (p'.die * 512 + p'.core) p'.desc.batchId 0] := by
    rw [Slice.setPend_only (p := p) (by rw [hing]; exact hp)]
    unfold Slice.tellLoan Slice.tell Slice.withPend Slice.reserved
    dsimp only
    rw [hmail, hnone]
    rfl
  have hadmits : (x.reserved p' [.loan x.id p'.desc.ctx (p'.die * 512 + p'.core) p'.desc.batchId 0]).admitWaiting (sl.view s.cap) =
      x.reserved p' [.loan x.id p'.desc.ctx (p'.die * 512 + p'.core) p'.desc.batchId 0] :=
    Slice.admitWaiting_only (sl := { x with mail := [.loan x.id p'.desc.ctx (p'.die * 512 + p'.core) p'.desc.batchId 0] })
      (Slice.admitOne_records _ _ _ hstage')
  rw [exec_reservationsGranted, execReservationsGranted,
    onLive_delivers (t := x.reserved p' [.loan x.id p'.desc.ctx (p'.die * 512 + p'.core) p'.desc.batchId 0]) hw,
    deliver_noLoan hlt hw.2.2.2 hdecides hloans rfl]
  · rfl
  · rw [if_neg (by simp [Slice.nextGrant_only hp hstage hc hgrant]), Slice.pendAt_only hp hstage]
    dsimp only
    rw [hc, Option.bind_some, hgrant]
    dsimp only
    rw [htold, Slice.spillLow_none, hadmits]
    · exact hfree
    · exact hspilling
  · exact (congrArg SlicePower.napping hpwr).trans hw.2.2.1

/-! ### The ledger (R347, R374) -/

/-- What producers change of a slice: its stream unit, its slice cache and counters. -/
def Slice.Produces (sl t : Slice) : Prop := t = { sl with str := t.str, cache := t.cache, cnt := t.cnt }

theorem Slice.Produces.trans {a b c : Slice} (h : a.Produces b) (k : b.Produces c) : a.Produces c := by
  unfold Slice.Produces at *
  rw [k, h]

/-- What producers leave alone. -/
theorem Slice.Produces.keeps {a b : Slice} (h : a.Produces b) :
    b.ing = a.ing ∧ b.store = a.store ∧ b.mash = a.mash ∧ b.pwr = a.pwr ∧ b.mail = a.mail := by
  unfold Slice.Produces at h
  rw [h]
  exact ⟨rfl, rfl, rfl, rfl, rfl⟩

theorem Slice.tryAppend_produces {env : Capstan} {sl t : Slice} {q : Queued} (h : sl.tryAppend env q = some t) : sl.Produces t := by
  unfold Slice.tryAppend at h
  split at h
  · cases h
    rfl
  · split at h
    · cases h
    · split at h
      · cases h
        rfl
      · split at h
        · cases h
        · split at h
          · cases h
          · cases h
            rfl

theorem placeQueued_produces (env : Capstan) (qs late : List Queued) (sl : Slice) : sl.Produces (placeQueued env qs late sl) := by
  induction qs generalizing late sl with
  | nil => rfl
  | cons q qs ih =>
    unfold placeQueued
    split
    · exact ih _ sl
    · split
      · next t ht => exact (Slice.tryAppend_produces ht).trans (ih _ t)
      · exact ih _ sl

theorem Slice.writeLedger_produces (env : Capstan) (sl : Slice) (c : Ctx) (handle : Nat) (items : List CaskItem) (bytes : List Byte) :
    sl.Produces (sl.writeLedger env c handle items bytes) := by
  unfold Slice.writeLedger Slice.produce
  exact Slice.Produces.trans (b := { sl with str := { sl.str with
    queued := sl.str.queued ++ pieceBlocks (ledgerStream handle) c.id 3 (.ledger handle) (ledgerPieces c items) bytes } }) rfl
    (placeQueued_produces env _ _ _)

/-- The records of the only batch are there and pass: its ledger is written. -/
theorem Slice.recordsRead_passes {env : Capstan} {sl : Slice} {p : Pend} {c : Ctx} {recs : List (List Byte × List Byte)} {detect : Option Nat}
    {qs : List Query} {ms : List (Nat × List Byte)} (hp : sl.ing.pendq = [p]) (hstage : p.stage = .records) (hc : env.ctx? p.desc.ctx = some c)
    (hread : readRecords sl.id p.handle p.desc c detect (p.index.map (·.1)) recs = .ok (qs, ms)) :
    sl.recordsRead env 0 recs detect = (sl.withPend { p with stage := .ledger, admitted := qs, maint := ms }).writeLedger env c p.handle p.items
      (ledgerBytes p.raw p.desc c p.mask p.index recs) := by
  unfold Slice.recordsRead
  rw [Slice.pendAt_only hp hstage]
  dsimp only
  rw [hc]
  dsimp only
  rw [hread]
  dsimp only
  rw [Slice.setPend_only hp]

/-! ### The journal (R500) -/

/-- The write of a journal line joins those under way; its data goes by the slice cache. -/
theorem Slice.writeJournal_only (env : Capstan) (sl : Slice) (c : Ctx) (id k line : Nat) (e : JEntry) (handle settles : Option Nat) :
    ∃ ca n, sl.writeJournal env c id k line e handle settles = { sl with
      ing := { sl.ing with jwrites := sl.ing.jwrites ++
        [{ ctx := c.id, addr := journalAddr env.n id c k line, handle := handle, jstate := e.jstate, acked := e.acked, settles := settles }] }
      cache := ca, cnt := n } := by
  unfold Slice.writeJournal
  dsimp only
  exact ⟨_, _, Slice.writeLine_onlyCache env _ _ _ _ _ _ _⟩

/-- The write of a line of a LEDGERED entry. -/
def ledgeredLine (n id : Nat) (c : Ctx) (e : JEntry) (handle k : Nat) : JWrite :=
  { ctx := c.id, addr := journalAddr n id c handle k, handle := some handle, jstate := e.jstate, acked := e.acked, settles := none }

/-- The writes of the lines of an entry, in order. -/
theorem Slice.journalLines_only (env : Capstan) (c : Ctx) (handle : Nat) (e : JEntry) (ks : List Nat) (sl : Slice) :
    ∃ ca n, ks.foldl (fun (sl : Slice) i => sl.writeJournal env c sl.id handle i e (some handle) none) sl = { sl with
      ing := { sl.ing with jwrites := sl.ing.jwrites ++ ks.map (ledgeredLine env.n sl.id c e handle) }, cache := ca, cnt := n } := by
  induction ks generalizing sl with
  | nil => exact ⟨sl.cache, sl.cnt, by rw [List.foldl_nil, List.map_nil, List.append_nil]⟩
  | cons k ks ih =>
    obtain ⟨ca, n, hfirst⟩ := sl.writeJournal_only env c sl.id handle k e (some handle) none
    obtain ⟨ca', n', hrest⟩ := ih { sl with
      ing := { sl.ing with jwrites := sl.ing.jwrites ++ [ledgeredLine env.n sl.id c e handle k] }, cache := ca, cnt := n }
    refine ⟨ca', n', ?_⟩
    rw [List.foldl_cons, hfirst]
    refine hrest.trans ?_
    simp only [List.map_cons, List.append_assoc, List.cons_append, List.nil_append]

/-- With no batch in the table and no proxy reading a ledger, a moved line goes to no area and to no reading. -/
theorem Slice.settleMoved_none (env : Capstan) {sl : Slice} (hbatches : sl.ing.batches = []) (hadopt : ∀ a ∈ sl.ing.adopting, a.reading = none) :
    (sl.ing.batches.foldl (fun sl b => sl.areaMoved env b.handle) sl).ledgersMoved env = sl := by
  have hnone : sl.ing.batches.foldl (fun sl b => sl.areaMoved env b.handle) sl = sl := by rw [hbatches]; rfl
  have hreading : sl.ing.adopting.filter (fun a => a.reading.isSome) = [] := List.filter_eq_nil_iff.mpr fun a ha => by simp [hadopt a ha]
  rw [hnone]
  unfold Slice.ledgersMoved
  dsimp only
  rw [show sl.ing.batches.filter (fun b => b.reading.isSome) = [] by rw [hbatches]; rfl, List.foldl_nil, hreading, List.foldl_nil]

/-- What a moved line sets going at a slice of which only the ledger of its one batch waits: its journal lines are written. -/
theorem Slice.cacheMoved_journals {env : Capstan} {sl : Slice} {p : Pend} {c : Ctx} (hp : sl.ing.pendq = [p]) (hstage : p.stage = .ledger)
    (hc : env.ctx? p.desc.ctx = some c) (hwritten : sl.ledgerUnwritten c p.handle p.items = false) (hwaiting : sl.cache.waiting = [])
    (hruns : sl.work.runs = []) (hqueued : sl.str.queued = []) (hmaps : sl.store.maps = []) (hbatches : sl.ing.batches = [])
    (hadopt : ∀ a ∈ sl.ing.adopting, a.reading = none) (hleaving : ∀ x ∈ sl.rope.ports, x.leaving = []) :
    ∃ ca n, sl.cacheMoved env = { sl with
      ing := { sl.ing with
        pendq := [{ p with stage := .journal }]
        jwrites := sl.ing.jwrites ++ (List.range 4).map (ledgeredLine env.n sl.id c (p.entry .ledgered) p.handle) }
      cache := ca, cnt := n } := by
  have hretry : sl.retryAll env = sl := by
    have hwait : sl.retryWaiting env = sl := by
      unfold Slice.retryWaiting
      rw [hwaiting, List.foldl_nil, ← hwaiting]
    unfold Slice.retryAll
    rw [hwait, Slice.retryRuns_none env hruns]
    exact foldl_still _ _ _ fun e he => by rw [hleaving e.2 (mem_indexed he), List.foldl_nil]
  have hfeed : sl.feedAll env = sl := by
    unfold Slice.feedAll
    rw [Slice.placeWaiting_nothing env sl hqueued, hbatches]
    rfl
  have hwrite : sl.writeMaps env = sl := by
    unfold Slice.writeMaps
    rw [hmaps, List.foldl_nil]
  obtain ⟨ca, n, hlines⟩ := Slice.journalLines_only env c p.handle (p.entry .ledgered) [0, 1, 2, 3] (sl.withPend { p with stage := .journal })
  have hjournal : sl.journalLedgers env = { sl with
      ing := { sl.ing with
        pendq := [{ p with stage := .journal }]
        jwrites := sl.ing.jwrites ++ (List.range 4).map (ledgeredLine env.n sl.id c (p.entry .ledgered) p.handle) }
      cache := ca, cnt := n } := by
    have hone : indexed sl.ing.pendq = [(0, p)] := by rw [hp]; rfl
    unfold Slice.journalLedgers
    rw [hone, List.foldl_cons, List.foldl_nil]
    unfold Slice.journalLedger
    dsimp only
    rw [hc]
    dsimp only
    rw [if_neg (by simp [hstage, hwritten]), hp, List.set_cons_zero]
    exact hlines
  refine ⟨ca, n, ?_⟩
  unfold Slice.cacheMoved
  rw [hretry, hfeed, hwrite, hjournal]
  exact Slice.settleMoved_none env (sl := { sl with
    ing := { sl.ing with
      pendq := [{ p with stage := .journal }]
      jwrites := sl.ing.jwrites ++ (List.range 4).map (ledgeredLine env.n sl.id c (p.entry .ledgered) p.handle) }
    cache := ca, cnt := n }) hbatches hadopt

/-- An acknowledged write without poison, the first of its line. -/
theorem Slice.evictAck_moves {env : Capstan} {sl : Slice} {k : Nat} {e : Evict} (h : sl.cache.evict[k]? = some e)
    (hfirst : sl.cache.firstOfLine k = true) (hpoison : e.poison = []) :
    sl.evictAck env k .ok = ((sl.acked k).count 0x703 0x11 none 0).cacheMoved env := by
  unfold Slice.evictAck
  rw [h]
  dsimp only
  rw [if_pos hfirst, Slice.readEntry, hpoison]
  dsimp only [Slice.countDecode]
  rw [if_neg (by decide)]
  rfl

/-! ### The batch is taken (R142, R150, R326) -/

/-- What writes at the mesh port change of a slice: the port, and the transfers of its streams. -/
def Slice.OnlyMesh (sl t : Slice) : Prop :=
  t = { sl with
    ing := { sl.ing with meshWait := t.ing.meshWait, meshOut := t.ing.meshOut, nextId := t.ing.nextId, unsettled := t.ing.unsettled }
    str := t.str }

theorem Slice.OnlyMesh.trans {a b c : Slice} (h : a.OnlyMesh b) (k : b.OnlyMesh c) : a.OnlyMesh c := by
  unfold Slice.OnlyMesh at *
  rw [k, h]

theorem Slice.issueMesh_onlyMesh (sl : Slice) (w : MeshWrite) : sl.OnlyMesh (sl.issueMesh w) := by
  unfold Slice.issueMesh Slice.startTransfer
  dsimp only
  split <;> split <;> rfl

theorem leaveAll_onlyMesh (ws late : List MeshWrite) (sl : Slice) : sl.OnlyMesh (leaveAll ws late sl) := by
  induction ws generalizing late sl with
  | nil => rfl
  | cons w ws ih =>
    unfold leaveAll
    split
    · exact (sl.issueMesh_onlyMesh w).trans (ih late _)
    · exact ih _ sl

theorem Slice.issueCompl_onlyMesh (sl : Slice) (w : MeshWrite) : sl.OnlyMesh (sl.issueCompl w) :=
  Slice.OnlyMesh.trans (b := { sl with ing := { sl.ing with meshWait := sl.ing.meshWait ++ [w] } }) rfl (leaveAll_onlyMesh _ _ _)

/-- The message that brings a maintenance descriptor to a slice. -/
def Slice.maintNotice (sl : Slice) (p : Pend) (e : Nat × List Byte) : RopeMsg :=
  { src := sl.id, dest := sl.id, epoch := sl.rope.epoch, body := .maintDesc (maintMsg sl.id p.handle p.desc e) }

/-- Where the home is the only live slice a maintenance descriptor goes to it alone (R326). -/
theorem Slice.sendMaint_home {env : Capstan} {sl : Slice} (m : MaintMsg) (hlive : env.ids.filter env.isLive = [sl.id]) :
    sl.sendMaint env m = { sl with
      ing := { sl.ing with maintOut := sl.ing.maintOut ++ [{ msg := m, acks := [] }] }
      mail := sl.mail ++ [.send { src := sl.id, dest := sl.id, epoch := sl.rope.epoch, body := .maintDesc m }] } := by
  unfold Slice.sendMaint
  dsimp only
  rw [hlive, List.foldl_cons, List.foldl_nil]
  exact if_pos rfl

/-- A MAINT batch of one descriptor that is admitted where the home is the only live slice. -/
theorem Slice.admitBatch_maint {env : Capstan} {sl : Slice} (c : Ctx) {p : Pend} {e : Nat × List Byte} (hadmitted : p.admitted = [])
    (hmaint : p.maint = [e]) (hlive : env.ids.filter env.isLive = [sl.id]) :
    ∃ t, sl.admitBatch env c p = t ∧ t.pwr = sl.pwr ∧ t.ing.pendq = sl.ing.pendq ∧
      t.ing.takenOut = sl.ing.takenOut ++ [(p.die, p.core, p.desc.batchId)] ∧ t.ing.batches = sl.ing.batches ++ [p.toBatch] ∧
      t.mail = sl.mail ++ [.send (sl.maintNotice p e)] := by
  have hissue := Slice.issueCompl_onlyMesh { sl with ing := { sl.ing with batches := sl.ing.batches ++ [p.toBatch] } }
    (p.toBatch.write p.toBatch.desc.compl .addU32 (tagOf p.toBatch.desc.batchId seqTaken) (toLe 4 p.toBatch.active) .taken)
  have hnone : withSlots c p.desc p.items p.admitted = [] := by rw [hadmitted]; rfl
  refine ⟨_, rfl, ?_⟩
  unfold Slice.admitBatch Slice.takeBatch
  dsimp only
  generalize Slice.issueCompl _ _ = x at hissue ⊢
  unfold Slice.OnlyMesh at hissue
  rw [hnone, hmaint, hissue]
  unfold Slice.releaseBatch
  dsimp only [List.foldl_cons, List.foldl_nil]
  rw [Slice.sendMaint_home _ (by exact hlive)]
  exact ⟨rfl, rfl, rfl, rfl, rfl⟩

/-- The journal lines of the only batch have settled: it is admitted. -/
theorem Slice.ledgerDone_admits {env : Capstan} {sl : Slice} {p : Pend} {c : Ctx} (hp : sl.ing.pendq = [p]) (hstage : p.stage = .journal)
    (hc : env.ctx? p.desc.ctx = some c) (hfaulted : c.faulted = false) (hsettled : sl.unsettledLine p.handle = false) :
    sl.ledgerDone env 0 = ((sl.cutPend 0).admitBatch env c p).admitWaiting env := by
  unfold Slice.ledgerDone
  rw [Slice.pendAt_only hp hstage]
  dsimp only
  rw [hc]
  dsimp only
  rw [if_neg (by simp [behind, hsettled]), if_neg (by simp [hfaulted])]

end Sys2Proof.Machine

open Sys2Proof Sys2Proof.Machine

/-- Settles O38: what a batch meets on its way, in order. Its granules are counted by the free ones that are left, so that none spills; its
records and journal lines leave the rest of ingress alone; the batch's descriptor goes to the one live slice, its home. -/
theorem batchesAreAdmitted : Obligations.BatchesAreAdmitted := by
  unfold Obligations.BatchesAreAdmitted
  refine ⟨?_, ?_, ?_, ?_⟩
  · intro s i h sl sl₁ p c items hw hdecides hp hstage hc hjournal hhandle hcask hroom hspilling hloans
    have honly := Slice.reserveCask_only hcask
    have hcount : sl₁.store.freeCount = sl.store.freeCount := by rw [honly]; rfl
    obtain ⟨es, fr, htake, hleft⟩ := Slice.takeEntries_granted (sl := sl₁) (c := c) (p := { p with items := items, handle := h })
      (by rw [hcount]; dsimp only; omega)
    have hgrant := Slice.tryGrant_grants (env := sl.view s.cap) hloans hjournal hhandle hcask
    rw [htake] at hgrant
    have hlt : i < s.slices.length := (List.getElem?_eq_some_iff.mp hw.1).1
    refine ⟨_, Slice.reserved { sl₁ with store := { sl₁.store with entries := es, free := fr } }
      { p with stage := .records, items := items, handle := h } [],
      exec_reservationsGranted_grants hw hdecides hp hstage hc hloans hgrant rfl ?_ ?_ ?_ ?_ ?_, ?_, ?_, rfl, rfl, ?_, rfl⟩
    · rw [honly]
    · rw [honly]
    · rw [honly]
    · dsimp only at hleft ⊢
      rw [hcount] at hleft
      omega
    · rw [honly]
      exact hspilling
    · simp [State.put, hlt]
    · unfold Slice.reserved
      rw [honly]
    · rw [htake]
      rfl
  · intro s i sl p c recs detect qs ms hw hp hstage hc hread
    have hpasses := Slice.recordsRead_passes (env := sl.view s.cap) hp hstage hc hread
    obtain ⟨hing, hstore, hmash, hpwr, hmail⟩ := (Slice.writeLedger_produces (sl.view s.cap)
      (sl.withPend { p with stage := .ledger, admitted := qs, maint := ms }) c p.handle p.items
      (ledgerBytes p.raw p.desc c p.mask p.index recs)).keeps
    refine ⟨_, ?_, rfl, hing, hstore, hmash⟩
    rw [exec_recordsReadDone, execRecordsReadDone]
    exact onLive_eq hw hpasses (congrArg SlicePower.napping hpwr) hmail
  · intro s i sl p c e hw hp hstage hc hevict hpoison hwaiting hmisses hruns hqueued hunder hmaps hbatches hadopt hleaving line
    have hmoves := Slice.evictAck_moves (env := sl.view s.cap) (sl := sl) (k := 0) (e := e) (by rw [hevict]; rfl)
      (by simp [Cache.firstOfLine, hevict]) hpoison
    obtain ⟨ca, n, hjournals⟩ := Slice.cacheMoved_journals (env := sl.view s.cap) (sl := (sl.acked 0).count 0x703 0x11 none 0) (p := p) hp hstage
      hc (by simp [Slice.ledgerUnwritten, Slice.acked, Slice.count, Cache.freeEvict, hevict, hunder, hwaiting, hmisses])
      hwaiting hruns hqueued hmaps hbatches hadopt hleaving
    rw [hjournals] at hmoves
    obtain ⟨t, ht, hnap, hmail, hing, hstore, hmash⟩ : ∃ t, sl.evictAck (sl.view s.cap) 0 .ok = t ∧ t.pwr.napping = sl.pwr.napping ∧
        t.mail = sl.mail ∧ t.ing = { sl.ing with
          pendq := [{ p with stage := .journal }], jwrites := sl.ing.jwrites ++ (List.range 4).map line } ∧
        t.store = sl.store ∧ t.mash = sl.mash := ⟨_, hmoves, rfl, rfl, rfl, rfl, rfl⟩
    refine ⟨t, ?_, hing, hstore, hmash⟩
    rw [exec_evictionWriteAck, execEvictionWriteAck]
    exact onLive_eq hw ht hnap hmail
  · rintro s _ q sl p c bs hw rfl hp hstage hadmitted hmaint hc hfaulted hlive hsettled
    have hlt : sl.id < s.slices.length := (List.getElem?_eq_some_iff.mp hw.1).1
    have hcut : (sl.cutPend 0).ing.pendq = [] := by unfold Slice.cutPend; rw [hp]; rfl
    obtain ⟨t, ht, hpwr, hpendq, htaken, hbatch, hmail⟩ :=
      Slice.admitBatch_maint (env := sl.view s.cap) (sl := sl.cutPend 0) c hadmitted hmaint hlive
    have hdone := Slice.ledgerDone_admits hp hstage hc hfaulted hsettled
    rw [ht, Slice.admitWaiting_none _ (hpendq.trans hcut)] at hdone
    have hexec : exec (.ledgerAcknowledged sl.id 0) s = .next { s.put sl.id { t with mail := [] } with
        rope := s.rope ++ [(sl.cutPend 0).maintNotice p (q, bs)] } := by
      rw [exec_ledgerAcknowledged, execLedgerAcknowledged]
      exact onLive_sends hw hdone hpwr (by rw [hmail]; exact congrArg (· ++ _) (s.mail_of sl.id sl hw.1 hw.2.2.2))
    exact ⟨_, { t with mail := [] }, p.toBatch, hexec, by simp [State.put, hlt], hpendq.trans hcut, htaken, hbatch, rfl, rfl, rfl, rfl, rfl, rfl⟩

end

section
/-!
A tile's end whose outputs raise an event while the Capstan restarts and the slice holds all the records it may (R272, R298, R512).
-/

namespace Sys2Proof.Machine

/-- The number of notices that wait for the Capstan after a command. -/
def waitingAfter : Out' → Nat
  | .next t => t.cap.hl.waiting.length
  | _ => 0

/-- The engine of `oneWayCap` as its Capstan restarts. -/
def restartingCap : Capstan := { oneWayCap with hl := { oneWayCap.hl with restarting := some 0 } }

/-- A score node's job with a row and two N-blocks, the first of which has run its one step. -/
def nanJob : Job :=
  { id := 0, ctx := 0, walker := 0, obj := 0x1000
    kind := .score { rows := { fmt := .e4m3, n := 129, dim := 128, scale := 0x3F800000, block := 0x1100, bias := 0 }
                     topkMin := false, f := 0, gate := 0, children := 129, thresh := 0 } []
    rows := [blankQuery 0 0 0 0 0 0 .key], waiting := [], layer := 0, replay := [none], hist := []
    tiles := [{ newTile 0 0 with
                st := .running 1, arrs := [0]
                accs := [.exact { emptyAcc with qnan := true, flags := flagInv } :: List.replicate 127 (.exact emptyAcc)] },
              { newTile 0 1 with st := .running 0, arrs := [1], accs := [[.exact emptyAcc]] }] }

/-- A record held while the Capstan restarts. -/
def heldRecord : OutRec :=
  { head := some { code := 0x4001, time := 0, slice := 0, capstan := false, held := true, data := [] }, tail := none, irq := none, arith := none }

/-- The slice that runs the job on its lay 0 and holds 64 records. -/
def fullOutboxSlice : Slice :=
  { resetSlice 0 with outbox := List.replicate 64 heldRecord, work := { (resetSlice 0).work with jobs0 := [nanJob] } }

def fullOutboxState : State := { State.reset with cap := restartingCap, slices := [fullOutboxSlice] }

/-- The last part's hypotheses hold of it, for the job's first tile. -/
theorem fullOutboxState_ends (t u : Tile) (h : nanJob.tiles = [t, u]) : fullOutboxState.working 0 fullOutboxSlice ∧
    fullOutboxSlice.jobs 0 = [nanJob] ∧ fullOutboxSlice.jobs (1 - 0) = [] ∧ t.st = .running (nanJob.steps t.layer) ∧ u.st = .running 0 ∧
    fullOutboxSlice.badLines 0 nanJob t = [] ∧ fullOutboxSlice.work.reserving = none ∧ fullOutboxSlice.calm := by
  cases h
  decide +kernel

/-- The record of the event is the 65th: it is dropped, of which the Capstan is told. -/
theorem fullOutboxState_drops : waitingAfter (exec (.tileComplete 0 0 nanJob.id 0 []) fullOutboxState) = 1 := by decide +kernel

end Sys2Proof.Machine

open Sys2Proof Sys2Proof.Machine

/-- Refutes O42: the last part fails at `fullOutboxState`. The outputs of the tile raise an event, whose record the slice cannot hold for the
Capstan that restarts; that it is dropped waits for the Capstan, so more than the slice has changed. -/
theorem not_runsAndTilesGoOn : ¬ Obligations.RunsAndTilesGoOn := by
  unfold Obligations.RunsAndTilesGoOn
  rintro ⟨-, -, -, -, hends⟩
  obtain ⟨hworking, hjobs, hother, hsteps, hzero, hbad, hreserving, hcalm⟩ := fullOutboxState_ends _ _ rfl
  obtain ⟨sl', hexec, -⟩ := hends fullOutboxState 0 0 fullOutboxSlice nanJob _ _ hworking (by decide) hjobs hother rfl hsteps hzero hbad
    hreserving hcalm
  have hdrops := fullOutboxState_drops
  rw [hexec] at hdrops
  have hsilent : waitingAfter (.next (fullOutboxState.put 0 sl')) = 0 := rfl
  exact absurd (hsilent.symm.trans hdrops) Nat.zero_ne_one

end
